-- ==== Sys2Proof/Word.lean ====
section
/-! DEFINITION. The word types of the FX6448 model. -/

namespace Sys2Proof

/-- A byte of a store, a flit, a frame, a descriptor. -/
abbrev Byte := BitVec 8

/-- A 32-bit word, the bits of a binary32 value or of a 32-bit register. -/
abbrev Word := BitVec 32

/-- A 64-bit word: a 64-bit register, a slot of a bundle. -/
abbrev DWord := BitVec 64

end Sys2Proof
end

