-- ==== Sys2Proof/Syntax.lean ====
section
/-! DEFINITION. The commands of the FX6448: one constructor per row of spec/opcode_table.json.
Every constructor's first operand `dt` is the time in nanoseconds since the command before it (log 3). -/

namespace Sys2Proof

/-- The three clock sources of Table CLK-1. -/
inductive ClockSource where
  | loc | hostref | recov
  deriving DecidableEq, Repr

/-- What a clock monitor counted in one 10 µs window (R359): the deviation of the edge count from nominal, in
ppm of the reference the source is judged against; `none` where no edge arrived. -/
abbrev EdgeCount := Option Int

/-- The two sides of an asynchronous crossing (R377): the clocked side and the clockless side. -/
inductive Side where
  | clocked | clockless
  deriving DecidableEq, Repr

/-- The clocked islands of Table ARC-4: the control network at a die, the HBM4 and ONFI PHYs of a hub, the near and far
SerDes of a link die, the PCIe port and the admission logic of L0, the logic of K0 and of K1. A command names one with its
die. -/
inductive Island where
  | control | hbmPhy | onfiPhy | near | far | pcie | admission | k0 | k1
  deriving DecidableEq, Repr

/-- The stores that report ECC errors, numbered as detail byte 32 of UNCORRECTABLE (Table EVT-5), and the unit state of rows 3, 4 and 6 of
Table EVT-6. -/
inductive Store where
  | stockSram | instrSram | accumulator | awlBuffer | hbm
  /-- hub translation, ring or wear state -/
  | hubState
  /-- Welt, Skiver, routing or flow state of a link die -/
  | linkState
  /-- management processor, security block, ring engine, Fitter or K1 retention -/
  | moduleState
  deriving DecidableEq, Repr

/-- One telemetry sample of K1 (Table PWB-3). Temperatures in 1/16 °C. -/
structure Telemetry where
  milliVolts : Nat
  centiAmps : Nat
  msDw : Nat
  secDw : Nat
  temps : List Int
  vcores : List Nat
  inlet : Int
  outlet : Int
  deriving DecidableEq, Repr

/-- What a read of an identity memory gives (R398, Table PWB-9). -/
inductive IdRead where
  /-- the memory did not answer -/
  | fail
  /-- it answered and its checksum or format is wrong -/
  | bad
  /-- CMIS media type, length byte 202, host application; vendor, part and serial text of 16 bytes; 8 extra bytes -/
  | data (media lenCode app : Byte) (vendor part serial extra : List Byte)
  deriving DecidableEq, Repr

/-- The commands. -/
inductive Instr where
  /-- DOORBELL_POLL (R337): Every HIF_POLL.NS the ring engine reads each enabled ring's doorbell record and takes new descriptors when the CQ has room. -/
  | doorbellPoll (dt : Nat)
  /-- MIRROR_WRITE (R428): A host write to a ring's doorbell mirror field updates sq_tail or cq_head and is seen by the ring engine within 200 ns. -/
  | mirrorWrite (dt : Nat) (off : Nat) (wide : Bool) (v : DWord)
  /-- RING_ENABLE (R340): Writing RING_CTRL.EN = 1 checks the ring registers and brings the ring ON or to CFG_ERR. -/
  | ringEnable (dt : Nat) (ring : Nat) (v : Word)
  /-- RING_DISABLE (R340): Writing RING_CTRL.EN = 0 stops taking descriptors, discards untaken ones and drains outstanding items. -/
  | ringDisable (dt : Nat) (ring : Nat) (v : Word)
  /-- FUNCTION_LEVEL_RESET (R341): A function-level reset turns every ring OFF, resets ring registers and orphans records of running items. -/
  | functionLevelReset (dt : Nat)
  /-- D3HOT_ENTRY (R341): Entering D3hot stops the ring engine taking descriptors and holds records. -/
  | d3hotEntry (dt : Nat)
  /-- D0_RETURN (R341): Returning to D0 writes held records in order and resumes taking descriptors. -/
  | d0Return (dt : Nat)
  /-- ITEM_COMPLETION (R315): When an item's last effect is done, the ring engine writes its COMPLETE record with the completion instant. -/
  | itemCompletion (dt : Nat) (item : Nat)
  /-- PROMISE_BREACH (R330): At T_p an item neither complete nor voided is breached, counted, and its governing die's guard is doubled. -/
  | promiseBreach (dt : Nat) (item : Nat)
  /-- COAL_TIMER (R357): COAL_US after the first unsignalled counted record, the ring's MSI-X vector fires. -/
  | coalTimer (dt : Nat) (ring : Nat)
  /-- HOST_COPY_TO_MODULE (R346): HOST_COPY direction 0 copies host bytes into HBM or stock SRAM without a promise. -/
  | hostCopyToModule (dt : Nat)
  /-- HOST_COPY_TO_HOST (R346): HOST_COPY direction 1 copies module bytes to host memory without a promise. -/
  | hostCopyToHost (dt : Nat)
  /-- PROG_LOAD (R136): Checks a program image on every named die, then loads instruction SRAM and resets semaphores and tiles. -/
  | progLoad (dt : Nat)
  /-- PROG_START (R137): Admits a gang and moves each die to RUNNING at a common T_s, selecting version slots by PIN. -/
  | progStart (dt : Nat)
  /-- UPDATE_STEP (R175): Admits an update run of a step on one die over a list of plan records. -/
  | updateStep (dt : Nat)
  /-- UPDATE_REBASE (R186): Admits a rebase that moves every trainable element onto the new anchor. -/
  | updateRebase (dt : Nat)
  /-- UPDATE_DELTA (R184): Admits formation of the outer delta of owned shards against the anchor. -/
  | updateDelta (dt : Nat)
  /-- UPDATE_REBUILD (R219): Admits a working-copy rebuild that runs only steps 6 and 8 of Sequence COB-1. -/
  | updateRebuild (dt : Nat)
  /-- UPDATE_LAZY (R213): Admits a lazy update run over resident units with their reduced gradients. -/
  | updateLazy (dt : Nat)
  /-- UPDATE_ROLLFWD (R192): Rolls forward a journal header left OPEN, record by record. -/
  | updateRollfwd (dt : Nat)
  /-- REDUCE (R238): Admits a reduce-scatter of a bucket around its ring with a cutoff. -/
  | reduce (dt : Nat)
  /-- COPY (R246): Admits a copy of a byte range to another module of the site in COPY messages. -/
  | copy (dt : Nat)
  /-- FLASH_READ (R204): Admits a flash request that reads blocks of one channel into HBM. -/
  | flashRead (dt : Nat)
  /-- FLASH_WRITE (R205): Admits an atomic flash request that writes HBM bytes to blocks of one channel. -/
  | flashWrite (dt : Nat)
  /-- PAGE_IN (R211): Pins listed lazy units and issues READs into free row-cache lines for absent ones. -/
  | pageIn (dt : Nat)
  /-- UNPIN (R211): Releases one pin of each listed lazy unit. -/
  | unpin (dt : Nat)
  /-- EXPORT (R221): Writes a shard image of a state item by logical coordinates after the last admitted commit. -/
  | exportItem (dt : Nat)
  /-- IMPORT (R222): Checks a shard image whole and writes it into the current placement. -/
  | importItem (dt : Nat)
  /-- CONTRIB (R269): Admits formation and sending of a site's low-rank contribution for a round and shard. -/
  | contrib (dt : Nat)
  /-- MERGE (R279): Forms the merged delta from the manifest set and applies the outer optimiser. -/
  | merge (dt : Nat)
  /-- SNAP_FETCH (R282): Fetches an anchor or outer-momentum shard image of a round from a partner. -/
  | snapFetch (dt : Nat)
  /-- JOIN (R281): Sends JOIN messages on the named far ports to begin joining a system. -/
  | join (dt : Nat)
  /-- DIGEST_RESOLVE_CLEAR (R195): Clears the suspect mark of a version-table entry. -/
  | digestResolveClear (dt : Nat)
  /-- DIGEST_RESOLVE_WINNER (R195): Names the replica whose blocks win for a suspect entry and copies them. -/
  | digestResolveWinner (dt : Nat)
  /-- WINDOW (R355): Books dies of a mask for an evaluation window in which only EVAL starts run. -/
  | window (dt : Nat)
  /-- STAGE_QUIET (R353): Accepts a staged set to apply at a matching quiet point of one die. -/
  | stageQuiet (dt : Nat)
  /-- STAGE_GAP (R353): Accepts a staged set that books dies and PD92 and applies at its T_s. -/
  | stageGap (dt : Nat)
  /-- STAGE_EPOCH (R353): Accepts a staged set to apply at the merge boundary of a round under a new epoch. -/
  | stageEpoch (dt : Nat)
  /-- STAGE_GAP_APPLY (R353): At the GAP set's T_s, its entries take effect as a whole. -/
  | stageGapApply (dt : Nat) (item : Nat)
  /-- RESET_COLD (R372): A RESET command of reach COLD asserts the CMD_COLD source for 10 µs. -/
  | resetCold (dt : Nat)
  /-- RESET_WARM (R372): A RESET command of reach WARM asserts the CMD_WARM source for 10 µs. -/
  | resetWarm (dt : Nat)
  /-- RESET_FABRIC (R372): A RESET command of reach FABRIC asserts the CMD_FABRIC source for 10 µs. -/
  | resetFabric (dt : Nat)
  /-- RESET_UNIT (R372): A RESET command of reach UNIT resets one compute die, hub or link die for 10 µs. -/
  | resetUnit (dt : Nat)
  /-- RESET_PORT (R372): A RESET command of reach PORT resets one near or far port domain for 10 µs. -/
  | resetPort (dt : Nat)
  /-- RESET_COMMAND_RELEASE (R372): 10 µs after its start a RESET command's source releases. -/
  | resetCommandRelease (dt : Nat)
  /-- KEY_LOAD (R298): Unwraps a traffic key into a named slot of a far port, setting its salts and counter. -/
  | keyLoad (dt : Nat)
  /-- SWITCH (R298): Makes the STANDBY key slot the transmit slot of a far port. -/
  | switch (dt : Nat)
  /-- ERASE (R298): Zeroises a named key slot that is neither transmit nor receive slot. -/
  | erase (dt : Nat)
  /-- SEAL_MODE_SEALED (R288): Sets a far port in OFF or FAILED to sealed mode. -/
  | sealModeSealed (dt : Nat)
  /-- SEAL_MODE_PLAIN (R288): Sets a far port in OFF or FAILED to plain mode. -/
  | sealModePlain (dt : Nat)
  /-- FW_LOAD (R310): Loads management processor firmware after checking its SHA-256 digest. -/
  | fwLoad (dt : Nat)
  /-- FUSE_PROGRAM (R369): ORs an unwrapped value into a fuse field. -/
  | fuseProgram (dt : Nat)
  /-- FUSE_REVOKE (R305): Sets the revoke bit of an ORK slot unless it would leave no usable slot. -/
  | fuseRevoke (dt : Nat)
  /-- SETUP_LOCK (R429): Sets the lock flag of every reachable block so RWL fields ignore writes. -/
  | setupLock (dt : Nat)
  /-- MERGE_HOLD (R280): Holds step 8 of Sequence ARC-2 for a round and shard. -/
  | mergeHold (dt : Nat)
  /-- MERGE_RELEASE (R280): Releases a held merge, naming the winning site's anchor or none. -/
  | mergeRelease (dt : Nat)
  /-- RECORDER_CLEAR (R412): Sets clear thresholds of named recorder areas and writes a CLEARED record. -/
  | recorderClear (dt : Nat)
  /-- POWER_LIMIT (R327): Sets the module power limit for later decisions and reports when bookings fit. -/
  | powerLimit (dt : Nat)
  /-- LOCKOUT_END (R313): A lockout ends 1 s after it started. -/
  | lockoutEnd (dt : Nat)
  /-- REGISTER_WRITE (R423): A BAR0 write to a register without behaviour of its own updates its writable fields under the access and lock rules. -/
  | registerWrite (dt : Nat) (off : Nat) (wide : Bool) (v : DWord)
  /-- VT_DROP (R165): Writing VT_DROP releases the holds of the tags whose bits are set in every entry. -/
  | vtDrop (dt : Nat) (die : Nat) (v : DWord)
  /-- COB_JBASE (R190): Writing COB_JBASE clears the journal-valid bit and makes the Cobbler examine the header. -/
  | cobJbase (dt : Nat) (die : Nat) (v : DWord)
  /-- PWR_EN (R385): Writing PWR_EN or PWR_EN_HI requests domains on or off, with dependants and item completion respected. -/
  | pwrEn (dt : Nat) (hi : Bool) (v : DWord)
  /-- DORMANT_REQUEST (R391): DORMANT_REQ high or PWR_CTRL.DORMANT = 1 begins Dormant entry. -/
  | dormantRequest (dt : Nat) (pin : Bool)
  /-- DORMANT_REQUEST_RELEASE (R393): Clearing both Dormant requests starts the wake sequence. -/
  | dormantRequestRelease (dt : Nat) (pin : Bool)
  /-- DORMANT_ENTRY (R391): Once admitted work completes, K1 retains fields, switches domains off and puts HBM in self-refresh. -/
  | dormantEntry (dt : Nat)
  /-- WAKE_COMPLETE (R393): At t0 + 2.0 ms of a wake, STATE becomes ON and the Fitter admits work on compute dies. -/
  | wakeComplete (dt : Nat)
  /-- SOURCE_SELECT (R363): Writing CLK_CTRL.SEL requests a ready, permitted source and begins a source switch. -/
  | sourceSelect (dt : Nat) (v : Word)
  /-- SOURCE_CAPTURE (R364): The multiplexer captures the new source at its next falling edge once it is ready. -/
  | sourceCapture (dt : Nat)
  /-- ROOT_RELOCK (R364): The root PLL relocks to the new source, ending holdover. -/
  | rootRelock (dt : Nat)
  /-- CLOCK_MONITOR_WINDOW (R359): Each 10 µs window judges each source's edge count and updates stable and ready states. -/
  | clockMonitorWindow (dt : Nat) (loc : EdgeCount) (host : EdgeCount) (recov : EdgeCount)
  /-- MISSING_EDGE (R359): A source with no rising edge for 4 nominal periods becomes DEAD. -/
  | missingEdge (dt : Nat) (src : ClockSource)
  /-- ISLAND_CLOCK_LOSS (R365): An island PLL loses lock or its clock stops, clearing its clock-stable wire and forcing safe states. -/
  | islandClockLoss (dt : Nat) (island : Nat × Island)
  /-- ISLAND_CLOCK_STABLE (R365): 64 windows after lock the island's clock-stable wire is set and its outputs are released. -/
  | islandClockStable (dt : Nat) (island : Nat × Island)
  /-- CLK_CKO (R367): Writing CLK_CKO changes an output's frequency or spread with a glitch-free disable and enable. -/
  | clkCko (dt : Nat) (v : Word)
  /-- CLK_TIME_SET (R361): Writing CLK_TIME_SET loads site time with the written value. -/
  | clkTimeSet (dt : Nat) (v : DWord)
  /-- INPUT_ENTERS_RATING (R380): The 54 V input rises above 48.0 V, asserting POWER_ON, sensing PROFILE and reading fuses. -/
  | inputEntersRating (dt : Nat) (profileMv : Nat)
  /-- INPUT_LEAVES_RATING (R381): The input leaves its rating; K1 isolates and switches off every domain and writes INPUT_LOSS. -/
  | inputLeavesRating (dt : Nat)
  /-- PWRGOOD_DEASSERT (R372): PWRGOOD low asserts the COLD source PWRGOOD. -/
  | pwrgoodDeassert (dt : Nat)
  /-- PWRGOOD_ASSERT (R372): PWRGOOD high releases its COLD source. -/
  | pwrgoodAssert (dt : Nat)
  /-- PERST_ASSERT (R372): PERST_N low asserts the WARM source PERST. -/
  | perstAssert (dt : Nat)
  /-- PERST_DEASSERT (R372): PERST_N high releases its WARM source. -/
  | perstDeassert (dt : Nat)
  /-- THERMAL_TRIP (R389): A junction reaches 115 °C, asserting THERMTRIP_N and COLD and switching every domain off. -/
  | thermalTrip (dt : Nat) (die : Nat)
  /-- THERMTRIP_RELEASE (R389): After every junction reads below 95 °C for 1 s, THERMTRIP_N and its source release. -/
  | thermtripRelease (dt : Nat)
  /-- BLOCK_RELEASE (R373): A block leaves reset when its sources release, earlier blocks are released and its clocks are stable. -/
  | blockRelease (dt : Nat) (block : Nat)
  /-- HUB_INITIALISATION_DONE (R374): A hub finishes HBM4 and ONFI initialisation and its channel becomes READY or FAILED. -/
  | hubInitialisationDone (dt : Nat) (hub : Nat) (crcOk : Bool) (rawGB : Nat)
  /-- PAIR (R378): A PAIR of the other side is received and answered with PAIR_ACK. -/
  | pair (dt : Nat) (crossing : Nat) (side : Side) (gen : Bool)
  /-- PAIR_ACK (R378): A PAIR_ACK with the own generation opens the crossing. -/
  | pairAck (dt : Nat) (crossing : Nat) (side : Side) (gen : Bool)
  /-- SUPPLY_GOOD (R383): A switched domain's regulator reaches supply-good and the domain may be released. -/
  | supplyGood (dt : Nat) (pd : Nat)
  /-- DOM_FAULT (R383): A domain without supply-good after 1 ms is switched off again. -/
  | domFault (dt : Nat) (pd : Nat)
  /-- TELEMETRY_SAMPLE (R387): Every 100 µs K1 samples input, temperatures, core voltages and coolant. -/
  | telemetrySample (dt : Nat) (t : Telemetry)
  /-- SENTINEL_READING (R318): Every 10 µs each sentinel reports a token time that reaches the Fitter. -/
  | sentinelReading (dt : Nat) (die : Nat) (i : Nat) (ps : Nat)
  /-- SENTINEL_MISS (R318): A sentinel that misses two consecutive intervals is faulted. -/
  | sentinelMiss (dt : Nat) (die : Nat) (i : Nat)
  /-- IDENTITY_READ (R398): K1 or a hub reads an identity memory into the surroundings table, retrying every 10 ms. -/
  | identityRead (dt : Nat) (entry : Nat) (r : IdRead)
  /-- CAGE_PRESENCE (R398): A module appears in a cage and its CMIS memory is read 2 s later. -/
  | cagePresence (dt : Nat) (entry : Nat)
  /-- CAGE_REMOVAL (R398): A cage loses presence and its entry becomes ABSENT. -/
  | cageRemoval (dt : Nat) (entry : Nat)
  /-- MGMT_PRIVATE_READ (R435): A management-pair private read returns K1 registers or the surroundings view from an offset. -/
  | mgmtPrivateRead (dt : Nat) (off : Nat) (len : Nat)
  /-- ENTROPY_HEALTH_FAILURE (R308): A noise-source health test fails, marking the source FAILED and stopping the DRBG. -/
  | entropyHealthFailure (dt : Nat) (lasting : Bool)
  /-- BUNDLE_FETCH (R117): The sequencer fetches one bundle and queues its slot ops. -/
  | bundleFetch (dt : Nat) (die : Nat)
  /-- LOAD (R121): MOVE LOAD copies rows into own stock SRAM or Awl buffers. -/
  | load (dt : Nat) (die : Nat)
  /-- LOAD_TURN (R122): MOVE LOAD with TURN transposes the source through the Turner, re-blocking H4 and B8. -/
  | loadTurn (dt : Nat) (die : Nat)
  /-- STORE (R121): MOVE STORE copies rows to HBM or any die's stock SRAM. -/
  | store (dt : Nat) (die : Nat)
  /-- TILE_CLEAR (R124): TILE in CLEAR mode starts a free tile with zero lanes and the given exponent. -/
  | tileClear (dt : Nat) (die : Nat)
  /-- TILE_CONTINUE (R69): TILE in CONTINUE mode resumes a parked tile, folding its lanes into the deep-sum buffer. -/
  | tileContinue (dt : Nat) (die : Nat)
  /-- TILE_RESTORE (R69): TILE in RESTORE mode starts a free tile from a raw tile image. -/
  | tileRestore (dt : Nat) (die : Nat)
  /-- PASS (R64): PASS streams rows against the stationary tile and adds exact products into accumulator lanes. -/
  | passOp (dt : Nat) (die : Nat)
  /-- SPILL (R72): A tile whose kcount reaches the next 65,536 boundary adds its lanes into the deep-sum buffer. -/
  | spill (dt : Nat) (die : Nat) (tile : Nat)
  /-- OVERFLOW_REPLAY (R75): A lane overflow replays the tile's K-chunk with E raised by 4, or saturates the elements. -/
  | overflowReplay (dt : Nat) (die : Nat)
  /-- DRAIN_RELEASE (R78): DRAIN with RELEASE converts and writes the tile, then frees its space. -/
  | drainRelease (dt : Nat) (die : Nat)
  /-- DRAIN_KEEP (R78): DRAIN with KEEP converts and writes the tile and leaves it in progress. -/
  | drainKeep (dt : Nat) (die : Nat)
  /-- ISSUE (R129): AWL ISSUE hands a record to the Awl vector engine, which checks it at issue. -/
  | issue (dt : Nat) (die : Nat)
  /-- AWL_ELEMENT (R96): An ELEMENT operation runs its micro-program over N elements with an optional reduction. -/
  | awlElement (dt : Nat) (die : Nat)
  /-- COMBINE_ACC (R83): A COMBINE ACC adds raw tile partials in contributor order into a D64 image. -/
  | combineAcc (dt : Nat) (die : Nat)
  /-- COMBINE_XS (R107): A COMBINE XS sums XS partials exactly into an XS, F32 sum or F32 mean result. -/
  | combineXs (dt : Nat) (die : Nat)
  /-- COMBINE_XI_MAX (R107): A COMBINE XI_MAX picks the largest XI partial, earliest contributor on ties. -/
  | combineXiMax (dt : Nat) (die : Nat)
  /-- COMBINE_XI_MIN (R107): A COMBINE XI_MIN picks the smallest XI partial, earliest contributor on ties. -/
  | combineXiMin (dt : Nat) (die : Nat)
  /-- LOOP (R130): CTRL LOOP runs the following body a counted number of times. -/
  | loopOp (dt : Nat) (die : Nat)
  /-- SIGNAL (R120): CTRL SIGNAL adds units to a semaphore of any compute die. -/
  | signal (dt : Nat) (die : Nat)
  /-- FENCE (R130): CTRL FENCE stops fetch until every earlier op has completed. -/
  | fence (dt : Nat) (die : Nat)
  /-- GATE (R130): CTRL GATE waits for the bound gate verdict and skips the W section if it is closed. -/
  | gate (dt : Nat) (die : Nat)
  /-- QUIET (R131): CTRL QUIET waits for quiet, applies staged configuration and records the quiet-point number. -/
  | quiet (dt : Nat) (die : Nat)
  /-- END (R130): CTRL END fences, parks tiles in progress and returns the die to LOADED. -/
  | endOp (dt : Nat) (die : Nat)
  /-- REMOTE_SIGNAL (R120): A semaphore signal from another die arrives and is acknowledged only while LOADED or RUNNING. -/
  | remoteSignal (dt : Nat) (src : Nat) (dst : Nat) (sem : Nat)
  /-- FAULT_NOTICE (R138): A fault notice from a peer stops a RUNNING die with PRG_PEER. -/
  | faultNotice (dt : Nat) (src : Nat) (dst : Nat)
  /-- PRG_OVERRUN (R134): The token meter passing path + allowance stops the program. -/
  | prgOverrun (dt : Nat) (die : Nat)
  /-- GATE_LOCAL_SEND (R247): When the local verdict is formed and no update run is in progress, a member sends GATE_LOCAL to the leader. -/
  | gateLocalSend (dt : Nat)
  /-- GATE_SELF_VERDICT (R153): A gate group of one forms its verdict and c_k once its local verdict is formed and no update run is in progress. -/
  | gateSelfVerdict (dt : Nat)
  /-- GATE_LOCAL (R153): The leader receives a member's local verdict and norm partial and may form the group verdict. -/
  | gateLocal (dt : Nat)
  /-- GATE_GROUP (R153): A member receives the group verdict and c_k and takes them as its module verdict. -/
  | gateGroup (dt : Nat)
  /-- GATE_LIMIT (R153): GATE_CTRL.LIMIT after the leader's arm with a member missing, the leader closes the verdict. -/
  | gateLimit (dt : Nat)
  /-- CLOSED_NOLEADER (R154): A member still PENDING after LIMIT plus two gate-message bounds closes its verdict itself. -/
  | closedNoleader (dt : Nat)
  /-- SHARD_COMPLETE (R242): The Welt reports an owned shard complete and the Cobbler processes its record through Sequence COB-1. -/
  | shardComplete (dt : Nat) (die : Nat)
  /-- ENTRY_COMMIT (R188): Once every record of an entry is done and gathered parts are present, the target slot becomes CURRENT. -/
  | entryCommit (dt : Nat) (die : Nat) (entry : Nat)
  /-- FLIT_DATA (R228): A DATA flit is checked for CRC and sequence and delivered once in order to the message layer. -/
  | flitData (dt : Nat) (port : Nat) (flit : List Byte)
  /-- FLIT_NAK (R228): A NAK makes the sender resend every DATA flit after the acknowledged one. -/
  | flitNak (dt : Nat) (port : Nat) (flit : List Byte)
  /-- FLIT_HELLO (R229): A HELLO flit is received and the wiring check of Sequence NEA-1 is made. -/
  | flitHello (dt : Nat) (port : Nat) (flit : List Byte)
  /-- FLIT_CREDIT (R227): A CREDIT flit returns receive credits for a virtual channel. -/
  | flitCredit (dt : Nat) (port : Nat) (flit : List Byte)
  /-- FLIT_IDLE (R227): An IDLE flit keeps the link alive and may carry an acknowledgement. -/
  | flitIdle (dt : Nat) (port : Nat) (flit : List Byte)
  /-- NEAR_TRAINING_DONE (R229): Link training and FEC alignment complete on all 8 lanes of a near port. -/
  | nearTrainingDone (dt : Nat) (port : Nat)
  /-- NEAR_TRAINING_TIMEOUT (R229): A near port that does not equalise in 500 ms or hear a HELLO in 10 ms is FAILED. -/
  | nearTrainingTimeout (dt : Nat) (port : Nat)
  /-- HELLO_SEND (R229): Every 1 µs during bring-up a port sends a HELLO flit. -/
  | helloSend (dt : Nat) (port : Nat)
  /-- FEC_ALIGN_LOSS (R229): FEC alignment lost on a lane for 100 µs takes the port DOWN. -/
  | fecAlignLoss (dt : Nat) (port : Nat)
  /-- LINK_SILENCE (R229): No flit for 100 µs takes a near port DOWN. -/
  | linkSilence (dt : Nat) (port : Nat)
  /-- NEAR_RETRAIN_TIMER (R229): Every 1 s a DOWN near port with EN = 1 retrains. -/
  | nearRetrainTimer (dt : Nat) (port : Nat)
  /-- NP_RETRAIN (R250): Writing NP_CTRL.RETRAIN takes the port DOWN and retrains at once. -/
  | npRetrain (dt : Nat) (port : Nat)
  /-- REDUCE_MSG (R238): A REDUCE message's blocks are added to the member's own and sent on, or written at the owner. -/
  | reduceMsg (dt : Nat)
  /-- GATHER (R244): A GATHER message writes working-copy bytes into the receiver's target slot. -/
  | gather (dt : Nat)
  /-- COPY_MSG (R246): A COPY message writes its bytes at the destination tile address. -/
  | copyMsg (dt : Nat)
  /-- DIGEST_ROOTS (R248): Member 0 receives a member's digest roots and compares them. -/
  | digestRoots (dt : Nat)
  /-- DIGEST_QUERY (R248): A member answers a digest query with the child digests of a node. -/
  | digestQuery (dt : Nat)
  /-- DIGEST_NODES (R248): Child digests are compared for bisection, or a level-0 notice marks the entry suspect. -/
  | digestNodes (dt : Nat)
  /-- E2E_ACK (R234): An end-to-end acknowledgement releases a kept message. -/
  | e2eAck (dt : Nat)
  /-- E2E_RESEND (R234): 50 µs after the last send an unacknowledged message is resent, or declared unreachable after 4 resends. -/
  | e2eResend (dt : Nat) (peer : Nat) (stitch : Nat)
  /-- REDUCE_CUTOFF (R241): At the cutoff the owner writes empty blocks for missing ones and members stop sending. -/
  | reduceCutoff (dt : Nat) (item : Nat)
  /-- FRAME_TRANSMIT (R261): A paced far frame is read from HBM, sealed or CRC-protected and sent within the window. -/
  | frameTransmit (dt : Nat) (port : Nat) (mismatches : Nat)
  /-- NGT_DATA_FRAME (R262): A received DATA frame is opened, checked and written at its offset into its receive slot. -/
  | ngtDataFrame (dt : Nat) (port : Nat) (frame : List Byte) (mismatches : Nat)
  /-- NGT_ACK (R260): An ACK frame acknowledges frames, gives SACK and a round-trip sample. -/
  | ngtAck (dt : Nat) (port : Nat) (frame : List Byte) (mismatches : Nat)
  /-- PROBE (R253): A PROBE frame gives a delay sample and, in bring-up, the partner check. -/
  | probe (dt : Nat) (port : Nat) (frame : List Byte) (mismatches : Nat)
  /-- ACK_TIMER (R260): An ACK is sent after 64 DATA frames or every 50 µs while any frame is unacknowledged. -/
  | ackTimer (dt : Nat) (port : Nat)
  /-- RESEND_TIMER (R261): A frame whose resend timer expires is resent with a new counter. -/
  | resendTimer (dt : Nat) (port : Nat) (stitch : Nat)
  /-- PROBE_INTERVAL (R263): A sender with no DATA frame in a 125 µs interval sends a PROBE. -/
  | probeInterval (dt : Nat) (port : Nat)
  /-- OVERLAP_WINDOW_END (R299): At the end of its overlap window a DRAINING slot is zeroised to EMPTY. -/
  | overlapWindowEnd (dt : Nat) (port : Nat) (slot : Nat)
  /-- FAR_PCS_LOCK (R253): A far port reaches PCS alignment and FEC lock and begins sending PROBEs. -/
  | farPcsLock (dt : Nat) (port : Nat)
  /-- FAR_TRAINING_TIMEOUT (R253): A far port without lock in 2 s or a PROBE in 1 s is FAILED with cause LINK. -/
  | farTrainingTimeout (dt : Nat) (port : Nat)
  /-- FAR_PCS_LOSS (R253): PCS lock lost for 1 ms takes a far port DOWN. -/
  | farPcsLoss (dt : Nat) (port : Nat)
  /-- FAR_FRAME_SILENCE (R253): No frame for 5 ms takes a far port DOWN. -/
  | farFrameSilence (dt : Nat) (port : Nat)
  /-- FAR_RETRY_TIMER (R253): Every 100 ms a DOWN far port with EN = 1 retries link bring-up. -/
  | farRetryTimer (dt : Nat) (port : Nat)
  /-- FP_RETRAIN (R285): Writing FP_CTRL.RETRAIN takes the far port DOWN and retrains at once. -/
  | fpRetrain (dt : Nat) (port : Nat)
  /-- CONTRIB_MSG (R273): A complete CONTRIB is held in its receive slot if its round is accepted, and forwarded on the relay tree. -/
  | contribMsg (dt : Nat)
  /-- HOLD (R275): The coordinator receives a site's holdings for a round. -/
  | hold (dt : Nat)
  /-- HOLD_SEND (R275): At most once per millisecond a gateway sends changed holdings to the coordinator. -/
  | holdSend (dt : Nat) (round : Nat)
  /-- MANIFEST_CUTOFF (R276): At the cutoff the coordinating gateway forms and broadcasts the manifest. -/
  | manifestCutoff (dt : Nat) (round : Nat) (shard : Nat)
  /-- MANIFEST (R277): A gateway applies the first manifest of a round and shard and discards differing later ones. -/
  | manifest (dt : Nat)
  /-- MANIFEST_TAKEOVER (R277): After FX_MWAIT without a manifest the next rotation site forms one of rank 1 or 2. -/
  | manifestTakeover (dt : Nat) (round : Nat) (shard : Nat)
  /-- FETCH (R278): A holder answers FETCH with a CONTRIB addressed to the requester. -/
  | fetch (dt : Nat)
  /-- FETCH_RETRY (R278): After 2 × RTT_ENV without the member a gateway sends FETCH to the next in its cycle. -/
  | fetchRetry (dt : Nat) (round : Nat) (shard : Nat) (origin : Nat)
  /-- DIGEST (R280): A received anchor root is counted toward a majority, leading to proceed or repair. -/
  | digest (dt : Nat)
  /-- ANCHOR_DIGEST_WAIT (R280): With no majority FX_MWAIT after its own root, the gateway sets ANCHOR_SUSPECT and holds step 8. -/
  | anchorDigestWait (dt : Nat) (round : Nat) (shard : Nat)
  /-- DQUERY (R280): A site answers an anchor digest query with child digests. -/
  | dquery (dt : Nat)
  /-- DNODES (R280): Anchor child digests are compared to find differing blocks. -/
  | dnodes (dt : Nat)
  /-- JOIN_MSG (R281): A JOIN is received, sets FX_EVENTS.JOIN and is answered with a snapshot round. -/
  | joinMsg (dt : Nat)
  /-- SNAP_REQ (R282): A partner answers a snapshot request once its anchor root matches a majority. -/
  | snapReq (dt : Nat)
  /-- SNAPSHOT (R280): Snapshot bytes are written into the requester's destination or anchor. -/
  | snapshot (dt : Nat)
  /-- UNIT_READ_COMPLETE (R211): A page-in READ completes and the lazy unit becomes RESIDENT. -/
  | unitReadComplete (dt : Nat) (unit : Nat)
  /-- UNIT_WRITE_COMPLETE (R211): A write-back completes and the unit becomes RESIDENT unless dirtied meanwhile. -/
  | unitWriteComplete (dt : Nat) (unit : Nat)
  /-- FT_DAY_BUCKET (R206): Each operating hour the trailing 24-hour write figure moves on a bucket. -/
  | ftDayBucket (dt : Nat) (hub : Nat)
  /-- PARITY_ERROR (R415): A fabric or control-network unit with bad parity or number is refused and replayed, failing the channel past the limit. -/
  | parityError (dt : Nat) (channel : Nat) (unit : Nat)
  /-- ECC_ERROR (R416): A SECDED error is corrected and counted, or uncorrectable and ends the reader. -/
  | eccError (dt : Nat) (store : Store) (die : Nat) (addr : Nat) (corrected : Bool)
  /-- CONTROL_ACCESS_TIMEOUT (R417): A control-network access unanswered within 2 µs counts toward containment of the die. -/
  | controlAccessTimeout (dt : Nat) (die : Nat) (answered : Bool)
  /-- ERR_RELEASE (R417): Writing ERR_RELEASE releases the containment of the named dies. -/
  | errRelease (dt : Nat) (v : DWord)
  /-- ERR_RELEASE_PORT (R417): Writing ERR_RELEASE_PORT releases the containment of the named ports. -/
  | errReleasePort (dt : Nat) (v : Word)
  /-- RECORD_WRITE (R406): The writer programs a queued record into its area, marking it valid last. -/
  | recordWrite (dt : Nat)
  /-- COALESCE_EXPIRY (R409): 1 s after its first occurrence a held INFO or WARN record is queued. -/
  | coalesceExpiry (dt : Nat) (code : Nat) (die : Nat) (sub : Nat)
  /-- COUNTER_ENTRY (R408): Every 60 s of operating time a counter entry is written. -/
  | counterEntry (dt : Nat)
  /-- SECTOR_ERASE_DONE (R404): A sector erase completes and its erase mark is programmed. -/
  | sectorEraseDone (dt : Nat) (sector : Nat)
  /-- FREEZE (R411): Writing REC_CTRL.FREEZE = 1 stops the writer so the window can be read. -/
  | freeze (dt : Nat) (v : Word)
  /-- UNFREEZE (R411): Writing REC_CTRL.FREEZE = 0 ends a freeze. -/
  | unfreeze (dt : Nat) (v : Word)
  /-- FREEZE_FORCED (R411): A full queue or REC_FREEZE.MS elapsing ends a freeze. -/
  | freezeForced (dt : Nat)
  /-- RECORDER_WINDOW_READ (R411): A read of the recorder window returns NOR bytes while frozen, otherwise all ones and an event. -/
  | recorderWindowRead (dt : Nat) (off : Nat) (wide : Bool)
  /-- ITEM_START (R317): At an admitted item's start T_s, later than its decision, the item begins: gang dies go RUNNING, or a RESET command's source asserts. -/
  | itemStart (dt : Nat) (item : Nat)
  /-- SQ_HEAD_WRITEBACK (R338): At least every 1 µs the ring engine writes sq_head back to the ring's doorbell record in host memory. -/
  | sqHeadWriteback (dt : Nat) (ring : Nat)
  /-- DIGEST_REPLY_TIMEOUT (R248): A member that has not answered member 0's digest exchange within the reduce cutoff of its group's latest bucket counts as holding no value. -/
  | digestReplyTimeout (dt : Nat) (group : Nat) (member : Nat)
  /-- ROOT_PLL_LOCK (R361): In a COLD episode the root PLL first locks, site time starts counting and order 1 of Table CLK-10 may be released. -/
  | rootPllLock (dt : Nat)
  /-- DOMAIN_SWITCH_ON (R383): When the 100 µs pacing of at most 6 domains allows, K1 enables the regulators of the next domains waiting to switch on, as in the wake groups of Sequence PWB-1. -/
  | domainSwitchOn (dt : Nat)
  deriving DecidableEq, Repr

end Sys2Proof
end

