-- ==== Sys2Proof/Decode.lean ====
section
/-! DEFINITION. The decoder of words. No row of spec/opcode_table.json gives its command any bits, so no word spells a
command. -/

namespace Sys2Proof

/-- The command that the low `nbits` bits of a word spell: none, since no row of the table has bits. -/
def decodeTableWord (_nbits _w : Nat) : Option Instr := none

end Sys2Proof
end

