-- ==== Sys2Proof/Config.lean ====
section
/-! DEFINITION. What an implementation fixes and the free values: constants without a body, so that no proof can see
what they are. A value drawn more than once takes the counter `drawCount` of the state as its argument. -/

namespace Sys2Proof.Config

/-- DESIGN CHOICE (log 6): the 64-bit session nonce that draw `n` of the DRBG gives (R308, R309). -/
opaque sessionNonce : Nat → BitVec 64

/-- DESIGN CHOICE (log 6): the device root key DRK, drawn at manufacture and fused (Table SEC-3). -/
opaque deviceRootKey : BitVec 256

/-- DESIGN CHOICE (log 5): the serial number of the fuse map (Table MAP-9). -/
opaque serial : BitVec 64

/-- DESIGN CHOICE (log 5): stepping, year, week, plant of the fuse map (Table MAP-9). -/
opaque stepping : Byte
@[inherit_doc stepping] opaque year : BitVec 16
@[inherit_doc stepping] opaque week : Byte
@[inherit_doc stepping] opaque plant : Byte

/-- DESIGN CHOICE (log 5): identifier of the provisioning record (Table MAP-9). -/
opaque provision : BitVec 64

/-- DESIGN CHOICE (log 10): the compute dies whose programs thin a shard (R269), as a bit mask. -/
opaque thinningDies : Nat → Nat

/-- DESIGN CHOICE (log 147): the lockstep mismatches on an ACK or PROBE that is sealed, at draw `n` (R301). -/
opaque ackMismatches : Nat → Nat

/-- DESIGN CHOICE (log 12): byte `i` of the HBM range after draw `n`, a READ whose correction failed (R205). -/
opaque flashReadUndefined : Nat → Nat → Byte

/-- DESIGN CHOICE (log 12): whether the READ of draw `n` has a block that fails its correction (R205). -/
opaque flashReadFails : Nat → Bool

/-- DESIGN CHOICE (log 38): a hub's measure of the wear of its channel, by channel and bytes written (R206). -/
opaque flashWear : Nat → Nat → Nat

/-- DESIGN CHOICE (log 29): the tensor that a plan record's shard belongs to, by the record's address. -/
opaque planTensor : Nat → Nat

/-- DESIGN CHOICE (log 29): what a version-table entry of a die covers where no validated plan record names it: field 0
tensor, 1 format, 2 both orientations, 3 to 6 first row, rows, first column, columns. -/
opaque entryCover : Nat → Nat → Nat → Nat

/-- DESIGN CHOICE (log 15): the rate and the width the PCIe link trains to at release `n` of PD92 (HIF_STATUS). -/
opaque pcieRate : Nat → Nat
@[inherit_doc pcieRate] opaque pcieWidth : Nat → Nat

/-- DESIGN CHOICE (log 161): the millivolts at the PROFILE pin as PWRGOOD goes low, at draw `n` (R368). -/
opaque profileMv : Nat → Nat

/-- DESIGN CHOICE (log 149): Lyrnaham's PCI vendor ID (R333). -/
opaque vendorId : BitVec 16

/-- DESIGN CHOICE (log 16): the entries in flight, both ways together, at a crossing that closes at draw `n` (R377). -/
opaque crossingEntries : Nat → Nat

/-- DESIGN CHOICE (log 17): the credits a port grants for each virtual channel when it comes UP (Sequence NEA-1). -/
opaque nearCredits : Nat

/-- DESIGN CHOICE (log 103): the detour hops behind a message that arrives with DETOUR set, at draw `n` (R232). -/
opaque detoursMade : Nat → Nat

/-- DESIGN CHOICE (log 137): by how much, in mV, K1 raises a die's core voltage when a reading passes its hold, at draw
`n` (R320). -/
opaque vcoreStep : Nat → Nat

/-- DESIGN CHOICE (log 158): how many bytes of the record it is programming the recorder has programmed when it loses its
supply or its reset asserts, at draw `n` (R406, R410). -/
opaque bytesWritten : Nat → Nat

/-- DESIGN CHOICE (log 139): the codewords corrected on a near port in the microsecond from an instant (NP_FEC_CORR). -/
opaque fecCorrected : Nat → Nat → BitVec 64

/-- DESIGN CHOICE (log 134): whether the guard of an admitted promise covers the longer route that a failed channel
leaves, at draw `n` (R28). -/
opaque guardCovers : Nat → Bool

/-- DESIGN CHOICE (log 160): whether, at draw `n`, the replay before a refusal was good and the unit refused is another of
the same number (R415). -/
opaque goodReplay : Nat → Bool

/-- DESIGN CHOICE (log 111): which of those that may be reading a word that cannot be corrected is its reader, at draw `n`
(R200, R416). -/
opaque eccReader : Nat → Nat

/-- DESIGN CHOICE (log 26): the HBM addresses of the owner's copies of a plan record's outer delta, anchor and next anchor
(R184, R186), which no register or record of the manual names. -/
opaque deltaAt : Nat → Nat
@[inherit_doc deltaAt] opaque anchorAt : Nat → Nat
@[inherit_doc deltaAt] opaque nextAnchorAt : Nat → Nat

/-- DESIGN CHOICE (log 27): which of a hub's six home dies carries the Cobbler that applies the outer optimiser of a
shard (R185). -/
opaque outerDie : Nat → Nat

/-- DESIGN CHOICE (log 141): H, the inner steps of the round after the one whose outer delta was formed at a value of
COB_STEP: software chooses it and no register holds it (R33). -/
opaque roundSteps : Nat → Nat

/-- DESIGN CHOICE (log 163): whether the management processor's firmware requests WAKE_N at an instant (Table PWB-10). -/
opaque firmwareWakes : Nat → Bool

/-- DESIGN CHOICE (log 43): the UDP source port of a far port (R254). -/
opaque udpSource : Nat → Nat

end Sys2Proof.Config
end

