-- ==== Sys2Proof/Machine/RegMap.lean ====
section
/-! DEFINITION. The register map of BAR0 (chapter 17): the offset of every register and its access (Tables MAP-2 to
MAP-8 and the field tables of the chapters). -/

namespace Sys2Proof.Machine

/-- A field whose written value must lie in a range (R425): bits hi to lo, least, greatest, and whether 0 is allowed
beside the range. A write that would set another value is discarded whole. -/
structure FieldRange where
  hi : Nat
  lo : Nat
  min : Nat
  max : Nat
  zeroOk : Bool
  deriving DecidableEq, Repr

/-- A register of the map, repeated `count0` times every `stride0` bytes and `count1` times every `stride1` bytes; its
reset word, and the bits of each access class of Table SCO-4 (RW, RWL, W1C, WO, STK), the reserved bits, and the RWL bits
that the lock fixes (Table MAP-10). -/
structure RegRow where
  name : String
  base : Nat
  count0 : Nat
  stride0 : Nat
  count1 : Nat
  stride1 : Nat
  wide : Bool
  reset : Nat
  rw : Nat
  rwl : Nat
  w1c : Nat
  wo : Nat
  stk : Nat
  resv : Nat
  fixed : Nat
  ranges : List FieldRange
  deriving DecidableEq, Repr

namespace Reg

abbrev mapInfo : Nat := 0x0
abbrev mapBadAccess : Nat := 0x4
abbrev mapLockedWrites : Nat := 0x8
abbrev mapUnlocked : Nat := 0x10
abbrev hifCtrl : Nat := 0x100
abbrev hifStatus : Nat := 0x104
abbrev hifEpoch : Nat := 0x108
abbrev hifEpochPend : Nat := 0x10C
abbrev hifSeed : Nat := 0x110
abbrev hifPoll : Nat := 0x118
abbrev hifEvents : Nat := 0x11C
abbrev hifIrqSrc : Nat := 0x120
abbrev hifTaken : Nat := 0x128
abbrev hifOrphans : Nat := 0x130
abbrev hifHostwinBase (n : Nat) : Nat := 0x140 + n * 0x10
abbrev hifHostwinLimit (n : Nat) : Nat := 0x148 + n * 0x10
abbrev ringSqBase (n : Nat) : Nat := 0x10000 + n * 0x100
abbrev ringCqBase (n : Nat) : Nat := 0x10008 + n * 0x100
abbrev ringDbAddr (n : Nat) : Nat := 0x10010 + n * 0x100
abbrev ringSize (n : Nat) : Nat := 0x10018 + n * 0x100
abbrev ringCtrl (n : Nat) : Nat := 0x1001C + n * 0x100
abbrev ringStatus (n : Nat) : Nat := 0x10020 + n * 0x100
abbrev ringHead (n : Nat) : Nat := 0x10024 + n * 0x100
abbrev ringWritten (n : Nat) : Nat := 0x10028 + n * 0x100
abbrev ringOutstanding (n : Nat) : Nat := 0x1002C + n * 0x100
abbrev prmCtrl : Nat := 0x20000
abbrev prmGuard : Nat := 0x20004
abbrev prmHorizon : Nat := 0x20008
abbrev prmPace : Nat := 0x2000C
abbrev prmReserved : Nat := 0x20010
abbrev prmEvents : Nat := 0x20014
abbrev prmBreachDie : Nat := 0x20018
abbrev prmAdmitted : Nat := 0x20020
abbrev prmRefused : Nat := 0x20028
abbrev prmVoids : Nat := 0x2002C
abbrev prmBreaches : Nat := 0x20030
abbrev prmHbm (n : Nat) : Nat := 0x20100 + n * 0x4
abbrev prmCorner (n : Nat) : Nat := 0x20200 + n * 0x4
abbrev gateCtrl : Nat := 0x30000
abbrev gateStatus : Nat := 0x30004
abbrev gateEvents : Nat := 0x30008
abbrev gateClosedCount : Nat := 0x3000C
abbrev cobStep : Nat := 0x30100
abbrev cobHyper : Nat := 0x30108
abbrev cobSched : Nat := 0x30110
abbrev cobClipnorm : Nat := 0x30118
abbrev cobClip : Nat := 0x3011C
abbrev memCtrl : Nat := 0x30200
abbrev rtCount : Nat := 0x30204
abbrev rtBase : Nat := 0x30208
abbrev neaCoord : Nat := 0x40000
abbrev neaCtrl : Nat := 0x40004
abbrev neaGroups : Nat := 0x40008
abbrev neaEvents : Nat := 0x40010
abbrev neaExcluded : Nat := 0x40014
abbrev neaLate : Nat := 0x40018
abbrev neaDupBlocks : Nat := 0x4001C
abbrev neaDrops : Nat := 0x40020
abbrev neaEpochDrops : Nat := 0x40024
abbrev neaResends : Nat := 0x40028
abbrev fxTable : Nat := 0x40100
abbrev fxCfg : Nat := 0x40108
abbrev fxCtrl : Nat := 0x4010C
abbrev fxStale : Nat := 0x40110
abbrev fxCutoff : Nat := 0x40114
abbrev fxMwait : Nat := 0x40118
abbrev fxRound : Nat := 0x4011C
abbrev fxEvents : Nat := 0x40120
abbrev fxDup : Nat := 0x40124
abbrev fxStaleDrops : Nat := 0x40128
abbrev secStatus : Nat := 0x50000
abbrev secEvents : Nat := 0x50004
abbrev secCtrl : Nat := 0x50008
abbrev secAuthfail : Nat := 0x5000C
abbrev secSession : Nat := 0x50010
abbrev secCmdctr : Nat := 0x50018
abbrev recStatus : Nat := 0x60000
abbrev recCtrl : Nat := 0x60004
abbrev recFreeze : Nat := 0x60008
abbrev recWindow : Nat := 0x6000C
abbrev recSeq : Nat := 0x60010
abbrev recLost : Nat := 0x60014
abbrev recEvents : Nat := 0x60018
abbrev recClear (n : Nat) : Nat := 0x60020 + n * 0x4
abbrev clkStatus : Nat := 0x70000
abbrev clkCtrl : Nat := 0x70004
abbrev clkCko : Nat := 0x70008
abbrev clkProfile : Nat := 0x7000C
abbrev clkEvents : Nat := 0x70010
abbrev clkXdrops : Nat := 0x70014
abbrev clkIsland : Nat := 0x70018
abbrev clkTime : Nat := 0x70020
abbrev clkTimeSet : Nat := 0x70028
abbrev rstCause : Nat := 0x70100
abbrev rstHeld : Nat := 0x70108
abbrev rstCount : Nat := 0x70110
abbrev rstHeldHi : Nat := 0x70114
abbrev fuseClk : Nat := 0x70118
abbrev pwrStatus : Nat := 0x70200
abbrev pwrCtrl : Nat := 0x70204
abbrev pwrEn : Nat := 0x70208
abbrev pwrEnHi : Nat := 0x70210
abbrev pwrOnHi : Nat := 0x70214
abbrev pwrOn : Nat := 0x70218
abbrev pwrLimit : Nat := 0x70220
abbrev pwrInput : Nat := 0x70224
abbrev pwrAvg : Nat := 0x70228
abbrev pwrPeak : Nat := 0x7022C
abbrev coolant : Nat := 0x70230
abbrev pwrEvents : Nat := 0x70234
abbrev pwrWakeEn : Nat := 0x70238
abbrev tempDie (n : Nat) : Nat := 0x70300 + n * 0x4
abbrev vcore (n : Nat) : Nat := 0x70400 + n * 0x4
abbrev surGen : Nat := 0x70500
abbrev surEvents : Nat := 0x70504
abbrev errEvents : Nat := 0x70600
abbrev errAlertEn : Nat := 0x70604
abbrev errCtrl : Nat := 0x70608
abbrev errContainPort : Nat := 0x7060C
abbrev errContain : Nat := 0x70610
abbrev errRelease : Nat := 0x70618
abbrev errReleasePort : Nat := 0x70620
abbrev errUncorr : Nat := 0x70624
abbrev errParReplays : Nat := 0x70628
abbrev errCorrected : Nat := 0x70630
abbrev recOptime : Nat := 0x70638
abbrev recCycles : Nat := 0x70640
abbrev aryEvents (n : Nat) : Nat := 0x100000 + n * 0x10000
abbrev aryCtrl (n : Nat) : Nat := 0x100004 + n * 0x10000
abbrev aryReplays (n : Nat) : Nat := 0x100008 + n * 0x10000
abbrev aryZeroRows (n : Nat) : Nat := 0x10000C + n * 0x10000
abbrev awlEvents (n : Nat) : Nat := 0x100100 + n * 0x10000
abbrev awlCtrl (n : Nat) : Nat := 0x100104 + n * 0x10000
abbrev awlFault (n : Nat) : Nat := 0x100108 + n * 0x10000
abbrev awlOps (n : Nat) : Nat := 0x10010C + n * 0x10000
abbrev awlEmptySegs (n : Nat) : Nat := 0x100110 + n * 0x10000
abbrev prgStatus (n : Nat) : Nat := 0x100200 + n * 0x10000
abbrev prgFault (n : Nat) : Nat := 0x100204 + n * 0x10000
abbrev prgCtrl (n : Nat) : Nat := 0x100208 + n * 0x10000
abbrev prgMeter (n : Nat) : Nat := 0x10020C + n * 0x10000
abbrev gateLoss (n : Nat) : Nat := 0x100300 + n * 0x10000
abbrev gateExpect (n : Nat) : Nat := 0x100304 + n * 0x10000
abbrev cobJbase (n : Nat) : Nat := 0x100400 + n * 0x10000
abbrev cobCtrl (n : Nat) : Nat := 0x100408 + n * 0x10000
abbrev cobSkipped (n : Nat) : Nat := 0x10040C + n * 0x10000
abbrev cobRepairs (n : Nat) : Nat := 0x100410 + n * 0x10000
abbrev cobEvents (n : Nat) : Nat := 0x100414 + n * 0x10000
abbrev vtDrop (n : Nat) : Nat := 0x102000 + n * 0x10000
abbrev vtSlot0 (n e : Nat) : Nat := 0x101000 + n * 0x10000 + e * 0x40
abbrev vtSlot1 (n e : Nat) : Nat := 0x101008 + n * 0x10000 + e * 0x40
abbrev vtCfg (n e : Nat) : Nat := 0x101010 + n * 0x10000 + e * 0x40
abbrev vtState (n e : Nat) : Nat := 0x101014 + n * 0x10000 + e * 0x40
abbrev vtVer0 (n e : Nat) : Nat := 0x101018 + n * 0x10000 + e * 0x40
abbrev vtVer1 (n e : Nat) : Nat := 0x10101C + n * 0x10000 + e * 0x40
abbrev vtHold0 (n e : Nat) : Nat := 0x101020 + n * 0x10000 + e * 0x40
abbrev vtHold1 (n e : Nat) : Nat := 0x101028 + n * 0x10000 + e * 0x40
abbrev ftStatus (n : Nat) : Nat := 0x400000 + n * 0x10000
abbrev ftCapacity (n : Nat) : Nat := 0x400004 + n * 0x10000
abbrev ftWritten (n : Nat) : Nat := 0x400008 + n * 0x10000
abbrev ftDay (n : Nat) : Nat := 0x400010 + n * 0x10000
abbrev ftLife (n : Nat) : Nat := 0x400018 + n * 0x10000
abbrev ftEvents (n : Nat) : Nat := 0x40001C + n * 0x10000
abbrev rcBase (n : Nat) : Nat := 0x400020 + n * 0x10000
abbrev rcCfg (n : Nat) : Nat := 0x400028 + n * 0x10000
abbrev rcLine (n : Nat) : Nat := 0x40002C + n * 0x10000
/-- `p` is the near port 0 to 11. -/
abbrev npStatus (p : Nat) : Nat := 0x480000 + p / 2 * 0x10000 + p % 2 * 0x100
/-- `p` is the near port 0 to 11. -/
abbrev npCtrl (p : Nat) : Nat := 0x480004 + p / 2 * 0x10000 + p % 2 * 0x100
/-- `p` is the near port 0 to 11. -/
abbrev npFecCorr (p : Nat) : Nat := 0x480008 + p / 2 * 0x10000 + p % 2 * 0x100
/-- `p` is the near port 0 to 11. -/
abbrev npCrcErr (p : Nat) : Nat := 0x480010 + p / 2 * 0x10000 + p % 2 * 0x100
/-- `p` is the near port 0 to 11. -/
abbrev npReplays (p : Nat) : Nat := 0x480014 + p / 2 * 0x10000 + p % 2 * 0x100
abbrev fpStatus (n : Nat) : Nat := 0x480200 + n * 0x10000
abbrev fpCtrl (n : Nat) : Nat := 0x480204 + n * 0x10000
abbrev fpRate (n : Nat) : Nat := 0x480208 + n * 0x10000
abbrev fpEnv (n : Nat) : Nat := 0x48020C + n * 0x10000
abbrev fpWindow (n : Nat) : Nat := 0x480210 + n * 0x10000
abbrev fpRtt (n : Nat) : Nat := 0x480214 + n * 0x10000
abbrev fpDref (n : Nat) : Nat := 0x480218 + n * 0x10000
abbrev fpEvents (n : Nat) : Nat := 0x480220 + n * 0x10000
abbrev fpRetx (n : Nat) : Nat := 0x480224 + n * 0x10000
abbrev fpTxFrames (n : Nat) : Nat := 0x480228 + n * 0x10000
abbrev fpRxFrames (n : Nat) : Nat := 0x480230 + n * 0x10000
abbrev fpBad (n : Nat) : Nat := 0x480238 + n * 0x10000
abbrev fpDup (n : Nat) : Nat := 0x48023C + n * 0x10000
abbrev fpPathChanges (n : Nat) : Nat := 0x480240 + n * 0x10000
abbrev secPortStatus (n : Nat) : Nat := 0x480300 + n * 0x10000
abbrev secOverlap (n : Nat) : Nat := 0x480304 + n * 0x10000
abbrev secTxctr0 (n : Nat) : Nat := 0x480308 + n * 0x10000
abbrev secTxctr1 (n : Nat) : Nat := 0x480310 + n * 0x10000
abbrev secMismatch (n : Nat) : Nat := 0x480318 + n * 0x10000
abbrev secPortEvents (n : Nat) : Nat := 0x48031C + n * 0x10000

end Reg

/-- Part 1 of the register map (R433). -/
def regRows1 : List RegRow := [
  ⟨"MAP_INFO", 0x0, 1, 0x0, 1, 0x0, false, 0x1, 0x0, 0x0, 0x0, 0x0, 0x0, 0xFFFF0000, 0x0, []⟩,
  ⟨"MAP_BAD_ACCESS", 0x4, 1, 0x0, 1, 0x0, false, 0x0, 0x0, 0x0, 0x0, 0x0, 0x0, 0x0, 0x0, []⟩,
  ⟨"MAP_LOCKED_WRITES", 0x8, 1, 0x0, 1, 0x0, false, 0x0, 0x0, 0x0, 0x0, 0x0, 0x0, 0x0, 0x0, []⟩,
  ⟨"MAP_UNLOCKED", 0x10, 1, 0x0, 1, 0x0, true, 0x0, 0x0, 0x0, 0x0, 0x0, 0x0, 0x0, 0x0, []⟩,
  ⟨"HIF_CTRL", 0x100, 1, 0x0, 1, 0x0, false, 0x0, 0x1, 0x0, 0x0, 0x0, 0x0, 0xFFFFFFFE, 0x0, []⟩,
  ⟨"HIF_STATUS", 0x104, 1, 0x0, 1, 0x0, false, 0x0, 0x0, 0x0, 0x0, 0x0, 0x0, 0xFFFFFC00, 0x0, []⟩,
  ⟨"HIF_EPOCH", 0x108, 1, 0x0, 1, 0x0, false, 0x0, 0x0, 0x0, 0x0, 0x0, 0x0, 0x0, 0x0, []⟩,
  ⟨"HIF_EPOCH_PEND", 0x10C, 1, 0x0, 1, 0x0, false, 0x0, 0x0, 0x0, 0x0, 0x0, 0x0, 0x0, 0x0, []⟩,
  ⟨"HIF_SEED", 0x110, 1, 0x0, 1, 0x0, true, 0x0, 0x0, 0xFFFFFFFFFFFFFFFF, 0x0, 0x0, 0x0, 0x0, 0x0, []⟩,
  ⟨"HIF_POLL", 0x118, 1, 0x0, 1, 0x0, false, 0x3E8, 0x0, 0xFFFFF, 0x0, 0x0, 0x0, 0xFFF00000, 0x0, [⟨19, 0, 200, 1000000, false⟩]⟩,
  ⟨"HIF_EVENTS", 0x11C, 1, 0x0, 1, 0x0, false, 0x0, 0x0, 0x0, 0xF, 0x0, 0x0, 0xFFFFFFF0, 0x0, []⟩,
  ⟨"HIF_IRQ_SRC", 0x120, 1, 0x0, 1, 0x0, true, 0x0, 0x0, 0x0, 0x0, 0x0, 0x0, 0x0, 0x0, []⟩,
  ⟨"HIF_TAKEN", 0x128, 1, 0x0, 1, 0x0, true, 0x0, 0x0, 0x0, 0x0, 0x0, 0x0, 0x0, 0x0, []⟩,
  ⟨"HIF_ORPHANS", 0x130, 1, 0x0, 1, 0x0, false, 0x0, 0x0, 0x0, 0x0, 0x0, 0x0, 0x0, 0x0, []⟩,
  ⟨"HIF_HOSTWIN_BASE", 0x140, 4, 0x10, 1, 0x0, true, 0x0, 0x0, 0xFFFFFFFFFFFFF001, 0x0, 0x0, 0x0, 0xFFE, 0xFFFFFFFFFFFFF001, []⟩,
  ⟨"HIF_HOSTWIN_LIMIT", 0x148, 4, 0x10, 1, 0x0, true, 0x0, 0x0, 0xFFFFFFFFFFFFF000, 0x0, 0x0, 0x0, 0xFFF, 0xFFFFFFFFFFFFF000, []⟩,
  ⟨"RING_SQ_BASE", 0x10000, 8, 0x100, 1, 0x0, true, 0x0, 0x0, 0xFFFFFFFFFFFFF000, 0x0, 0x0, 0x0, 0xFFF, 0x0, []⟩,
  ⟨"RING_CQ_BASE", 0x10008, 8, 0x100, 1, 0x0, true, 0x0, 0x0, 0xFFFFFFFFFFFFF000, 0x0, 0x0, 0x0, 0xFFF, 0x0, []⟩,
  ⟨"RING_DB_ADDR", 0x10010, 8, 0x100, 1, 0x0, true, 0x0, 0x0, 0xFFFFFFFFFFFFFFF0, 0x0, 0x0, 0x0, 0xF, 0x0, []⟩,
  ⟨"RING_SIZE", 0x10018, 8, 0x100, 1, 0x0, false, 0x0, 0x0, 0x1F1F, 0x0, 0x0, 0x0, 0xFFFFE0E0, 0x0, [⟨4, 0, 6, 16, false⟩, ⟨12, 8, 6, 17, false⟩]⟩,
  ⟨"RING_CTRL", 0x1001C, 8, 0x100, 1, 0x0, false, 0x10020, 0xFFFF01FF, 0x0, 0x0, 0x0, 0x0, 0xFE00, 0x0, [⟨8, 5, 1, 15, false⟩, ⟨23, 16, 1, 255, false⟩]⟩,
  ⟨"RING_STATUS", 0x10020, 8, 0x100, 1, 0x0, false, 0x0, 0x0, 0x0, 0x0, 0x0, 0x0, 0xFFFFFFFC, 0x0, []⟩,
  ⟨"RING_HEAD", 0x10024, 8, 0x100, 1, 0x0, false, 0x0, 0x0, 0x0, 0x0, 0x0, 0x0, 0x0, 0x0, []⟩,
  ⟨"RING_WRITTEN", 0x10028, 8, 0x100, 1, 0x0, false, 0x0, 0x0, 0x0, 0x0, 0x0, 0x0, 0x0, 0x0, []⟩,
  ⟨"RING_OUTSTANDING", 0x1002C, 8, 0x100, 1, 0x0, false, 0x0, 0x0, 0x0, 0x0, 0x0, 0x0, 0x0, 0x0, []⟩,
  ⟨"PRM_CTRL", 0x20000, 1, 0x0, 1, 0x0, false, 0x0, 0x1, 0x0, 0x0, 0x0, 0x0, 0xFFFFFFFE, 0x0, []⟩,
  ⟨"PRM_GUARD", 0x20004, 1, 0x0, 1, 0x0, false, 0x3, 0x0, 0x3F, 0x0, 0x0, 0x0, 0xFFFFFFC0, 0x0, [⟨5, 0, 1, 50, false⟩]⟩,
  ⟨"PRM_HORIZON", 0x20008, 1, 0x0, 1, 0x0, false, 0x2710, 0x0, 0xFFFFFFFF, 0x0, 0x0, 0x0, 0x0, 0x0, [⟨31, 0, 1, 4294967295, false⟩]⟩,
  ⟨"PRM_PACE", 0x2000C, 1, 0x0, 1, 0x0, false, 0x186A0, 0x0, 0xFFFFFF, 0x0, 0x0, 0x0, 0xFF000000, 0x0, []⟩,
  ⟨"PRM_RESERVED", 0x20010, 1, 0x0, 1, 0x0, false, 0x0, 0x0, 0x0, 0x0, 0x0, 0x0, 0xFFFF0000, 0x0, []⟩,
  ⟨"PRM_EVENTS", 0x20014, 1, 0x0, 1, 0x0, false, 0x0, 0x0, 0x0, 0x3F, 0x0, 0x0, 0xFFFFFFC0, 0x0, []⟩,
  ⟨"PRM_BREACH_DIE", 0x20018, 1, 0x0, 1, 0x0, true, 0x0, 0x0, 0x0, 0xFFFFFFFFFFFFFFFF, 0x0, 0x0, 0x0, 0x0, []⟩,
  ⟨"PRM_ADMITTED", 0x20020, 1, 0x0, 1, 0x0, true, 0x0, 0x0, 0x0, 0x0, 0x0, 0x0, 0x0, 0x0, []⟩,
  ⟨"PRM_REFUSED", 0x20028, 1, 0x0, 1, 0x0, false, 0x0, 0x0, 0x0, 0x0, 0x0, 0x0, 0x0, 0x0, []⟩,
  ⟨"PRM_VOIDS", 0x2002C, 1, 0x0, 1, 0x0, false, 0x0, 0x0, 0x0, 0x0, 0x0, 0x0, 0x0, 0x0, []⟩,
  ⟨"PRM_BREACHES", 0x20030, 1, 0x0, 1, 0x0, false, 0x0, 0x0, 0x0, 0x0, 0x0, 0x0, 0x0, 0x0, []⟩,
  ⟨"PRM_HBM", 0x20100, 48, 0x4, 1, 0x0, false, 0x4B0, 0x0, 0xFFF, 0x0, 0x0, 0x0, 0xFFFFF000, 0x0, [⟨10, 0, 1, 2047, false⟩]⟩,
  ⟨"PRM_CORNER", 0x20200, 62, 0x4, 1, 0x0, false, 0x0, 0x0, 0x0, 0x0, 0x0, 0x0, 0xFFFC0000, 0x0, []⟩,
  ⟨"GATE_CTRL", 0x30000, 1, 0x0, 1, 0x0, false, 0xF4240, 0x1000000, 0xFFFFFF, 0x0, 0x0, 0x0, 0xFE000000, 0x0, [⟨23, 0, 1000, 16777215, false⟩]⟩,
  ⟨"GATE_STATUS", 0x30004, 1, 0x0, 1, 0x0, false, 0x0, 0x0, 0x0, 0x0, 0x0, 0x0, 0xFFF8, 0x0, []⟩,
  ⟨"GATE_EVENTS", 0x30008, 1, 0x0, 1, 0x0, false, 0x0, 0x0, 0x0, 0x1F, 0x0, 0x0, 0xFFFFFFE0, 0x0, []⟩,
  ⟨"GATE_CLOSED_COUNT", 0x3000C, 1, 0x0, 1, 0x0, false, 0x0, 0x0, 0x0, 0x0, 0x0, 0x0, 0x0, 0x0, []⟩,
  ⟨"COB_STEP", 0x30100, 1, 0x0, 1, 0x0, true, 0x0, 0x0, 0x0, 0x0, 0x0, 0xFFFFFFFFFFFF, 0xFFFF000000000000, 0x0, []⟩,
  ⟨"COB_HYPER", 0x30108, 1, 0x0, 1, 0x0, true, 0x0, 0x0, 0x0, 0x0, 0x0, 0xFFFFFFFFF000, 0xFFFF000000000FFF, 0x0, []⟩,
  ⟨"COB_SCHED", 0x30110, 1, 0x0, 1, 0x0, true, 0x0, 0x0, 0x0, 0x0, 0x0, 0xFFFFFFFFF000, 0xFFFF000000000FFF, 0x0, []⟩,
  ⟨"COB_CLIPNORM", 0x30118, 1, 0x0, 1, 0x0, false, 0x0, 0x0, 0xFFFFFFFF, 0x0, 0x0, 0x0, 0x0, 0x0, [⟨31, 0, 0, 2139095040, false⟩]⟩,
  ⟨"COB_CLIP", 0x3011C, 1, 0x0, 1, 0x0, false, 0x3F800000, 0x0, 0x0, 0x0, 0x0, 0x0, 0x0, 0x0, []⟩,
  ⟨"MEM_CTRL", 0x30200, 1, 0x0, 1, 0x0, false, 0x0, 0x2, 0x0, 0x0, 0x0, 0x0, 0xFFFFFFFC, 0x0, []⟩]

/-- Part 2 of the register map (R433). -/
def regRows2 : List RegRow := [
  ⟨"RT_COUNT", 0x30204, 1, 0x0, 1, 0x0, false, 0x0, 0x0, 0x1FFFFFF, 0x0, 0x0, 0x0, 0xFE000000, 0x0, [⟨24, 0, 0, 16777216, false⟩]⟩,
  ⟨"RT_BASE", 0x30208, 1, 0x0, 1, 0x0, true, 0x0, 0x0, 0xFFFFFFFFF000, 0x0, 0x0, 0x0, 0xFFFF000000000FFF, 0x0, []⟩,
  ⟨"NEA_COORD", 0x40000, 1, 0x0, 1, 0x0, false, 0x0, 0x0, 0x3FFFFF, 0x0, 0x0, 0x0, 0xFFC00000, 0x0, []⟩,
  ⟨"NEA_CTRL", 0x40004, 1, 0x0, 1, 0x0, false, 0x0, 0x1, 0x0, 0x0, 0x0, 0x0, 0xFFFFFFFE, 0x0, []⟩,
  ⟨"NEA_GROUPS", 0x40008, 1, 0x0, 1, 0x0, true, 0x0, 0x0, 0x7FFFFFFFFF000, 0x0, 0x0, 0x0, 0xFFF8000000000FFF, 0x0, []⟩,
  ⟨"NEA_EVENTS", 0x40010, 1, 0x0, 1, 0x0, false, 0x0, 0x0, 0x0, 0x3F, 0x0, 0x0, 0xFFFFFFC0, 0x0, []⟩,
  ⟨"NEA_EXCLUDED", 0x40014, 1, 0x0, 1, 0x0, false, 0x0, 0x0, 0x0, 0x0, 0x0, 0x0, 0x0, 0x0, []⟩,
  ⟨"NEA_LATE", 0x40018, 1, 0x0, 1, 0x0, false, 0x0, 0x0, 0x0, 0x0, 0x0, 0x0, 0x0, 0x0, []⟩,
  ⟨"NEA_DUP_BLOCKS", 0x4001C, 1, 0x0, 1, 0x0, false, 0x0, 0x0, 0x0, 0x0, 0x0, 0x0, 0x0, 0x0, []⟩,
  ⟨"NEA_DROPS", 0x40020, 1, 0x0, 1, 0x0, false, 0x0, 0x0, 0x0, 0x0, 0x0, 0x0, 0x0, 0x0, []⟩,
  ⟨"NEA_EPOCH_DROPS", 0x40024, 1, 0x0, 1, 0x0, false, 0x0, 0x0, 0x0, 0x0, 0x0, 0x0, 0x0, 0x0, []⟩,
  ⟨"NEA_RESENDS", 0x40028, 1, 0x0, 1, 0x0, false, 0x0, 0x0, 0x0, 0x0, 0x0, 0x0, 0x0, 0x0, []⟩,
  ⟨"FX_TABLE", 0x40100, 1, 0x0, 1, 0x0, true, 0x0, 0x0, 0xFFFFFFFFF000, 0x0, 0x0, 0x0, 0xFFFF000000000FFF, 0x0, []⟩,
  ⟨"FX_CFG", 0x40108, 1, 0x0, 1, 0x0, false, 0xBE0F88B5, 0x0, 0xFFFFFFFF, 0x0, 0x0, 0x0, 0x0, 0x0, []⟩,
  ⟨"FX_CTRL", 0x4010C, 1, 0x0, 1, 0x0, false, 0x0, 0x1, 0x2, 0x0, 0x0, 0x0, 0xFFFFFFFC, 0x0, []⟩,
  ⟨"FX_STALE", 0x40110, 1, 0x0, 1, 0x0, false, 0x3F000000, 0x0, 0xFFFFFFFF, 0x0, 0x0, 0x0, 0x0, 0x0, [⟨31, 0, 0, 1065353216, false⟩]⟩,
  ⟨"FX_CUTOFF", 0x40114, 1, 0x0, 1, 0x0, false, 0xEA60, 0x0, 0xFFFFFF, 0x0, 0x0, 0x0, 0xFF000000, 0x0, [⟨23, 0, 1000, 16777215, false⟩]⟩,
  ⟨"FX_MWAIT", 0x40118, 1, 0x0, 1, 0x0, false, 0x186A0, 0x0, 0xFFFFFF, 0x0, 0x0, 0x0, 0xFF000000, 0x0, [⟨23, 0, 1000, 16777215, false⟩]⟩,
  ⟨"FX_ROUND", 0x4011C, 1, 0x0, 1, 0x0, false, 0x0, 0x0, 0x0, 0x0, 0x0, 0x0, 0x0, 0x0, []⟩,
  ⟨"FX_EVENTS", 0x40120, 1, 0x0, 1, 0x0, false, 0x0, 0x0, 0x0, 0x3FF, 0x0, 0x0, 0xFFFFFC00, 0x0, []⟩,
  ⟨"FX_DUP", 0x40124, 1, 0x0, 1, 0x0, false, 0x0, 0x0, 0x0, 0x0, 0x0, 0x0, 0x0, 0x0, []⟩,
  ⟨"FX_STALE_DROPS", 0x40128, 1, 0x0, 1, 0x0, false, 0x0, 0x0, 0x0, 0x0, 0x0, 0x0, 0x0, 0x0, []⟩,
  ⟨"SEC_STATUS", 0x50000, 1, 0x0, 1, 0x0, false, 0x0, 0x0, 0x0, 0x0, 0x0, 0x0, 0xFFFFC000, 0x0, []⟩,
  ⟨"SEC_EVENTS", 0x50004, 1, 0x0, 1, 0x0, false, 0x0, 0x0, 0x0, 0x7, 0x0, 0x0, 0xFFFFFFF8, 0x0, []⟩,
  ⟨"SEC_CTRL", 0x50008, 1, 0x0, 1, 0x0, false, 0x0, 0x1, 0x0, 0x0, 0x0, 0x0, 0xFFFFFFFE, 0x0, []⟩,
  ⟨"SEC_AUTHFAIL", 0x5000C, 1, 0x0, 1, 0x0, false, 0x0, 0x0, 0x0, 0x0, 0x0, 0x0, 0x0, 0x0, []⟩,
  ⟨"SEC_SESSION", 0x50010, 1, 0x0, 1, 0x0, true, 0x0, 0x0, 0x0, 0x0, 0x0, 0x0, 0x0, 0x0, []⟩,
  ⟨"SEC_CMDCTR", 0x50018, 1, 0x0, 1, 0x0, true, 0x0, 0x0, 0x0, 0x0, 0x0, 0x0, 0x0, 0x0, []⟩,
  ⟨"REC_STATUS", 0x60000, 1, 0x0, 1, 0x0, false, 0x0, 0x0, 0x0, 0x0, 0x0, 0x0, 0xFFFFFFF0, 0x0, []⟩,
  ⟨"REC_CTRL", 0x60004, 1, 0x0, 1, 0x0, false, 0x0, 0x9, 0x6, 0x0, 0x0, 0x0, 0xFFFFFFF0, 0x6, []⟩,
  ⟨"REC_FREEZE", 0x60008, 1, 0x0, 1, 0x0, false, 0x2710, 0x0, 0xFFFFFF, 0x0, 0x0, 0x0, 0xFF000000, 0xFFFFFF, [⟨23, 0, 100, 16777215, false⟩]⟩,
  ⟨"REC_WINDOW", 0x6000C, 1, 0x0, 1, 0x0, false, 0x0, 0x1FF, 0x0, 0x0, 0x0, 0x0, 0xFFFFFE00, 0x0, []⟩,
  ⟨"REC_SEQ", 0x60010, 1, 0x0, 1, 0x0, false, 0x0, 0x0, 0x0, 0x0, 0x0, 0x0, 0x0, 0x0, []⟩,
  ⟨"REC_LOST", 0x60014, 1, 0x0, 1, 0x0, false, 0x0, 0x0, 0x0, 0x0, 0x0, 0x0, 0x0, 0x0, []⟩,
  ⟨"REC_EVENTS", 0x60018, 1, 0x0, 1, 0x0, false, 0x0, 0x0, 0x0, 0x7, 0x0, 0x0, 0xFFFFFFF8, 0x0, []⟩,
  ⟨"REC_CLEAR", 0x60020, 3, 0x4, 1, 0x0, false, 0x0, 0x0, 0x0, 0x0, 0x0, 0x0, 0x0, 0x0, []⟩,
  ⟨"CLK_STATUS", 0x70000, 1, 0x0, 1, 0x0, false, 0x0, 0x0, 0x0, 0x0, 0x0, 0x0, 0xFFFFF800, 0x0, []⟩,
  ⟨"CLK_CTRL", 0x70004, 1, 0x0, 1, 0x0, false, 0x4, 0x103, 0xFC, 0x0, 0x0, 0x0, 0xFFFFFE00, 0x0, [⟨1, 0, 0, 2, false⟩, ⟨7, 4, 0, 11, false⟩]⟩,
  ⟨"CLK_CKO", 0x70008, 1, 0x0, 1, 0x0, false, 0x0, 0x0, 0xFFF, 0x0, 0x0, 0x0, 0xFFFFF000, 0x0, []⟩,
  ⟨"CLK_PROFILE", 0x7000C, 1, 0x0, 1, 0x0, false, 0x0, 0x0, 0x0, 0x0, 0x0, 0x0, 0xF000FFE0, 0x0, []⟩,
  ⟨"CLK_EVENTS", 0x70010, 1, 0x0, 1, 0x0, false, 0x0, 0x0, 0x0, 0x7F, 0x0, 0x0, 0xFFFFFF80, 0x0, []⟩,
  ⟨"CLK_XDROPS", 0x70014, 1, 0x0, 1, 0x0, false, 0x0, 0x0, 0x0, 0x0, 0x0, 0x0, 0x0, 0x0, []⟩,
  ⟨"CLK_ISLAND", 0x70018, 1, 0x0, 1, 0x0, true, 0x0, 0x0, 0x0, 0x0, 0x0, 0x0, 0x0, 0x0, []⟩,
  ⟨"CLK_TIME", 0x70020, 1, 0x0, 1, 0x0, true, 0x0, 0x0, 0x0, 0x0, 0x0, 0x0, 0x0, 0x0, []⟩,
  ⟨"CLK_TIME_SET", 0x70028, 1, 0x0, 1, 0x0, true, 0x0, 0x0, 0xFFFFFFFFFFFFFFFF, 0x0, 0x0, 0x0, 0x0, 0xFFFFFFFFFFFFFFFF, []⟩,
  ⟨"RST_CAUSE", 0x70100, 1, 0x0, 1, 0x0, true, 0x100, 0x0, 0x0, 0x0, 0x0, 0x0, 0xFFFF0000FFF800F8, 0x0, []⟩,
  ⟨"RST_HELD", 0x70108, 1, 0x0, 1, 0x0, true, 0x0, 0x0, 0x0, 0x0, 0x0, 0x0, 0x0, 0x0, []⟩,
  ⟨"RST_COUNT", 0x70110, 1, 0x0, 1, 0x0, false, 0x0, 0x0, 0x0, 0x0, 0x0, 0x0, 0x0, 0x0, []⟩]

/-- Part 3 of the register map (R433). -/
def regRows3 : List RegRow := [
  ⟨"RST_HELD_HI", 0x70114, 1, 0x0, 1, 0x0, false, 0x0, 0x0, 0x0, 0x0, 0x0, 0x0, 0x0, 0x0, []⟩,
  ⟨"FUSE_CLK", 0x70118, 1, 0x0, 1, 0x0, false, 0x0, 0x0, 0x0, 0x0, 0x0, 0x0, 0xFFFF80E0, 0x0, []⟩,
  ⟨"PWR_STATUS", 0x70200, 1, 0x0, 1, 0x0, false, 0x8, 0x0, 0x0, 0x0, 0x0, 0x0, 0xFFFFFFF0, 0x0, []⟩,
  ⟨"PWR_CTRL", 0x70204, 1, 0x0, 1, 0x0, false, 0x0, 0x3, 0x0, 0x0, 0x0, 0x0, 0xFFFFFFFC, 0x0, []⟩,
  ⟨"PWR_EN", 0x70208, 1, 0x0, 1, 0x0, true, 0xFFFFFFFFFFFFFFFF, 0xFFFFFFFFFFFFFFFF, 0x0, 0x0, 0x0, 0x0, 0x0, 0x0, []⟩,
  ⟨"PWR_EN_HI", 0x70210, 1, 0x0, 1, 0x0, false, 0xFFFFFFFF, 0xFFFFFFF, 0x0, 0x0, 0x0, 0x0, 0x0, 0x0, []⟩,
  ⟨"PWR_ON_HI", 0x70214, 1, 0x0, 1, 0x0, false, 0x0, 0x0, 0x0, 0x0, 0x0, 0x0, 0x0, 0x0, []⟩,
  ⟨"PWR_ON", 0x70218, 1, 0x0, 1, 0x0, true, 0x0, 0x0, 0x0, 0x0, 0x0, 0x0, 0x0, 0x0, []⟩,
  ⟨"PWR_LIMIT", 0x70220, 1, 0x0, 1, 0x0, false, 0x1130, 0x0, 0x0, 0x0, 0x0, 0x0, 0xFFFFE000, 0x0, []⟩,
  ⟨"PWR_INPUT", 0x70224, 1, 0x0, 1, 0x0, false, 0x0, 0x0, 0x0, 0x0, 0x0, 0x0, 0x0, 0x0, []⟩,
  ⟨"PWR_AVG", 0x70228, 1, 0x0, 1, 0x0, false, 0x0, 0x0, 0x0, 0x0, 0x0, 0x0, 0x0, 0x0, []⟩,
  ⟨"PWR_PEAK", 0x7022C, 1, 0x0, 1, 0x0, false, 0x0, 0x0, 0x0, 0x0, 0x0, 0x0, 0xFFFF0000, 0x0, []⟩,
  ⟨"COOLANT", 0x70230, 1, 0x0, 1, 0x0, false, 0x0, 0x0, 0x0, 0x0, 0x0, 0x0, 0x0, 0x0, []⟩,
  ⟨"PWR_EVENTS", 0x70234, 1, 0x0, 1, 0x0, false, 0x0, 0x0, 0x0, 0xFF, 0x0, 0x0, 0xFFFFFF00, 0x0, []⟩,
  ⟨"PWR_WAKE_EN", 0x70238, 1, 0x0, 1, 0x0, false, 0x3, 0xF, 0x0, 0x0, 0x0, 0x0, 0xFFFFFFF0, 0x0, []⟩,
  ⟨"TEMP_DIE", 0x70300, 64, 0x4, 1, 0x0, false, 0x0, 0x0, 0x0, 0x0, 0x0, 0x0, 0xFFFF0000, 0x0, []⟩,
  ⟨"VCORE", 0x70400, 48, 0x4, 1, 0x0, false, 0x0, 0x0, 0x0, 0x0, 0x0, 0x0, 0xFFFFF000, 0x0, []⟩,
  ⟨"SUR_GEN", 0x70500, 1, 0x0, 1, 0x0, false, 0x0, 0x0, 0x0, 0x0, 0x0, 0x0, 0x0, 0x0, []⟩,
  ⟨"SUR_EVENTS", 0x70504, 1, 0x0, 1, 0x0, false, 0x0, 0x0, 0x0, 0xF, 0x0, 0x0, 0xFFFFFFF0, 0x0, []⟩,
  ⟨"ERR_EVENTS", 0x70600, 1, 0x0, 1, 0x0, false, 0x0, 0x0, 0x0, 0x1FF, 0x0, 0x0, 0xFFFFFE00, 0x0, []⟩,
  ⟨"ERR_ALERT_EN", 0x70604, 1, 0x0, 1, 0x0, false, 0x1FA, 0x1FF, 0x0, 0x0, 0x0, 0x0, 0xFFFFFE00, 0x0, []⟩,
  ⟨"ERR_CTRL", 0x70608, 1, 0x0, 1, 0x0, false, 0x8, 0x10, 0xF, 0x0, 0x0, 0x0, 0xFFFFFFE0, 0x0, [⟨3, 0, 2, 15, true⟩]⟩,
  ⟨"ERR_CONTAIN_PORT", 0x7060C, 1, 0x0, 1, 0x0, false, 0x0, 0x0, 0x0, 0x0, 0x0, 0x0, 0xFFFC0000, 0x0, []⟩,
  ⟨"ERR_CONTAIN", 0x70610, 1, 0x0, 1, 0x0, true, 0x0, 0x0, 0x0, 0x0, 0x0, 0x0, 0x0, 0x0, []⟩,
  ⟨"ERR_RELEASE", 0x70618, 1, 0x0, 1, 0x0, true, 0x0, 0x0, 0x0, 0x0, 0xFFFFFFFFFFFFFFFF, 0x0, 0x0, 0x0, []⟩,
  ⟨"ERR_RELEASE_PORT", 0x70620, 1, 0x0, 1, 0x0, false, 0x0, 0x0, 0x0, 0x0, 0x3FFFF, 0x0, 0xFFFC0000, 0x0, []⟩,
  ⟨"ERR_UNCORR", 0x70624, 1, 0x0, 1, 0x0, false, 0x0, 0x0, 0x0, 0x0, 0x0, 0x0, 0x0, 0x0, []⟩,
  ⟨"ERR_PAR_REPLAYS", 0x70628, 1, 0x0, 1, 0x0, true, 0x0, 0x0, 0x0, 0x0, 0x0, 0x0, 0x0, 0x0, []⟩,
  ⟨"ERR_CORRECTED", 0x70630, 1, 0x0, 1, 0x0, true, 0x0, 0x0, 0x0, 0x0, 0x0, 0x0, 0x0, 0x0, []⟩,
  ⟨"REC_OPTIME", 0x70638, 1, 0x0, 1, 0x0, true, 0x0, 0x0, 0x0, 0x0, 0x0, 0x0, 0xFFFF000000000000, 0x0, []⟩,
  ⟨"REC_CYCLES", 0x70640, 1, 0x0, 1, 0x0, false, 0x0, 0x0, 0x0, 0x0, 0x0, 0x0, 0x0, 0x0, []⟩,
  ⟨"ARY_EVENTS", 0x100000, 48, 0x10000, 1, 0x0, false, 0x0, 0x0, 0x0, 0x7F, 0x0, 0x0, 0xFFFFFF80, 0x0, []⟩,
  ⟨"ARY_CTRL", 0x100004, 48, 0x10000, 1, 0x0, false, 0x1, 0x2, 0x1, 0x0, 0x0, 0x0, 0xFFFFFFFC, 0x1, []⟩,
  ⟨"ARY_REPLAYS", 0x100008, 48, 0x10000, 1, 0x0, false, 0x0, 0x0, 0x0, 0x0, 0x0, 0x0, 0x0, 0x0, []⟩,
  ⟨"ARY_ZERO_ROWS", 0x10000C, 48, 0x10000, 1, 0x0, false, 0x0, 0x0, 0x0, 0x0, 0x0, 0x0, 0x0, 0x0, []⟩,
  ⟨"AWL_EVENTS", 0x100100, 48, 0x10000, 1, 0x0, false, 0x0, 0x0, 0x0, 0xFF, 0x0, 0x0, 0xFFFFFF00, 0x0, []⟩,
  ⟨"AWL_CTRL", 0x100104, 48, 0x10000, 1, 0x0, false, 0x0, 0x1, 0x0, 0x0, 0x0, 0x0, 0xFFFFFFFE, 0x0, []⟩,
  ⟨"AWL_FAULT", 0x100108, 48, 0x10000, 1, 0x0, false, 0x0, 0x0, 0x0, 0x0, 0x0, 0x0, 0xE000FF00, 0x0, []⟩,
  ⟨"AWL_OPS", 0x10010C, 48, 0x10000, 1, 0x0, false, 0x0, 0x0, 0x0, 0x0, 0x0, 0x0, 0x0, 0x0, []⟩,
  ⟨"AWL_EMPTY_SEGS", 0x100110, 48, 0x10000, 1, 0x0, false, 0x0, 0x0, 0x0, 0x0, 0x0, 0x0, 0x0, 0x0, []⟩,
  ⟨"PRG_STATUS", 0x100200, 48, 0x10000, 1, 0x0, false, 0x0, 0x0, 0x0, 0x0, 0x0, 0x0, 0xFF0000F8, 0x0, []⟩,
  ⟨"PRG_FAULT", 0x100204, 48, 0x10000, 1, 0x0, false, 0x0, 0x0, 0x0, 0x0, 0x0, 0x0, 0xC000FC00, 0x0, []⟩,
  ⟨"PRG_CTRL", 0x100208, 48, 0x10000, 1, 0x0, false, 0x1, 0x1, 0x0, 0x0, 0x0, 0x0, 0xFFFFFFFE, 0x0, []⟩,
  ⟨"PRG_METER", 0x10020C, 48, 0x10000, 1, 0x0, false, 0x0, 0x0, 0x0, 0x0, 0x0, 0x0, 0x0, 0x0, []⟩,
  ⟨"GATE_LOSS", 0x100300, 48, 0x10000, 1, 0x0, false, 0x0, 0x0, 0x7FFFFFC, 0x0, 0x0, 0x0, 0xF8000003, 0x0, []⟩,
  ⟨"GATE_EXPECT", 0x100304, 48, 0x10000, 1, 0x0, false, 0x0, 0x0, 0x1FF, 0x0, 0x0, 0x0, 0xFFFFFE00, 0x0, [⟨8, 0, 0, 256, false⟩]⟩,
  ⟨"COB_JBASE", 0x100400, 48, 0x10000, 1, 0x0, true, 0x0, 0x0, 0x0, 0x0, 0x0, 0xFFFFFFFFF000, 0xFFFF000000000FFF, 0x0, []⟩,
  ⟨"COB_CTRL", 0x100408, 48, 0x10000, 1, 0x0, false, 0x0, 0x1, 0x0, 0x0, 0x0, 0x0, 0xFFFFFFFE, 0x0, []⟩]

/-- Part 4 of the register map (R433). -/
def regRows4 : List RegRow := [
  ⟨"COB_SKIPPED", 0x10040C, 48, 0x10000, 1, 0x0, false, 0x0, 0x0, 0x0, 0x0, 0x0, 0x0, 0x0, 0x0, []⟩,
  ⟨"COB_REPAIRS", 0x100410, 48, 0x10000, 1, 0x0, false, 0x0, 0x0, 0x0, 0x0, 0x0, 0x0, 0x0, 0x0, []⟩,
  ⟨"COB_EVENTS", 0x100414, 48, 0x10000, 1, 0x0, false, 0x0, 0x0, 0x0, 0xFF, 0x0, 0x0, 0xFFFFFF00, 0x0, []⟩,
  ⟨"VT_DROP", 0x102000, 48, 0x10000, 1, 0x0, true, 0x0, 0x0, 0x0, 0x0, 0xFFFFFFFFFFFFFFFF, 0x0, 0x0, 0x0, []⟩,
  ⟨"VT_SLOT0", 0x101000, 48, 0x10000, 64, 0x40, true, 0x0, 0x0, 0xFFFFFFFFF000, 0x0, 0x0, 0x0, 0xFFFF000000000FFF, 0x0, []⟩,
  ⟨"VT_SLOT1", 0x101008, 48, 0x10000, 64, 0x40, true, 0x0, 0x0, 0xFFFFFFFFF000, 0x0, 0x0, 0x0, 0xFFFF000000000FFF, 0x0, []⟩,
  ⟨"VT_CFG", 0x101010, 48, 0x10000, 64, 0x40, false, 0x0, 0x0, 0x800FFFFF, 0x0, 0x0, 0x0, 0x7FF00000, 0x0, [⟨19, 0, 1, 1048575, false⟩]⟩,
  ⟨"VT_STATE", 0x101014, 48, 0x10000, 64, 0x40, false, 0x0, 0x0, 0x0, 0x0, 0x0, 0x0, 0xFFF80000, 0x0, []⟩,
  ⟨"VT_VER0", 0x101018, 48, 0x10000, 64, 0x40, false, 0x0, 0x0, 0x0, 0x0, 0x0, 0x0, 0x0, 0x0, []⟩,
  ⟨"VT_VER1", 0x10101C, 48, 0x10000, 64, 0x40, false, 0x0, 0x0, 0x0, 0x0, 0x0, 0x0, 0x0, 0x0, []⟩,
  ⟨"VT_HOLD0", 0x101020, 48, 0x10000, 64, 0x40, true, 0x0, 0x0, 0x0, 0x0, 0x0, 0x0, 0x0, 0x0, []⟩,
  ⟨"VT_HOLD1", 0x101028, 48, 0x10000, 64, 0x40, true, 0x0, 0x0, 0x0, 0x0, 0x0, 0x0, 0x0, 0x0, []⟩,
  ⟨"FT_STATUS", 0x400000, 8, 0x10000, 1, 0x0, false, 0x0, 0x0, 0x0, 0x0, 0x0, 0x0, 0xFFFFFFFC, 0x0, []⟩,
  ⟨"FT_CAPACITY", 0x400004, 8, 0x10000, 1, 0x0, false, 0x0, 0x0, 0x0, 0x0, 0x0, 0x0, 0x0, 0x0, []⟩,
  ⟨"FT_WRITTEN", 0x400008, 8, 0x10000, 1, 0x0, true, 0x0, 0x0, 0x0, 0x0, 0x0, 0x0, 0x0, 0x0, []⟩,
  ⟨"FT_DAY", 0x400010, 8, 0x10000, 1, 0x0, true, 0x0, 0x0, 0x0, 0x0, 0x0, 0x0, 0xFFFF000000000000, 0x0, []⟩,
  ⟨"FT_LIFE", 0x400018, 8, 0x10000, 1, 0x0, false, 0x0, 0x0, 0x0, 0x0, 0x0, 0x0, 0xFFFFF800, 0x0, []⟩,
  ⟨"FT_EVENTS", 0x40001C, 8, 0x10000, 1, 0x0, false, 0x0, 0x0, 0x0, 0x3F, 0x0, 0x0, 0xFFFFFFC0, 0x0, []⟩,
  ⟨"RC_BASE", 0x400020, 8, 0x10000, 1, 0x0, true, 0x0, 0x0, 0xFFFFFFFFF000, 0x0, 0x0, 0x0, 0xFFFF000000000FFF, 0x0, []⟩,
  ⟨"RC_CFG", 0x400028, 8, 0x10000, 1, 0x0, false, 0x0, 0x0, 0xFFFFFF, 0x0, 0x0, 0x0, 0xFF000000, 0x0, []⟩,
  ⟨"RC_LINE", 0x40002C, 8, 0x10000, 1, 0x0, false, 0x0, 0x0, 0x3FFFF, 0x0, 0x0, 0x0, 0xFFFC0000, 0x0, [⟨17, 0, 1, 262143, false⟩]⟩,
  ⟨"NP_STATUS", 0x480000, 6, 0x10000, 2, 0x100, false, 0x0, 0x0, 0x0, 0x0, 0x0, 0x0, 0xFFF00000, 0x0, []⟩,
  ⟨"NP_CTRL", 0x480004, 6, 0x10000, 2, 0x100, false, 0x1, 0x0, 0x1, 0x0, 0x2, 0x0, 0xFFFFFFFC, 0x0, []⟩,
  ⟨"NP_FEC_CORR", 0x480008, 6, 0x10000, 2, 0x100, true, 0x0, 0x0, 0x0, 0x0, 0x0, 0x0, 0x0, 0x0, []⟩,
  ⟨"NP_CRC_ERR", 0x480010, 6, 0x10000, 2, 0x100, false, 0x0, 0x0, 0x0, 0x0, 0x0, 0x0, 0x0, 0x0, []⟩,
  ⟨"NP_REPLAYS", 0x480014, 6, 0x10000, 2, 0x100, false, 0x0, 0x0, 0x0, 0x0, 0x0, 0x0, 0x0, 0x0, []⟩,
  ⟨"FP_STATUS", 0x480200, 6, 0x10000, 1, 0x0, false, 0x80, 0x0, 0x0, 0x0, 0x0, 0x0, 0xFFFFFF00, 0x0, []⟩,
  ⟨"FP_CTRL", 0x480204, 6, 0x10000, 1, 0x0, false, 0x0, 0x0, 0x7FFF, 0x0, 0x8000, 0x0, 0xFFFF0000, 0x0, []⟩,
  ⟨"FP_RATE", 0x480208, 6, 0x10000, 1, 0x0, false, 0x190000, 0x0, 0x7F03FF, 0x0, 0x0, 0x0, 0xFF80FC00, 0x0, [⟨9, 0, 0, 800, false⟩, ⟨22, 16, 0, 90, false⟩]⟩,
  ⟨"FP_ENV", 0x48020C, 6, 0x10000, 1, 0x0, false, 0x649C40, 0x0, 0xFFFFFFFF, 0x0, 0x0, 0x0, 0x0, 0x0, [⟨15, 0, 1, 40000, false⟩]⟩,
  ⟨"FP_WINDOW", 0x480210, 6, 0x10000, 1, 0x0, false, 0xA0000, 0x0, 0x1FFFFF, 0x0, 0x0, 0x0, 0xFFE00000, 0x0, [⟨20, 0, 1, 1048576, false⟩]⟩,
  ⟨"FP_RTT", 0x480214, 6, 0x10000, 1, 0x0, false, 0x0, 0x0, 0x0, 0x0, 0x0, 0x0, 0x0, 0x0, []⟩,
  ⟨"FP_DREF", 0x480218, 6, 0x10000, 1, 0x0, true, 0x0, 0x0, 0x0, 0x0, 0x0, 0x0, 0x0, 0x0, []⟩,
  ⟨"FP_EVENTS", 0x480220, 6, 0x10000, 1, 0x0, false, 0x0, 0x0, 0x0, 0x1F, 0x0, 0x0, 0xFFFFFFE0, 0x0, []⟩,
  ⟨"FP_RETX", 0x480224, 6, 0x10000, 1, 0x0, false, 0x0, 0x0, 0x0, 0x0, 0x0, 0x0, 0x0, 0x0, []⟩,
  ⟨"FP_TX_FRAMES", 0x480228, 6, 0x10000, 1, 0x0, true, 0x0, 0x0, 0x0, 0x0, 0x0, 0x0, 0x0, 0x0, []⟩,
  ⟨"FP_RX_FRAMES", 0x480230, 6, 0x10000, 1, 0x0, true, 0x0, 0x0, 0x0, 0x0, 0x0, 0x0, 0x0, 0x0, []⟩,
  ⟨"FP_BAD", 0x480238, 6, 0x10000, 1, 0x0, false, 0x0, 0x0, 0x0, 0x0, 0x0, 0x0, 0x0, 0x0, []⟩,
  ⟨"FP_DUP", 0x48023C, 6, 0x10000, 1, 0x0, false, 0x0, 0x0, 0x0, 0x0, 0x0, 0x0, 0x0, 0x0, []⟩,
  ⟨"FP_PATH_CHANGES", 0x480240, 6, 0x10000, 1, 0x0, false, 0x0, 0x0, 0x0, 0x0, 0x0, 0x0, 0x0, 0x0, []⟩,
  ⟨"SEC_PORT_STATUS", 0x480300, 6, 0x10000, 1, 0x0, false, 0x0, 0x0, 0x0, 0x0, 0x0, 0x0, 0xFFFFFF00, 0x0, []⟩,
  ⟨"SEC_OVERLAP", 0x480304, 6, 0x10000, 1, 0x0, false, 0x0, 0x0, 0xFFFFFF, 0x0, 0x0, 0x0, 0xFF000000, 0x0, [⟨23, 0, 1000, 16777215, true⟩]⟩,
  ⟨"SEC_TXCTR0", 0x480308, 6, 0x10000, 1, 0x0, true, 0x0, 0x0, 0x0, 0x0, 0x0, 0x0, 0x0, 0x0, []⟩,
  ⟨"SEC_TXCTR1", 0x480310, 6, 0x10000, 1, 0x0, true, 0x0, 0x0, 0x0, 0x0, 0x0, 0x0, 0x0, 0x0, []⟩,
  ⟨"SEC_MISMATCH", 0x480318, 6, 0x10000, 1, 0x0, false, 0x0, 0x0, 0x0, 0x0, 0x0, 0x0, 0x0, 0x0, []⟩,
  ⟨"SEC_PORT_EVENTS", 0x48031C, 6, 0x10000, 1, 0x0, false, 0x0, 0x0, 0x0, 0x1F, 0x0, 0x0, 0xFFFFFFE0, 0x0, []⟩]

/-- The register map (R433). -/
def regRows : List RegRow := regRows1 ++ regRows2 ++ regRows3 ++ regRows4

/-- Whether `off` is the first byte of a copy of the register. -/
def RegRow.hits (r : RegRow) (off : Nat) : Bool :=
  if off < r.base then false
  else
    let d := off - r.base
    let i := if r.count0 ≤ 1 then 0 else d / r.stride0
    let e := d - i * r.stride0
    let j := if r.count1 ≤ 1 then 0 else e / r.stride1
    i < r.count0 && j < r.count1 && e - j * r.stride1 == 0

/-- The register whose first byte is `off`. -/
def regRowAt (off : Nat) : Option RegRow := regRows.find? (·.hits off)

/-- The reset word at `off`; 0 where no register begins. -/
def resetWord (off : Nat) : BitVec 64 := BitVec.ofNat 64 ((regRowAt off).elim 0 (·.reset))

end Sys2Proof.Machine
end

