-- ==== Sys2Proof/Machine/State.lean ====
section
/-! DEFINITION. The state of the FX6448: everything the spec gives the module, as plain data; the stops; the state at
reset. -/

namespace Sys2Proof.Machine

/-- Bytes of a store, addresses strictly rising, no entry equal to the store's default byte (`Memory.wf`). -/
abbrev Memory := List Host.Cell

/-- The BAR0 register file: the words of the registers that do not hold their reset word, by rising offset (R433). -/
abbrev RegFile := List (Nat × BitVec 64)

/-! ### Tiles of the accumulator store -/

/-- The class tags of Table FMT-7. -/
inductive Tag where
  | fin | posInf | negInf | nan
  deriving DecidableEq, Repr

/-- A tile is free, in progress or parked (R69). -/
inductive TileStatus where
  | free | inProgress | parked
  deriving DecidableEq, Repr

/-- A tensor descriptor after the loop strides (R115, R126). -/
structure Tensor where
  base : Nat
  scale : Nat
  pitch : Nat
  deriving DecidableEq, Repr

/-- A pass into a tile, with its operands resolved, kept for a re-stream (R75, R77). -/
structure PassRec where
  pair : Nat
  swap : Bool
  krows : Nat
  r0 : Nat
  ms : Nat
  stat : Tensor
  strm : Tensor
  /-- bundle address of its op -/
  bundle : Nat
  deriving DecidableEq, Repr

/-- An output tile (R67 to R76). Lanes and tags list the elements that differ from 0 and FIN; lane `l` of element
`x` is entry `2 x + l`. A Pelun-exact tile lists the binary32 bits of every element a pass has written. -/
structure Tile where
  status : TileStatus := .free
  a48 : Bool := false
  twoLane : Bool := false
  pelun : Bool := false
  rows : Nat := 64
  deep : Nat := 0
  e : Int := 0
  word : BitVec 32 := 0
  kcount : Nat := 0
  /-- K elements at the last spill (R72) -/
  spilled : Nat := 0
  lanes : List (Nat × Int) := []
  tags : List (Nat × Tag) := []
  /-- tags at the last checkpoint (R73, Sequence ARY-1 step 3) -/
  ckTags : List (Nat × Tag) := []
  /-- passes since the last checkpoint, oldest first -/
  passes : List PassRec := []
  /-- elements whose lane went out of range in the last pass, with no replay made yet (Sequence ARY-1 step 1) -/
  marked : List Nat := []
  spillDue : Bool := false
  deriving DecidableEq, Repr

/-! ### Programs -/

/-- An op in a slot's queue: the 64 bits of the slot, the bundle, and the loop indices i0 and i1 of R126. -/
structure SlotOp where
  bits : BitVec 64
  bundle : Nat
  i0 : Nat
  i1 : Nat
  deriving DecidableEq, Repr

/-- A loop being run (R130): first bundle, body length, iterations wanted, iteration index. -/
structure LoopFrame where
  start : Nat
  len : Nat
  count : Nat
  index : Nat
  deriving DecidableEq, Repr

/-- The cost certificate of the loaded program (Table PRG-10). -/
structure Cert where
  path : Nat := 0
  allowance : Nat := 0
  totals : List Nat := [0, 0, 0, 0]
  hbmBytes : Nat := 0
  meshBytes : Nat := 0
  peers : Nat := 0
  quietPoints : Nat := 0
  deriving DecidableEq, Repr

/-- What a run bound at its start: its item, PIN and TAG, the slot selected in each valid entry (R161), the gate
sequence (`none`: it sees CLOSED, R156, R356), the value of COB_STEP (R191). -/
structure RunInfo where
  item : Nat
  pin : Nat
  tag : Nat
  slots : List (Nat × Nat)
  seq : Option Nat
  step : Nat
  isEval : Bool
  deriving DecidableEq, Repr

/-- A store of the tile address space (Table PRG-1). -/
inductive Space where
  | hbm | sram (m : Nat) | awl | acc (t : Nat)
  deriving DecidableEq, Repr

/-- A byte's store and its offset there. -/
structure Place where
  space : Space
  off : Nat
  deriving DecidableEq, Repr

/-- The Awl operation in progress on a die (R94): its record's 64 bytes, its op, the ranges it claims, and, of a combine,
the partials (the place, the length and the image header of each) and the result's place, all as the checks at issue found
them (R110). -/
structure AwlRun where
  record : List Byte
  op : SlotOp
  claims : List (Nat × Nat)
  parts : List (Place × Nat × List Byte) := []
  result : Option Place := none
  deriving DecidableEq, Repr

/-- An update run in progress on a die (R175): its kind as the descriptor codes it, the step it works for, its plan
records, the list position it has reached, and the entries whose step 8 is still to come. -/
structure CobRun where
  item : Nat
  kind : Nat
  k : Nat
  plans : List Nat
  /-- a lazy run's reduced gradients and units, by list position -/
  grads : List Nat := []
  units : List Nat := []
  release : Bool := false
  next : Nat := 0
  entries : List Nat := []
  deriving DecidableEq, Repr

/-- A delay sentinel (R318): last reading in ps, instant it was taken, consecutive misses, faulted. -/
structure Sentinel where
  ps : Nat := 0
  takenAt : Option Nat := none
  misses : Nat := 0
  faulted : Bool := false
  deriving DecidableEq, Repr

/-- A semaphore signal on its way to another die, with the slot and the bundle of its op (R120). -/
structure Signal where
  src : Nat
  dst : Nat
  sem : Nat
  units : Nat
  slot : Nat
  bundle : Nat
  deriving DecidableEq, Repr

/-- A compute die beside its registers and memories (R15). -/
structure Die where
  tiles : List Tile
  codeBytes : Nat := 0
  entry : Nat := 0
  cert : Cert := {}
  fetchAt : Nat := 0
  fetching : Bool := false
  ctrl : Option SlotOp := none
  /-- the CTRL op in hand has issued: its units are taken and it waits (R117) -/
  ctrlIssued : Bool := false
  qMove : List SlotOp := []
  qArray : List SlotOp := []
  qAwl : List SlotOp := []
  loops : List LoopFrame := []
  sems : List (BitVec 16)
  sums : List Nat := [0, 0, 0, 0]
  allowanceLeft : Nat := 0
  lastWasPass : Bool := false
  run : Option RunInfo := none
  /-- nanoseconds with at least one unit executing, and the instant up to which they are counted (R134) -/
  meterNs : Nat := 0
  busyTo : Nat := 0
  awl : Option AwlRun := none
  /-- slots of the loss board posted in the current sequence, with their finiteness (R151) -/
  losses : List (Nat × Bool) := []
  /-- blocks of entries marked suspect (R195) -/
  suspects : List (Nat × Nat) := []
  /-- digest roots of the last step end: entry, version, root (R194) -/
  roots : List (Nat × Nat × BitVec 64) := []
  /-- the step whose end the die last digested -/
  digested : Option Nat := none
  cob : Option CobRun := none
  /-- status words of drains that are not raw, by the address of the output they stand beside (R78; log 95) -/
  drainStatus : List (Nat × Nat) := []
  /-- the die has not been reset since its journal header was opened (R192) -/
  opened : Bool := false
  deriving DecidableEq, Repr

/-- A compute die that holds nothing. -/
def Die.reset : Die := { tiles := List.replicate 32 {}, sems := List.replicate 64 0 }

/-! ### Host interface and Fitter -/

/-- The units an item books (Table PRM-2). -/
inductive BookUnit where
  | die (n : Nat) | nearOut (p : Nat) | farShare (p : Nat) | flash (j : Nat) | hub (j : Nat) | pd92
  deriving DecidableEq, Repr

/-- A ring pair beside its registers (R336 to R340, R357). -/
structure Ring where
  mirrorTail : BitVec 32 := 0
  mirrorHead : BitVec 32 := 0
  /-- the furthest valid sq_tail and cq_head seen (R337) -/
  tail : BitVec 32 := 0
  head : BitVec 32 := 0
  /-- descriptors taken since the ring was enabled (R343) -/
  count : Nat := 0
  /-- completion records reserved for accepted items, and decision records reserved for taken descriptors -/
  reservedRecords : Nat := 0
  unsignalled : Nat := 0
  firstUnsignalled : Option Nat := none
  sinceWriteback : Nat := 0
  deriving DecidableEq, Repr

/-- A descriptor taken and not yet decided (R338). -/
structure Taken where
  ring : Nat
  index : Nat
  bytes : List Byte
  deriving DecidableEq, Repr

/-- An accepted item (R315 to R331). -/
structure Item where
  id : Nat
  ring : Nat
  ticket : Nat
  cirq : Bool
  desc : List Byte
  ts : Nat
  tp : Nat
  tauPs : Nat
  powerDw : Nat
  units : List BookUnit
  /-- further domains the item touches -/
  doms : List Nat := []
  /-- the list or the image that its checks read: what was checked is what it does (R317, R344) -/
  checked : List Byte := []
  /-- τ_adm of its compute dies at the decision, in 0.01 ps (R320) -/
  taus : List (Nat × Nat) := []
  govDie : Nat
  /-- carries a promise (R345 lists the items that do not) -/
  promised : Bool
  started : Bool := false
  done : Bool := false
  voided : Bool := false
  breached : Bool := false
  code : Nat := 0
  detail : List Byte := []
  deps : List Nat := []
  /-- no record is written for it: its ring was turned off by a function-level reset (R341) -/
  orphan : Bool := false
  /-- stitch numbers and seal counters (slot in bit 63) of its frames, first and last (R265, R293) -/
  stitches : Option (Nat × Nat) := none
  counters : Option (BitVec 64 × BitVec 64) := none
  /-- EVAL items admitted in the window this item is (R355) -/
  evals : Nat := 0
  /-- the latest T_p of an EVAL item of the window, by die -/
  evalFree : List (Nat × Nat) := []
  /-- resends of its frames (R265) -/
  resends : Nat := 0
  deriving DecidableEq, Repr

/-- How a descriptor was decided (R343). -/
inductive Decision where
  | refused
  | accepted (tp : Nat) (promised : Bool)
  deriving DecidableEq, Repr

/-- A staged set accepted and not applied (R352, R353). Entries: kind, offset, value. -/
structure StagedSet where
  item : Nat
  cls : Nat
  die : Nat
  quietNo : Nat
  epoch : Nat
  round : Nat
  mask : Nat
  entries : List (Nat × Nat × Nat)
  deriving DecidableEq, Repr

/-! ### Resets, power, clocks -/

/-- An asserted reset source (Table CLK-8): cause code, reach code, target kind, target index, instant of assertion. -/
structure ResetSource where
  cause : Nat
  reach : Nat
  kind : Nat
  index : Nat
  since : Nat
  deriving DecidableEq, Repr

/-- A clock monitor (R359). -/
structure Monitor where
  good : Nat := 0
  bad : Nat := 0
  stable : Bool := false
  dead : Bool := false
  deriving DecidableEq, Repr

/-- The step of Sequence CLK-1 a source switch has reached. -/
inductive SwitchStep where
  | idle
  /-- step 2 done: output forced low, waiting to capture `dest` -/
  | released (dest : Nat)
  /-- step 3 done: waiting for the root PLL to relock -/
  | captured (dest : Nat)
  deriving DecidableEq, Repr

/-- One side of a crossing (R377, R378). -/
structure CrossSide where
  opened : Bool := false
  gen : Bool := false
  /-- step 1 of Sequence CLK-2 is done: the generation toggled and PAIR sent since the crossing closed -/
  begun : Bool := false
  /-- the PAIR of the other side has been received -/
  pairSeen : Bool := false
  ackSeen : Bool := false
  deriving DecidableEq, Repr

/-- An asynchronous crossing. -/
structure Crossing where
  clocked : CrossSide := {}
  clockless : CrossSide := {}
  deriving DecidableEq, Repr

/-- Dormant retention (R392): the registers and lock flags of the domains switched off. -/
structure Retained where
  regs : RegFile := []
  locks : List Nat := []
  deriving DecidableEq, Repr

/-! ### Near fabric -/

/-- A near-fabric message (Tables NEA-3, NEA-4). Coordinates are 9 bits as `dst` of Table NEA-3. -/
structure NearMsg where
  typ : Nat
  flags : Nat
  dst : Nat
  src : Nat
  group : Nat
  epoch : Nat
  stitch : Nat
  position : Nat
  operand : BitVec 64
  body : List Byte
  deriving DecidableEq, Repr

/-- A DATA flit before it takes its sequence number: SOM, EOM, virtual channel, payload, and the message it is of. -/
structure FlitReq where
  som : Bool
  eom : Bool
  vc : Nat
  payload : List Byte
  peer : Nat
  stitch : Nat
  deriving DecidableEq, Repr

/-- A near port beside its registers (R227 to R229). -/
structure NearPort where
  sendQueue : List FlitReq := []
  replay : List (Nat × FlitReq) := []
  nextSeq : Nat := 0
  rxSeq : Nat := 0
  /-- a NAK is out for the next expected flit -/
  nakSent : Bool := false
  credits : List Nat := [0, 0, 0, 0]
  nakAck : Option Nat := none
  nakCount : Nat := 0
  /-- this end's wiring check passed (Sequence NEA-1 step 5) -/
  wired : Bool := false
  partials : List (List Byte) := [[], [], [], []]
  /-- instants of DOWN events in the last 60 s (Table EVT-6 row 5) -/
  downs : List Nat := []
  /-- instant of the last entry into TRAIN or DOWN, of FEC lock in TRAIN, or of the last flit while UP -/
  since : Nat := 0
  /-- instant at which it first began to train since its reset: from there NP_FEC_CORR counts -/
  trainedAt : Option Nat := none
  /-- flits without payload that wait for the port's clock: kind, channel, credit -/
  waitCtl : List (Nat × Nat × Nat) := []
  deriving DecidableEq, Repr

/-- A message kept by its source until acknowledged (R234). -/
structure Kept where
  msg : NearMsg
  sentAt : Nat
  resends : Nat
  /-- the ports it was sent on -/
  ports : List Nat := []
  deriving DecidableEq, Repr

/-- The flow to and from one other module of the site, by its coordinates (R234). -/
structure Flow where
  peer : Nat
  nextStitch : Nat := 0
  kept : List Kept := []
  rxNext : Nat := 0
  waiting : List NearMsg := []
  deriving DecidableEq, Repr

/-- A reduce item in progress (R238 to R245). Blocks are named by ring position and block index. -/
structure Reduce where
  item : Nat
  record : Nat
  bucket : Nat
  group : Nat
  cutoff : Nat
  /-- the own bucket is complete (Sequence ARC-1 step 4): its slice has been drained -/
  ready : Bool := false
  seen : List (Nat × Nat) := []
  written : List Nat := []
  stopped : Bool := false
  reported : Bool := false
  gathered : List (Nat × Nat × Nat) := []
  lost : List Nat := []
  /-- its logical entry has been committed since (Sequence COB-1 step 8) -/
  committed : Bool := false
  /-- its own shard's plan record has been DONE or SKIPPED since (R244) -/
  updated : Bool := false
  /-- the seven counts of Table NEA-8 and its flags: raised, places, rounded, excluded, poisoned, absent, maxraise, flags -/
  stats : List Nat := [0, 0, 0, 0, 0, 0, 0, 0]
  deriving DecidableEq, Repr

/-- A step of the digest exchange at member 0 (R248): group, logical entry, level, node, and the answers so far. -/
structure DigestNode where
  group : Nat
  entry : Nat
  level : Nat
  node : Nat
  answers : List (Nat × List (BitVec 64))
  asked : Nat
  deriving DecidableEq, Repr

/-- The roots member 0 has received for a group: member, entry, version, root (R248). -/
structure DigestRoot where
  group : Nat
  member : Nat
  entry : Nat
  version : Nat
  root : BitVec 64
  deriving DecidableEq, Repr

/-! ### Far exchange and security -/

/-- A key slot (R297): state in SEC_PORT_STATUS, counter in SEC_TXCTR. -/
structure KeySlot where
  key : BitVec 256 := 0
  txSalt : BitVec 32 := 0
  rxSalt : BitVec 32 := 0
  /-- highest counter accepted on an ACK or PROBE (R296) -/
  rxHigh : Nat := 0
  /-- end of the overlap window while DRAINING (R299) -/
  windowEnd : Option Nat := none
  /-- it has been the transmit slot since its load (R298; log 42) -/
  transmitted : Bool := false
  deriving DecidableEq, Repr

/-- Where the payload of a frame comes from: bytes the module made, or HBM bytes read at each sending (R261). -/
inductive Payload where
  | inline (b : List Byte)
  | hbm (addr len : Nat)
  deriving DecidableEq, Repr

/-- A DATA frame to be sent or sent and unacknowledged (R255, R259 to R261). -/
structure FarFrame where
  stitch : Nat := 0
  kind : Nat
  mirror : Bool
  dst : Nat
  origin : Nat
  round : Nat
  shard : Nat
  offset : Nat
  msglen : Nat
  payload : Payload
  item : Option Nat
  resent : Bool := false
  sentAt : Nat := 0
  resends : Nat := 0
  /-- due to be sent again -/
  due : Bool := false
  /-- forwarded or served: it goes within the relay share (R284) -/
  relay : Bool := false
  deriving DecidableEq, Repr

/-- A far message complete at this gateway (R258, R262). -/
structure FarMsg where
  kind : Nat
  mirror : Bool
  dst : Nat
  origin : Nat
  hop : Nat
  epoch : Nat
  round : Nat
  shard : Nat
  port : Nat
  body : List Byte
  deriving DecidableEq, Repr

/-- A control message being collected from its frames: the frame fields that name it, and the pieces. -/
structure FarPart where
  head : FarMsg
  msglen : Nat
  pieces : List (Nat × List Byte)
  deriving DecidableEq, Repr

/-- A far port beside its registers (R253, R259 to R264). -/
structure FarPort where
  nextStitch : Nat := 0
  sendQueue : List FarFrame := []
  unacked : List FarFrame := []
  rxNext : Nat := 0
  rxSack : List Nat := []
  srttNs : Option Nat := none
  rttvarNs : Nat := 0
  dref : Option Int := none
  /-- consecutive samples off d_ref, and their direction (R264) -/
  offRun : Nat := 0
  offUp : Bool := false
  /-- numbers of the 125 µs intervals in which a sample was last taken and a DATA or PROBE frame last sent (R263) -/
  sampledAt : Option Nat := none
  sentDataAt : Option Nat := none
  pathChgDue : Bool := false
  lastData : Option (Nat × Nat) := none
  dataSinceAck : Nat := 0
  ackedAt : Nat := 0
  keys : List KeySlot := [{}, {}]
  downs : List Nat := []
  /-- instant of the last entry into TRAIN or DOWN, of the lock in TRAIN, or of the last frame while UP -/
  since : Nat := 0
  /-- PCS alignment and FEC lock reached in TRAIN -/
  lock : Bool := false
  /-- instants before which pacing sends no frame, no relayed frame within the relay share, and no frame of an own item
  within the local share (R261, R284) -/
  freeAt : Nat := 0
  relayFreeAt : Nat := 0
  localFreeAt : Nat := 0
  parts : List FarPart := []
  deriving DecidableEq, Repr

/-- A receive slot of the exchange (R262, R268): the byte ranges written, whether the message is complete, and whether it
is held, its scales having been found good. -/
structure RecvSlot where
  round : Nat
  origin : Nat
  shard : Nat
  ranges : List (Nat × Nat)
  complete : Bool
  held : Bool := false
  deriving DecidableEq, Repr

/-- What a gateway knows of one round and shard (R269 to R280). -/
structure Exchange where
  round : Nat
  shard : Nat
  roundStart : Option Nat := none
  ownHeld : Bool := false
  /-- holdings reported by site: (site, mask of round, mask of the round before) -/
  holds : List (Nat × Nat × Nat) := []
  /-- the manifest record applied: on-time mask, late mask, holders, rank -/
  manifest : Option (Nat × Nat × List Nat × Nat) := none
  /-- fetches: origin, count of FETCHes sent, instant of the last -/
  fetches : List (Nat × Nat × Nat) := []
  merged : Bool := false
  ownRoot : Option (BitVec 64 × Nat) := none
  roots : List (Nat × BitVec 64) := []
  /-- step 8 of Sequence ARC-2 is held -/
  held : Bool := false
  /-- step 8 may go on -/
  proceed : Bool := false
  /-- nodes asked in the bisection: site, level, node; level 0: a block to be fetched -/
  asked : List (Nat × Nat × Nat) := []
  deriving DecidableEq, Repr

/-- A fetch of a member or an anchor-block transfer that the module starts itself (R283, R350). -/
structure Transfer where
  /-- the round and shard of the MERGE or SNAP_FETCH whose record reports it -/
  round : Nat
  shard : Nat
  /-- the round of the image fetched -/
  image : Nat
  /-- the origin of the member, or 16 + the block -/
  key : Nat
  port : Nat
  /-- how many bytes come, and the hub behind which they come to lie -/
  bytes : Nat := 0
  hub : Nat := 0
  /-- its promise, where the port can give one -/
  tp : Option Nat
  voided : Bool := false
  done : Bool := false
  /-- its promise passed before its bytes had come -/
  failed : Bool := false
  deriving DecidableEq, Repr

/-! ### Recorder -/

/-- A record of the event recorder before it is written (Table EVT-2). -/
structure EventRec where
  sev : Nat
  kwrite : Bool := false
  code : Nat
  die : Nat
  sub : Nat
  count : Nat := 1
  siteTime : Nat
  firstAt : Nat
  detail : List Byte
  deriving DecidableEq, Repr

/-- What the serial NOR's JESD216 parameter tables tell, and whether it answers (R402). -/
structure NorPart where
  answers : Bool := true
  bytes : Nat := 33554432
  fourByte : Bool := true
  erase64k : Bool := true
  page : Nat := 256
  suspend : Bool := true
  cycles : Nat := 100000
  deriving DecidableEq, Repr

/-- The recorder beside its registers (R402 to R412). Positions are units within their area. -/
structure Recorder where
  queue : List EventRec := []
  k1Queue : List EventRec := []
  waiting : List EventRec := []
  posEvents : Nat := 0
  posFault : Nat := 0
  posPower : Nat := 0
  posCounter : Nat := 0
  nextSeq : BitVec 32 := 0
  opMs : Nat := 0
  opNsRest : Nat := 0
  cycles : Nat := 0
  frozenAt : Option Nat := none
  /-- records dropped and not yet told by a LOST record -/
  lostPending : Nat := 0
  /-- sectors being erased ahead of the writer -/
  erasing : List Nat := []
  /-- sectors being erased after a clear (R412) -/
  clearing : List Nat := []
  lastCounterMs : Nat := 0
  /-- the clear thresholds of EVENTS, FAULT and POWER, which counter entries keep (R408, R412) -/
  thresholds : List Nat := [0, 0, 0]
  /-- the counter entry of a clear waits for the writer (R412) -/
  entryDue : Bool := false
  /-- K1 has still to take the newest counter entry after a POWER_ON (R408) -/
  resumeDue : Bool := true
  /-- the NOR has still to be scanned after a POWER_ON: no position and no sequence number is known (R407) -/
  scanDue : Bool := true
  deriving DecidableEq, Repr

/-- What left the module. -/
inductive Emitted where
  | msix (vector : Nat) (addr : BitVec 64) (data : BitVec 32)
  | flit (port : Nat) (bytes : List Byte)
  | frame (port : Nat) (bytes : List Byte)
  | i3c (bytes : List Byte)
  | windowRead (v : BitVec 64)
  | pair (crossing : Nat) (fromSide : Side) (gen : Bool) (ack : Bool)
  deriving DecidableEq, Repr

/-- Fuses (R304, R305, R369, Table CLK-5). -/
structure Fuses where
  orks : List (BitVec 256) := [0, 0, 0, 0]
  programmed : BitVec 4 := 0
  revoked : BitVec 4 := 0
  pinDefault : BitVec 5 := 0
  profileFuse : BitVec 4 := 0
  clockDeny : BitVec 3 := 0
  deriving DecidableEq, Repr

/-! ### Lazy units -/

/-- A write-back in flight (Table MEM-6): its unit, the hub of the unit's line, the locator it was issued for, the image. -/
structure WriteBack where
  unit : Nat
  hub : Nat
  locator : Nat
  image : List Byte
  deriving DecidableEq, Repr

/-! ### The module -/

/-- The state of the module. -/
structure State where
  /-- commands waiting, first in, first out -/
  pending : List Instr := []
  /-- the model's clock of elapsed nanoseconds (log 3) -/
  now : Nat := 0
  siteTime : BitVec 64 := 0
  timeRuns : Bool := false
  inputOk : Bool := false
  pwrgood : Bool := false
  perstN : Bool := false
  dormantPin : Bool := false
  profilePin : Nat := 2500
  regs : RegFile := []
  locked : List Nat := []
  hbm : Memory := []
  sram : Memory := []
  isram : Memory := []
  awlBuf : Memory := []
  flash : Memory := []
  nor : Memory := []
  norPart : NorPart := {}
  host : Memory := []
  dies : List Die := List.replicate 48 Die.reset
  sentinels : List (List Sentinel) :=
    List.replicate 48 (List.replicate 4 ({} : Sentinel)) ++ List.replicate 14 (List.replicate 2 ({} : Sentinel))
  /-- the instant at which the Fitter's readings were last reset (R332) -/
  cornerAt : Nat := 0
  /-- semaphore signals in flight to another die (R120) -/
  signals : List Signal := []
  /-- fault notices in flight: source die, target die (R138) -/
  notices : List (Nat × Nat) := []
  /-- hubs whose initialisation is done (R374) -/
  initialised : List Nat := []
  journalValid : List Nat := []
  journalOpen : List Nat := []
  -- resets and power
  sources : List ResetSource :=
    [{ cause := 0x02, reach := 0, kind := 0, index := 0, since := 0 },
     { cause := 0x10, reach := 1, kind := 0, index := 0, since := 0 }]
  held : List Nat := List.range 97
  covered : List Nat := List.range 97
  best : Option ResetSource := some { cause := 0x02, reach := 0, kind := 0, index := 0, since := 0 }
  on : List Nat := []
  rising : List (Nat × Nat) := []
  switchOns : List Nat := []
  /-- instants of the switch-ons of the last 100 µs (R383) -/
  switchedAt : List Nat := []
  domFaults : List Nat := []
  switchOffs : List Nat := []
  tripped : Bool := false
  coolSince : Option Nat := none
  hotInletSince : Option Nat := none
  overSince : Option Nat := none
  /-- COOLANT_HOT and OVER_LIMIT have been raised for the present excursion (R386, R388) -/
  coolantTold : Bool := false
  overTold : Bool := false
  excessDw : Nat := 0
  retained : Retained := {}
  wakeAt : Option Nat := none
  /-- K1 has sensed PROFILE and read the fuse map in this episode (R370) -/
  sensed : Bool := false
  failedChannels : List Nat := []
  channelReplays : List (Nat × Nat × Nat × List Nat) := []
  accessMisses : List (Nat × Nat) := []
  fatal : Option Nat := none
  -- clocks
  monitors : List Monitor := [{}, {}, {}]
  switchStep : SwitchStep := .idle
  pllLocked : Bool := false
  /-- the clock-stable wires that are set: die and island (R365) -/
  wires : List (Nat × Island) := []
  /-- the levels that K1's outputs hold while its island waits: ALERT_N, WAKE_N, CKO0 to CKO3 (Table CLK-2) -/
  heldPins : Option (Bool × Bool × List Nat) := none
  crossings : List (Nat × Crossing) := []
  fuses : Fuses := {}
  -- security
  cak : BitVec 256 := 0
  kek : BitVec 256 := 0
  authFails : Nat := 0
  lockoutAt : Option Nat := none
  noiseFault : Bool := false
  drbgRequests : Nat := 0
  drawCount : Nat := 0
  firmware : Option (Nat × BitVec 256) := none
  -- host interface and Fitter
  rings : List Ring := List.replicate 8 {}
  taken : List Taken := []
  items : List Item := []
  decided : List (Nat × Decision) := []
  /-- items that a reset ended before their T_p: item, T_p, governing die (R330, R331) -/
  ended : List (Nat × Nat × Nat) := []
  bookings : List (BookUnit × Nat) := []
  reservations : List (Nat × Nat × Nat) := []
  heldRecords : List (Nat × List Byte × Bool) := []
  staged : List StagedSet := []
  plans : List (Nat × Nat) := []
  msixTable : List (List Byte) :=
    List.replicate 16 [0, 0, 0, 0, 0, 0, 0, 0, 0, 0, 0, 0, 1, 0, 0, 0]
  pba : BitVec 16 := 0
  -- gate
  localVerdict : Option Bool := none
  localSent : Bool := false
  /-- verdicts of the sequences before the current one: OPEN or not (R156) -/
  pastVerdicts : List (Nat × Bool) := []
  armedAt : Nat := 0
  reports : List (Nat × Bool × Nat × Int) := []
  /-- norm partials of the latest closed update run: die, step, sum in units of 2^−298 (R178) -/
  norms : List (Nat × Nat × Int) := []
  -- memory
  pinOrder : List Nat := []
  dayBuckets : List (List Nat) := List.replicate 8 []
  nandWritten : List Nat := List.replicate 8 0
  nandLife : List Nat := List.replicate 8 0
  /-- write-backs of lazy units in flight (Table MEM-6) -/
  unitWrites : List WriteBack := []
  /-- the ranges each export that has not read them yet holds back: its item, tile address and length (R221) -/
  exportHolds : List (Nat × List (Nat × Nat)) := []
  -- update runs
  /-- reduced shards reported complete and not yet processed: die and plan record (R242) -/
  shardsReady : List (Nat × Nat) := []
  /-- the bucket record that last reported each plan record's shard (R242, R244) -/
  buckets : List (Nat × Nat) := []
  /-- the round last rebased, of each plan record (R186, R353) -/
  rebased : List (Nat × Nat) := []
  /-- plan records whose outer delta has been formed and not yet rebased, with COB_STEP as it was formed (R33, R184) -/
  deltas : List (Nat × Nat) := []
  -- near fabric
  nearPorts : List NearPort := List.replicate 12 {}
  flows : List Flow := []
  inbox : List NearMsg := []
  /-- credits held back by partial sums that wait for their bucket: source, stitch, port, virtual channel (R238) -/
  owed : List (Nat × Nat × Nat × Nat) := []
  reduces : List Reduce := []
  digestRoots : List DigestRoot := []
  digestNodes : List DigestNode := []
  digestSilent : List (Nat × Nat) := []
  -- far exchange
  farPorts : List FarPort := List.replicate 6 {}
  recvSlots : List RecvSlot := []
  exchanges : List Exchange := []
  farInbox : List FarMsg := []
  /-- joining sites with the snapshot round each was told, or, at a joiner, that it was told (R281) -/
  joining : List (Nat × Nat) := []
  /-- the last HOLD sent for each round: round, instant, body (R275) -/
  lastHold : List (Nat × Nat × List Byte) := []
  /-- the byte ranges of gathered deltas and of feedback images that have come, by the image's address (R269, R271) -/
  gathers : List (Nat × List (Nat × Nat)) := []
  /-- the addresses at which a feedback image stands (R271) -/
  feedbacks : List Nat := []
  farTransfers : List Transfer := []
  -- surroundings
  surroundings : List (List Byte) := List.replicate 60 []
  cageTries : List (Nat × Nat) := []
  triedAt : List (Nat × Nat) := []
  presentAt : List (Nat × Nat) := []
  recorder : Recorder := {}
  emitted : List Emitted := []
  deriving DecidableEq, Repr

/-- Why the machine stops with a fault. No command of the model raises one: every fault of the manual is an effect on
State (a program fault, a refusal record, an event bit). -/
inductive Fault where
  /-- Raised by no meaning; safe: it stands for a stop the manual would call for and none does. -/
  | halted
  deriving DecidableEq, Repr

/-- Why the machine gives a command no meaning. -/
inductive Refusal where
  /-- Raised by an arm of the dispatch whose command has no meaning yet; safe, since the machine stops. -/
  | notModelled (mnemonic : String)
  deriving DecidableEq, Repr

/-- The module right after reset (log 2): every register at its reset word, nothing stored, the 54 V input off, every
block held by the COLD source of PWRGOOD and the WARM source of PERST_N, whose pins are low by their pull-downs
(R395). -/
def State.reset : State := {}

end Sys2Proof.Machine
end

