-- ==== Sys2Proof/WellFormed.lean ====
section
/-! DEFINITION. Which commands are well formed: every number that names a port, a die, a ring, an entry, a slot lies in
the range the manual gives it, and what arrives on a link has the size of a flit or a frame. -/

namespace Sys2Proof

/-- The clocked islands that lie on a die (Table ARC-4). -/
def islandsOf (die : Nat) : List Island :=
  if die < 48 then [.control]
  else if die < 56 then [.control, .hbmPhy, .onfiPhy]
  else if die = 56 then [.control, .near, .far, .pcie, .admission]
  else if die < 62 then [.control, .near, .far]
  else if die = 62 then [.control, .k0]
  else if die = 63 then [.control, .k1]
  else []

/-- A number names an item: its ring's number plus 1 stands above the 40 bits of the descriptor's (R343); an item that
outlived function-level resets has one multiple of 2^48 for each of them (log 178). -/
def itemOk (item : Nat) : Bool := decide (1 ≤ item / 2 ^ 40 % 256) && decide (item / 2 ^ 40 % 256 ≤ 8)

/-- A command whose operands lie in their ranges. -/
def Instr.wf : Instr → Bool
  | .doorbellPoll _ => true
  | .mirrorWrite _ off _ _ => decide (off < 0x10000)
  | .ringEnable _ ring _ => decide (ring < 8)
  | .ringDisable _ ring _ => decide (ring < 8)
  | .functionLevelReset _ => true
  | .d3hotEntry _ => true
  | .d0Return _ => true
  | .itemCompletion _ item => itemOk item
  | .promiseBreach _ item => itemOk item
  | .coalTimer _ ring => decide (ring < 8)
  | .hostCopyToModule _ => true
  | .hostCopyToHost _ => true
  | .progLoad _ => true
  | .progStart _ => true
  | .updateStep _ => true
  | .updateRebase _ => true
  | .updateDelta _ => true
  | .updateRebuild _ => true
  | .updateLazy _ => true
  | .updateRollfwd _ => true
  | .reduce _ => true
  | .copy _ => true
  | .flashRead _ => true
  | .flashWrite _ => true
  | .pageIn _ => true
  | .unpin _ => true
  | .exportItem _ => true
  | .importItem _ => true
  | .contrib _ => true
  | .merge _ => true
  | .snapFetch _ => true
  | .join _ => true
  | .digestResolveClear _ => true
  | .digestResolveWinner _ => true
  | .window _ => true
  | .stageQuiet _ => true
  | .stageGap _ => true
  | .stageEpoch _ => true
  | .stageGapApply _ item => itemOk item
  | .resetCold _ => true
  | .resetWarm _ => true
  | .resetFabric _ => true
  | .resetUnit _ => true
  | .resetPort _ => true
  | .resetCommandRelease _ => true
  | .keyLoad _ => true
  | .switch _ => true
  | .erase _ => true
  | .sealModeSealed _ => true
  | .sealModePlain _ => true
  | .fwLoad _ => true
  | .fuseProgram _ => true
  | .fuseRevoke _ => true
  | .setupLock _ => true
  | .mergeHold _ => true
  | .mergeRelease _ => true
  | .recorderClear _ => true
  | .powerLimit _ => true
  | .lockoutEnd _ => true
  | .registerWrite _ off _ _ => decide (off < 0x4000000)
  | .vtDrop _ die _ => decide (die < 48)
  | .cobJbase _ die _ => decide (die < 48)
  | .pwrEn _ _ _ => true
  | .dormantRequest _ _ => true
  | .dormantRequestRelease _ _ => true
  | .dormantEntry _ => true
  | .wakeComplete _ => true
  | .sourceSelect _ _ => true
  | .sourceCapture _ => true
  | .rootRelock _ => true
  | .clockMonitorWindow _ _ _ _ => true
  | .missingEdge _ _ => true
  | .islandClockLoss _ island => decide (island.2 ∈ islandsOf island.1)
  | .islandClockStable _ island => decide (island.2 ∈ islandsOf island.1)
  | .clkCko _ _ => true
  | .clkTimeSet _ _ => true
  | .inputEntersRating _ profileMv => decide (profileMv < 2 ^ 16)
  | .inputLeavesRating _ => true
  | .pwrgoodDeassert _ => true
  | .pwrgoodAssert _ => true
  | .perstAssert _ => true
  | .perstDeassert _ => true
  | .thermalTrip _ die => decide (die < 64)
  | .thermtripRelease _ => true
  | .blockRelease _ block => decide (block < 97)
  | .hubInitialisationDone _ hub _ rawGB => decide (hub < 8) && decide (rawGB < 2 ^ 16)
  | .pair _ crossing _ _ => decide (crossing < 1024)
  | .pairAck _ crossing _ _ => decide (crossing < 1024)
  | .supplyGood _ pd => decide (pd < 96)
  | .domFault _ pd => decide (pd < 96)
  | .telemetrySample _ _ => true
  | .sentinelReading _ die i ps => decide (die < 62) && decide (i < 4) && decide (ps < 4096)
  | .sentinelMiss _ die i => decide (die < 62) && decide (i < 4)
  | .identityRead _ entry _ => decide (entry < 60)
  | .cagePresence _ entry => decide (entry < 60)
  | .cageRemoval _ entry => decide (entry < 60)
  | .mgmtPrivateRead _ _ _ => true
  | .entropyHealthFailure _ _ => true
  | .bundleFetch _ die => decide (die < 48)
  | .load _ die => decide (die < 48)
  | .loadTurn _ die => decide (die < 48)
  | .store _ die => decide (die < 48)
  | .tileClear _ die => decide (die < 48)
  | .tileContinue _ die => decide (die < 48)
  | .tileRestore _ die => decide (die < 48)
  | .passOp _ die => decide (die < 48)
  | .spill _ die tile => decide (die < 48) && decide (tile < 32)
  | .overflowReplay _ die => decide (die < 48)
  | .drainRelease _ die => decide (die < 48)
  | .drainKeep _ die => decide (die < 48)
  | .issue _ die => decide (die < 48)
  | .awlElement _ die => decide (die < 48)
  | .combineAcc _ die => decide (die < 48)
  | .combineXs _ die => decide (die < 48)
  | .combineXiMax _ die => decide (die < 48)
  | .combineXiMin _ die => decide (die < 48)
  | .loopOp _ die => decide (die < 48)
  | .signal _ die => decide (die < 48)
  | .fence _ die => decide (die < 48)
  | .gate _ die => decide (die < 48)
  | .quiet _ die => decide (die < 48)
  | .endOp _ die => decide (die < 48)
  | .remoteSignal _ src dst sem => decide (src < 48) && decide (dst < 48) && decide (sem < 64)
  | .faultNotice _ src dst => decide (src < 48) && decide (dst < 48)
  | .prgOverrun _ die => decide (die < 48)
  | .gateLocalSend _ => true
  | .gateSelfVerdict _ => true
  | .gateLocal _ => true
  | .gateGroup _ => true
  | .gateLimit _ => true
  | .closedNoleader _ => true
  | .shardComplete _ die => decide (die < 48)
  | .entryCommit _ die entry => decide (die < 48) && decide (entry < 64)
  | .flitData _ port flit => decide (port < 12) && decide (flit.length = 256)
  | .flitNak _ port flit => decide (port < 12) && decide (flit.length = 256)
  | .flitHello _ port flit => decide (port < 12) && decide (flit.length = 256)
  | .flitCredit _ port flit => decide (port < 12) && decide (flit.length = 256)
  | .flitIdle _ port flit => decide (port < 12) && decide (flit.length = 256)
  | .nearTrainingDone _ port => decide (port < 12)
  | .nearTrainingTimeout _ port => decide (port < 12)
  | .helloSend _ port => decide (port < 12)
  | .fecAlignLoss _ port => decide (port < 12)
  | .linkSilence _ port => decide (port < 12)
  | .nearRetrainTimer _ port => decide (port < 12)
  | .npRetrain _ port => decide (port < 12)
  | .reduceMsg _ => true
  | .gather _ => true
  | .copyMsg _ => true
  | .digestRoots _ => true
  | .digestQuery _ => true
  | .digestNodes _ => true
  | .e2eAck _ => true
  | .e2eResend _ peer stitch => decide (peer < 512) && decide (stitch < 2 ^ 48)
  | .reduceCutoff _ item => itemOk item
  | .frameTransmit _ port _ => decide (port < 6)
  | .ngtDataFrame _ port frame _ => decide (port < 6) && decide (frame.length ≤ 9216)
  | .ngtAck _ port frame _ => decide (port < 6) && decide (frame.length ≤ 9216)
  | .probe _ port frame _ => decide (port < 6) && decide (frame.length ≤ 9216)
  | .ackTimer _ port => decide (port < 6)
  | .resendTimer _ port stitch => decide (port < 6) && decide (stitch < 2 ^ 48)
  | .probeInterval _ port => decide (port < 6)
  | .overlapWindowEnd _ port slot => decide (port < 6) && decide (slot < 2)
  | .farPcsLock _ port => decide (port < 6)
  | .farTrainingTimeout _ port => decide (port < 6)
  | .farPcsLoss _ port => decide (port < 6)
  | .farFrameSilence _ port => decide (port < 6)
  | .farRetryTimer _ port => decide (port < 6)
  | .fpRetrain _ port => decide (port < 6)
  | .contribMsg _ => true
  | .hold _ => true
  | .holdSend _ round => decide (round < 2 ^ 32)
  | .manifestCutoff _ round shard => decide (round < 2 ^ 32) && decide (shard < 2 ^ 32)
  | .manifest _ => true
  | .manifestTakeover _ round shard => decide (round < 2 ^ 32) && decide (shard < 2 ^ 32)
  | .fetch _ => true
  | .fetchRetry _ round shard origin => decide (round < 2 ^ 32) && decide (shard < 2 ^ 32) && decide (origin < 16)
  | .digest _ => true
  | .anchorDigestWait _ round shard => decide (round < 2 ^ 32) && decide (shard < 2 ^ 32)
  | .dquery _ => true
  | .dnodes _ => true
  | .joinMsg _ => true
  | .snapReq _ => true
  | .snapshot _ => true
  | .unitReadComplete _ unit => decide (unit < 2 ^ 32)
  | .unitWriteComplete _ unit => decide (unit < 2 ^ 32)
  | .ftDayBucket _ hub => decide (hub < 8)
  | .parityError _ channel unit => decide (channel < 256) && decide (unit < 64)
  | .eccError _ _ die _ _ => decide (die < 64)
  | .controlAccessTimeout _ die _ => decide (die < 64)
  | .errRelease _ _ => true
  | .errReleasePort _ _ => true
  | .recordWrite _ => true
  | .coalesceExpiry _ code die sub => decide (code < 2 ^ 16) && decide (die < 64) && decide (sub < 256)
  | .counterEntry _ => true
  | .sectorEraseDone _ sector => decide (sector < 512)
  | .freeze _ _ => true
  | .unfreeze _ _ => true
  | .freezeForced _ => true
  | .recorderWindowRead _ off _ => decide (off < 0x10000)
  | .itemStart _ item => itemOk item
  | .sqHeadWriteback _ ring => decide (ring < 8)
  | .digestReplyTimeout _ group member => decide (group < 2 ^ 16) && decide (member < 512)
  | .rootPllLock _ => true
  | .domainSwitchOn _ => true

end Sys2Proof
end

