-- ==== Sys2Proof/Machine/Ops.lean ====
section
/-! DEFINITION. The named operations over bytes, stores and registers, the passing of time, and what every command's
effect ends with. -/

namespace Sys2Proof.Machine

/-! ### Bits and bytes -/

/-- Bits hi to lo of a number. -/
def bitsOf (v hi lo : Nat) : Nat := v / 2 ^ lo % 2 ^ (hi + 1 - lo)

/-- Bit i of a number. -/
def bitOf (v i : Nat) : Bool := v / 2 ^ i % 2 == 1

/-- A number with bits hi to lo replaced. -/
def putBits (v hi lo x : Nat) : Nat :=
  v / 2 ^ (hi + 1) * 2 ^ (hi + 1) + x % 2 ^ (hi + 1 - lo) * 2 ^ lo + v % 2 ^ lo

/-- The indices below `n` whose bit is set. -/
def setBitsOf (v n : Nat) : List Nat := (List.range n).filter (bitOf v)

/-- The mask with the bits of a list. -/
def maskOf (l : List Nat) : Nat := l.foldl (fun a i => a ||| 2 ^ i) 0

/-- The `n` bytes of a number, least significant first. -/
def leBytes : Nat → Nat → List Byte
  | 0, _ => []
  | n + 1, v => BitVec.ofNat 8 v :: leBytes n (v / 256)

/-- The number that bytes hold, least significant first. -/
def leNat : List Byte → Nat
  | [] => 0
  | b :: t => b.toNat + 256 * leNat t

/-- The `n` bytes at `off` of a structure, as a number. -/
def fld (bs : List Byte) (off n : Nat) : Nat := leNat ((bs.drop off).take n)

/-- `n` bytes of zero. -/
def zeros (n : Nat) : List Byte := List.replicate n 0

/-- Bytes padded with zeros, or cut, to `n`. -/
def padTo (n : Nat) (bs : List Byte) : List Byte := bs.take n ++ zeros (n - bs.length)

/-- A structure with bytes replaced from `off`. -/
def putBytes (bs : List Byte) (off : Nat) (x : List Byte) : List Byte :=
  bs.take off ++ x ++ bs.drop (off + x.length)

/-- All the bytes from `a` to before `b` of a structure are 0. -/
def zeroIn (bs : List Byte) (a b : Nat) : Bool := ((bs.drop a).take (b - a)).all (· == 0)

/-- The value of a two's complement number of `w` bits. -/
def signed (w v : Nat) : Int := if v % 2 ^ w < 2 ^ (w - 1) then (v % 2 ^ w : Nat) else (v % 2 ^ w : Nat) - (2 ^ w : Int)

/-- The two's complement code of an integer in `w` bits. -/
def twos (w : Nat) (x : Int) : Nat := (x % (2 ^ w : Int)).toNat

/-- Division rounded up; 0 for a divisor of 0. -/
def ceilDiv (a b : Nat) : Nat := if b = 0 then 0 else (a + b - 1) / b

/-! ### Lists -/

/-- A list with the entry at an index changed; unchanged beyond its end. -/
def modAt {α : Type} (l : List α) (i : Nat) (f : α → α) : List α := l.modify i f

/-- The value held under a key. -/
def look {κ α : Type} [DecidableEq κ] (l : List (κ × α)) (k : κ) : Option α := (l.find? (·.1 = k)).map (·.2)

/-- The list with one value under a key, put at the front. -/
def assoc {κ α : Type} [DecidableEq κ] (l : List (κ × α)) (k : κ) (v : α) : List (κ × α) := (k, v) :: l.filter (·.1 ≠ k)

/-- The list with no value under a key. -/
def dissoc {κ α : Type} [DecidableEq κ] (l : List (κ × α)) (k : κ) : List (κ × α) := l.filter (·.1 ≠ k)

/-- A set held as a list without repeats, with a member added. -/
def addTo (l : List Nat) (n : Nat) : List Nat := if n ∈ l then l else l ++ [n]

/-- The same, with a member taken out. -/
def dropFrom (l : List Nat) (n : Nat) : List Nat := l.filter (· ≠ n)

/-! ### Sparse maps

A map from addresses to values, held as the entries that differ from a default, by rising address. -/

/-- The value at an address. -/
def sparseGet {α : Type} (dflt : Nat → α) : List (Nat × α) → Nat → α
  | [], a => dflt a
  | (k, v) :: t, a => if k = a then v else sparseGet dflt t a

/-- The map with an entry put in at the place of its address, in place of one listed there. -/
def sparseIns {α : Type} : List (Nat × α) → Nat → α → List (Nat × α)
  | [], a, v => [(a, v)]
  | (k, w) :: t, a, v =>
    if k < a then (k, w) :: sparseIns t a v else if k = a then (a, v) :: t else (a, v) :: (k, w) :: t

/-- The map with the value at an address replaced; an entry equal to the default is not listed. -/
def sparseSet {α : Type} [DecidableEq α] (dflt : Nat → α) (m : List (Nat × α)) (a : Nat) (v : α) : List (Nat × α) :=
  if v = dflt a then m.filter (·.1 ≠ a) else sparseIns m a v

/-- Every address listed lies above `lo`, they rise, and no entry equals the default. -/
def sparseWfFrom {α : Type} [DecidableEq α] (dflt : Nat → α) : Nat → List (Nat × α) → Bool
  | _, [] => true
  | lo, (k, v) :: t => decide (lo ≤ k) && decide (v ≠ dflt k) && sparseWfFrom dflt (k + 1) t

/-- The canonical form. -/
def sparseWf {α : Type} [DecidableEq α] (dflt : Nat → α) (m : List (Nat × α)) : Bool := sparseWfFrom dflt 0 m

/-! ### Stores -/

/-- What a byte that nothing has written reads as (log 1): 0, in every store but the recorder NOR. -/
def blank : Nat → Byte := fun _ => 0

/-- A byte of the NOR that is erased reads 0xFF (R405). -/
def erased : Nat → Byte := fun _ => 0xFF

/-- The canonical form of a store. -/
def Memory.wf (dflt : Nat → Byte) (m : Memory) : Bool := sparseWf dflt m

/-- One byte. -/
def Memory.get (dflt : Nat → Byte) (m : Memory) (a : Nat) : Byte := sparseGet dflt m a

/-- One byte written. -/
def Memory.set (dflt : Nat → Byte) (m : Memory) (a : Nat) (b : Byte) : Memory := sparseSet dflt m a b

/-- The `n` bytes from `a`. -/
def Memory.readN (dflt : Nat → Byte) (m : Memory) (a n : Nat) : List Byte :=
  (List.range n).map fun i => m.get dflt (a + i)

/-- Bytes written from `a` on. -/
def Memory.writeN (dflt : Nat → Byte) : Memory → Nat → List Byte → Memory
  | m, _, [] => m
  | m, a, b :: t => Memory.writeN dflt (m.set dflt a b) (a + 1) t

/-- The store without the bytes from `a` to before `b`: they read as nothing written. -/
def Memory.clear (m : Memory) (a b : Nat) : Memory := m.filter fun c => decide (c.1 < a) || decide (b ≤ c.1)

/-! ### Registers -/

/-- The word of the register at an offset. -/
def State.reg (s : State) (off : Nat) : Nat := (sparseGet resetWord s.regs off).toNat

/-- The register at an offset takes a word. -/
def State.setReg (s : State) (off v : Nat) : State :=
  { s with regs := sparseSet resetWord s.regs off (BitVec.ofNat 64 v) }

/-- Bits hi to lo of a register. -/
def State.regBits (s : State) (off hi lo : Nat) : Nat := bitsOf (s.reg off) hi lo

/-- A field of a register takes a value. -/
def State.setField (s : State) (off hi lo v : Nat) : State := s.setReg off (putBits (s.reg off) hi lo v)

/-- A counter of 32 bits rises, saturating at its all-ones value. -/
def State.count (s : State) (off n : Nat) : State := s.setReg off (min (s.reg off + n) 0xFFFFFFFF)

/-- A counter of 64 bits rises, saturating at its all-ones value. -/
def State.count64 (s : State) (off n : Nat) : State := s.setReg off (min (s.reg off + n) 0xFFFFFFFFFFFFFFFF)

/-! ### Parts of the state -/

/-- A compute die. -/
def State.die (s : State) (n : Nat) : Die := s.dies.getD n Die.reset

/-- A compute die changes. -/
def State.modDie (s : State) (n : Nat) (f : Die → Die) : State := { s with dies := modAt s.dies n f }

/-- A tile of a die. -/
def Die.tile (d : Die) (t : Nat) : Tile := d.tiles.getD t {}

/-- A tile of a die changes. -/
def Die.modTile (d : Die) (t : Nat) (f : Tile → Tile) : Die := { d with tiles := modAt d.tiles t f }

/-- A ring pair. -/
def State.ring (s : State) (n : Nat) : Ring := s.rings.getD n {}

/-- A ring pair changes. -/
def State.modRing (s : State) (n : Nat) (f : Ring → Ring) : State := { s with rings := modAt s.rings n f }

/-- A near port. -/
def State.nport (s : State) (p : Nat) : NearPort := s.nearPorts.getD p {}

/-- A near port changes. -/
def State.modNport (s : State) (p : Nat) (f : NearPort → NearPort) : State :=
  { s with nearPorts := modAt s.nearPorts p f }

/-- A far port. -/
def State.fport (s : State) (k : Nat) : FarPort := s.farPorts.getD k {}

/-- A far port changes. -/
def State.modFport (s : State) (k : Nat) (f : FarPort → FarPort) : State :=
  { s with farPorts := modAt s.farPorts k f }

/-- An item of an id. -/
def State.item? (s : State) (id : Nat) : Option Item := s.items.find? (·.id == id)

/-- The item of an id changes. -/
def State.modItem (s : State) (id : Nat) (f : Item → Item) : State :=
  { s with items := s.items.map fun i => if i.id == id then f i else i }

/-- The recorder changes. -/
def State.modRec (s : State) (f : Recorder → Recorder) : State := { s with recorder := f s.recorder }

/-- Something leaves the module. -/
def State.emit (s : State) (e : Emitted) : State := { s with emitted := e :: s.emitted }

/-! ### Domains (R30) and dies (R14) -/

/-- The block that is K1's clocked logic; blocks 0 to 95 are PD00 to PD95. -/
abbrev blkK1 : Nat := 96

/-- The lock flag of the ring registers, which a function-level reset clears by itself (R341). -/
abbrev blkRings : Nat := 97

/-- A domain is powered and out of reset. -/
def State.live (s : State) (pd : Nat) : Bool := decide (pd ∈ s.on) && !decide (pd ∈ s.held)

/-- K1's registers answer while the input is in its rating (R426), once its clocked logic is out of reset (R361; log
132). -/
def State.k1Live (s : State) : Bool := s.inputOk && !decide (blkK1 ∈ s.held)

/-- The die index of a domain (Tables ARC-1, ARC-6). -/
def dieOfPd (pd : Nat) : Nat :=
  if pd < 56 then pd
  else if pd < 64 then pd - 8
  else if pd < 76 then 56 + (pd - 64) / 2
  else if pd < 82 then 56 + (pd - 76)
  else if pd < 88 then 56 + (pd - 82)
  else if pd < 92 then 48 + (pd - 88) * 2
  else if pd = 92 then 56
  else 62

/-- The domain of near port p, of far port k, of link die k, of the flash pair of channel j, of hub j's logic and PHY. -/
abbrev pdNear (p : Nat) : Nat := 64 + p
@[inherit_doc pdNear] abbrev pdFar (k : Nat) : Nat := 76 + k
@[inherit_doc pdNear] abbrev pdLink (k : Nat) : Nat := 82 + k
@[inherit_doc pdNear] abbrev pdFlash (j : Nat) : Nat := 88 + j / 2
@[inherit_doc pdNear] abbrev pdHub (j : Nat) : Nat := 48 + j
@[inherit_doc pdNear] abbrev pdPhy (j : Nat) : Nat := 56 + j

/-! ### Clocked islands and crossings (R22, R365, R377) -/

/-- The clock-stable wire of an island of a die is set. -/
def State.wire (s : State) (die : Nat) (i : Island) : Bool := decide ((die, i) ∈ s.wires)

/-- The crossings of a die, numbered 16 times the die plus: 0 the control network; at a hub 1 the HBM4 PHY, 2 the ONFI
PHY; at a link die 1 and 2 its near ports, 3 its far port, and at L0 4 the PCIe port, 5 the admission logic (log 16). -/
def crossingsOf (die : Nat) : List Nat :=
  (List.range (if die < 48 then 1 else if die < 56 then 3 else if die = 56 then 6 else if die < 62 then 4 else 0)).map
    (16 * die + ·)

/-- The die a crossing belongs to. -/
def dieOfCrossing (c : Nat) : Nat := c / 16

/-- The clocked island of a crossing. -/
def islandOf (c : Nat) : Island :=
  let i := c % 16
  if i = 0 then .control
  else if c / 16 < 56 then (if i = 1 then .hbmPhy else .onfiPhy)
  else if i ≤ 2 then .near else if i = 3 then .far else if i = 4 then .pcie else .admission

/-- The block of a crossing's clocked side: the control network's root is PD93 (Table ARC-6). -/
def clockedBlock (c : Nat) : Nat :=
  let (d, i) := (c / 16, c % 16)
  if i = 0 then 93
  else if d < 56 then pdPhy (d - 48)
  else if i ≤ 2 then pdNear (2 * (d - 56) + (i - 1)) else if i = 3 then pdFar (d - 56) else 92

/-- The block of a die's clockless logic: a compute die, hub logic, a link-die core. -/
def clocklessBlock (die : Nat) : Nat := if die < 48 then die else if die < 56 then pdHub (die - 48) else pdLink (die - 56)

/-- The crossings that a block is a side of. -/
def crossingsAt (b : Nat) : List Nat :=
  if b < 56 then crossingsOf b
  else if b < 64 then [16 * (b - 8) + 1, 16 * (b - 8) + 2]
  else if b < 76 then [16 * (56 + (b - 64) / 2) + 1 + (b - 64) % 2]
  else if b < 82 then [16 * (56 + (b - 76)) + 3]
  else if b < 88 then crossingsOf (56 + (b - 82))
  else if b = 92 then [16 * 56 + 4, 16 * 56 + 5]
  else if b = 93 then (List.range 62).map (16 * ·)
  else []

/-- Traffic passes a crossing: both of its sides are open. A crossing not listed has seen no side enter or leave reset. -/
def State.crossUp (s : State) (c : Nat) : Bool :=
  match look s.crossings c with
  | some x => x.clocked.opened && x.clockless.opened
  | none => true

/-- The control network carries accesses from the host port on L0 to a die (R29, R365, R377). -/
def State.controlOk (s : State) (die : Nat) : Bool :=
  die == 56 || (s.wire 56 .control && s.wire die .control && (decide (62 ≤ die) || s.crossUp (16 * die)))

/-- The PCIe port's crossing on L0, and that of the admission logic (log 16). -/
abbrev pcieCrossing : Nat := 16 * 56 + 4
@[inherit_doc pcieCrossing] abbrev admissionCrossing : Nat := 16 * 56 + 5

/-- Traffic passes between the module and the host: the PCIe port's clock runs, and its crossing is open. While it does
not, what would go to the host waits, and nothing comes in (R365, R377). -/
def State.hostUp (s : State) : Bool := s.wire 56 .pcie && s.crossUp pcieCrossing

/-- A hub, with both of its domains, is out of reset and initialised: its stacks are usable (R31, R385). -/
def State.hubLive (s : State) (j : Nat) : Bool := s.live (pdHub j) && s.live (pdPhy j) && decide (j ∈ s.initialised)

/-- A usable hub takes requests: the crossing to its HBM4 PHY is open (R365, R377). -/
def State.hubServes (s : State) (j : Nat) : Bool := s.hubLive j && s.crossUp (16 * (48 + j) + 1)

/-- The hub behind which an HBM address lies (R16, R199). -/
def hubOfHbm (a : Nat) : Nat := a / 0xC00000000 / 4

/-- The home hub of a compute die (R16). -/
def homeHub (n : Nat) : Nat := n / 6

/-- Bytes of HBM4. -/
def State.readHbm (s : State) (a n : Nat) : List Byte := Memory.readN blank s.hbm a n

/-- Bytes written to HBM4. -/
def State.writeHbm (a : Nat) (bs : List Byte) (s : State) : State := { s with hbm := Memory.writeN blank s.hbm a bs }

/-! ### Time (log 3) -/

/-- Site time (R361) and operating time (R408) advance by the nanoseconds since the command before. -/
def State.advance (dt : Nat) (s : State) : State :=
  let s := if s.timeRuns then { s with siteTime := s.siteTime + BitVec.ofNat 64 dt } else s
  let ns := s.recorder.opNsRest + dt
  let s := if s.inputOk
    then { s with recorder := { s.recorder with opMs := s.recorder.opMs + ns / 1000000, opNsRest := ns % 1000000 } }
    else s
  { s with now := s.now + dt }

/-- Site time as a number. -/
def State.time (s : State) : Nat := s.siteTime.toNat

/-! ### The end of every command -/

/-- The outcome of a command whose effect on `s` is `t`. No command touches the queue of waiting commands; its time is
the time before plus `dt`; and no command but FUSE_PROGRAM, FUSE_REVOKE and ITEM_START touches the fuses (R369). -/
def State.finish (s : State) (dt : Nat) (t : State) : Host.Outcome State Fault Refusal :=
  .next { t with pending := s.pending, now := s.now + dt, fuses := s.fuses }

/-- The same for the commands that may program fuses. -/
def State.finishFuses (s : State) (dt : Nat) (t : State) : Host.Outcome State Fault Refusal :=
  .next { t with pending := s.pending, now := s.now + dt }

end Sys2Proof.Machine
end

