-- ==== Sys2Proof/Machine/Crypto.lean ====
section
/-! DEFINITION. The ciphers and checksums the spec names: AES-256, CMAC (SP 800-38B), the KDF of R306 (SP 800-108), key
unwrapping (SP 800-38F), GCM (SP 800-38D), SHA-256 (FIPS 180-4), CRC-32 (R135), CRC-64 (R193). -/

namespace Sys2Proof.Machine

namespace Crypto

/-- The AES substitution box. The 256 bytes stand in one number, byte `x` at its bits 8 x to 8 x + 7, so that a look-up is
one shift. -/
def sbox : Nat :=
  0x75b227ebe28012079a059618c323c7041531d871f1e5a534ccf73f362693fdb7c072a49cafa2d4adf04759fa7dc982ca76abd7fe2b670130c56f6bf27b777c63
    + 0xd2f3ff1021dab6bcf5389d928f40a351a89f3c507f02f94585334d43fbaaefd0cf584c4a39becb6a5bb1fc20ed00d153842fe329b3d63b52a05a6e1b1a2c8309 * 2 ^ 512
    + 0x08ae7a65eaf4566ca94ed58d6d37c8e779e4959162acd3c25c2406490a3a32e0db0b5ede14b8ee4688902a22dc4f816073195d643d7ea7c41744975fec130ccd * 2 ^ 1024
    + 0x16bb54b00f2d99416842e6bf0d89a18cdf2855cee9871e9b948ed9691198f8e19e1dc186b95735610ef6034866b53e708a8bbd4b1f74dde8c6b4a61c2e2578ba * 2 ^ 1536

/-- Its inverse. The 256 bytes stand in one number, byte `x` at its bits 8 x to 8 x + 7, so that a look-up is one shift. -/
def ibox : Nat :=
  0x25d18b6d49a25b76b224d92866a12e084ec3fa420b954cee3d23c2a632947b54cbe9dec444438e3487ff2f9b8239e37cfbd7f3819ea340bf38a53630d56a0952
    + 0x6b8a130103bdafc1020f3fca8f1e2cd00645b3b80558e4f70ad3bc8c00abd890849d8da75746155edab9edfd5048706c92b6655dcc5ca4d41698688664f6f872 * 2 ^ 512
    + 0xf45acd78fec0db9a2079d2c64b3e56fc1bbe18aa0e62b76f89c5291d711af1476edf751ce837f9e28535ade72274ac9673e6b4f0cecff297eadc674f4111913a * 2 ^ 1024
    + 0x7d0c2155631469e126d677ba7e042b17619953833cbbebc8b0f52aae4d3be0a0ef9cc9939f7ae52d0d4ab519a97f51605fec8027591012b131c7078833a8dd1f * 2 ^ 1536

/-- Multiplication by x in the field of AES. -/
def xtime (a : Nat) : Nat := if a < 128 then 2 * a else (2 * a) % 256 ^^^ 0x1B

/-- Multiplication in the field of AES; the second factor has 4 bits. -/
def gmul (a b : Nat) : Nat :=
  let a2 := xtime a
  let a4 := xtime a2
  let a8 := xtime a4
  (if bitOf b 0 then a else 0) ^^^ (if bitOf b 1 then a2 else 0) ^^^ (if bitOf b 2 then a4 else 0)
    ^^^ (if bitOf b 3 then a8 else 0)

/-- Bytes combined by exclusive or. -/
def xorL (a b : List Nat) : List Nat := List.zipWith (· ^^^ ·) a b

/-- Every byte through the box. -/
def subBytes (b : Nat) (l : List Nat) : List Nat := l.map fun x => b / 2 ^ (8 * x) % 256

/-- ShiftRows by column-major position: row r moves r columns to the left; `d` is 1 forward and 3 backward. -/
def shiftRows (d : Nat) (l : List Nat) : List Nat :=
  (List.range 16).map fun i => l.getD ((i / 4 + d * (i % 4)) % 4 * 4 + i % 4) 0

/-- MixColumns with the coefficients of one row. -/
def mixColumns (k : List Nat) (l : List Nat) : List Nat :=
  (List.range 16).map fun i =>
    (List.range 4).foldl (fun a j => a ^^^ gmul (l.getD (i / 4 * 4 + j) 0) (k.getD ((j + 4 - i % 4) % 4) 0)) 0

/-- The key schedule: word by word, the last eight words known in front, newest first. -/
def expandGo : Nat → Nat → Nat → List (List Nat) → List (List Nat)
  | 0, _, _, ws => ws
  | n + 1, i, rcon, ws =>
    let prev := ws.getD 0 []
    let old := ws.getD 7 []
    let t :=
      if i % 8 = 0 then
        let r := subBytes sbox (prev.drop 1 ++ prev.take 1)
        xorL r [rcon, 0, 0, 0]
      else if i % 8 = 4 then subBytes sbox prev
      else prev
    expandGo n (i + 1) (if i % 8 = 0 then xtime rcon else rcon) (xorL old t :: ws)

/-- The 15 round keys of a 32-byte key. -/
def roundKeys (key : List Nat) : List (List Nat) :=
  let ws0 := ((List.range 8).map fun i => (key.drop (4 * i)).take 4).reverse
  let ws := (expandGo 52 8 1 ws0).reverse
  (List.range 15).map fun r => (ws.drop (4 * r)).take 4 |>.flatten

/-- The middle rounds of encryption. -/
def encRounds : List (List Nat) → List Nat → List Nat
  | [], b => b
  | [k], b => xorL (shiftRows 1 (subBytes sbox b)) k
  | k :: ks, b => encRounds ks (xorL (mixColumns [2, 3, 1, 1] (shiftRows 1 (subBytes sbox b))) k)

/-- AES-256 of one block, with the round keys. -/
def aesEnc (rk : List (List Nat)) (b : List Nat) : List Nat := encRounds (rk.drop 1) (xorL b (rk.getD 0 []))

/-- The middle rounds of decryption, round keys from the last. -/
def decRounds : List (List Nat) → List Nat → List Nat
  | [], b => b
  | [k], b => xorL (subBytes ibox (shiftRows 3 b)) k
  | k :: ks, b => decRounds ks (mixColumns [14, 11, 13, 9] (xorL (subBytes ibox (shiftRows 3 b)) k))

/-- The inverse of AES-256 on one block. -/
def aesDec (rk : List (List Nat)) (b : List Nat) : List Nat :=
  let r := rk.reverse
  decRounds (r.drop 1) (xorL b (r.getD 0 []))

/-- The number that bytes hold, most significant first. -/
def beNat (l : List Nat) : Nat := l.foldl (fun a b => a * 256 + b) 0

/-- The `n` bytes of a number, most significant first. -/
def beBytes (n v : Nat) : List Nat := ((leBytes n v).map (·.toNat)).reverse

/-- Doubling of CMAC subkeys. -/
def cmacDouble (b : List Nat) : List Nat :=
  let v := beNat b
  let w := 2 * v % 2 ^ 128
  beBytes 16 (if v < 2 ^ 127 then w else w ^^^ 0x87)

/-- The chain of CMAC over whole blocks but the last, by a count of blocks. -/
def cmacGo (rk : List (List Nat)) : Nat → List Nat → List Nat → List Nat × List Nat
  | 0, m, x => (m, x)
  | n + 1, m, x => if 16 < m.length then cmacGo rk n (m.drop 16) (aesEnc rk (xorL x (m.take 16))) else (m, x)

/-- AES-256-CMAC. -/
def cmac (key : List Nat) (m : List Nat) : List Nat :=
  let rk := roundKeys key
  let k1 := cmacDouble (aesEnc rk (List.replicate 16 0))
  let k2 := cmacDouble k1
  let (rest, x) := cmacGo rk (m.length / 16 + 1) m (List.replicate 16 0)
  let last := if rest.length = 16 then xorL rest k1
    else xorL (rest ++ [0x80] ++ List.replicate (15 - rest.length) 0) k2
  aesEnc rk (xorL x last)

/-- The bytes of a 256-bit key, as the spec writes them in order. -/
def keyBytes (k : BitVec 256) : List Nat := (leBytes 32 k.toNat).map (·.toNat)

/-- The key that 32 bytes hold. -/
def keyOf (l : List Nat) : BitVec 256 := BitVec.ofNat 256 (leNat (l.map (BitVec.ofNat 8)))

/-- KDF(root, label) (R306). -/
def kdf (root : BitVec 256) (label : List Nat) : BitVec 256 :=
  let blk (i : Nat) := cmac (keyBytes root) ([i] ++ label ++ [0, 1, 0])
  keyOf (blk 1 ++ blk 2)

/-- The six passes of AES key unwrapping over the four 64-bit parts of a 40-byte wrapped key. -/
def unwrapGo (rk : List (List Nat)) : Nat → List Nat → List (List Nat) → List Nat × List (List Nat)
  | 0, a, r => (a, r)
  | t + 1, a, r =>
    let i := t % 4
    let x := xorL a (beBytes 8 (t + 1))
    let d := aesDec rk (x ++ r.getD i [])
    unwrapGo rk t (d.take 8) (r.set i (d.drop 8))

/-- AES key unwrapping of 40 bytes under a key (R307); none where its integrity check fails. -/
def unwrap (kek : BitVec 256) (w : List Byte) : Option (BitVec 256) :=
  let w := w.map (·.toNat)
  let (a, r) := unwrapGo (roundKeys (keyBytes kek)) 24 (w.take 8)
    ((List.range 4).map fun i => (w.drop (8 + 8 * i)).take 8)
  if a = List.replicate 8 0xA6 then some (keyOf r.flatten) else none

/-! ### GCM -/

/-- Multiplication in the field of GHASH: 128-bit numbers, first bit most significant. -/
def ghMulGo : Nat → Nat → Nat → Nat → Nat
  | 0, _, _, z => z
  | n + 1, x, v, z =>
    ghMulGo n x (if v % 2 = 0 then v / 2 else v / 2 ^^^ 0xE1000000000000000000000000000000)
      (if bitOf x n then z ^^^ v else z)

/-- The product of two elements. -/
def ghMul (x y : Nat) : Nat := ghMulGo 128 x y 0

/-- GHASH over bytes padded to whole blocks, by a count of blocks. -/
def ghashGo (h : Nat) : Nat → List Nat → Nat → Nat
  | 0, _, y => y
  | n + 1, m, y =>
    if m = [] then y
    else
      let b := m.take 16
      ghashGo h n (m.drop 16) (ghMul (y ^^^ beNat (b ++ List.replicate (16 - b.length) 0)) h)

/-- The key stream of counter mode over bytes, by a count of blocks. -/
def ctrGo (rk : List (List Nat)) (iv : List Nat) : Nat → Nat → List Nat → List Nat
  | 0, _, _ => []
  | n + 1, c, m =>
    if m = [] then []
    else
      let b := m.take 16
      List.zipWith (· ^^^ ·) b (aesEnc rk (iv ++ beBytes 4 c)) ++ ctrGo rk iv n (c + 1) (m.drop 16)

/-- The tag of GCM over additional data and ciphertext. -/
def gcmTag (rk : List (List Nat)) (iv aad ct : List Nat) : List Nat :=
  let h := beNat (aesEnc rk (List.replicate 16 0))
  let y := ghashGo h (aad.length / 16 + 1) aad 0
  let y := ghashGo h (ct.length / 16 + 1) ct y
  let y := ghMul (y ^^^ (aad.length * 8 * 2 ^ 64 + ct.length * 8)) h
  xorL (beBytes 16 y) (aesEnc rk (iv ++ [0, 0, 0, 1]))

/-- AES-256-GCM sealing: ciphertext and tag (R287). -/
def gcmSeal (key : BitVec 256) (iv : List Nat) (aad pt : List Byte) : List Byte × List Byte :=
  let rk := roundKeys (keyBytes key)
  let p := pt.map (·.toNat)
  let c := ctrGo rk iv (p.length / 16 + 1) 2 p
  (c.map (BitVec.ofNat 8), (gcmTag rk iv (aad.map (·.toNat)) c).map (BitVec.ofNat 8))

/-- AES-256-GCM opening: the plaintext, where the tag verifies. -/
def gcmOpen (key : BitVec 256) (iv : List Nat) (aad ct tag : List Byte) : Option (List Byte) :=
  let rk := roundKeys (keyBytes key)
  let c := ct.map (·.toNat)
  if gcmTag rk iv (aad.map (·.toNat)) c = tag.map (·.toNat)
  then some ((ctrGo rk iv (c.length / 16 + 1) 2 c).map (BitVec.ofNat 8)) else none

/-! ### SHA-256 -/

/-- The round constants: the fractional parts of the cube roots of the first 64 primes. The 64 words stand in one number,
word `t` at its bits 32 t to 32 t + 31. -/
def shaCubes : Nat :=
  0xc19bf1749bdc06a780deb1fe72be5d74550c7dc3243185be12835b01d807aa98ab1c5ed5923f82a459f111f13956c25be9b5dba5b5c0fbcf71374491428a2f98
    + 0x1429296706ca6351d5a79147c6e00bf3bf597fc7b00327c8a831c66d983e515276f988da5cb0a9dc4a7484aa2de92c6f240ca1cc0fc19dc6efbe4786e49b69c1 * 2 ^ 512
    + 0x106aa070f40e3585d6990624d192e819c76c51a3c24b8b70a81a664ba2bfe8a192722c8581c2c92e766a0abb650a735453380d134d2c6dfc2e1b213827b70a85 * 2 ^ 1024
    + 0xc67178f2bef9a3f7a4506ceb90befffa8cc7020884c8781478a5636f748f82ee682e6ff35b9cca4f4ed8aa4a391c0cb334b0bcb52748774c1e376c0819a4c116 * 2 ^ 1536

/-- The initial hash value, in the same form: the square roots of the first eight primes. -/
def shaRoots : Nat := 0x5be0cd191f83d9ab9b05688c510e527fa54ff53a3c6ef372bb67ae856a09e667

/-- Word `t` of a number that holds words of 32 bits. -/
def wordAt (v t : Nat) : Nat := v / 2 ^ (32 * t) % 2 ^ 32

/-- A 32-bit word rotated to the right. -/
def rotr (n x : Nat) : Nat := (x * 2 ^ 32 + x) / 2 ^ n % 2 ^ 32

/-- The words of a block, 32 bits each from the lowest, with the words of the message schedule put above them. -/
def shaSched : Nat → Nat → Nat → Nat
  | 0, _, w => w
  | n + 1, t, w =>
    let p := wordAt w (t - 15)
    let q := wordAt w (t - 2)
    let x := wordAt w (t - 16) + (rotr 7 p ^^^ rotr 18 p ^^^ p / 8) + wordAt w (t - 7)
      + (rotr 17 q ^^^ rotr 19 q ^^^ q / 1024)
    shaSched n (t + 1) (w + x % 2 ^ 32 * 2 ^ (32 * t))

/-- The rounds of the compression function on the eight working words, the first of them at the lowest bits: each round
shifts all of them up by one, puts a new first word in and adds to the fifth. -/
def shaRounds (w : Nat) : Nat → Nat → Nat → Nat
  | 0, _, v => v
  | n + 1, t, v =>
    let e := wordAt v 4
    let a := wordAt v 0
    let choice := (e &&& wordAt v 5) ^^^ ((2 ^ 32 - 1 - e) &&& wordAt v 6)
    let most := (a &&& (wordAt v 1 ||| wordAt v 2)) ||| (wordAt v 1 &&& wordAt v 2)
    let x := wordAt v 7 + (rotr 6 e ^^^ rotr 11 e ^^^ rotr 25 e) + choice + wordAt shaCubes t + wordAt w t
    let y := x + (rotr 2 a ^^^ rotr 13 a ^^^ rotr 22 a) + most
    let up := v * 2 ^ 32 % 2 ^ 256
    let fifth := (wordAt v 3 + x) % 2 ^ 32
    shaRounds w n (t + 1) (up - wordAt up 4 * 2 ^ 128 + fifth * 2 ^ 128 + y % 2 ^ 32)

/-- One block of 64 bytes into the hash value. -/
def shaBlock (h : Nat) (blk : List Nat) : Nat :=
  let w := (List.range 16).foldl (fun a i => a + beNat ((blk.drop (4 * i)).take 4) * 2 ^ (32 * i)) 0
  let v := shaRounds (shaSched 48 16 w) 64 0 h
  (List.range 8).foldl (fun a i => a + (wordAt h i + wordAt v i) % 2 ^ 32 * 2 ^ (32 * i)) 0

/-- The blocks of a padded message, by a count. -/
def shaGo : Nat → List Nat → Nat → Nat
  | 0, _, h => h
  | n + 1, m, h => shaGo n (m.drop 64) (shaBlock h (m.take 64))

/-- SHA-256. -/
def sha256 (m : List Byte) : List Byte :=
  let n := m.length
  let m := m.map (·.toNat) ++ [0x80] ++ List.replicate ((119 - n % 64) % 64) 0 ++ beBytes 8 (n * 8)
  let h := shaGo (m.length / 64) m shaRoots
  (List.range 8).flatMap fun i => (beBytes 4 (wordAt h i)).map (BitVec.ofNat 8)

/-! ### Checksums -/

/-- Eight steps of a reflected CRC of 32 bits. -/
def crc32Byte (c : Nat) (b : Byte) : Nat :=
  (List.range 8).foldl (fun c _ => if c % 2 = 1 then c / 2 ^^^ 0xEDB88320 else c / 2) (c ^^^ b.toNat)

/-- CRC-32: polynomial 0x04C1_1DB7, reflected, initial value and final XOR 0xFFFF_FFFF (R135). -/
def crc32 (m : List Byte) : Nat := m.foldl crc32Byte 0xFFFFFFFF ^^^ 0xFFFFFFFF

/-- Eight steps of a CRC of 64 bits that is not reflected. -/
def crc64Byte (c : Nat) (b : Byte) : Nat :=
  (List.range 8).foldl
    (fun c _ => if 2 ^ 63 ≤ c then (2 * c) % 2 ^ 64 ^^^ 0x42F0E1EBA9EA3693 else 2 * c) (c ^^^ (b.toNat * 2 ^ 56))

/-- CRC-64: polynomial 0x42F0_E1EB_A9EA_3693, not reflected, initial value and final XOR 0 (R193). -/
def crc64 (m : List Byte) : Nat := m.foldl crc64Byte 0

end Crypto

end Sys2Proof.Machine
end

