-- ==== Sys2Proof/Machine/Flags.lean ====
section
/-! DEFINITION. Event bits, the interrupts they raise and the records they leave (R357, R405 to R413). -/

namespace Sys2Proof.Machine

/-! ### MSI-X -/

/-- Vector `v` fires: its message goes out, or, while the table masks it or no traffic passes to the host, its pending bit
is set (R333, R357, R377). Nothing fires while PD92 is off or held. -/
def State.fireVector (v : Nat) (s : State) : State :=
  let e := s.msixTable.getD v []
  if v < 16 ∧ s.live 92 then
    if bitOf (fld e 12 4) 0 ∨ !s.hostUp then { s with pba := s.pba ||| BitVec.ofNat 16 (2 ^ v) }
    else s.emit (.msix v (BitVec.ofNat 64 (fld e 0 8)) (BitVec.ofNat 32 (fld e 8 4)))
  else s

/-- A vector whose bit is pending and which the table does not mask fires, and its bit clears (R422). -/
def State.firePending (v : Nat) (s : State) : State :=
  if bitOf s.pba.toNat v && !bitOf (fld (s.msixTable.getD v []) 12 4) 0 then
    State.fireVector v { s with pba := s.pba &&& ~~~ (BitVec.ofNat 16 (2 ^ v)) }
  else s

/-! ### Event registers (Table EVT-3) -/

/-- The event registers; the argument is the compute die, the channel or the far port. -/
inductive EvSrc where
  | ary (n : Nat) | awl (n : Nat) | gate | cob (n : Nat) | ft (j : Nat) | nea | fp (k : Nat) | fx | sec
  | secPort (k : Nat) | prm | hif | clk | pwr | sur | err | recd
  deriving DecidableEq, Repr

/-- The offset of the register. -/
def EvSrc.off : EvSrc → Nat
  | ary n => Reg.aryEvents n
  | awl n => Reg.awlEvents n
  | gate => Reg.gateEvents
  | cob n => Reg.cobEvents n
  | ft j => Reg.ftEvents j
  | nea => Reg.neaEvents
  | fp k => Reg.fpEvents k
  | fx => Reg.fxEvents
  | sec => Reg.secEvents
  | secPort k => Reg.secPortEvents k
  | prm => Reg.prmEvents
  | hif => Reg.hifEvents
  | clk => Reg.clkEvents
  | pwr => Reg.pwrEvents
  | sur => Reg.surEvents
  | err => Reg.errEvents
  | recd => Reg.recEvents

/-- The source byte of its records' codes. -/
def EvSrc.code : EvSrc → Nat
  | ary _ => 0x01
  | awl _ => 0x02
  | gate => 0x04
  | cob _ => 0x05
  | ft _ => 0x06
  | nea => 0x07
  | fp _ => 0x08
  | fx => 0x09
  | sec => 0x0A
  | secPort _ => 0x0B
  | prm => 0x0C
  | hif => 0x0D
  | clk => 0x0E
  | pwr => 0x0F
  | sur => 0x10
  | err => 0x11
  | recd => 0x12

/-- The register and the bit that enable its interrupt (the EVENT_IRQ_EN fields). -/
def EvSrc.irqEn : EvSrc → Nat × Nat
  | ary n => (Reg.aryCtrl n, 1)
  | awl n => (Reg.awlCtrl n, 0)
  | gate => (Reg.gateCtrl, 24)
  | cob n => (Reg.cobCtrl n, 0)
  | ft _ => (Reg.memCtrl, 1)
  | nea => (Reg.neaCtrl, 0)
  | fp _ => (Reg.fxCtrl, 0)
  | fx => (Reg.fxCtrl, 0)
  | sec => (Reg.secCtrl, 0)
  | secPort _ => (Reg.secCtrl, 0)
  | prm => (Reg.prmCtrl, 0)
  | hif => (Reg.hifCtrl, 0)
  | clk => (Reg.clkCtrl, 8)
  | pwr => (Reg.pwrCtrl, 1)
  | sur => (Reg.pwrCtrl, 1)
  | err => (Reg.errCtrl, 4)
  | recd => (Reg.recCtrl, 3)

/-- The bits that interrupt: of GATE_EVENTS the three CLOSED bits only (Table BWD-8, R357), of the others all. -/
def EvSrc.irqMask : EvSrc → Nat
  | gate => 0x13
  | _ => 0xFFFFFFFF

/-- The die of its records, where the register fixes it. -/
def EvSrc.die : EvSrc → Nat
  | ary n => n
  | awl n => n
  | gate => 56
  | cob n => n
  | ft j => 48 + j
  | nea => 56
  | fp k => 56 + k
  | fx => 56
  | sec => 62
  | secPort k => 56 + k
  | prm => 56
  | hif => 56
  | clk => 63
  | pwr => 63
  | sur => 63
  | err => 63
  | recd => 62

/-- The sub of its records, where the register fixes it. -/
def EvSrc.sub : EvSrc → Nat
  | ft j => j
  | fp k => k
  | secPort k => k
  | _ => 0xFF

/-- The severity of a bit: 0 INFO, 1 WARN, 2 ERROR, 3 FATAL (the last column of Table EVT-3). -/
def EvSrc.sev (e : EvSrc) (bit : Nat) : Nat :=
  match e, bit with
  | ary _, 5 => 1
  | ary _, 6 => 1
  | gate, 1 => 1
  | gate, 4 => 1
  | cob _, 2 => 2
  | cob _, 3 => 1
  | cob _, 7 => 1
  | ft _, 0 => 1
  | ft _, 1 => 2
  | ft _, 2 => 1
  | ft _, 3 => 2
  | ft _, 4 => 2
  | ft _, 5 => 2
  | nea, 0 => 1
  | nea, 1 => 1
  | nea, 4 => 1
  | fp _, 1 => 1
  | fp _, 2 => 1
  | fp _, 4 => 1
  | fx, 1 => 1
  | fx, 2 => 1
  | fx, 4 => 2
  | sec, 1 => 1
  | sec, 2 => 2
  | secPort _, 0 => 1
  | secPort _, 2 => 2
  | secPort _, 3 => 2
  | prm, 1 => 1
  | prm, 2 => 2
  | prm, 3 => 1
  | prm, 4 => 1
  | prm, 5 => 1
  | hif, 1 => 1
  | hif, 3 => 1
  | clk, 2 => 1
  | clk, 3 => 1
  | clk, 4 => 1
  | clk, 5 => 1
  | pwr, 0 => 1
  | pwr, 1 => 1
  | pwr, 2 => 1
  | pwr, 3 => 1
  | pwr, 4 => 1
  | pwr, 7 => 2
  | sur, 1 => 1
  | sur, 2 => 1
  | sur, 3 => 1
  | err, 1 => 2
  | err, 3 => 2
  | err, 4 => 2
  | err, 5 => 2
  | err, 6 => 3
  | err, 7 => 2
  | recd, 0 => 1
  | _, _ => 0

/-- The bit is set; when it was clear and its interrupt is enabled, vector 0 fires (R357). -/
def State.setEvent (e : EvSrc) (bit : Nat) (s : State) : State :=
  let old := s.reg e.off
  let s' := s.setReg e.off (old ||| 2 ^ bit)
  if !bitOf old bit && bitOf (s.reg e.irqEn.1) e.irqEn.2 && bitOf e.irqMask bit then s'.fireVector 0 else s'

/-! ### The recorder's queues (R409) -/

/-- A record whose code, die and sub match a held one. -/
def EventRec.same (a b : EventRec) : Bool := a.code == b.code && a.die == b.die && a.sub == b.sub

/-- An INFO or WARN record is held, or counted into the one held (R409). -/
def Recorder.hold (r : EventRec) (c : Recorder) : Recorder :=
  if c.waiting.any (·.same r)
  then { c with waiting := c.waiting.map fun w => if w.same r then { w with count := min (w.count + r.count) 65535 } else w }
  else { c with waiting := c.waiting ++ [r] }

/-- A record while PD95 is off or held: K1's queue of 64, whose overflow counts into the next LOST record. -/
def Recorder.holdK1 (r : EventRec) (c : Recorder) : Recorder :=
  if c.k1Queue.length < 64 then { c with k1Queue := c.k1Queue ++ [r] } else { c with lostPending := c.lostPending + 1 }

/-- The record of an event bit (R413). -/
def State.bitRecord (s : State) (e : EvSrc) (bit die sub : Nat) : EventRec :=
  { sev := e.sev bit, code := e.code * 256 + bit, die := die, sub := sub, siteTime := s.time, firstAt := s.now,
    detail := leBytes 4 (s.reg e.off) }

/-- An INFO record that another record's handling raises: it takes the same way, and drops nothing. -/
def State.noteInfo (e : EvSrc) (bit : Nat) (s : State) : State :=
  let s := s.setEvent e bit
  let r := s.bitRecord e bit e.die e.sub
  if !s.live 95 then s.modRec (·.holdK1 r)
  else if s.regBits Reg.recStatus 1 0 = 2 then s
  else if 0 < s.regBits Reg.recCtrl 2 1 then s
  else s.modRec (·.hold r)

/-- The way of a record once it has arisen (R409): filtered, held, queued or dropped. -/
def State.routeRecord (r : EventRec) (s : State) : State :=
  if !s.live 95 then s.modRec (·.holdK1 r)
  else if s.regBits Reg.recStatus 1 0 = 2 then s
  else if r.sev < s.regBits Reg.recCtrl 2 1 then s
  else if r.sev < 2 then s.modRec (·.hold r)
  else if s.recorder.queue.length < 4096 then s.modRec fun c => { c with queue := c.queue ++ [r] }
  else
    let s := s.modRec fun c => { c with lostPending := c.lostPending + 1 }
    (s.count Reg.recLost 1).noteInfo .recd 2

/-- A record arises: of severity ERROR or FATAL it first sets ERR_EVENTS.FAULT_REC (R409, Table EVT-9). -/
def State.note (r : EventRec) (s : State) : State :=
  let s := if 2 ≤ r.sev then s.noteInfo .err 8 else s
  s.routeRecord r

/-- A condition sets a bit of an event register, with its interrupt and its record (R413), naming die and sub. -/
def State.raiseAt (e : EvSrc) (bit die sub : Nat) (s : State) : State :=
  let s := s.setEvent e bit
  s.note (s.bitRecord e bit die sub)

/-- The same where the register fixes die and sub. -/
def State.raise (e : EvSrc) (bit : Nat) (s : State) : State := s.raiseAt e bit e.die e.sub

/-- A detailed record of Table EVT-4. -/
def State.detail (code sev die sub : Nat) (d : List Byte) (s : State) : State :=
  s.note { sev := sev, code := code, die := die, sub := sub, siteTime := s.time, firstAt := s.now, detail := d }

/-! ### Live views of pending sources -/

/-- A register holds a bit whose interrupt is enabled. -/
def State.pendingSrc (s : State) (e : EvSrc) : Bool :=
  bitOf (s.reg e.irqEn.1) e.irqEn.2 && (s.reg e.off &&& e.irqMask) != 0

/-- Whether a die holds a pending event source (R357). A compute die's program fault is one while PRG_FAULT holds a
cause and FAULT_IRQ_EN is set. -/
def State.irqPending (s : State) (d : Nat) : Bool :=
  if d < 48 then
    s.pendingSrc (.ary d) || s.pendingSrc (.awl d) || s.pendingSrc (.cob d)
      || (bitOf (s.reg (Reg.prgCtrl d)) 0 && s.regBits (Reg.prgFault d) 7 0 != 0)
  else if d = 56 then
    s.pendingSrc .gate || s.pendingSrc .nea || s.pendingSrc .fx || s.pendingSrc .prm || s.pendingSrc .hif
      || (List.range 8).any (fun j => s.pendingSrc (.ft j)) || (List.range 6).any (fun k => s.pendingSrc (.fp k))
  else if d = 62 then
    s.pendingSrc .sec || s.pendingSrc .recd || (List.range 6).any (fun k => s.pendingSrc (.secPort k))
  else if d = 63 then s.pendingSrc .clk || s.pendingSrc .pwr || s.pendingSrc .sur || s.pendingSrc .err
  else false

end Sys2Proof.Machine
end

