-- ==== Sys2Proof/Machine/Regs.lean ====
section
/-! DEFINITION. BAR0: which block a register lies in, what a read gives, what a write changes, the set-up lock
(chapter 17). -/

namespace Sys2Proof.Machine

/-! ### Blocks (Table MAP-1) -/

/-- A block of BAR0: the domain that powers and resets it (96: K1), its die, its lock flag. -/
structure BarBlock where
  pd : Nat
  die : Nat
  lock : Nat
  deriving DecidableEq, Repr

/-- The block an offset lies in. -/
def blockAt (off : Nat) : Option BarBlock :=
  if off < 0x10000 then some ⟨92, 56, 92⟩
  else if off < 0x20000 then some ⟨92, 56, blkRings⟩
  else if off < 0x50000 then some ⟨92, 56, 92⟩
  else if off < 0x60000 then some ⟨94, 62, 94⟩
  else if off < 0x70000 then some ⟨95, 62, 95⟩
  else if off < 0x80000 then some ⟨blkK1, 63, blkK1⟩
  else if off < 0x100000 then none
  else if off < 0x400000 then
    let n := (off - 0x100000) / 0x10000
    some ⟨n, n, n⟩
  else if off < 0x480000 then
    let j := (off - 0x400000) / 0x10000
    some ⟨48 + j, 48 + j, 48 + j⟩
  else if off < 0x4E0000 then
    let k := (off - 0x480000) / 0x10000
    let b := (off - 0x480000) % 0x10000 / 0x100
    if b = 0 then some ⟨pdNear (2 * k), 56 + k, pdNear (2 * k)⟩
    else if b = 1 then some ⟨pdNear (2 * k + 1), 56 + k, pdNear (2 * k + 1)⟩
    else some ⟨pdFar k, 56 + k, pdFar k⟩
  else none

/-- The blocks that have a lock flag. -/
def lockBlocks : List Nat :=
  List.range 56 ++ (List.range 18).map (64 + ·) ++ [92, 94, 95, blkK1, blkRings]

/-- The die of a lock flag. -/
def dieOfLock (b : Nat) : Nat := if b = blkK1 then 63 else if b = blkRings then 56 else dieOfPd b

/-- Link die L0, in which the blocks of PD92 lie, is contained. -/
def State.l0Contained (s : State) : Bool := s.sources.any fun r => r.cause == 0x41 && r.kind == 3 && r.index == 0

/-- A block answers (R426): its domain is on and out of reset, and its die is not contained, which holds the blocks of
every die but L0 in reset. -/
def State.blockLive (s : State) (b : Nat) : Bool :=
  if b = blkK1 then s.k1Live
  else if b = blkRings ∨ b = 92 then s.live 92 && !s.l0Contained
  else s.live b

/-- A BAR0 access reaches a block: the PCIe port carries traffic, the block is reachable, and the control network carries
the access to its die (R426, R365, R377). -/
def State.answers (s : State) (b : BarBlock) : Bool := s.hostUp && s.blockLive b.pd && s.controlOk b.die

/-! ### What a read gives -/

/-- The largest reading among a die's sentinels that are not faulted (R318). -/
def State.sentinelPs (s : State) (n : Nat) : Nat :=
  ((s.sentinels.getD n []).filter (fun x => !x.faulted)).foldl (fun a x => max a x.ps) 0

/-- The instant of the latest reading of a die's sentinels that are not faulted. -/
def State.lastReading (s : State) (n : Nat) : Option Nat :=
  ((s.sentinels.getD n []).filter (fun x => !x.faulted)).foldl (fun a x => match a, x.takenAt with
    | some p, some q => some (max p q)
    | some p, none => some p
    | none, q => q) (none : Option Nat)

/-- A die is STALE: its sentinels are all faulted, or its latest reading is older than 40 µs (R318); a die that has given
none yet counts as STALE. -/
def State.stale (s : State) (n : Nat) : Bool :=
  match s.lastReading n with
  | none => true
  | some t => decide (t + 40000 < s.now)

/-- PRM_CORNER.STALE: 0 for the 40 µs after the Fitter's reset within which a first reading is due (R332, log 133). -/
def State.staleShown (s : State) (n : Nat) : Bool :=
  s.stale n && ((s.sentinels.getD n []).any (fun x => x.faulted || x.takenAt.isSome)
    || decide (s.cornerAt + 40000 < s.now))

/-- The junction temperature of a die in 1/16 °C, as telemetry last gave it (R387). -/
def State.tempOf (s : State) (n : Nat) : Int := signed 16 (s.reg (Reg.tempDie n))

/-- A die's junction is above 105 °C. -/
def State.hot (s : State) (n : Nat) : Bool := decide (1680 < s.tempOf n)

/-- The base of R325 in 0.1 W: the figures of every domain that is on. -/
def State.baseDw (s : State) : Nat :=
  let cnt (l : List Nat) : Nat := (l.filter (fun p => decide (p ∈ s.on))).length
  cnt (List.range 48) * 80
  + ((List.range 8).filter (fun j => decide (48 + j ∈ s.on) && decide (56 + j ∈ s.on))).length * 580
  + cnt ((List.range 12).map (64 + ·)) * 70
  + cnt ((List.range 6).map (76 + ·)) * 250
  + cnt ((List.range 6).map (82 + ·)) * 100
  + cnt ((List.range 4).map (88 + ·)) * 80
  + (if 92 ∈ s.on then 300 else 0)
  + (if s.inputOk then 120 else 0)
  + s.excessDw

/-- Base plus reservations at an instant, in 0.1 W. -/
def State.reservedAt (s : State) (t : Nat) : Nat :=
  s.baseDw + (s.reservations.filter (fun r => decide (r.1 ≤ t) && decide (t < r.2.1))).foldl (fun a r => a + r.2.2) 0

/-- Items of a ring accepted and not complete. -/
def State.outstanding (s : State) (n : Nat) : Nat := (s.items.filter fun i => i.ring == n && !i.orphan).length

/-- NP_FEC_CORR of a port that has begun to train since its reset: it rises by a free count in each microsecond (log
139), and saturates. -/
def State.fecView (s : State) (off : Nat) : Option Nat :=
  ((List.range 12).find? fun p => off == Reg.npFecCorr p).bind fun p =>
    (s.nport p).trainedAt.map fun t =>
      min 0xFFFFFFFFFFFFFFFF
        ((List.range ((s.now - t) / 1000)).foldl (fun a i => a + (Config.fecCorrected p (t + 1000 * i)).toNat) 0)

/-- The registers whose word is a view of other state. -/
def State.view (s : State) (off : Nat) : Option Nat :=
  if off = Reg.clkTime then some s.time
  else if off = Reg.rstHeld then some (maskOf ((List.range 64).filter fun p => decide (p ∈ s.held)))
  else if off = Reg.rstHeldHi then some (maskOf ((List.range 32).filter fun p => decide (64 + p ∈ s.held)))
  else if off = Reg.pwrOn then some (maskOf ((List.range 64).filter fun p => decide (p ∈ s.on)))
  else if off = Reg.pwrOnHi then some (maskOf ((List.range 32).filter fun p => decide (64 + p ∈ s.on)))
  else if off = Reg.hifIrqSrc then some (maskOf ((List.range 64).filter s.irqPending))
  else if off = Reg.mapUnlocked then
    some (if s.regBits Reg.hifStatus 0 0 = 1
      then (lockBlocks.filter fun b => !decide (b ∈ s.locked) && !decide (b ∈ s.retained.locks)).foldl
        (fun a b => a ||| 2 ^ dieOfLock b) 0 else 0)
  else if off = Reg.prmReserved then some (min (s.reservedAt s.time) 0xFFFF)
  else if off = Reg.recOptime then some (s.recorder.opMs % 2 ^ 48)
  else if off = Reg.recCycles then some (s.recorder.cycles % 2 ^ 32)
  else if off = Reg.recSeq then some s.recorder.nextSeq.toNat
  else if off = Reg.pwrStatus then some (putBits (s.reg off) 3 3 (if s.inputOk then 1 else 0))
  else if 0x10000 ≤ off ∧ off < 0x10800 ∧ off % 0x100 = 0x2C then some (s.outstanding ((off - 0x10000) / 0x100))
  else if 0x20200 ≤ off ∧ off < 0x202F8 then
    let n := (off - 0x20200) / 4
    some (s.sentinelPs n
      + maskOf ((List.range 4).filter fun i => ((s.sentinels.getD n []).getD i {}).faulted) * 2 ^ 12
      + (if s.staleShown n then 2 ^ 16 else 0) + (if s.hot n then 2 ^ 17 else 0))
  else if 0x70400 ≤ off ∧ off < 0x704C0 then
    some (if decide ((off - 0x70400) / 4 ∈ s.on) then s.reg off else 0)
  else if 0x480000 ≤ off ∧ off < 0x4E0000 ∧ off % 0x10000 < 0x200 then s.fecView off
  else none

/-- The word of a register as a read of it gives it. -/
def State.word (s : State) (off : Nat) : Nat := (s.view off).getD (s.reg off)

/-- The header and the entries of the surroundings view (R399, Tables PWB-8, PWB-9). An entry with nothing in it reads
its kind and index with status ABSENT. -/
def surBlank (e : Nat) : List Byte :=
  let (kind, idx) :=
    if e < 12 then (1, e) else if e < 18 then (2, e - 12) else if e = 18 then (3, 0)
    else if e < 51 then (4, e - 19) else if e < 59 then (5, e - 51) else (6, 0)
  [BitVec.ofNat 8 kind, BitVec.ofNat 8 idx] ++ zeros 62

/-- An entry of the surroundings table. -/
def State.sur (s : State) (e : Nat) : List Byte :=
  match s.surroundings.getD e [] with
  | [] => surBlank e
  | l => l

/-- A byte of the surroundings view. -/
def State.surByte (s : State) (a : Nat) : Byte :=
  if a < 64 then (padTo 64 (leBytes 4 0x52525553 ++ leBytes 4 (s.reg Reg.surGen) ++ leBytes 2 60)).getD a 0
  else if a < 3904 then (s.sur (a / 64 - 1)).getD (a % 64) 0
  else 0

/-- The fuse-map view (R436, Table MAP-9). -/
def State.fuseMap (s : State) : List Byte :=
  leBytes 4 0x4D46584C ++ leBytes 2 0x6448 ++ [Config.stepping, 0] ++ leBytes 8 Config.serial.toNat
    ++ leBytes 2 Config.year.toNat ++ [Config.week, Config.plant]
    ++ [BitVec.ofNat 8 (s.fuses.programmed.toNat + s.fuses.revoked.toNat * 16), BitVec.ofNat 8 s.fuses.pinDefault.toNat,
        BitVec.ofNat 8 (s.fuses.profileFuse.toNat + s.fuses.clockDeny.toNat * 16), 0]
    ++ leBytes 8 Config.provision.toNat

/-- `n` bytes of a list as a number, beyond its end 0. -/
def natAt (bs : List Byte) (off n : Nat) : Nat := leNat ((List.range n).map fun i => bs.getD (off + i) 0)

/-- What a BAR0 read of 4 or 8 bytes gives: all ones from a block that does not
answer, whatever the access (R423, R424, R426, R435, R436). -/
def State.barRead (s : State) (off : Nat) (wide : Bool) : Nat :=
  let n := if wide then 8 else 4
  let ones := if wide then 0xFFFFFFFFFFFFFFFF else 0xFFFFFFFF
  let reached := match blockAt off with
    | none => s.hostUp
    | some b => s.answers b
  if !reached then ones
  else if off % n ≠ 0 then 0
  else if 0x80000 ≤ off ∧ off < 0x81000 then
    if s.k1Live && s.controlOk 63 then leNat ((List.range n).map fun i => s.surByte (off - 0x80000 + i)) else ones
  else if 0x81000 ≤ off ∧ off < 0x82000 then
    if s.live 94 && s.controlOk 62 then natAt s.fuseMap (off - 0x81000) n else ones
  else if 0xA0000 ≤ off ∧ off < 0xA0100 then
    if s.blockLive 92 then natAt (s.msixTable.flatten) (off - 0xA0000) n else ones
  else if 0xA1000 ≤ off ∧ off < 0xA1008 then
    if s.blockLive 92 then natAt (leBytes 8 s.pba.toNat) (off - 0xA1000) n else ones
  else match blockAt off with
    | none => 0
    | some _ =>
      match regRowAt off with
      | some r =>
        if wide && !r.wide then 0
        else if wide then s.word off else s.word off % 2 ^ 32
      | none =>
        match regRowAt (off - 4) with
        | some r => if r.wide && !wide then s.word (off - 4) / 2 ^ 32 else 0
        | none => 0

/-! ### What a write changes -/

/-- Every field of the register that the write sets lies in its range (R425). A field under the lock is not set. -/
def RegRow.inRange (r : RegRow) (locked : Bool) (v : Nat) : Bool :=
  r.ranges.all fun f =>
    let x := bitsOf v f.hi f.lo
    (locked && bitOf r.rwl f.lo) || (f.zeroOk && x == 0) || (decide (f.min ≤ x) && decide (x ≤ f.max))

/-- The word after a write (Table SCO-4): RW, STK and, unless locked, RWL fields take the value; W1C bits written 1
clear; the rest stays. -/
def RegRow.written (r : RegRow) (locked : Bool) (old v : Nat) : Nat :=
  let m := r.rw ||| r.stk ||| (if locked then 0 else r.rwl)
  let w := (List.range 64).foldl (fun a i =>
    if bitOf m i then (if bitOf v i then a + 2 ^ i else a) else if bitOf old i then a + 2 ^ i else a) 0
  w - (w &&& r.w1c &&& v)

/-- A counter of L0's block counts, while the block answers (R426; log 92). -/
def State.mapCount (a : Nat) (s : State) : State := if s.live 92 then s.count a 1 else s

/-- A discarded access counts (R423, R424). -/
def State.badAccess (s : State) : State := s.mapCount Reg.mapBadAccess

/-- A BAR0 write (R423 to R429): discarded where the rules say so, without a count where its block does not answer or no
traffic passes from the host; otherwise `act` gives its effect from the row, the word before, the word after and the value
written. -/
def State.barWith (act : RegRow → Nat → Nat → Nat → State → State) (off : Nat) (wide : Bool) (v : Nat) (s : State) :
    State :=
  if !s.hostUp || (blockAt off).any (fun b => !s.answers b) then s
  else if off % (if wide then 8 else 4) ≠ 0 then s.badAccess
  else match blockAt off, regRowAt off with
    | some b, some r =>
      if r.wide != wide then s.badAccess
      else
        let old := s.reg off
        let locked := decide (b.lock ∈ s.locked)
        if !r.inRange locked v then s.badAccess
        else
          let s := if (v &&& r.resv) != 0 then s.badAccess else s
          let s := if locked && ((v ^^^ old) &&& r.rwl) != 0 then s.mapCount Reg.mapLockedWrites else s
          -- a register of RWL fields alone takes nothing under the lock
          if locked && r.rw ||| r.stk ||| r.w1c ||| r.wo == 0 then s else act r old (r.written locked old v) v s
    | _, _ => s.badAccess

/-- A write of the MSI-X table (R422): a vector unmasked while its bit is pending fires. -/
def State.msixWrite (off : Nat) (wide : Bool) (v : Nat) (s : State) : State :=
  let e := off / 16
  let n := if wide then 8 else 4
  { s with msixTable := modAt s.msixTable e fun l => putBytes l (off % 16) (leBytes n v) }.firePending e

/-! ### The set-up lock -/

/-- SETUP_LOCK sets the lock flag of every reachable block and HIF_STATUS.LOCKED (R429). -/
def State.lockAll (s : State) : State :=
  let s := { s with locked := (lockBlocks.filter fun b => s.blockLive b || decide (b ∈ s.locked)) }
  s.setField Reg.hifStatus 0 0 1

/-! ### Blocks that reset -/

/-- The registers of a block take their reset words; STK fields keep theirs unless the reset is COLD (R433,
Table SCO-4). -/
def RegFile.resetBlock (cold : Bool) (blocks : List Nat) (rf : RegFile) : RegFile :=
  rf.filterMap fun e =>
    match blockAt e.1 with
    | none => some e
    | some b =>
      if b.pd ∈ blocks then
        let stk := (regRowAt e.1).elim 0 (·.stk)
        let keep := if cold then 0 else e.2.toNat &&& stk
        if keep = 0 then none else some (e.1, BitVec.ofNat 64 keep)
      else some e

end Sys2Proof.Machine
end

