-- ==== Sys2Proof/Machine/Host.lean ====
section
/-! DEFINITION. The host interface: host windows, rings, doorbells, records, interrupts (chapter 13). -/

namespace Sys2Proof.Machine

/-! ### Host memory (R335) -/

/-- A host byte range lies inside one enabled host window and does not wrap past 2^64. -/
def State.hostRangeOk (s : State) (a n : Nat) : Bool :=
  decide (0 < n) && decide (a + n ≤ 2 ^ 64) && (List.range 4).any fun w =>
    s.regBits (Reg.hifHostwinBase w) 0 0 == 1
      && decide (s.regBits (Reg.hifHostwinBase w) 63 12 * 4096 ≤ a)
      && decide (a + n ≤ (s.regBits (Reg.hifHostwinLimit w) 63 12 + 1) * 4096)

/-- Bytes of host memory. -/
def State.readHost (s : State) (a n : Nat) : List Byte := Memory.readN blank s.host a n

/-- Bytes written to host memory. -/
def State.writeHost (a : Nat) (bs : List Byte) (s : State) : State := { s with host := Memory.writeN blank s.host a bs }

/-! ### Codes (Table HIF-6) -/

namespace Code

abbrev ok : Nat := 0x0000
abbrev malformed : Nat := 0x0001
abbrev lengthBound : Nat := 0x0002
abbrev epoch : Nat := 0x0003
abbrev depUnknown : Nat := 0x0004
abbrev depRefused : Nat := 0x0005
abbrev busyAtomic : Nat := 0x0006
abbrev rollfwdDue : Nat := 0x0007
abbrev planInvalid : Nat := 0x0008
abbrev stageInvalid : Nat := 0x0009
abbrev windowInvalid : Nat := 0x000A
abbrev unitOff : Nat := 0x0010
abbrev cornerStale : Nat := 0x0011
abbrev hot : Nat := 0x0012
abbrev shareOver : Nat := 0x0013
abbrev powerPace : Nat := 0x0014
abbrev promiseLate : Nat := 0x0015
abbrev promiseHorizon : Nat := 0x0016
abbrev loadBase : Nat := 0x0020
abbrev startState : Nat := 0x0027
abbrev gatePending : Nat := 0x0030
abbrev versionUnheld : Nat := 0x0031
abbrev versionRetake : Nat := 0x0032
abbrev versionEmpty : Nat := 0x0033
abbrev versionHeld : Nat := 0x0034
abbrev digestHold : Nat := 0x0035
abbrev flashState : Nat := 0x0040
abbrev rowCacheFull : Nat := 0x0041
abbrev unitAbsent : Nat := 0x0042
abbrev importFormat : Nat := 0x0043
abbrev importDigest : Nat := 0x0044
abbrev importBusy : Nat := 0x0045
abbrev pinLimit : Nat := 0x0046
abbrev authNoSession : Nat := 0x0050
abbrev authLocked : Nat := 0x0051
abbrev authClass : Nat := 0x0052
abbrev authStale : Nat := 0x0053
abbrev authFail : Nat := 0x0054
abbrev sealBusy : Nat := 0x0055
abbrev keySlotBusy : Nat := 0x0056
abbrev keyWrap : Nat := 0x0057
abbrev keySalt : Nat := 0x0058
abbrev keyEmpty : Nat := 0x0059
abbrev keyExhausted : Nat := 0x005A
abbrev fuseLast : Nat := 0x005B
abbrev fwDigest : Nat := 0x005C
abbrev unitLost : Nat := 0x0082
abbrev depLost : Nat := 0x0083
abbrev fetchFailed : Nat := 0x0084
abbrev resetEnded : Nat := 0x0085
abbrev prgFault : Nat := 0x0086
abbrev flashRead : Nat := 0x0087
abbrev memError : Nat := 0x0088
abbrev unreachable : Nat := 0x0089
abbrev undelivered : Nat := 0x008A
abbrev epochEnded : Nat := 0x008B

end Code

/-! ### Rings (R336 to R341) -/

/-- The state of a ring: 0 OFF, 1 ON, 2 DRAINING, 3 CFG_ERR. -/
def State.ringState (s : State) (n : Nat) : Nat := s.regBits (Reg.ringStatus n) 1 0

/-- The descriptors of the SQ and the records of the CQ, as powers of two. -/
def State.sqLog (s : State) (n : Nat) : Nat := s.regBits (Reg.ringSize n) 4 0
@[inherit_doc State.sqLog] def State.cqLog (s : State) (n : Nat) : Nat := s.regBits (Reg.ringSize n) 12 8

/-- The doorbell record's address. -/
def State.dbAddr (s : State) (n : Nat) : Nat := s.regBits (Reg.ringDbAddr n) 63 4 * 16

/-- A DRAINING ring with no record due is OFF (R340). -/
def State.settleRing (n : Nat) (s : State) : State :=
  if s.ringState n = 2 ∧ (s.ring n).reservedRecords = 0 then s.setField (Reg.ringStatus n) 1 0 0 else s

/-- A record counts toward the ring's interrupt: the vector fires at COAL_COUNT unsignalled ones (R357). -/
def State.countRecord (n : Nat) (s : State) : State :=
  let r := s.ring n
  let k := r.unsignalled + 1
  if s.regBits (Reg.ringCtrl n) 23 16 ≤ k then
    let s := s.modRing n fun r => { r with unsignalled := 0, firstUnsignalled := none }
    let v := s.regBits (Reg.ringCtrl n) 4 1
    if v = 0 then s else s.fireVector v
  else s.modRing n fun r => { r with unsignalled := k, firstUnsignalled := r.firstUnsignalled.or (some s.now) }

/-- A record is written to the CQ: one aligned 64-byte write with its phase (R335, R337, R339). -/
def State.putRecord (n : Nat) (bs : List Byte) (counts : Bool) (s : State) : State :=
  let j := s.reg (Reg.ringWritten n)
  let cq := s.cqLog n
  let phase := 1 - j / 2 ^ cq % 2
  let bs := putBytes bs 1 [bs.getD 1 0 ||| BitVec.ofNat 8 phase]
  let s := s.writeHost (s.regBits (Reg.ringCqBase n) 63 12 * 4096 + j % 2 ^ cq * 64) bs
  let s := s.setReg (Reg.ringWritten n) ((j + 1) % 2 ^ 32)
  let s := s.modRing n fun r => { r with reservedRecords := r.reservedRecords - 1 }
  let s := if counts then s.countRecord n else s
  s.settleRing n

/-- A record of an item is dropped after a function-level reset turned its ring off (R341). -/
def State.orphanRecord (s : State) : State := (s.count Reg.hifOrphans 1).raise .hif 1

/-- A record arises: written, or in D3hot held until D0, or while no traffic passes to the host until it does (R341,
R377). A ring number of 8 or more stands for the ring that a
function-level reset turned off before the descriptor was decided: its records are dropped. -/
def State.emitRecord (n : Nat) (bs : List Byte) (counts : Bool) (s : State) : State :=
  if 8 ≤ n then s.orphanRecord
  else if s.regBits Reg.hifStatus 1 1 = 1 ∨ !s.hostUp ∨ s.heldRecords ≠ [] then
    { s with heldRecords := s.heldRecords ++ [(n, bs, counts)] }
  else s.putRecord n bs counts

/-- The records held go out, in order, in D0 while traffic passes to the host. -/
def State.releaseRecords (s : State) : State :=
  if s.regBits Reg.hifStatus 1 1 = 1 ∨ !s.hostUp then s
  else s.heldRecords.foldl (fun s r => s.putRecord r.1 r.2.1 r.2.2) { s with heldRecords := [] }

/-- The PCIe port's crossing is open again: the vectors that wait fire, and the records held go out (R377). -/
def State.hostBack (s : State) : State := ((List.range 16).foldl (fun s v => s.firePending v) s).releaseRecords

/-- A record of Table HIF-5 but for its phase. -/
def recordBytes (kind flags code ticket id time start tau power : Nat) (detail : List Byte) : List Byte :=
  padTo 36 (leBytes 1 kind ++ leBytes 1 flags ++ leBytes 2 code ++ leBytes 4 ticket ++ leBytes 6 id ++ zeros 2
    ++ leBytes 8 time ++ leBytes 8 start ++ leBytes 2 tau ++ leBytes 2 power) ++ padTo 28 detail

/-! ### Descriptors (Table HIF-3) -/

/-- The fields of a descriptor. -/
abbrev dType (d : List Byte) : Nat := fld d 0 1
@[inherit_doc dType] abbrev dFlags (d : List Byte) : Nat := fld d 1 1
@[inherit_doc dType] abbrev dTicket (d : List Byte) : Nat := fld d 4 4
@[inherit_doc dType] abbrev dDeadline (d : List Byte) : Nat := fld d 8 8
@[inherit_doc dType] abbrev dDep0 (d : List Byte) : Nat := fld d 16 6
@[inherit_doc dType] abbrev dDep1 (d : List Byte) : Nat := fld d 22 6
@[inherit_doc dType] abbrev dEpoch (d : List Byte) : Nat := fld d 28 4
@[inherit_doc dType] abbrev dCirq (d : List Byte) : Bool := bitOf (fld d 1 1) 0
@[inherit_doc dType] abbrev dResubmit (d : List Byte) : Bool := bitOf (fld d 1 1) 1
@[inherit_doc dType] abbrev dEval (d : List Byte) : Bool := bitOf (fld d 1 1) 2

/-- The types of Table HIF-4. -/
def knownTypes : List Nat :=
  [0x01, 0x02, 0x03, 0x04, 0x05, 0x06, 0x07, 0x08, 0x09, 0x0A, 0x0B, 0x0C, 0x0D, 0x0E, 0x0F, 0x10, 0x11, 0x12,
   0x41, 0x42, 0x43, 0x44, 0x45, 0x46, 0x47, 0x48, 0x49]

/-- The critical commands (R310). -/
def isCritical (d : List Byte) : Bool := decide (0x40 ≤ dType d)

/-- The item id of descriptor i of ring n (R343). A ring number of 8 or more stands for a ring that a function-level reset
turned off before the descriptor was decided: its item has a number of its own, of which the id is the low 48 bits. -/
def itemId (n i : Nat) : Nat := n / 8 * 2 ^ 48 + (n % 8 + 1) * 2 ^ 40 + i % 2 ^ 40

/-! ### Taking descriptors (R337, R338) -/

/-- A tail seen: a valid one further ahead is kept, an invalid one ignored with DB_BAD (R337). -/
def State.seeTail (n : Nat) (t : BitVec 32) (s : State) : State :=
  let h := BitVec.ofNat 32 (s.reg (Reg.ringHead n))
  if 2 ^ s.sqLog n < (t - h).toNat then s.raise .hif 0
  else if ((s.ring n).tail - h).toNat < (t - h).toNat then s.modRing n fun r => { r with tail := t }
  else s

/-- A head seen: a valid one further ahead is kept, an invalid one ignored with DB_BAD. -/
def State.seeHead (n : Nat) (h : BitVec 32) (s : State) : State :=
  let w := BitVec.ofNat 32 (s.reg (Reg.ringWritten n))
  if 2 ^ s.cqLog n < (w - h).toNat then s.raise .hif 0
  else if (w - h).toNat < (w - (s.ring n).head).toNat then s.modRing n fun r => { r with head := h }
  else s

/-- The CQ has room for two more records beside those it holds reserved. -/
def State.cqRoom (s : State) (n : Nat) : Bool :=
  let w := BitVec.ofNat 32 (s.reg (Reg.ringWritten n))
  decide ((w - (s.ring n).head).toNat + (s.ring n).reservedRecords + 2 ≤ 2 ^ s.cqLog n)

/-- The head count is written back to the doorbell record. -/
def State.writeSqHead (n : Nat) (s : State) : State :=
  let s := s.writeHost (s.dbAddr n + 8) (leBytes 4 (s.reg (Reg.ringHead n)))
  s.modRing n fun r => { r with sinceWriteback := 0 }

/-- One descriptor is taken, if a tail lies beyond and the CQ has room. After 16 the head is written back. -/
def State.takeOne (n : Nat) (s : State) : State :=
  let h := s.reg (Reg.ringHead n)
  if (s.ring n).tail = BitVec.ofNat 32 h ∨ !s.cqRoom n then s
  else
    let d := s.readHost (s.regBits (Reg.ringSqBase n) 63 12 * 4096 + h % 2 ^ s.sqLog n * 128) 128
    let t : Taken := { ring := n, index := (s.ring n).count, bytes := d }
    let s := { s with taken := s.taken ++ [t] }
    let s := s.setReg (Reg.ringHead n) ((h + 1) % 2 ^ 32)
    let s := s.count64 Reg.hifTaken 1
    let s := s.modRing n fun r =>
      { r with count := r.count + 1, reservedRecords := r.reservedRecords + 2, sinceWriteback := r.sinceWriteback + 1 }
    if 16 ≤ (s.ring n).sinceWriteback then s.writeSqHead n else s

/-- A function applied a number of times. -/
def iter {α : Type} (f : α → α) : Nat → α → α
  | 0, x => x
  | n + 1, x => iter f n (f x)

/-- The admission logic runs: PD92 is out of reset, the clock of its own island is stable and its crossing is open (R22,
R365, R377). -/
def State.admitting (s : State) : Bool := s.live 92 && s.wire 56 .admission && s.crossUp admissionCrossing

/-- A scan of the enabled rings by rising number, up to BURST descriptors each (R338); none in D3hot (R341), none while the
host's memory is out of reach. -/
def State.scan (s : State) : State :=
  if s.regBits Reg.hifStatus 1 1 = 1 ∨ !s.admitting ∨ !s.hostUp then s
  else (List.range 8).foldl (fun s n =>
    if s.ringState n = 1 then iter (State.takeOne n) (s.regBits (Reg.ringCtrl n) 8 5) s else s) s

/-- The doorbell records of the enabled rings are read (R337). -/
def State.pollDoorbells (s : State) : State :=
  if !s.admitting || !s.hostUp then s
  else (List.range 8).foldl (fun s n =>
    if s.ringState n = 1 then
      let b := s.readHost (s.dbAddr n) 8
      (s.seeTail n (BitVec.ofNat 32 (fld b 0 4))).seeHead n (BitVec.ofNat 32 (fld b 4 4))
    else s) s

/-! ### Turning rings on and off (R340, R341) -/

/-- Writing EN = 1: the checks of R340, then ON with every count at 0, or CFG_ERR; item ids start again, and the decisions
of the ring's runs before answer no more. A host range outside every window sets HIF_EVENTS.HOSTWIN (Table HIF-8). -/
def State.ringOn (n : Nat) (s : State) : State :=
  let sq := s.sqLog n
  let cq := s.cqLog n
  let sizeOk := decide (6 ≤ sq) && decide (sq ≤ 16) && decide (6 ≤ cq) && decide (cq ≤ 17)
  let winOk := s.hostRangeOk (s.regBits (Reg.ringSqBase n) 63 12 * 4096) (128 * 2 ^ sq)
    && s.hostRangeOk (s.regBits (Reg.ringCqBase n) 63 12 * 4096) (64 * 2 ^ cq) && s.hostRangeOk (s.dbAddr n) 16
  let s := if winOk then s else s.raise .hif 2
  if sizeOk && winOk then
    let s := (s.setReg (Reg.ringHead n) 0).setReg (Reg.ringWritten n) 0
    let s := s.modRing n fun _ => {}
    let s := { s with decided := s.decided.filter fun x => x.1 % 2 ^ 48 / 2 ^ 40 != n + 1 }
    s.setField (Reg.ringStatus n) 1 0 1
  else s.setField (Reg.ringStatus n) 1 0 3

/-- Writing EN = 0: no more descriptors; DRAINING while records are due, else OFF. -/
def State.ringOff (n : Nat) (s : State) : State :=
  let st := s.ringState n
  if st = 1 then s.setField (Reg.ringStatus n) 1 0 (if (s.ring n).reservedRecords = 0 then 0 else 2)
  else if st = 3 then s.setField (Reg.ringStatus n) 1 0 0
  else s

/-- The effect of a write of RING_CTRL on its ring. While the ring is ON or DRAINING only EN changes (R340). -/
def State.ringCtrl (n old new : Nat) (s : State) : State :=
  let st := s.ringState n
  let s := s.setReg (Reg.ringCtrl n) (if st = 1 ∨ st = 2 then putBits old 0 0 (bitsOf new 0 0) else new)
  if bitOf new 0 then (if st = 0 ∨ st = 3 then s.ringOn n else s) else s.ringOff n

/-! ### The end of an item (R315, R349) -/

/-- The item leaves; its completion record carries the instant, its outcome, PROMISE_VOID and BREACH. -/
def State.completeItem (id : Nat) (s : State) : State :=
  match s.item? id with
  | none => s
  | some it =>
    let s := { s with items := s.items.filter (·.id != id) }
    let flags := (if it.voided then 2 else 0) + (if it.breached then 4 else 0)
    if it.orphan then s.orphanRecord
    else s.emitRecord it.ring (recordBytes 3 flags it.code it.ticket id s.time 0 0 0 it.detail) it.cirq

/-- The item's last effect is done, with a code and a detail; its record is written by ITEM_COMPLETION (log 14). -/
def State.itemDone (id code : Nat) (detail : List Byte) (s : State) : State :=
  s.modItem id fun i => if i.done then i else { i with done := true, code := code, detail := detail }

/-- The item ends at once with a code (Table PRM-5, R331). -/
def State.endItem (id code : Nat) (s : State) : State :=
  (s.modItem id fun i => { i with done := true, code := code }).completeItem id

end Sys2Proof.Machine
end

