-- ==== Sys2Proof/Machine/Auth.lean ====
section
/-! DEFINITION. The security block: its keys, its session, and the authentication of critical commands (R304 to
R313). -/

namespace Sys2Proof.Machine

/-- The highest-numbered ORK slot that is programmed and not revoked (R305). -/
def Fuses.rootSlot (f : Fuses) : Option Nat :=
  ((List.range 4).reverse).find? fun n => bitOf f.programmed.toNat n && !bitOf f.revoked.toNat n

/-- The root key: that slot's, or the DRK of an UNOWNED module. -/
def Fuses.root (f : Fuses) : BitVec 256 :=
  match f.rootSlot with
  | some n => f.orks.getD n 0
  | none => Config.deviceRootKey

/-- The security block comes out of reset (R305, R308, R309): it runs the start-up tests; where they pass it draws a
session nonce (log 6). CAK and KEK are derived anew; the failure count and any lockout are cleared. -/
def State.secStart (s : State) : State :=
  let r := s.fuses.rootSlot
  let st := (if r.isSome then 2 ^ 2 else 0) + (r.getD 0) * 2 ^ 3 + s.fuses.programmed.toNat * 2 ^ 5
    + s.fuses.revoked.toNat * 2 ^ 9
  let s := { s with cak := Crypto.kdf s.fuses.root [0x43, 0x4D, 0x4E, 0x44],
                    kek := Crypto.kdf s.fuses.root [0x57, 0x52, 0x41, 0x50],
                    authFails := 0, lockoutAt := none }
  let s := s.setReg Reg.secCmdctr 0
  if s.noiseFault then
    ((s.setReg Reg.secStatus (st + 2)).setReg Reg.secSession 0).raise .sec 2
  else
    let s := (s.setReg Reg.secStatus (st + 1)).setReg Reg.secSession (Config.sessionNonce s.drawCount).toNat
    { s with drawCount := s.drawCount + 1, drbgRequests := (s.drbgRequests + 1) % 2 ^ 20 }

/-- The bytes the tag of a critical command covers (R311). -/
def State.tagInput (s : State) (d : List Byte) : List Byte :=
  leBytes 8 (s.reg Reg.secSession) ++ (d.drop 96).take 16 ++ d.take 96

/-- The checks of R312 on a critical command, in their order: the refusal code, if any, and the state they leave. -/
def State.authenticate (d : List Byte) (s : State) : State × Option Nat :=
  if s.regBits Reg.secStatus 0 0 = 0 then (s, some Code.authNoSession)
  else if s.lockoutAt.isSome then (s, some Code.authLocked)
  else if fld d 104 1 ≠ dType d - 0x40 ∨ !zeroIn d 105 112 then (s, some Code.authClass)
  else if fld d 96 8 ≤ s.reg Reg.secCmdctr then (s, some Code.authStale)
  else if Crypto.cmac (Crypto.keyBytes s.cak) ((s.tagInput d).map (·.toNat)) ≠ (d.drop 112).map (·.toNat) then
    let s := (s.count Reg.secAuthfail 1).raise .sec 0
    if 16 ≤ s.authFails + 1 then
      let s := { s with authFails := 0, lockoutAt := some s.now }
      ((s.setField Reg.secStatus 13 13 1).raise .sec 1, some Code.authFail)
    else ({ s with authFails := s.authFails + 1 }, some Code.authFail)
  else ({ s.setReg Reg.secCmdctr (fld d 96 8) with authFails := 0 }, none)

/-- LOCKOUT_END (R313): 1 s after its start a lockout ends. -/
def State.lockoutEnd (s : State) : State :=
  match s.lockoutAt with
  | some t => if t + 1000000000 ≤ s.now then { s with lockoutAt := none }.setField Reg.secStatus 13 13 0 else s
  | none => s

/-- A health test of the noise source fails (R308): the source is FAILED and the DRBG stops; SEC_STATUS.SESSION reads 0
from now on (R309). A lasting fault fails the start-up tests of the next reset too. -/
def State.entropyFail (lasting : Bool) (s : State) : State :=
  let s := { s with noiseFault := lasting }
  if s.live 94 then (s.setField Reg.secStatus 1 0 2).raise .sec 2 else s

/-- The command LOCKOUT_END. -/
def execLockoutEnd (dt : Nat) (s : State) : Host.Outcome State Fault Refusal :=
  s.finish dt (s.advance dt).lockoutEnd

/-- The command ENTROPY_HEALTH_FAILURE. -/
def execEntropyHealthFailure (dt : Nat) (lasting : Bool) (s : State) : Host.Outcome State Fault Refusal :=
  s.finish dt ((s.advance dt).entropyFail lasting)

end Sys2Proof.Machine
end

