-- ==== Sys2Proof/Machine/Fabric.lean ====
section
/-! DEFINITION. The package fabric: its channels, and the channels that a transfer crosses (R25 to R28, R31; Table
ARC-5). -/

namespace Sys2Proof.Machine

/-! ### Channels (Table ARC-5, log 21) -/

/-- What a channel joins: a compute die and its home hub, two compute dies, two hubs, a link die and a hub. -/
inductive Channel where
  | home (n : Nat) | mesh (a b : Nat) | ring (j : Nat) | link (k j : Nat) | control
  deriving DecidableEq, Repr

/-- The channel of a number: 48 home channels, 40 horizontal and 42 vertical mesh channels, 8 ring segments, 12 link-die
channels; every number beyond them is the control network (DESIGN CHOICE, log 130). -/
def channelOf (c : Nat) : Channel :=
  if c < 48 then .home c
  else if c < 88 then
    let a := (c - 48) / 5 * 6 + (c - 48) % 5
    .mesh a (a + 1)
  else if c < 130 then .mesh (c - 88) (c - 88 + 6)
  else if c < 138 then .ring (c - 130)
  else if c < 150 then
    let k := (c - 138) / 2
    .link k (k + (c - 138) % 2 * 2)
  else .control

/-- The die at a channel's sending end. -/
def Channel.die : Channel → Nat
  | .home n => n
  | .mesh a _ => a
  | .ring j => 48 + j
  | .link k _ => 56 + k
  | .control => 63

/-- The two dies that a channel joins. -/
def Channel.ends : Channel → List Nat
  | .home n => [n, 48 + homeHub n]
  | .mesh a b => [a, b]
  | .ring j => [48 + j, 48 + (j + 1) % 8]
  | .link k j => [56 + k, 48 + j]
  | .control => [63]

/-- The dies whose logic a channel needs: both ends, but of a link-die channel the hub, since the traffic is the link
die's own or the host port's (log 131). -/
def Channel.needs : Channel → List Nat
  | .link _ j => [48 + j]
  | c => c.ends

/-- A channel carries traffic: it has not failed, and the dies it needs are on and out of reset (log 131). -/
def State.channelUp (s : State) (c : Channel) : Bool :=
  !(s.failedChannels.any fun n => channelOf n == c) && c.needs.all fun d => s.live (clocklessBlock d)

/-! ### Routes (R26, R28) -/

/-- The end of a transfer. -/
inductive FabricEnd where
  | die (n : Nat) | hub (j : Nat) | link (k : Nat)
  deriving DecidableEq, Repr

/-- The end at a die index; any index beyond the link dies stands for the host port, which is on L0 (R18). -/
def endAt (die : Nat) : FabricEnd :=
  if die < 48 then .die die else if die < 56 then .hub (die - 48) else if die < 62 then .link (die - 56) else .link 0

/-- The ring segments from a hub, upward and downward. -/
def ringUp (a n : Nat) : List Channel := (List.range n).map fun i => .ring ((a + i) % 8)
@[inherit_doc ringUp] def ringDown (a n : Nat) : List Channel := (List.range n).map fun i => .ring ((a + 7 - i % 8) % 8)

/-- Segments between two hubs, the shorter way. -/
def ringDistance (a b : Nat) : Nat := min ((b + 8 - a % 8) % 8) ((a + 8 - b % 8) % 8)

/-- The ways between two hubs: the shorter first, and upward where both are four segments long; a way that does not
carry traffic is passed over for the other. -/
def ringRoute (up : Channel → Bool) (a b : Nat) : Option (List Channel) :=
  let n := (b + 8 - a % 8) % 8
  let ways := if n ≤ 4 then [ringUp a n, ringDown a ((8 - n) % 8)] else [ringDown a (8 - n), ringUp a n]
  ways.find? (·.all up)

/-- The mesh channels between two compute dies: along the row of the first, then along the column of the second. -/
def meshRoute (a b : Nat) : List Channel :=
  let (row, col) := (a / 6, b % 6)
  let c0 := min (a % 6) col
  let r0 := min row (b / 6)
  (List.range (max (a % 6) col - c0)).map (fun i => .mesh (6 * row + c0 + i) (6 * row + c0 + i + 1))
    ++ (List.range (max row (b / 6) - r0)).map fun i => .mesh (6 * (r0 + i) + col) (6 * (r0 + i) + col + 6)

/-- A list of channels, where all of them carry traffic. -/
def carried (up : Channel → Bool) (l : List Channel) : Option (List Channel) := if l.all up then some l else none

/-- Two parts of a route. -/
def joinRoutes (a b : Option (List Channel)) : Option (List Channel) := a.bind fun x => b.map fun y => x ++ y

/-- From a compute die to a hub: through the home hub. -/
def dieToHub (up : Channel → Bool) (n j : Nat) : Option (List Channel) :=
  joinRoutes (carried up [.home n]) (ringRoute up (homeHub n) j)

/-- From a link die to a hub: through the attached hub nearer on the ring, on a tie Mk, or through the other one. -/
def linkToHub (up : Channel → Bool) (k j : Nat) : Option (List Channel) :=
  let via (h : Nat) := joinRoutes (carried up [.link k h]) (ringRoute up h j)
  if ringDistance k j ≤ ringDistance (k + 2) j then (via k).or (via (k + 2)) else (via (k + 2)).or (via k)

/-- The channels of a transfer, from the end that starts it, over the channels that carry traffic. R26 names the parts;
a transfer between a link die and a compute die is the two parts that meet at the die's home hub, and one between two
link dies the way of the first to the hub that has the second one's number, which that die hangs on (log 131). -/
def routeOver (up : Channel → Bool) : FabricEnd → FabricEnd → Option (List Channel)
  | .die a, .die b =>
    if a = b then some []
    else (carried up (meshRoute a b)).or
      (joinRoutes (dieToHub up a (homeHub b)) (carried up [.home b]))
  | .die n, .hub j => dieToHub up n j
  | .hub j, .die n => dieToHub up n j
  | .hub a, .hub b => ringRoute up a b
  | .link k, .hub j => linkToHub up k j
  | .hub j, .link k => linkToHub up k j
  | .link k, .die n => joinRoutes (linkToHub up k (homeHub n)) (carried up [.home n])
  | .die n, .link k => joinRoutes (linkToHub up k (homeHub n)) (carried up [.home n])
  | .link a, .link b => if a = b then some [] else joinRoutes (linkToHub up a b) (linkToHub up b b)

/-- The channels that a transfer crosses now; none where no way carries traffic. -/
def State.route (s : State) (a b : FabricEnd) : Option (List Channel) := routeOver s.channelUp a b

/-- The hub through which a link die reaches a hub; Mk where no way carries traffic. -/
def State.attachedHub (s : State) (k j : Nat) : Nat :=
  match s.route (.link k) (.hub j) with
  | some (.link _ h :: _) => h
  | _ => k

/-- A transfer between two ends has a way. -/
def State.reaches (s : State) (a b : FabricEnd) : Bool := (s.route a b).isSome

/-- The nominal rate of a channel in GB/s, which is bytes per nanosecond (Table ARC-5). -/
def Channel.rate : Channel → Nat
  | .home _ => 2560
  | .mesh _ _ => 1000
  | .ring _ => 4000
  | .link _ _ => 1000
  | .control => 1

end Sys2Proof.Machine
end

