-- ==== Sys2Proof/Machine/Fitter.lean ====
section
/-! DEFINITION. The Fitter admission unit: token times, bounds, bookings, pacing, decisions, voids, breaches (chapter
12), and the checks every descriptor passes (R342 to R348). -/

namespace Sys2Proof.Machine

/-! ### Token times (R318, R319) -/

/-- The guard of a die in percent, doubled while its bit in PRM_BREACH_DIE is set. -/
def State.guardPct (s : State) (n : Nat) : Nat :=
  let g := s.regBits Reg.prmGuard 5 0
  if bitOf (s.reg Reg.prmBreachDie) n then 2 * g else g

/-- τ_adm of a die in units of 0.01 ps, with the promise floor of 0.86 ns. -/
def State.tau (s : State) (n : Nat) : Nat := max (s.sentinelPs n * (100 + s.guardPct n)) 86000

/-- A duration of tokens at a token time in 0.01 ps, in nanoseconds rounded up (R317). -/
def tokensNs (n tau : Nat) : Nat := ceilDiv (n * tau) 100000

/-- The HBM share S_n in GB/s, which is bytes per nanosecond (R322). -/
def State.share (s : State) (n : Nat) : Nat := s.regBits (Reg.prmHbm n) 10 0

/-- A die is declared REMOTE. -/
def State.isRemote (s : State) (n : Nat) : Bool := s.regBits (Reg.prmHbm n) 11 11 == 1

/-- A sum over a list. -/
def sumOver (l : List Nat) (f : Nat → Nat) : Nat := l.foldl (fun a n => a + f n) 0

/-- One of the share sums of R322 is broken. -/
def State.shareBroken (s : State) : Bool :=
  let rem := sumOver ((List.range 48).filter s.isRemote) s.share
  decide (3600 < rem) || (List.range 8).any fun j =>
    decide (7200 < rem + sumOver ((List.range 6).filterMap fun i =>
      if s.isRemote (6 * j + i) then none else some (6 * j + i)) s.share)

/-! ### Units and domains (Table PRM-2) -/

/-- The domains a booked unit needs. -/
def BookUnit.domains : BookUnit → List Nat
  | .die n => [n]
  | .nearOut p => [pdNear p, pdLink (p / 2)]
  | .farShare k => [pdFar k, pdLink k]
  | .flash j => [pdFlash j, pdHub j, pdPhy j]
  | .hub j => [pdHub j, pdPhy j]
  | .pd92 => [92]

/-- The bit of a domain in PWR_EN and PWR_EN_HI: it is requested on. -/
def State.requested (s : State) (pd : Nat) : Bool :=
  if pd < 64 then bitOf (s.reg Reg.pwrEn) pd else bitOf (s.reg Reg.pwrEnHi) (pd - 64)

/-- A domain cannot be booked: off, held, requested off, or behind a hub not initialised (Table PRM-4, R385). -/
def State.domainOff (s : State) (pd : Nat) : Bool :=
  !s.live pd || !s.requested pd || (decide (48 ≤ pd) && decide (pd < 64) && !decide (pd % 8 ∈ s.initialised))

/-- Dormant switches a domain off (Table PWB-4). -/
def dormantOff (pd : Nat) : Bool := decide (pd < 48) || (decide (64 ≤ pd) && decide (pd < 82)) || (decide (88 ≤ pd) && decide (pd < 92))

/-- A booked unit is not ready: a port that is not UP (R393).

DEDUCED (log 179): also outside a wake. -/
def State.unitDown (s : State) (u : BookUnit) : Bool :=
  match u with
  | .nearOut p => s.regBits (Reg.npStatus p) 2 0 != 2
  | .farShare k => s.regBits (Reg.fpStatus k) 2 0 != 2
  | _ => false

/-- The die a refusal record names for a unit. -/
def BookUnit.dieOf : BookUnit → Nat
  | .die n => n
  | .nearOut p => 56 + p / 2
  | .farShare k => 56 + k
  | .flash j => 48 + j
  | .hub j => 48 + j
  | .pd92 => 56

/-! ### Plans -/

/-- A refusal: code, time offered, die and list position of its record (Table HIF-5). -/
structure Refuse where
  code : Nat
  time : Nat := 0
  die : Nat := 0xFF
  pos : Nat := 0
  /-- a host range lay outside every window (HIF_EVENTS.HOSTWIN) -/
  hostwin : Bool := false
  deriving DecidableEq, Repr

/-- What the Fitter needs to know of an item that passed its own checks. -/
structure Plan where
  units : List BookUnit := []
  /-- further domains the item touches -/
  domains : List Nat := []
  /-- the item touches HBM (R391) -/
  hbm : Bool := false
  /-- dies whose τ_adm enters the bound -/
  tokenDies : List Nat := []
  /-- compute dies whose tokens the bound counts, each reserving power -/
  powerDies : List Nat := []
  /-- link dies used for Welt or Skiver work -/
  linkDies : Nat := 0
  /-- the bound but for a gate's term -/
  fixedNs : Nat := 2000
  /-- the gate sequences without a verdict that the item may bind to: the instant from which each is the present one, and
  the instant by which its verdict comes (R158, R321) -/
  gateSeqs : List (Nat × Nat) := []
  /-- the link dies whose τ_adm enters the bound with a gate's term -/
  gateDies : List Nat := []
  /-- the bound, but for the gate's term, of the dies whose program holds a GATE -/
  gateNs : Nat := 0
  /-- the die that governs the bound; its τ_adm goes into the record (R316) -/
  gov : Nat := 0xFF
  notBefore : Nat := 0
  /-- free-at of the units as an evaluation window gives it (R355), in place of the bookings -/
  window : Option Nat := none
  /-- the latest T_p of an evaluation run: its window's -/
  latest : Option Nat := none
  /-- the list or the image that the checks read -/
  checked : List Byte := []
  promised : Bool := true
  deriving DecidableEq, Repr

/-- The latest T_p booked on a unit. -/
def State.freeAt (s : State) (u : BookUnit) : Nat := (look s.bookings u).getD 0

/-- A unit is booked up to an instant. -/
def State.book (t : Nat) (s : State) (u : BookUnit) : State :=
  { s with bookings := assoc s.bookings u (max t (s.freeAt u)) }

/-- The power of a compute die that runs an item, in 0.1 W as a fraction (Table PRM-3). -/
def State.diePower (s : State) (n : Nat) : Nat × Nat :=
  let mv := s.word (Reg.vcore n)
  (650 * mv * mv * 100000, 562500 * s.tau n)

/-- The reservation of a plan in 0.1 W, rounded up (R325). -/
def State.planPower (s : State) (p : Plan) : Nat :=
  let f := p.powerDies.foldl (fun a n =>
    let b := s.diePower n
    (a.1 * b.2 + b.1 * a.2, a.2 * b.2)) ((0, 1) : Nat × Nat)
  ceilDiv (f.1 + p.linkDies * 100 * f.2) f.2

/-- The instant by which the verdict comes that a plan started at an instant waits for: that of the sequence it binds to,
the last to become the present one by then (R156). -/
def Plan.gateEnd (p : Plan) (at_ : Nat) : Option Nat :=
  (p.gateSeqs.foldl (fun (a : Nat × Option Nat) x => if a.1 ≤ x.1 ∧ x.1 ≤ at_ then (x.1, some x.2) else a) (0, none)).2

/-- The bound of a plan started at an instant. -/
def Plan.bound (p : Plan) (at_ : Nat) : Nat :=
  match p.gateEnd at_ with
  | some g => max p.fixedNs (p.gateNs + (g - at_))
  | none => p.fixedNs

/-- The dies whose τ_adm enters the bound of a plan started at an instant. -/
def Plan.boundDies (p : Plan) (at_ : Nat) : List Nat :=
  p.tokenDies ++ (if (p.gateEnd at_).isSome then p.gateDies else [])

/-- The reservations at an instant. -/
def State.loadAt (s : State) (t : Nat) : Nat :=
  (s.reservations.filter fun r => decide (r.1 ≤ t) && decide (t < r.2.1)).foldl (fun a r => a + r.2.2) 0

/-- Base, reservations and a new one come to at most the limit over the span of a start (R326). -/
def State.fits (s : State) (p : Plan) (dw start : Nat) : Bool :=
  let stop := start + p.bound start
  let cap := s.regBits Reg.pwrLimit 12 0 * 10
  (start :: (s.reservations.map (·.1)).filter fun t => decide (start < t) && decide (t < stop)).all fun t =>
    decide (s.baseDw + s.loadAt t + dw ≤ cap)

/-- Candidates by rising instant. -/
def insertSorted (l : List Nat) (n : Nat) : List Nat := l.filter (· ≤ n) ++ [n] ++ l.filter (n < ·)

/-- The paced start, if any (R326). -/
def State.pacedStart (s : State) (p : Plan) (dw s0 : Nat) : Option Nat :=
  if dw = 0 then some s0
  else
    let ends := (s.reservations.map (·.2.1)).filter (s0 < ·)
    (s0 :: ends.foldl insertSorted []).find? (s.fits p dw)

/-- The first cause of Table PRM-4 that applies before the bound is known, with the die it names; `bound` are those whose
τ_adm enters the bound. -/
def State.fitterCheck (s : State) (p : Plan) (bound : List Nat) : Option Refuse :=
  let offUnit := p.units.find? fun u => u.domains.any s.domainOff || s.unitDown u
  let offDom := p.domains.find? s.domainOff
  let asleep := s.regBits Reg.pwrStatus 1 0 != 0
    && (p.hbm || (p.units.any fun u => u.domains.any dormantOff) || p.domains.any dormantOff)
  if s.fatal.isSome then some { code := Code.unitOff }
  else match offUnit, offDom with
    | some u, _ => some { code := Code.unitOff, die := u.dieOf }
    | none, some pd => some { code := Code.unitOff, die := dieOfPd pd }
    | none, none =>
      if asleep then some { code := Code.unitOff }
      else match bound.find? s.stale with
        | some n => some { code := Code.cornerStale, die := n }
        | none =>
          let dies := p.units.filterMap fun u => match u with
            | .die n => some n
            | _ => none
          match dies.find? s.hot with
          | some n => some { code := Code.hot, die := n }
          | none =>
            if dies ≠ [] ∧ s.shareBroken then some { code := Code.shareOver } else none

/-! ### Dependencies (R343, R348) -/

/-- The decision, among the last 65,536, of the item that an id of 48 bits names, with the item's own number. -/
def State.decidedAs (s : State) (id : Nat) : Option (Nat × Decision) := (s.decided.take 65536).find? (·.1 % 2 ^ 48 == id)

/-- The number of the item that an id of 48 bits names: the id, or that of an item of the same id which outlived a
function-level reset, until its ring is on again (R341). -/
def State.named (s : State) (id : Nat) : Nat := ((s.decidedAs id).map (·.1)).getD id

/-- An item id not yet decided: that of the descriptor in hand, of one taken and waiting, or beyond the descriptors its
ring has taken. -/
def State.undecided (s : State) (own id : Nat) : Bool :=
  let n := id / 2 ^ 40 - 1
  id == own || s.taken.any (fun t => itemId t.ring t.index % 2 ^ 48 == id)
    || (decide (1 ≤ id / 2 ^ 40) && decide (n < 8) && (s.ringState n == 1 || s.ringState n == 2)
        && decide ((s.ring n).count ≤ id % 2 ^ 40))

/-- One dependency field: a refusal, or the T_p it constrains the start by. -/
def State.depOf (s : State) (own id : Nat) : Except Nat Nat :=
  if id = 0 then .ok 0
  else match s.decidedAs id with
    | none => if s.undecided own id then .error Code.depUnknown else .ok 0
    | some (_, .refused) => .error Code.depRefused
    | some (n, .accepted tp promised) =>
      if promised then .ok tp
      else if (s.item? n).isSome then .error Code.depUnknown else .ok 0

/-- The origin of a RESUBMIT: a voided item not yet complete, with the same type and body (R348). -/
def State.originOk (s : State) (d : List Byte) : Bool :=
  match s.item? (s.named (dDep0 d)) with
  | some it => it.voided && dType it.desc == dType d && decide ((it.desc.drop 32).take 64 = (d.drop 32).take 64)
  | none => false

/-- Both dependency fields of a descriptor whose own id is given. -/
def State.deps (s : State) (own : Nat) (d : List Byte) : Except Nat Nat :=
  let first : Except Nat Nat :=
    if dResubmit d then (if s.originOk d then .ok 0 else .error Code.malformed) else s.depOf own (dDep0 d)
  match first, s.depOf own (dDep1 d) with
  | .error c, _ => .error c
  | .ok _, .error c => .error c
  | .ok a, .ok b => .ok (max a b)

/-- The checks every descriptor passes first: its form, its epoch, its dependencies (R342 to R344). -/
def State.commonCheck (s : State) (own : Nat) (d : List Byte) : Except Refuse Nat :=
  if !decide (dType d ∈ knownTypes) || 8 ≤ dFlags d || fld d 2 2 ≠ 0 || (dEval d && dType d ≠ 0x03)
      || (!isCritical d && !zeroIn d 96 128) then .error { code := Code.malformed }
  else if dEpoch d ≠ 0 ∧ dEpoch d ≠ s.reg Reg.hifEpoch then .error { code := Code.epoch }
  else match s.deps own d with
    | .error c => .error { code := c }
    | .ok tp => .ok tp

/-! ### Decisions (R317, R328) -/

/-- The earliest start that all but pacing allows (R317, R326). -/
def State.earliest (s : State) (depTp : Nat) (p : Plan) : Nat :=
  let free := match p.window with
    | some w => w
    | none => p.units.foldl (fun a u => max a (s.freeAt u)) 0
  max (max s.time p.notBefore) (max depTp free)

/-- The start of a plan, pacing included; the earliest where no paced start exists. -/
def State.likelyStart (s : State) (depTp : Nat) (p : Plan) : Nat :=
  let s0 := s.earliest depTp p
  (s.pacedStart p (s.planPower p) s0).getD s0

/-- A T_p later than its window's is refused with the item's own checks, ahead of the Fitter's causes (R328, R355). -/
def State.leavesWindow (s : State) (depTp : Nat) (p : Plan) : Bool :=
  let ts := s.likelyStart depTp p
  p.latest.any (· < ts + p.bound ts)

/-- The decision of a plan: T_s, T_p and the power reserved, or a refusal. -/
def State.schedule (s : State) (d : List Byte) (depTp : Nat) (p : Plan) : Except Refuse (Nat × Nat × Nat) :=
  if s.leavesWindow depTp p then .error { code := Code.windowInvalid }
  else match s.fitterCheck p (p.boundDies (s.likelyStart depTp p)) with
  | some r => .error r
  | none =>
    let now := s.time
    let s0 := s.earliest depTp p
    if !p.promised then .ok (s0, 0, 0)
    else
      let dw := s.planPower p
      if 0 < dw ∧ s.regBits Reg.pwrLimit 12 0 * 10 < s.baseDw then .error { code := Code.powerPace }
      else match s.pacedStart p dw s0 with
        | none => .error { code := Code.powerPace }
        | some ts =>
          let tp := ts + p.bound ts
          if s.regBits Reg.prmPace 23 0 * 1000 < ts - s0 then .error { code := Code.powerPace, time := ts }
          else if dDeadline d ≠ 0 ∧ dDeadline d < tp then .error { code := Code.promiseLate, time := tp }
          else if s.reg Reg.prmHorizon * 1000000 < tp - now then .error { code := Code.promiseHorizon, time := tp }
          else .ok (ts, tp, dw)

/-- A refusal record is written, and nothing else changes but the counters and event bits that report it. -/
def State.refuse (t : Taken) (r : Refuse) (s : State) : State :=
  let id := itemId t.ring t.index
  let s := { s with decided := (id, Decision.refused) :: s.decided.take 65535 }
  let s := s.count Reg.prmRefused 1
  let s := if r.code = Code.powerPace then s.raise .prm 0 else s
  let s := if r.hostwin then s.raise .hif 2 else s
  let s := s.modRing t.ring fun g => { g with reservedRecords := g.reservedRecords - 1 }
  s.emitRecord t.ring (recordBytes 2 0 r.code (dTicket t.bytes) id r.time 0 0 0
    (leBytes 1 r.die ++ [0] ++ leBytes 2 r.pos)) true

/-- Items are numbered anew, wherever the state names one: after a RESUBMIT (R348), and, by 2^48 more, at a function-level
reset, after which the rings count from 0 again (R341; log 178). -/
def State.renumber (f : Nat → Nat) (s : State) : State :=
  let frame (x : FarFrame) : FarFrame := { x with item := x.item.map f }
  let port (p : FarPort) : FarPort := { p with sendQueue := p.sendQueue.map frame, unacked := p.unacked.map frame }
  let run (r : RunInfo) : RunInfo := { r with item := f r.item }
  let cob (c : CobRun) : CobRun := { c with item := f c.item }
  { s with
    items := s.items.map fun (i : Item) => { i with id := f i.id, deps := i.deps.map f }
    farPorts := s.farPorts.map port
    dies := s.dies.map fun (d : Die) => { d with run := d.run.map run, cob := d.cob.map cob }
    reduces := s.reduces.map fun (r : Reduce) => { r with item := f r.item }
    staged := s.staged.map fun (x : StagedSet) => { x with item := f x.item }
    exportHolds := s.exportHolds.map fun x => (f x.1, x.2) }

/-- A RESUBMIT takes over what its origin has not done: the origin ends with no further record, its frames, runs,
reduction, staged set and window become the new item's (R348). -/
def State.takeOver (d : List Byte) (id : Nat) (s : State) : State :=
  match s.item? (s.named (dDep0 d)) with
  | none => s
  | some o =>
    let s := { s with items := s.items.filter (·.id != o.id) }
    let s := s.renumber fun x => if x = o.id then id else x
    let s := s.modItem id fun i =>
      { i with started := o.started, done := o.done, code := o.code, detail := o.detail, stitches := o.stitches,
               counters := o.counters, evals := o.evals, evalFree := o.evalFree }
    if o.orphan then s
    else (s.modRing o.ring fun g => { g with reservedRecords := g.reservedRecords - 1 }).settleRing o.ring

/-- An accepted item: booked, its power reserved, its acceptance record written. -/
def State.accept (t : Taken) (p : Plan) (ts tp dw : Nat) (s : State) : State :=
  let d := t.bytes
  let id := itemId t.ring t.index
  let s := { s with decided := (id, Decision.accepted tp p.promised) :: s.decided.take 65535 }
  let s := s.count64 Reg.prmAdmitted 1
  let s := if p.promised ∧ p.window.isNone then p.units.foldl (State.book tp) s else s
  let s := if 0 < dw then { s with reservations := s.reservations ++ [(ts, tp, dw)] } else s
  let tauPs := if p.gov < 62 then ceilDiv (s.tau p.gov) 100 else 0
  let dies := p.units.filterMap fun u => match u with
    | .die n => some (n, s.tau n)
    | _ => none
  let it : Item :=
    { id := id, ring := t.ring, ticket := dTicket d, cirq := dCirq d, desc := d, ts := ts, tp := tp,
      tauPs := tauPs, powerDw := dw, units := p.units, doms := p.domains, checked := p.checked, taus := dies,
      govDie := p.gov, promised := p.promised,
      deps := ((if dResubmit d then [dDep1 d] else [dDep0 d, dDep1 d]).filter (· != 0)).map s.named }
  let s := { s with items := s.items ++ [it] }
  let s := if dResubmit d then s.takeOver d id else s
  s.emitRecord t.ring (recordBytes 1 0 0 (dTicket d) id (if p.promised then tp else 0) (if p.promised then ts else 0)
    tauPs dw []) false

/-- A check of a descriptor by the unit it concerns: a refusal, or the plan of the item. -/
abbrev ItemCheck := State → List Byte → Except Refuse Plan

/-- The start of an accepted item: its effect on the state. -/
abbrev ItemStart := Item → State → State

/-- The crossings that an item's accesses to memory go through: the HBM4 PHY of every hub it touches, the ONFI PHY of
every flash channel. -/
def Item.crossings (it : Item) : List Nat :=
  let doms := it.units.flatMap BookUnit.domains ++ it.doms
  (doms.filter fun b => decide (48 ≤ b) && decide (b < 56)).map (16 * · + 1)
    ++ it.units.filterMap fun u => match u with
      | .flash j => some (16 * (48 + j) + 2)
      | _ => none

/-- The Cobbler of an update item's die has no earlier run in progress (R175, R186). -/
def State.cobblerFree (s : State) (it : Item) : Bool := dType it.desc != 0x04 || (s.die (fld it.desc 32 1)).cob.isNone

/-- An item does not start now: it has started or is done, its T_s has not come, a crossing that its accesses need is
closed (R377), or its die's Cobbler has an earlier run in progress. -/
def State.startWaits (s : State) (it : Item) : Bool :=
  it.started || it.done || decide (s.time < it.ts) || !it.crossings.all s.crossUp || !s.cobblerFree it

/-- An item at its T_s starts, unless it waits. -/
def State.startItem (start : ItemStart) (id : Nat) (s : State) : State :=
  match s.item? id with
  | some it =>
    if s.startWaits it then s
    else start it (s.modItem id fun i => { i with started := true })
  | none => s

/-- The authentication of a descriptor: of a critical command that of R312, of any other none. -/
def State.authed (d : List Byte) (s : State) : State × Option Nat :=
  if isCritical d && decide (dType d ∈ knownTypes) then s.authenticate d else (s, none)

/-- The descriptor checked whole and scheduled: a refusal, or the plan, T_s, T_p and the power reserved (R317, R344). -/
def State.judge (check : ItemCheck) (t : Taken) (s : State) : Except Refuse (Plan × Nat × Nat × Nat) :=
  let d := t.bytes
  match s.commonCheck (itemId t.ring t.index) d, check s d with
  | .error r, _ => .error r
  | .ok _, .error r => .error r
  | .ok depTp, .ok p =>
    match s.schedule d depTp p with
    | .error r => .error r
    | .ok x => .ok (p, x)

/-- The descriptor at the head is decided: authenticated if critical, checked whole, scheduled, then refused or
accepted; an item whose T_s has come starts (R312, R317, R344). -/
def State.decideTaken (check : ItemCheck) (start : ItemStart) (t : Taken) (s : State) : State :=
  match s.authed t.bytes with
  | (u, some c) => u.refuse t { code := c }
  | (u, none) =>
    match u.judge check t with
    | .error r => u.refuse t r
    | .ok (p, ts, tp, dw) => (u.accept t p ts tp dw).startItem start (itemId t.ring t.index)

/-- The kinds of descriptor that rows of the table decide: the type and the value of the field that tells the rows of
one type apart (Table HIF-4). -/
def rowKind (d : List Byte) : Nat × Nat :=
  let t := dType d
  (t, if t = 0x01 then fld d 32 1
      else if t = 0x04 then fld d 33 1
      else if t = 0x07 then fld d 50 1
      else if t = 0x10 then fld d 34 1
      else if t = 0x12 then fld d 32 1
      else if t = 0x41 then fld d 32 1
      else if t = 0x42 then fld d 34 1
      else if t = 0x43 then fld d 33 1
      else if t = 0x45 then fld d 34 1
      else if t = 0x47 then fld d 40 1
      else 0)

/-- The kinds that have a row. -/
def knownKinds : List (Nat × Nat) :=
  [(0x01, 0), (0x01, 1), (0x02, 0), (0x03, 0), (0x04, 0), (0x04, 1), (0x04, 2), (0x04, 3), (0x04, 4), (0x04, 5),
   (0x05, 0), (0x06, 0), (0x07, 0), (0x07, 1), (0x08, 0), (0x09, 0), (0x0A, 0), (0x0B, 0), (0x0C, 0), (0x0D, 0),
   (0x0E, 0), (0x0F, 0), (0x10, 0), (0x10, 1), (0x11, 0), (0x12, 0), (0x12, 1), (0x12, 2), (0x41, 0), (0x41, 1),
   (0x41, 2), (0x41, 3), (0x41, 4), (0x42, 0), (0x42, 1), (0x42, 2), (0x43, 0), (0x43, 1), (0x44, 0), (0x45, 0),
   (0x45, 1), (0x46, 0), (0x47, 0), (0x47, 1), (0x48, 0), (0x49, 0)]

/-- A descriptor of no row: an unknown type or an unlisted code of its row's field, refused with MALFORMED once the
checks that come first have passed (R312, R344). -/
def malformedCheck : ItemCheck := fun _ _ => .error { code := Code.malformed }

/-- The leading descriptors of no row are refused, in order, up to a count. -/
def State.flushBad : Nat → State → State
  | 0, s => s
  | n + 1, s =>
    match s.taken with
    | t :: rest =>
      if rowKind t.bytes ∈ knownKinds then s
      else State.flushBad n ({ s with taken := rest }.decideTaken malformedCheck (fun _ s => s) t)
    | [] => s

/-- The state with a descriptor no longer waiting. -/
def State.setTaken (l : List Taken) (s : State) : State := { s with taken := l }

/-- The kinds whose decision reads a payload in host memory: PROG_LOAD and FW_LOAD. -/
def hostKinds : List (Nat × Nat) := [(0x02, 0), (0x44, 0)]

/-- Descriptors of a kind are decided: the admission logic runs, and the host memory that the decision reads is in reach
(R365, R377). -/
def State.decides (kind : Nat × Nat) (s : State) : Bool := s.admitting && (s.hostUp || !decide (kind ∈ hostKinds))

/-- A row that decides descriptors of one kind: it decides the one at the head if it is of that kind (log 5), while it
can. -/
def State.decideRow (kind : Nat × Nat) (check : ItemCheck) (start : ItemStart) (s : State) : State :=
  if !s.decides kind then s
  else match s.taken with
    | t :: rest =>
      if rowKind t.bytes = kind then
        ((s.setTaken rest).decideTaken check start t).flushBad rest.length
      else s
    | [] => s

/-! ### Voids and breaches (R329, R330) -/

/-- The hubs from which an item's bytes go to its other hubs, or to which they come: of an EXPORT or an IMPORT those of its
image, of any other item those of its flash channels (R204, R221, R222). -/
def Item.hubEnds (it : Item) : List Nat :=
  let d := it.desc
  let span (a n : Nat) : List Nat := (List.range 8).filter fun j => decide (hubOfHbm a ≤ j) && decide (j ≤ hubOfHbm (a + (n - 1)))
  if dType d = 0x0A then span (fld d 56 6) (fld d 64 4)
  else if dType d = 0x0B then span (fld d 32 6) (fld d 40 4)
  else it.units.filterMap fun u => match u with
    | .flash j => some j
    | _ => none

/-- The transfers of an item: between its compute dies and their hubs (all hubs from a die declared REMOTE), among the
compute dies of its gang and their peers, between its link dies and the dies and hubs it touches, and between hubs (log
134). -/
def State.transfers (s : State) (it : Item) : List (FabricEnd × FabricEnd) :=
  let doms := (it.units.flatMap BookUnit.domains ++ it.doms).dedup
  let dies := doms.filter (· < 48)
  let hubs := ((doms.filter fun b => decide (48 ≤ b) && decide (b < 56)).map (· - 48)).dedup
  let cores := (doms.filter fun b => decide (82 ≤ b) && decide (b < 88)).map (· - 82)
  let links := (if cores = [] ∧ dies = [] then [0] else cores)
  let peers (n : Nat) : List Nat := if dType it.desc = 0x03 then (dies ++ setBitsOf (s.die n).cert.peers 48).dedup else []
  (dies.flatMap fun n =>
      ((if s.isRemote n then List.range 8 else (homeHub n :: hubs).dedup).map fun j => (FabricEnd.die n, FabricEnd.hub j))
        ++ (peers n).map fun m => (FabricEnd.die n, FabricEnd.die m))
    ++ (links.flatMap fun k =>
      (hubs.map fun j => (FabricEnd.link k, FabricEnd.hub j)) ++ dies.map fun n => (FabricEnd.link k, FabricEnd.die n))
    ++ it.hubEnds.flatMap fun a => (hubs.filter (· != a)).map fun b => (FabricEnd.hub a, FabricEnd.hub b)

/-- Items whose records are not yet issued are voided, with the dependants that have not started, by a count of rounds
(R329). -/
def State.voidGo : Nat → Nat → List Nat → State → State
  | 0, _, _, s => s
  | n + 1, cause, ids, s =>
    let hit := s.items.filter fun i => i.promised && !i.voided && decide (i.id ∈ ids)
    if hit = [] then s
    else
      let s := hit.foldl (fun s i =>
        let s := s.modItem i.id fun x => { x with voided := true }
        let s := (s.count Reg.prmVoids 1).raise .prm 1
        s.detail 0x0C80 1 56 0xFF (leBytes 6 i.id ++ leBytes 1 cause)) s
      let deps := (s.items.filter fun i => !i.started && i.deps.any fun x => hit.any (·.id == x)).map (·.id)
      State.voidGo n cause deps s

/-- The items of a list receive PROMISE_VOID with a cause of Table PRM-5. -/
def State.voidItems (cause : Nat) (ids : List Nat) (s : State) : State := State.voidGo (s.items.length + 1) cause ids s

/-- The module's own transfers for which a test holds lose their promise (R265); their records name no item (R350). -/
def State.voidTransfers (cause : Nat) (hit : Transfer → Bool) (s : State) : State :=
  let is (t : Transfer) : Bool := t.tp.isSome && !t.voided && !t.done && hit t
  let n := (s.farTransfers.filter is).length
  let s := { s with farTransfers := s.farTransfers.map fun t => if is t then { t with voided := true } else t }
  (List.range n).foldl (fun s _ =>
    ((s.count Reg.prmVoids 1).raise .prm 1).detail 0x0C80 1 56 0xFF (leBytes 6 0 ++ leBytes 1 cause)) s

/-- Steps 1 and 2 of R330: a breach of an item whose bound a die governed, by its T_p. -/
def State.noteBreach (id gov tp : Nat) (s : State) : State :=
  let s := (s.count Reg.prmBreaches 1).raise .prm 2
  let s := s.detail 0x0C81 2 gov 0xFF (leBytes 6 id ++ leBytes 1 gov ++ [0] ++ leBytes 8 tp ++ leBytes 8 s.time)
  if gov < 62 then s.setReg Reg.prmBreachDie (s.reg Reg.prmBreachDie ||| 2 ^ gov) else s

/-- Steps 1 and 2 of R330 for an item at its T_p. -/
def State.breachItem (it : Item) (s : State) : State :=
  (s.modItem it.id fun i => { i with breached := true }).noteBreach it.id it.govDie it.tp

end Sys2Proof.Machine
end

