-- ==== Sys2Proof/Machine/NearLink.lean ====
section
/-! DEFINITION. The near fabric as a carrier: flits, credits, routing, end-to-end flows, and what a port that goes DOWN
leaves (R227 to R234). -/

namespace Sys2Proof.Machine

/-! ### Coordinates and directions (R230, Table NEA-2) -/

/-- Coordinate i (0 X, 1 Y, 2 Z) of a 9-bit coordinate code. -/
def coordOf (c i : Nat) : Nat := c / 2 ^ (3 * i) % 8

/-- The code with coordinate i replaced. -/
def withCoord (c i v : Nat) : Nat := putBits c (3 * i + 2) (3 * i) v

/-- This module's coordinates. -/
def State.coord (s : State) : Nat := s.regBits Reg.neaCoord 8 0

/-- The size of dimension i. -/
def State.dimSize (s : State) (i : Nat) : Nat := coordOf (s.regBits Reg.neaCoord 17 9) i + 1

/-- The two ports of a direction: dimension, and whether it is the + direction. -/
def portsOf (i : Nat) (plus : Bool) : Nat × Nat :=
  match i, plus with
  | 0, true => (0, 5)
  | 0, false => (2, 7)
  | 1, true => (1, 8)
  | 1, false => (3, 10)
  | _, true => (4, 9)
  | _, false => (6, 11)

/-- The dimension and direction of a port. -/
def dirOfPort (p : Nat) : Nat × Bool :=
  match p with
  | 0 => (0, true)
  | 5 => (0, true)
  | 2 => (0, false)
  | 7 => (0, false)
  | 1 => (1, true)
  | 8 => (1, true)
  | 3 => (1, false)
  | 10 => (1, false)
  | 4 => (2, true)
  | 9 => (2, true)
  | _ => (2, false)

/-- The port at the neighbour that a port is wired to. -/
def pairedPort (p : Nat) : Nat :=
  match p with
  | 0 => 2
  | 2 => 0
  | 5 => 7
  | 7 => 5
  | 1 => 3
  | 3 => 1
  | 8 => 10
  | 10 => 8
  | 4 => 6
  | 6 => 4
  | 9 => 11
  | _ => 9

/-- The module one step in a port's direction. -/
def State.neighbour (s : State) (p : Nat) : Nat :=
  let (i, plus) := dirOfPort p
  let n := s.dimSize i
  let c := coordOf s.coord i
  withCoord s.coord i (if plus then (c + 1) % n else (c + n - 1) % n)

/-- The state of a near port: 0 OFF, 1 TRAIN, 2 UP, 3 DOWN, 4 FAILED. -/
def State.npState (s : State) (p : Nat) : Nat := s.regBits (Reg.npStatus p) 2 0

/-- The island of a near port's link die has its clock: its transmitter is not in electrical idle (Table CLK-2). -/
def State.linkClock (s : State) (p : Nat) : Bool := s.wire (56 + p / 2) .near

/-- The crossing of a near port: its link die's port 1 or 2 (log 16). -/
def nearCrossing (p : Nat) : Nat := 16 * (56 + p / 2) + 1 + p % 2

/-- Flits pass between a near port and its link die: the port's clock runs and its crossing is open (R365, R377). -/
def State.portFlows (s : State) (p : Nat) : Bool := s.linkClock p && s.crossUp (nearCrossing p)

/-- A near port is UP. -/
def State.nearUp (s : State) (p : Nat) : Bool := s.npState p == 2

/-! ### Routing (R231, R232) -/

/-- The port of a direction a message takes: the first for an even stitch number, else the second, or the other one. -/
def State.portToward (s : State) (i : Nat) (plus : Bool) (stitch : Nat) : Option Nat :=
  let (a, b) := portsOf i plus
  let (p, q) := if stitch % 2 = 0 then (a, b) else (b, a)
  if s.nearUp p then some p else if s.nearUp q then some q else none

/-- A hop in a direction crosses the dateline of its dimension. -/
def State.crossesDateline (s : State) (i : Nat) (plus : Bool) : Bool :=
  let c := coordOf s.coord i
  if plus then c + 1 == s.dimSize i else c == 0

/-- The next hop of a message from this module: the port, its virtual channel, and whether it is a detour. -/
def State.hop (s : State) (dst stitch vc : Nat) (arrived : Option Nat) : Option (Nat × Nat × Bool) :=
  match (List.range 3).find? fun i => coordOf s.coord i != coordOf dst i with
  | none => none
  | some i =>
    let n := s.dimSize i
    let fwd := (coordOf dst i + n - coordOf s.coord i) % n
    let plus := decide (fwd ≤ n - fwd)
    let go (plus : Bool) : Option (Nat × Nat × Bool) :=
      (s.portToward i plus stitch).map fun p =>
        (p, if vc = 1 ∧ s.crossesDateline i plus then 2 else vc, false)
    let back : Option (Nat × Bool) := arrived.map dirOfPort
    let detours := (([1, 2].map fun k => (i + k) % 3).flatMap fun j => [(j, true), (j, false)]).filter
      fun d => some d ≠ back
    (go plus).or ((go (!plus)).or (detours.findSome? fun d =>
      (s.portToward d.1 d.2 stitch).map fun p => (p, 3, true)))

/-! ### Flits (R227, R228) -/

/-- A flit: kind byte, sequence, acknowledgement, credits, payload; `used` counts the payload of DATA alone (Table
NEA-1). -/
def flitBytes (kind seq ack credit : Nat) (payload : List Byte) : List Byte :=
  let used := if kind % 8 = 1 then payload.length else 0
  let b := leBytes 2 seq ++ leBytes 2 ack ++ leBytes 1 kind ++ leBytes 1 used ++ leBytes 2 credit
    ++ padTo 244 payload
  b ++ leBytes 4 (Crypto.crc32 b)

/-- The last DATA sequence number received in order on a port. -/
def NearPort.lastGood (p : NearPort) : Nat := (p.rxSeq + 65535) % 65536

/-- A DATA flit as it goes out, with ACKV. -/
def dataFlit (port : NearPort) (seq : Nat) (f : FlitReq) : List Byte :=
  flitBytes (1 + 8 + (if f.som then 16 else 0) + (if f.eom then 32 else 0) + f.vc * 64) seq port.lastGood 0 f.payload

/-- The next DATA flit of an UP port goes out: the first of the queue whose virtual channel has a credit, while fewer
than 8,192 are unacknowledged. -/
def State.pumpOne (p : Nat) (s : State) : State :=
  let port := s.nport p
  if !s.nearUp p || !s.portFlows p || 8192 ≤ port.replay.length then s
  else match port.sendQueue.findIdx? fun f => decide (0 < port.credits.getD f.vc 0) with
    | none => s
    | some i =>
      match port.sendQueue[i]? with
      | none => s
      | some f =>
        let s := s.modNport p fun q =>
          { q with
            sendQueue := q.sendQueue.eraseIdx i
            replay := q.replay ++ [(q.nextSeq, f)]
            nextSeq := (q.nextSeq + 1) % 65536
            credits := modAt q.credits f.vc (· - 1) }
        s.emit (.flit p (dataFlit port port.nextSeq f))

/-- A flit without payload goes out: IDLE, NAK, CREDIT with `credit` for a channel. -/
def State.emitCtl (p : Nat) (x : Nat × Nat × Nat) (s : State) : State :=
  s.emit (.flit p (flitBytes (x.1 + 8 + x.2.1 * 64) 0 (s.nport p).lastGood x.2.2 []))

/-- A flit without payload is sent: it waits while the port's transmitter is in electrical idle (R365). -/
def State.sendCtl (p kind vc credit : Nat) (s : State) : State :=
  if s.linkClock p then s.emitCtl p (kind, vc, credit)
  else s.modNport p fun q => { q with waitCtl := q.waitCtl ++ [(kind, vc, credit)] }

/-- The flits without payload that waited go out once the port's clock runs. -/
def State.sendWaiting (p : Nat) (s : State) : State :=
  if s.linkClock p then
    (s.nport p).waitCtl.foldl (fun s x => s.emitCtl p x) (s.modNport p fun q => { q with waitCtl := [] })
  else s

/-- All that can go out of a port goes out. -/
def State.pump (p : Nat) (s : State) : State :=
  let rec go : Nat → State → State
    | 0, s => s
    | n + 1, s => go n (s.pumpOne p)
  go (s.nport p).sendQueue.length (s.sendWaiting p)

/-! ### Messages (R233) -/

/-- A message as bytes. -/
def NearMsg.bytes (m : NearMsg) : List Byte :=
  leBytes 1 m.typ ++ leBytes 1 m.flags ++ leBytes 2 m.dst ++ leBytes 2 m.src ++ leBytes 2 m.group ++ leBytes 4 m.epoch
    ++ leBytes 6 m.stitch ++ leBytes 4 m.body.length ++ leBytes 2 m.position ++ leBytes 8 m.operand.toNat ++ m.body

/-- A message read from its bytes; `none` where the length field does not match. -/
def NearMsg.parse (b : List Byte) : Option NearMsg :=
  if b.length < 32 ∨ fld b 18 4 ≠ b.length - 32 ∨ 65472 < b.length - 32 then none
  else some { typ := fld b 0 1, flags := fld b 1 1, dst := fld b 2 2, src := fld b 4 2, group := fld b 6 2,
              epoch := fld b 8 4, stitch := fld b 12 6, position := fld b 22 2, operand := BitVec.ofNat 64 (fld b 24 8),
              body := b.drop 32 }

/-- The virtual channel a type starts on (Table NEA-4). -/
def NearMsg.vc (m : NearMsg) : Nat := if m.typ = 1 ∨ m.typ = 2 ∨ m.typ = 3 then 1 else 0

/-- A message's bytes cut into flit payloads. -/
def cutFlits : Nat → List Byte → List (List Byte)
  | 0, _ => []
  | n + 1, b => if b.length ≤ 244 then [b] else b.take 244 :: cutFlits n (b.drop 244)

/-- The mark of flits of a message this module forwards. -/
abbrev notOwn : Nat := 0xFFFF

/-- A message has made its 8 detour hops. How many lie behind one that arrives with DETOUR set the header does not say:
a free value (log 103). -/
def State.detoursSpent (m : NearMsg) (arrived : Option Nat) (s : State) : Bool :=
  arrived.isSome && bitOf m.flags 0 && decide (8 ≤ Config.detoursMade s.drawCount % 8 + 1)

/-- A message is queued on the port of its next hop, its flits going out as credits allow; one that has made 8 detour
hops, or that finds no port UP, is discarded and counted in NEA_DROPS (R232). -/
def State.routeMsg (m : NearMsg) (vc : Nat) (arrived : Option Nat) (s : State) : State :=
  let spent := s.detoursSpent m arrived
  let s := if arrived.isSome && bitOf m.flags 0 then { s with drawCount := s.drawCount + 1 } else s
  match (if spent then none else s.hop m.dst m.stitch vc arrived) with
  | none => s.count Reg.neaDrops 1
  | some (p, vc, detour) =>
    let m := if detour then { m with flags := m.flags ||| 1 } else m
    let parts := cutFlits (m.bytes.length / 244 + 1) m.bytes
    let own := if m.src = s.coord ∧ m.typ ≠ 9 then m.dst else notOwn
    let reqs := parts.mapIdx fun i b =>
      ({ som := i == 0, eom := i + 1 == parts.length, vc := vc, payload := b, peer := own, stitch := m.stitch } : FlitReq)
    (s.modNport p fun q => { q with sendQueue := q.sendQueue ++ reqs }).pump p

/-! ### Flows (R234) -/

/-- The flow with a module. -/
def State.flow (s : State) (peer : Nat) : Flow := (s.flows.find? (·.peer == peer)).getD { peer := peer }

/-- A flow changes. -/
def State.modFlow (s : State) (peer : Nat) (f : Flow → Flow) : State :=
  { s with flows := f (s.flow peer) :: s.flows.filter (·.peer != peer) }

/-- The port on which a message of this module leaves. -/
def State.firstPort (s : State) (m : NearMsg) : List Nat := ((s.hop m.dst m.stitch m.vc none).map (·.1)).toList

/-- A message of this module to another of the site: it takes the flow's next stitch number, is kept until
acknowledged, and goes out. -/
def State.sendNear (typ flags dst group position : Nat) (operand : Nat) (body : List Byte) (s : State) : State :=
  let m : NearMsg :=
    { typ := typ, flags := flags, dst := dst, src := s.coord, group := group, epoch := s.reg Reg.hifEpoch,
      stitch := (s.flow dst).nextStitch, position := position, operand := BitVec.ofNat 64 operand, body := body }
  let k : Kept := { msg := m, sentAt := s.now, resends := 0, ports := s.firstPort m }
  let s := s.modFlow dst fun f => { f with nextStitch := (f.nextStitch + 1) % 2 ^ 48, kept := f.kept ++ [k] }
  s.routeMsg m m.vc none

/-- An E2E_ACK goes out. It belongs to no flow: its stitch number is 0 and it is not kept. -/
def State.sendAck (dst stitch : Nat) (s : State) : State :=
  s.routeMsg { typ := 9, flags := 0, dst := dst, src := s.coord, group := 0, epoch := s.reg Reg.hifEpoch, stitch := 0,
               position := 0, operand := BitVec.ofNat 64 stitch, body := [] } 0 none

/-- A kept message is sent again with RESENT set. -/
def State.resendNear (peer stitch : Nat) (s : State) : State :=
  match (s.flow peer).kept.find? fun (k : Kept) => k.msg.stitch == stitch with
  | none => s
  | some k =>
    let ports := s.firstPort k.msg
    let again (x : Kept) : Kept := { x with sentAt := s.now, resends := x.resends + 1, ports := x.ports ++ ports }
    let s := s.modFlow peer fun f =>
      { f with kept := f.kept.map fun (x : Kept) => if x.msg.stitch = stitch then again x else x }
    let s := s.count Reg.neaResends 1
    s.routeMsg { k.msg with flags := k.msg.flags ||| 2 } k.msg.vc none

/-- What a port that stops carries away: its buffers are discarded, and every message of this module that was sent on it
and is not acknowledged is sent again at once (R229, R234). -/
def State.nearLose (p : Nat) (s : State) : State :=
  let s := s.modNport p fun q => { downs := q.downs, since := s.now, trainedAt := q.trainedAt }
  let s := { s with owed := s.owed.filter fun x => x.2.2.1 != p }
  let mine := s.flows.flatMap fun (f : Flow) =>
    (f.kept.filter fun (k : Kept) => decide (p ∈ k.ports) && decide (k.resends < 4)).map fun (k : Kept) =>
      (f.peer, k.msg.stitch)
  mine.foldl (fun s x => s.resendNear x.1 x.2) s

end Sys2Proof.Machine
end

