-- ==== Sys2Proof/Machine/Faults.lean ====
section
/-! DEFINITION. The end of a program run, program faults, and items that end early (R138, R161, R321, R329, R331). -/

namespace Sys2Proof.Machine

/-! ### Program state and version references -/

/-- The program state of a die: 0 EMPTY, 1 LOADED, 2 RUNNING, 3 FAULTED. -/
def State.prgState (s : State) (n : Nat) : Nat := s.regBits (Reg.prgStatus n) 1 0

/-- The register of a slot's holds. -/
def vtHold (n e slot : Nat) : Nat := if slot = 0 then Reg.vtHold0 n e else Reg.vtHold1 n e

/-- The reference count of a slot: tags that hold it, plus 1 while the run that selected it is RUNNING (R160). -/
def State.refOf (s : State) (n e slot : Nat) : Nat :=
  (setBitsOf (s.reg (vtHold n e slot)) 64).length
    + (if s.prgState n = 2 ∧ ((s.die n).run.any fun r => decide ((e, slot) ∈ r.slots)) then 1 else 0)

/-- VT_STATE shows the reference counts of an entry. -/
def State.showRefs (n e : Nat) (s : State) : State :=
  s.setReg (Reg.vtState n e)
    (putBits (putBits (s.reg (Reg.vtState n e)) 11 5 (s.refOf n e 0)) 18 12 (s.refOf n e 1))

/-- A run that selected slots ends: KEEP_DROP releases its tag's holds, and the references fall (R161). -/
def State.releaseRun (n : Nat) (s : State) : State :=
  match (s.die n).run with
  | none => s
  | some r =>
    r.slots.foldl (fun s e =>
      let h := vtHold n e.1 e.2
      let s := if r.pin = 3 then s.setReg h (s.reg h &&& (2 ^ 64 - 1 - 2 ^ r.tag)) else s
      s.showRefs n e.1) s

/-! ### Items of gangs -/

/-- The dies whose run belongs to an item. -/
def State.gangOf (s : State) (id : Nat) : List Nat :=
  (List.range 48).filter fun n => (s.die n).run.any (·.item == id)

/-- A die has a spill or a replay still to come (R72, R75). -/
def Die.unsettled (d : Die) : Bool := d.tiles.any fun t => t.spillDue || t.marked != []

/-- A gang whose every die has stopped, with nothing issued still going, is done (R315). -/
def State.settleGang (id : Nat) (s : State) : State :=
  if (s.gangOf id).all (fun n => s.prgState n != 2 && (s.die n).awl.isNone && !(s.die n).unsettled)
  then s.modItem id fun i => { i with done := true } else s

/-- The detail of a far item's record (Table HIF-5). -/
def Item.farDetail (it : Item) : List Byte :=
  let st := it.stitches.getD (0, 0)
  let ct := it.counters.getD (0, 0)
  leBytes 6 st.1 ++ leBytes 6 st.2 ++ leBytes 8 ct.1.toNat ++ leBytes 8 ct.2.toNat

/-- The detail of the record of an item that ends early (Table HIF-5): a far item's frames, a window's EVAL items, what a
copy or an export has written. -/
def Item.endDetail (it : Item) : List Byte :=
  let t := dType it.desc
  if 0x0C ≤ t ∧ t ≤ 0x0F then it.farDetail else if t = 0x11 then leBytes 4 it.evals
  else if t = 0x01 ∨ t = 0x0A then it.detail else []

/-- The item carries a fault's code and detail; the first fault of the item stays. -/
def State.faultItem (id code : Nat) (detail : List Byte) (s : State) : State :=
  s.modItem id fun i => if i.done ∨ i.code ≠ 0 then i else { i with code := code, detail := detail }

/-! ### Program faults (R138) -/

/-- A program fault stops a RUNNING die: fetch stops, queued ops are discarded, the state becomes FAULTED, PRG_FAULT
tells cause, slot and bundle, the peers are told, the item ends with PRG_FAULT, and the fault is recorded, with the slot as
sub (DEDUCED, log 157). -/
def State.faultDie (n cause slot bundle : Nat) (s : State) : State :=
  if s.prgState n ≠ 2 then s
  else
    let d := s.die n
    let id := d.run.elim 0 (·.item)
    let s := s.modDie n fun d =>
      { d with ctrl := none, ctrlIssued := false, qMove := [], qArray := [], qAwl := [], fetching := false }
    let s := s.setField (Reg.prgStatus n) 1 0 3
    let s := s.setReg (Reg.prgFault n) (cause + slot * 2 ^ 8 + bundle % 2 ^ 14 * 2 ^ 16)
    let s := s.releaseRun n
    let s := { s with notices := s.notices ++ (setBitsOf d.cert.peers 48).map fun p => (n, p) }
    let s := if bitOf (s.reg (Reg.prgCtrl n)) 0 then s.fireVector 0 else s
    let where_ := [BitVec.ofNat 8 cause, BitVec.ofNat 8 slot] ++ leBytes 2 bundle
    let s := s.detail 0x0380 2 n slot (where_ ++ leBytes 6 id)
    let s := s.faultItem id Code.prgFault
      ([BitVec.ofNat 8 n, BitVec.ofNat 8 cause, BitVec.ofNat 8 slot, 0] ++ leBytes 2 bundle)
    s.settleGang id

/-- The dies of a gang item that still run stop with PRG_PEER (R321). -/
def State.stopGang (id : Nat) (s : State) : State :=
  (s.gangOf id).foldl (fun s n => s.faultDie n 0x15 3 (s.die n).fetchAt) s

/-! ### Items that end at once -/

/-- The staged set of an item is no longer pending (R352); an EPOCH set no longer shows in HIF_EPOCH_PEND. -/
def State.dropSet (id : Nat) (s : State) : State :=
  let epoch := s.staged.any fun (x : StagedSet) => x.item == id && x.cls == 2
  let s := { s with staged := s.staged.filter fun (x : StagedSet) => x.item != id }
  if epoch then s.setReg Reg.hifEpochPend 0 else s

/-- What an item has in hand is dropped: its reduction, its update run, its staged set, its frames not yet sent. -/
def State.dropWork (id : Nat) (s : State) : State :=
  let s := { s with reduces := s.reduces.filter fun (r : Reduce) => r.item != id }
  let s := s.dropSet id
  let cut (d : Die) : Die := if d.cob.any (·.item == id) then { d with cob := none } else d
  let cutPort (p : FarPort) : FarPort :=
    { p with sendQueue := p.sendQueue.filter fun (f : FarFrame) => f.item != some id }
  { s with dies := s.dies.map cut, farPorts := s.farPorts.map cutPort }

/-- A promised item that a reset ends before its T_p is never complete: at its T_p it is breached (R315, R330). -/
def State.noteEnded (it : Item) (code : Nat) (s : State) : State :=
  if code = Code.resetEnded ∧ it.promised ∧ !it.voided ∧ !it.breached ∧ s.time < it.tp
  then { s with ended := s.ended ++ [(it.id, it.tp, it.govDie)] } else s

/-- An item ends at once with a code; the dies of its gang stop. -/
def State.abortItem (id code : Nat) (s : State) : State :=
  match s.item? id with
  | none => s
  | some it =>
    if it.done then s
    else
      let s := s.modItem id fun i => { i with done := true, code := code, detail := i.endDetail }
      let s := (s.stopGang id).dropWork id
      (s.noteEnded it code).completeItem id

/-- The items that depend on items of a list, directly or through others, and have not started. -/
def State.dependants (s : State) : Nat → List Nat → List Nat
  | 0, _ => []
  | n + 1, ids =>
    let l := (s.items.filter fun i => !i.started && !i.done && i.deps.any (· ∈ ids)).map (·.id)
    let new := l.filter (· ∉ ids)
    if new = [] then [] else new ++ s.dependants n (ids ++ new)

/-- Items on a die, hub or link die taken out of service end at once with UNIT_LOST, their dependants that have not
started with DEP_LOST; their promises are void (Table PRM-5, R417). -/
def State.loseUnits (ids : List Nat) (s : State) : State :=
  let deps := s.dependants s.items.length ids
  let s := s.voidItems 4 ids
  let s := ids.foldl (fun s id => s.abortItem id Code.unitLost) s
  deps.foldl (fun s id => s.abortItem id Code.depLost) s

/-! ### Uncorrectable reads (R138, R200) -/

/-- An item touches a die: a unit it books, or a domain it uses, lies there. -/
def Item.touches (it : Item) (die : Nat) : Bool :=
  (it.units.flatMap BookUnit.domains ++ it.doms).any fun b => dieOfPd b == die

/-- The item may be the reader of a word of a die: it moves data of its own, it has started, and is not done or is one of the
kinds whose bytes move as one step and whose record is still due (log 111). -/
def Item.reads (it : Item) (die : Nat) : Bool :=
  let t := dType it.desc
  it.started && decide (t < 0x40) && !decide (t ∈ [0x02, 0x03, 0x11, 0x12])
    && (!it.done || (it.code == Code.ok && decide (t ∈ [0x01, 0x04, 0x05, 0x07, 0x0A, 0x0B, 0x0D]))) && it.touches die

/-- The op of slots 0 to 2 that reads: the Awl operation in hand, else the op at the head of the queue of the MOVE, the
ARRAY or the AWL slot; slot 3 and the fetch address where the die has none (log 135). -/
def Die.readerOp (d : Die) : Nat × Nat :=
  match d.awl, d.qMove, d.qArray, d.qAwl with
  | some r, _, _, _ => (2, r.op.bundle)
  | none, o :: _, _, _ => (0, o.bundle)
  | none, [], o :: _, _ => (1, o.bundle)
  | none, [], [], o :: _ => (2, o.bundle)
  | none, [], [], [] => (3, d.fetchAt)

/-- A reader of a word: the program of a die, or an item. -/
inductive Reader where
  | program (n : Nat) | item (id : Nat)
  deriving DecidableEq, Repr

/-- Those that may be reading a word of a die: the programs that run, of that die alone where only its own units read the
store, and the items that may be reading there (log 111). -/
def State.readersOf (s : State) (own : Bool) (die : Nat) : List Reader :=
  ((List.range 48).filter fun m => s.prgState m == 2 && (m == die || !own)).map Reader.program
    ++ (s.items.filter (·.reads die)).map fun i => Reader.item i.id

/-- A reader of a word that cannot be corrected ends: a program with PRG_MEM, any other item with MEM_ERROR. -/
def State.endReading (r : Reader) (s : State) : State :=
  match r with
  | .program m =>
    let x := (s.die m).readerOp
    s.faultDie m 0x16 x.1 x.2
  | .item id => (s.modItem id fun i => { i with done := false }).abortItem id Code.memError

/-- The reader of a word that cannot be corrected ends; which it is of those that may be, the command does not say (a free
value, log 111). -/
def State.endReader (own : Bool) (die : Nat) (s : State) : State :=
  let l := s.readersOf own die
  match l[Config.eccReader s.drawCount % l.length]? with
  | some r => State.endReading r { s with drawCount := s.drawCount + 1 }
  | none => s

/-- The items not done that book a unit for which a test holds. -/
def State.itemsOn (s : State) (hit : BookUnit → Bool) : List Nat :=
  (s.items.filter fun i => !i.done && i.units.any hit).map (·.id)

end Sys2Proof.Machine
end

