-- ==== Sys2Proof/Machine/Num.lean ====
section
/-! DEFINITION. Number formats and rounding (chapter 2): exact dyadic values, the one rounding function, H4, B8, G16,
binary32, bfloat16, BS16, paring, stochastic rounding, Pelun-exact sums. -/

namespace Sys2Proof.Machine

/-! ### Exact values -/

/-- A value: NaN, an infinity, or sign, magnitude `m` and exponent `e` of ± m × 2^e. -/
inductive Num where
  | nan
  | inf (neg : Bool)
  | fin (neg : Bool) (m : Nat) (e : Int)
  deriving DecidableEq, Repr

/-- A number divided by 2^k, rounded to nearest, ties to even (R35). -/
def rneShift (x : Int) (k : Nat) : Int :=
  let q := x / (2 ^ k : Int)
  let r := x % (2 ^ k : Int)
  if (2 ^ k : Int) < 2 * r ∨ (2 * r = (2 ^ k : Int) ∧ k ≠ 0 ∧ q % 2 = 1) then q + 1 else q

/-- An integer times 2^k, for a k of either sign, rounded to nearest even. -/
def scaleRne (x : Int) (k : Int) : Int := if 0 ≤ k then x * 2 ^ k.toNat else rneShift x (-k).toNat

/-- The nearest integer to a ratio, ties to even. -/
def rneDiv (a : Int) (b : Nat) : Int :=
  let q := a / (b : Int)
  let r := a % (b : Int)
  if (b : Int) < 2 * r ∨ (2 * r = (b : Int) ∧ q % 2 = 1) then q + 1 else q

/-- Two exponents brought together: the integers over the smaller one. -/
def alignTo (m : Int) (e lo : Int) : Int := m * 2 ^ (e - lo).toNat

/-- The signed integer of a magnitude. -/
def sgn (neg : Bool) (m : Nat) : Int := if neg then -(m : Int) else m

/-- A signed dyadic number as a value; zero is +0. -/
def ofDyadic (x : Int) (e : Int) : Num := .fin (decide (x < 0)) x.natAbs e

/-- Exact sum; a zero sum is +0 unless both are −0. Infinities and NaN as IEEE 754 has them. -/
def Num.add : Num → Num → Num
  | .nan, _ => .nan
  | _, .nan => .nan
  | .inf a, .inf b => if a = b then .inf a else .nan
  | .inf a, .fin _ _ _ => .inf a
  | .fin _ _ _, .inf b => .inf b
  | .fin a m e, .fin b n f =>
    if m = 0 ∧ n = 0 then .fin (a && b) 0 0
    else
      let lo := if m = 0 then f else if n = 0 then e else min e f
      ofDyadic (alignTo (sgn a m) (max e lo) lo + alignTo (sgn b n) (max f lo) lo) lo

/-- The value negated. -/
def Num.neg : Num → Num
  | .nan => .nan
  | .inf a => .inf (!a)
  | .fin a m e => .fin (!a) m e

/-- Exact product. -/
def Num.mul : Num → Num → Num
  | .nan, _ => .nan
  | _, .nan => .nan
  | .inf a, .inf b => .inf (a != b)
  | .inf a, .fin b n _ => if n = 0 then .nan else .inf (a != b)
  | .fin a m _, .inf b => if m = 0 then .nan else .inf (a != b)
  | .fin a m e, .fin b n f => .fin (a != b) (m * n) (e + f)

/-- A quotient of magnitudes to far more bits than any format keeps, with a sticky bit below. -/
def divBits (m n : Nat) : Nat × Int :=
  let k := 300 + Nat.log2 n
  let q := m * 2 ^ k / n
  (2 * q + (if m * 2 ^ k % n = 0 then 0 else 1), -(k : Int) - 1)

/-! ### Formats with an exponent field -/

/-- A format of sign, exponent and mantissa: bits of significand, exponent of the smallest quantum, code of infinity,
code of NaN, place of the sign. -/
structure Fmt where
  p : Nat
  qmin : Int
  infCode : Nat
  nanCode : Nat
  sign : Nat
  deriving DecidableEq, Repr

/-- binary32 (R47), G16 (R45), bfloat16 (R62), and a B8 element beside its block scale (R41). -/
def f32 : Fmt := ⟨24, -149, 0x7F800000, 0x7FC00000, 31⟩
@[inherit_doc f32] def g16 : Fmt := ⟨9, -70, 0x7F00, 0x7F80, 15⟩
@[inherit_doc f32] def bf16 : Fmt := ⟨8, -133, 0x7F80, 0x7FC0, 15⟩
@[inherit_doc f32] def b8 : Fmt := ⟨4, -9, 0x80, 0x80, 7⟩

/-- The quantum of a format at a magnitude. -/
def Fmt.quantum (f : Fmt) (m : Nat) (e : Int) : Int := max ((Nat.log2 m : Int) + e - (f.p - 1 : Nat)) f.qmin

/-- The code of a magnitude: nearest even, or stochastic with the 24 random bits of R60 (R61). Not yet bounded. -/
def Fmt.codeOf (f : Fmt) (r : Option Nat) (m : Nat) (e : Int) : Nat :=
  if m = 0 then 0
  else
    let q := f.quantum m e
    let base := (q - f.qmin).toNat * 2 ^ (f.p - 1)
    if q ≤ e then base + m * 2 ^ (e - q).toNat
    else
      let k := (q - e).toNat
      match r with
      | none => base + (rneShift m k).toNat
      | some r =>
        let d := m % 2 ^ k * 2 ^ 24 / 2 ^ k
        base + m / 2 ^ k + (if r < d then 1 else 0)

/-- A value written in a format (rounding points 1, 3, 5, 9; R46, R47). -/
def Fmt.write (f : Fmt) (r : Option Nat) : Num → Nat
  | .nan => f.nanCode
  | .inf a => f.infCode + (if a then 2 ^ f.sign else 0)
  | .fin a m e => min (f.codeOf r m e) f.infCode + (if a then 2 ^ f.sign else 0)

/-- The value of a code. -/
def Fmt.read (f : Fmt) (c : Nat) : Num :=
  let a := bitOf c f.sign
  let x := c % 2 ^ f.sign
  if f.infCode < x then .nan
  else if x = f.infCode then .inf a
  else
    let e := x / 2 ^ (f.p - 1)
    let m := x % 2 ^ (f.p - 1)
    if e = 0 then .fin a m f.qmin else .fin a (2 ^ (f.p - 1) + m) (f.qmin + (e - 1 : Nat))

/-- A value of binary32 from its bits, and the bits of a value, nearest even. -/
def ofBits (w : Word) : Num := f32.read w.toNat
@[inherit_doc ofBits] def toBits (x : Num) : Word := BitVec.ofNat 32 (f32.write none x)

/-- A NaN, an infinity, a finite value. -/
def Num.isNan : Num → Bool
  | .nan => true
  | _ => false
@[inherit_doc Num.isNan] def Num.isInf : Num → Bool
  | .inf _ => true
  | _ => false
@[inherit_doc Num.isNan] def Num.isFin : Num → Bool
  | .fin _ _ _ => true
  | _ => false

/-- A value is a zero of either sign. -/
def Num.isZero : Num → Bool
  | .fin _ m _ => m == 0
  | _ => false

/-- The sign of a value. -/
def Num.isNeg : Num → Bool
  | .nan => false
  | .inf a => a
  | .fin a _ _ => a

/-- A value as a signed integer in units of 2^−149, the binary32 quantum; 0 unless finite. -/
def Num.units : Num → Int
  | .fin a m e => if -149 ≤ e then sgn a m * 2 ^ (e + 149).toNat else 0
  | _ => 0

/-- The order of R101 on values that are not NaN: −∞ to +∞, −0 below +0, in units of 2^−149 doubled. -/
def Num.key : Num → Int
  | .nan => 0
  | .inf a => if a then -(2 ^ 300) else 2 ^ 300
  | .fin a m e =>
    if m = 0 then (if a then -1 else 0)
    else
      let x := 2 * m * 2 ^ (e + 149).toNat
      if a then -(x : Int) else x

/-! ### H4 (R36 to R40) -/

/-- Whether 2^j · m · 2^e, the scaled magnitude of the exact test of R40, is past the midpoint above code c. -/
def h4Up (m : Nat) (e : Int) (c : Nat) : Bool :=
  let j : Int := if c % 2 = 1 then ((7 - c) / 2 : Nat) else ((8 - c) / 2 : Nat)
  let x := e + j
  let n := if 0 ≤ x then m * 2 ^ x.toNat else m
  let d := if 0 ≤ x then 1 else 2 ^ (-x).toNat
  if c % 2 = 1 then decide (d < 2 * n) && decide (2 * d * d < (2 * n - d) * (2 * n - d))
  else decide (d < n) && decide (d * d < 2 * (n - d) * (n - d))

/-- Whether a scaled magnitude is at least that of a code: y² against 2^(c−7). -/
def h4AtLeast (m : Nat) (e : Int) (c : Nat) : Bool :=
  if c = 0 then true
  else
    let x := 2 * e + 7 - c
    if 0 ≤ x then decide (1 ≤ m * m * 2 ^ x.toNat) else decide (2 ^ (-x).toNat ≤ m * m)

/-- The test of R61 between codes c and c + 1 of H4: floor(d × 2^24) > r, for a scaled magnitude strictly between. -/
def h4Hi (m : Nat) (e : Int) (c r : Nat) : Bool :=
  -- y ≥ lo + (hi − lo) ρ with ρ = (r + 1) / 2^24, in units of the dyadic one of the two neighbours
  let y2 (j : Int) : Nat × Nat :=
    let x := e + j + 24
    if 0 ≤ x then (m * 2 ^ x.toNat, 1) else (m, 2 ^ (-x).toNat)
  let p := r + 1
  if c = 0 then
    let (n, d) := y2 3
    decide (p * d ≤ n)
  else if c % 2 = 1 then
    -- lo = a, hi = a √2: y/a − (1 − ρ) ≥ √2 ρ
    let (n, d) := y2 ((7 - c) / 2 : Nat)
    let l : Int := n - ((2 ^ 24 : Int) - p) * d
    decide (0 ≤ l) && decide (2 * (p * d : Nat) * (p * d : Nat) ≤ l * l)
  else
    -- lo = a √2, hi = 2 a: y/a − 2 ρ ≥ √2 (1 − ρ)
    let (n, d) := y2 ((8 - c) / 2 : Nat)
    let l : Int := n - 2 * (p : Int) * d
    let q := ((2 ^ 24 : Int) - p) * d
    decide (0 ≤ l) && decide (2 * q * q ≤ l * l)

/-- The code of a scaled magnitude of at most 1 (R40 step 4, Table FMT-4; stochastic R61). -/
def h4Code (r : Option Nat) (m : Nat) (e : Int) : Nat :=
  match r with
  | none =>
    if m = 0 ∨ (if 0 ≤ e + 4 then m * 2 ^ (e + 4).toNat ≤ 1 else m ≤ 2 ^ (-(e + 4)).toNat) then 0
    else 1 + ((List.range 6).takeWhile fun i => h4Up m e (i + 1)).length
  | some r =>
    if m = 0 then 0
    else
      let c := ((List.range 7).takeWhile fun i => h4AtLeast m e (i + 1)).length
      let exactly := c % 2 = 1 ∧ (let x := 2 * e + 7 - c
        if 0 ≤ x then m * m * 2 ^ x.toNat = 1 else m * m = 2 ^ (-x).toNat)
      if c = 7 ∨ exactly then c else if h4Hi m e c r then c + 1 else c

/-- √2 × 2^200, floored and with a bit below it set: √2 is never a dyadic number. -/
def root2 : Nat := 2 * Nat.sqrt (2 * 2 ^ 400) + 1

/-- The exact value of an H4 element in a block of scale b, for one rounding to binary32 (R37, R39). -/
def h4Value (c b : Nat) : Num :=
  let m := c % 8
  if b = 0xFF then .nan
  else if m = 0 then .fin false 0 0
  else
    let e : Int := (b : Int) - 127
    if m % 2 = 1 then .fin (bitOf c 3) 1 (e - ((7 - m) / 2 : Nat))
    else .fin (bitOf c 3) root2 (e - ((8 - m) / 2 : Nat) - 201)

/-! ### B8 (R41 to R44) -/

/-- The exact value of a B8 element in a block of scale b. -/
def b8Value (c b : Nat) : Num :=
  if b = 0xFF then .nan
  else match b8.read c with
    | .fin a m e => if m = 0 then .fin false 0 0 else .fin a m (e + b - 127)
    | x => x

/-! ### Blocks of H4 and B8 (R40, R43) -/

/-- The smallest exponent t with magnitude at most 2^t. -/
def ceilLog (m : Nat) (e : Int) : Int := (if m = 2 ^ Nat.log2 m then Nat.log2 m else Nat.log2 m + 1) + e

/-- The larger of two magnitudes. -/
def maxMag (a b : Nat × Int) : Nat × Int :=
  if a.1 = 0 then b else if b.1 = 0 then a
  else
    let lo := min a.2 b.2
    if a.1 * 2 ^ (a.2 - lo).toNat < b.1 * 2 ^ (b.2 - lo).toNat then b else a

/-- The magnitude of a value. -/
def Num.mag : Num → Nat × Int
  | .fin _ m e => (m, e)
  | _ => (0, 0)

/-- A block converted: codes, scale byte, overflow flag. `wide` is true for B8. -/
def blockOf (wide : Bool) (xs : List Num) (rs : Nat → Option Nat) : List Nat × Nat × Bool :=
  if xs.any fun x => !x.isFin then (xs.map fun _ => 0, 0xFF, false)
  else
    let amax := xs.foldl (fun a x => maxMag a x.mag) (0, 0)
    if amax.1 = 0 then (xs.map fun _ => 0, 0, false)
    else
      let t := ceilLog amax.1 amax.2 - (if wide then 8 else 0)
      if 254 < t + 127 then (xs.map fun _ => 0, 0xFF, true)
      else
        let t := max t (-127)
        let code (i : Nat) (x : Num) : Nat :=
          let c := if wide then b8.codeOf (rs i) x.mag.1 (x.mag.2 - t) else h4Code (rs i) x.mag.1 (x.mag.2 - t)
          if c ≠ 0 ∧ x.isNeg then c + (if wide then 0x80 else 8) else c
        (xs.mapIdx code, (t + 127).toNat, false)

/-- Nibbles packed into bytes (R38). -/
def packH4 : List Nat → List Byte
  | a :: b :: t => BitVec.ofNat 8 (a % 16 + b % 16 * 16) :: packH4 t
  | [a] => [BitVec.ofNat 8 (a % 16)]
  | [] => []

/-- Values cut into blocks of `n`. -/
def chunks {α : Type} (n : Nat) : Nat → List α → List (List α)
  | 0, _ => []
  | k + 1, l => if l = [] ∨ n = 0 then [] else l.take n :: chunks n k (l.drop n)
termination_by structural k => k

/-- A row of values as H4 or B8: payload bytes, scale bytes, and whether a block overflowed or became a NaN block. The
last block is padded with zero codes. `rs` gives the random value of element i. -/
def encodeRow (wide : Bool) (xs : List Num) (rs : Nat → Option Nat) : List Byte × List Byte × Bool :=
  let n := if wide then 32 else 16
  let bs := (chunks n xs.length xs).mapIdx fun j b => blockOf wide (b ++ List.replicate (n - b.length) (.fin false 0 0))
    fun i => rs (n * j + i)
  let codes := (bs.map (·.1)).flatten
  (if wide then codes.map (BitVec.ofNat 8) else packH4 codes, bs.map fun b => BitVec.ofNat 8 b.2.1, bs.any (·.2.2))

/-! ### Stochastic rounding (R60) -/

/-- The mixing function. -/
def mix (z : BitVec 64) : BitVec 64 :=
  let z := z + 0x9E3779B97F4A7C15#64
  let z := (z ^^^ (z >>> 30)) * 0xBF58476D1CE4E5B9#64
  let z := (z ^^^ (z >>> 27)) * 0x94D049BB133111EB#64
  z ^^^ (z >>> 31)

/-- The seed of a step. -/
def stepSeed (base step : Nat) : BitVec 64 := mix (BitVec.ofNat 64 base ^^^ BitVec.ofNat 64 step)

/-- The mixed word of a stream and an index. -/
def drawWord (base step stream index : Nat) : BitVec 64 :=
  mix (stepSeed base step ^^^ (BitVec.ofNat 64 stream <<< 48) ^^^ BitVec.ofNat 64 (index % 2 ^ 48))

/-- The 24 random bits of an element. -/
def drawBits (base step stream index : Nat) : Nat := (drawWord base step stream index >>> 40).toNat

/-! ### BS16 (R53 to R56) -/

/-- A BS16 block: scale, raise, contributors, mantissas. -/
structure Bs16 where
  s : Nat
  raised : Nat
  count : Nat
  ms : List Int
  deriving DecidableEq, Repr

/-- A poisoned block. -/
def Bs16.poison (raised count : Nat) : Bs16 := ⟨0xFF, raised, count, List.replicate 64 0⟩

/-- A block is poisoned, or a received one is treated so (R53, R54). -/
def Bs16.poisoned (b : Bs16) : Bool := b.s == 0xFF || b.ms.any (· == -32768)

/-- The 132 bytes of a block. -/
def Bs16.bytes (b : Bs16) : List Byte :=
  leBytes 1 b.s ++ leBytes 1 b.raised ++ leBytes 2 b.count ++ (b.ms.map fun m => leBytes 2 (twos 16 m)).flatten

/-- A block from its bytes. -/
def Bs16.parse (bs : List Byte) : Bs16 :=
  ⟨fld bs 0 1, fld bs 1 1, fld bs 2 2, (List.range 64).map fun i => signed 16 (fld bs (4 + 2 * i) 2)⟩

/-- Encoding of 64 values (R55), with the elements the rounding changed. -/
def Bs16.encode (xs : List Num) : Bs16 × List Bool :=
  if xs.any fun x => !x.isFin then (Bs16.poison 0 1, [])
  else
    let amax := xs.foldl (fun a x => maxMag a x.mag) (0, 0)
    if amax.1 = 0 then (⟨0, 0, 1, xs.map fun _ => 0⟩, [])
    else
      let s := (Nat.log2 amax.1 : Int) + amax.2 + 128
      if 254 < s then (Bs16.poison 0 1, [])
      else
        let s := max s 0
        let one (x : Num) : Int × Bool :=
          let k := x.mag.2 + 141 - s
          (scaleRne (sgn x.isNeg x.mag.1) k, decide (k < 0) && decide (x.mag.1 % 2 ^ (-k).toNat ≠ 0))
        let l := xs.map one
        (⟨s.toNat, 0, 1, l.map (·.1)⟩, l.map (·.2))

/-- The places of a raise: the least shift that brings every sum within range, of at most 2. -/
def raisePlaces (sums : List Int) : Nat :=
  ((List.range 3).find? fun k => sums.all fun x => decide ((rneShift x k).natAbs ≤ 32767)).getD 3

/-- Addition of two blocks that are not poisoned (R56): the sum (poisoned when its scale would pass 254), the places
raised, the elements whose alignment or raise discarded a nonzero bit. -/
def Bs16.add (a b : Bs16) : Bs16 × Nat × List Bool :=
  let s := max a.s b.s
  let al (x : Bs16) : List (Int × Bool) := x.ms.map fun m =>
    (rneShift m (s - x.s), decide (m % (2 ^ (s - x.s) : Int) ≠ 0))
  let l := (al a).zip (al b)
  let sums := l.map fun p => p.1.1 + p.2.1
  let k := raisePlaces sums
  let lost := (l.zip sums).map fun p => p.1.1.2 || p.1.2.2 || decide (p.2 % (2 ^ k : Int) ≠ 0)
  let raised := min 255 (max a.raised b.raised + k)
  let count := (a.count + b.count) % 65536
  if 254 < s + k then (Bs16.poison raised count, k, lost)
  else (⟨s + k, raised, count, sums.map fun x => rneShift x k⟩, k, lost)

/-- The value of a mantissa (R53). -/
def Bs16.value (b : Bs16) (i : Nat) : Num := if b.poisoned then .nan else ofDyadic (b.ms.getD i 0) ((b.s : Int) - 141)

/-! ### Paring (R57, R58) -/

/-- The exponent of ulp(w) of a finite binary32. -/
def ulpExp (w : Word) : Int :=
  let e := bitsOf w.toNat 30 23
  if e = 0 then -149 else (e : Int) - 150

/-- The exact value of a master element and its paring, as an integer and an exponent. -/
def pairValue (w : Word) (p : Byte) : Int × Int :=
  match ofBits w with
  | .fin a m e =>
    let u := ulpExp w
    (alignTo (sgn a m) e (u - 8) + signed 8 p.toNat, u - 8)
  | _ => (0, 0)

/-- An exact value normalised into a master element and its paring (R58). An exact zero gives +0 whatever the signs it came
from: R58 gives no sign for it (log 143). -/
def normalise (x : Int) (e : Int) : Word × Byte :=
  let w := toBits (ofDyadic x e)
  match ofBits w with
  | .fin a m f =>
    let u := ulpExp w - 8
    let lo := min (min e f) u
    let q := rneShift (alignTo x e lo - alignTo (sgn a m) f lo) (u - lo).toNat
    (w, BitVec.ofNat 8 (twos 8 (max (-128) (min 127 q))))
  | _ => (w, 0)

/-! ### binary32 operations, each rounded once (R47, R99) -/

/-- Sum, difference, product, fused product and sum. -/
def fadd (a b : Word) : Word := toBits ((ofBits a).add (ofBits b))
@[inherit_doc fadd] def fsub (a b : Word) : Word := toBits ((ofBits a).add (ofBits b).neg)
@[inherit_doc fadd] def fmul (a b : Word) : Word := toBits ((ofBits a).mul (ofBits b))
@[inherit_doc fadd] def ffma (a b c : Word) : Word := toBits (((ofBits a).mul (ofBits b)).add (ofBits c))

/-- Quotient, as a value for one rounding. -/
def Num.div : Num → Num → Num
  | .nan, _ => .nan
  | _, .nan => .nan
  | .inf _, .inf _ => .nan
  | .inf a, .fin b _ _ => .inf (a != b)
  | .fin a _ _, .inf b => .fin (a != b) 0 0
  | .fin a m e, .fin b n f =>
    if n = 0 then (if m = 0 then .nan else .inf (a != b))
    else
      let (q, k) := divBits m n
      .fin (a != b) q (k + e - f)

/-- Square root, as a value for one rounding. −0 gives −0; below 0 gives NaN. -/
def Num.sqrt : Num → Num
  | .nan => .nan
  | .inf a => if a then .nan else .inf false
  | .fin a m e =>
    if m = 0 then .fin a 0 0
    else if a then .nan
    else
      let (m, e) := if e % 2 = 0 then (m, e) else (2 * m, e - 1)
      let x := m * 2 ^ 120
      let r := Nat.sqrt x
      .fin false (2 * r + (if r * r = x then 0 else 1)) (e / 2 - 61)

/-- Quotient and square root of binary32. -/
def fdiv (a b : Word) : Word := toBits ((ofBits a).div (ofBits b))
@[inherit_doc fdiv] def fsqrt (a : Word) : Word := toBits (ofBits a).sqrt

/-- One level of the pairwise sum. -/
def pairUp : List Word → List Word
  | a :: b :: t => fadd a b :: pairUp t
  | l => l

/-- The sum of one chunk of 256 products by eight pairwise levels (Sequence FMT-1). -/
def pelunChunk (a b : List Nat) : Word :=
  let v := (List.range 256).map fun i => match a[i]?, b[i]? with
    | some x, some y => toBits ((bf16.read x).mul (bf16.read y))
    | _, _ => 0
  ((pairUp (pairUp (pairUp (pairUp (pairUp (pairUp (pairUp (pairUp v)))))))).headD 0)

end Sys2Proof.Machine
end

