-- ==== Sys2Proof/Machine/Tiles.lean ====
section
/-! DEFINITION. The tile address space (R112 to R115), version redirection (R160 to R162), raw tile images (R70), and
writes to stock SRAM with the loss boards they post (R150 to R152). -/

namespace Sys2Proof.Machine

/-! ### Windows (Table PRG-1) -/

/-- The size of a window. -/
def Space.size : Space → Nat
  | .hbm => 0x18000000000
  | .sram _ => 0x8000000
  | .awl => 0x100000
  | .acc _ => 0x400000

/-- Where an address of die n's tile address space lies. The absolute window of the die itself is its own stock SRAM. -/
def placeOf (n a : Nat) : Option Place :=
  if a < 0x18000000000 then some ⟨.hbm, a⟩
  else if 0x20000000000 ≤ a ∧ a < 0x20000000000 + 48 * 0x8000000 then
    some ⟨.sram ((a - 0x20000000000) / 0x8000000), (a - 0x20000000000) % 0x8000000⟩
  else if 0x30000000000 ≤ a ∧ a < 0x30008000000 then some ⟨.sram n, a - 0x30000000000⟩
  else if 0x30010000000 ≤ a ∧ a < 0x30010100000 then some ⟨.awl, a - 0x30010000000⟩
  else if 0x30020000000 ≤ a ∧ a < 0x30028000000 then
    some ⟨.acc ((a - 0x30020000000) / 0x400000), (a - 0x30020000000) % 0x400000⟩
  else none

/-- A range of bytes inside one window. -/
def rangeOf (n a len : Nat) : Option Place :=
  match placeOf n a with
  | some p => if p.off + len ≤ p.space.size then some p else none
  | none => none

/-- The uses of Table PRG-2. -/
inductive Use where
  | loadSrc | loadDst | storeSrc | storeDst | operand | partialAcc
  deriving DecidableEq, Repr

/-- The windows a use may name. -/
def Use.allows (u : Use) (n : Nat) (x : Space) : Bool :=
  match u, x with
  | .loadSrc, _ => true
  | .loadDst, .sram m => m == n
  | .loadDst, .awl => true
  | .storeSrc, .sram m => m == n
  | .storeSrc, .awl => true
  | .storeSrc, .acc _ => true
  | .storeDst, .hbm => true
  | .storeDst, .sram _ => true
  | .operand, .sram m => m == n
  | .operand, .awl => true
  | .partialAcc, .sram m => m == n
  | .partialAcc, .awl => true
  | .partialAcc, .acc _ => true
  | _, _ => false

/-- The hubs behind which a range of HBM lies. -/
def hubsOf (off len : Nat) : List Nat :=
  (List.range 8).filter fun j => decide (hubOfHbm off ≤ j) && decide (j ≤ hubOfHbm (off + (len - 1)))

/-- The store behind a place answers a die (the module's own units: any index beyond the dies): its hubs, or the die, are
on and the package fabric has a way to them (R31, R113). -/
def State.placePowered (s : State) (n : Nat) (p : Place) (len : Nat) : Bool :=
  match p.space with
  | .hbm => (hubsOf p.off len).all fun j => s.hubLive j && s.reaches (endAt n) (.hub j)
  | .sram m => m == n || (s.live m && s.reaches (endAt n) (.die m))
  | _ => true

/-- No crossing on the way to a place is closed: a request would wait there (R377). -/
def State.placeOpen (s : State) (p : Place) (len : Nat) : Bool :=
  match p.space with
  | .hbm => (hubsOf p.off len).all fun j => s.crossUp (16 * (48 + j) + 1)
  | _ => true

/-! ### Raw tile images (R70) -/

/-- Bytes of a lane, and lanes of an element, of an image format (Table ARY-3). -/
def laneBytes (fmt : Nat) : Nat := if bitOf fmt 3 then 4 else if bitOf fmt 2 then 8 else if bitOf fmt 0 then 6 else 4
@[inherit_doc laneBytes] def laneCount (fmt : Nat) : Nat := if !bitOf fmt 3 && bitOf fmt 1 then 2 else 1

/-- The length of an image. -/
def imageLen (fmt m : Nat) : Nat := 16 + m * 256 * laneCount fmt * laneBytes fmt + m * 64

/-- The format byte of a tile's own image. -/
def Tile.fmt (t : Tile) : Nat := (if t.a48 then 1 else 0) + (if t.twoLane then 2 else 0) + (if t.pelun then 8 else 0)

/-- A tag's code (Table FMT-7). -/
def Tag.code : Tag → Nat
  | .fin => 0
  | .posInf => 1
  | .negInf => 2
  | .nan => 3

/-- A tag from its code. -/
def tagOf (c : Nat) : Tag :=
  if c % 4 = 0 then .fin else if c % 4 = 1 then .posInf else if c % 4 = 2 then .negInf else .nan

/-- The tag of an element, and a lane. -/
def Tile.tag (t : Tile) (x : Nat) : Tag := sparseGet (fun _ => Tag.fin) t.tags x
@[inherit_doc Tile.tag] def Tile.lane (t : Tile) (x l : Nat) : Int := sparseGet (fun _ => (0 : Int)) t.lanes (2 * x + l)

/-- The status word: HAS_INF and HAS_NAN tell the tags (Table ARY-4), and what a restored image said (R69).

DEDUCED (log 115): the two bits are the image's, or the disjunction over the tags. -/
def Tile.status32 (t : Tile) : Nat :=
  let w := t.word.toNat
  w ||| (if t.tags.any fun e => e.2 == .posInf || e.2 == .negInf then 4 else 0)
    ||| (if t.tags.any fun e => e.2 == .nan then 8 else 0)

/-- A header of an image (Table ARY-3). -/
def imageHead (e : Int) (fmt m status kcount : Nat) : List Byte :=
  leBytes 1 (twos 8 e) ++ leBytes 1 fmt ++ leBytes 2 m ++ leBytes 4 status ++ leBytes 6 kcount ++ zeros 2

/-- Byte i of an image, from its lanes and tags. -/
def imageByte (head : List Byte) (fmt m : Nat) (lane : Nat → Nat → Int) (tag : Nat → Tag) (i : Nat) : Byte :=
  let w := laneBytes fmt
  let k := laneCount fmt
  let body := m * 256 * k * w
  if i < 16 then head.getD i 0
  else if i < 16 + body then
    let j := (i - 16) / w
    (leBytes w (twos (8 * w) (lane (j / k) (j % k)))).getD ((i - 16) % w) 0
  else
    let x := 4 * (i - 16 - body)
    BitVec.ofNat 8 ((tag x).code + (tag (x + 1)).code * 4 + (tag (x + 2)).code * 16 + (tag (x + 3)).code * 64)

/-- Bytes of a tile in progress read through the own-accumulator window: its raw image. -/
def Tile.bytes (t : Tile) (off n : Nat) : List Byte :=
  let head := imageHead t.e t.fmt t.rows t.status32 t.kcount
  (List.range n).map fun i => imageByte head t.fmt t.rows t.lane t.tag (off + i)

/-- A read of an accumulator window keeps to the tile's image and to tiles in progress (R437): 0x02 PRG_WINDOW,
0x05 PRG_TILE. -/
def State.accFault (s : State) (n t off len : Nat) : Option Nat :=
  let x := (s.die n).tile t
  if x.status ≠ .inProgress then some 0x05
  else if imageLen x.fmt x.rows < off + len then some 0x02
  else none

/-! ### Version table (R160 to R162) -/

/-- The valid entries of a die: entry, bases of slots 0 and 1, length. -/
def State.versions (s : State) (n : Nat) : List (Nat × Nat × Nat × Nat) :=
  (List.range 64).filterMap fun e =>
    let cfg := s.reg (Reg.vtCfg n e)
    if bitOf cfg 31 then
      some (e, s.regBits (Reg.vtSlot0 n e) 47 12 * 4096, s.regBits (Reg.vtSlot1 n e) 47 12 * 4096, bitsOf cfg 19 0 * 4096)
    else none

/-- One name for the bytes of own stock SRAM. -/
def normAddr (n a : Nat) : Nat :=
  if 0x30000000000 ≤ a ∧ a < 0x30008000000 then a - 0x30000000000 + 0x20000000000 + n * 0x8000000 else a

/-- Two ranges meet. -/
def meets (a la b lb : Nat) : Bool := decide (a < b + lb) && decide (b < a + la)

/-- A write of an item to a range waits: an export admitted before the item has not read the range yet (R221). -/
def State.exportHeld (s : State) (item a len : Nat) : Bool :=
  s.exportHolds.any fun x => ((s.items.takeWhile (·.id != item)).any fun i => i.id == x.1 && !i.done)
    && x.2.any fun r => meets a len r.1 r.2

/-- An item that found what it writes held has not started; ITEM_START tries it again. -/
def State.unstart (id : Nat) (s : State) : State := s.modItem id fun i => { i with started := false }

/-- R162 for one range: a program write into a slot faults; a read into a canonical range goes to the slot the run
selected, and faults if it crosses the range's end or names slot 1. -/
def State.redirect (s : State) (n : Nat) (write : Bool) (a len : Nat) : Except Nat Nat :=
  let x := normAddr n a
  (s.versions n).foldl (fun r v =>
    match r with
    | .error c => .error c
    | .ok y =>
      let (e, b0, b1, l) := v
      let b0 := normAddr n b0
      let b1 := normAddr n b1
      if meets x len b1 l || (write && meets x len b0 l) then .error 0x02
      else if meets x len b0 l then
        if b0 ≤ x ∧ x + len ≤ b0 + l then
          if ((s.die n).run.bind fun r => look r.slots e) = some 1 then .ok (b1 + (x - b0)) else .ok y
        else .error 0x02
      else .ok y) (.ok a)

/-! ### Checked ranges -/

/-- A range that die n's program names, checked for a use, with an alignment: its place, or the cause of the fault
(R113, R114, R162, R437). -/
def State.checkRange (s : State) (n : Nat) (u : Use) (al a len : Nat) : Except Nat Place :=
  if a % al ≠ 0 then .error 0x02
  else match rangeOf n a len with
    | none => .error 0x02
    | some p =>
      if !u.allows n p.space then .error 0x02
      else
        let write := u == .storeDst || u == .loadDst
        match s.redirect n write a len with
        | .error c => .error c
        | .ok b =>
          match rangeOf n b len with
          | none => .error 0x02
          | some p =>
            match p.space with
            | .acc t =>
              match s.accFault n t p.off len with
              | some c => .error c
              | none => .ok p
            | _ => if s.placePowered n p len then .ok p else .error 0x03

/-- A drain's destination, a deep-sum buffer or an Awl result: an operand window that is written (R162). -/
def State.checkDest (s : State) (n al a len : Nat) : Except Nat Place :=
  match s.checkRange n .operand al a len with
  | .error c => .error c
  | .ok p =>
    match s.redirect n true a len with
    | .error c => .error c
    | .ok _ => .ok p

/-- Bytes at a place. -/
def State.readAt (s : State) (n : Nat) (p : Place) (len : Nat) : List Byte :=
  match p.space with
  | .hbm => s.readHbm p.off len
  | .sram m => Memory.readN blank s.sram (m * 0x8000000 + p.off) len
  | .awl => Memory.readN blank s.awlBuf (n * 0x100000 + p.off) len
  | .acc t => ((s.die n).tile t).bytes p.off len

/-! ### Loss boards (R150 to R152) -/

/-- The gate's verdict: 0 DISARMED, 1 PENDING, 2 OPEN, 3 CLOSED. -/
def State.verdict (s : State) : Nat := s.regBits Reg.gateStatus 1 0

/-- Every slot of a die's loss board has posted. -/
def State.boardFull (s : State) (n : Nat) : Bool :=
  (List.range (s.regBits (Reg.gateExpect n) 8 0)).all fun i => (s.die n).losses.any (·.1 == i)

/-- The local verdict while the module's is PENDING (R151, R152): CLOSED once a slot posted a value that is not finite, be
it a second post after every slot had posted; OPEN once every slot has posted. -/
def State.formLocal (s : State) : State :=
  if s.verdict ≠ 1 then s
  else if s.dies.any fun d => d.losses.any fun l => !l.2 then { s with localVerdict := some false }
  else if s.localVerdict.isNone && (List.range 48).all s.boardFull then { s with localVerdict := some true }
  else s

/-- One slot is posted with the bytes it now holds. -/
def State.postSlot (n : Nat) (s : State) (i : Nat) : State :=
  let base := s.regBits (Reg.gateLoss n) 26 2 * 4
  let w := BitVec.ofNat 32 (leNat (Memory.readN blank s.sram (n * 0x8000000 + base + 4 * i) 4))
  let fin := (ofBits w).isFin
  match look (s.die n).losses i with
  | some old =>
    (s.modDie n fun d => { d with losses := assoc d.losses i (old && fin) }).raise .gate 3
  | none => s.modDie n fun d => { d with losses := (i, fin) :: d.losses }

/-- A write of stock SRAM posts the slots of the loss board it touches while the verdict is PENDING (R151). -/
def State.postLosses (n off len : Nat) (s : State) : State :=
  let base := s.regBits (Reg.gateLoss n) 26 2 * 4
  let hit := (List.range (s.regBits (Reg.gateExpect n) 8 0)).filter fun i => meets off len (base + 4 * i) 4
  if hit = [] then s
  else if s.verdict ≠ 1 then s.raise .gate 2
  else (hit.foldl (State.postSlot n) s).formLocal

/-! ### Writes -/

/-- Bytes written to stock SRAM, by any unit. -/
def State.writeSram (m off : Nat) (bs : List Byte) (s : State) : State :=
  if bs = [] then s
  else
    let s := { s with sram := Memory.writeN blank s.sram (m * 0x8000000 + off) bs }
    s.postLosses m off bs.length

/-- Bytes written at a place. Nothing writes the own-accumulator window (R113). -/
def State.writeAt (n : Nat) (p : Place) (bs : List Byte) (s : State) : State :=
  match p.space with
  | .hbm => s.writeHbm p.off bs
  | .sram m => s.writeSram m p.off bs
  | .awl => { s with awlBuf := Memory.writeN blank s.awlBuf (n * 0x100000 + p.off) bs }
  | .acc _ => s

/-- Stock SRAM of a die as bytes. -/
def State.readSram (s : State) (m off n : Nat) : List Byte := Memory.readN blank s.sram (m * 0x8000000 + off) n

/-- Bytes of a die's instruction SRAM. -/
def State.readIsram (s : State) (n off len : Nat) : List Byte := Memory.readN blank s.isram (n * 0x80000 + off) len

/-! ### Tensor descriptors (R115) -/

/-- The 16 bytes of a tensor descriptor. -/
def tensorAt (rec : List Byte) (off : Nat) : Tensor := ⟨fld rec off 6, fld rec (off + 6) 6, fld rec (off + 12) 4⟩

/-- A descriptor moved by a payload displacement (R126): the scale plane moves by it over `div`; 0 for formats with no
scales. A base below 0 or past 2^48 lies in no window. -/
def Tensor.moved (t : Tensor) (d : Int) (div : Nat) : Option Tensor :=
  let b := (t.base : Int) + d
  if div = 0 then some { t with base := if b < 0 then 2 ^ 48 else b.toNat }
  else if d % (div : Int) ≠ 0 then none
  else
    let c := (t.scale : Int) + d / (div : Int)
    some { t with base := if b < 0 then 2 ^ 48 else b.toNat, scale := if c < 0 then 2 ^ 48 else c.toNat }

/-- The first fault among a list of checks. -/
def firstError {α : Type} : List (Except Nat α) → Except Nat (List α)
  | [] => .ok []
  | .error c :: _ => .error c
  | .ok a :: t => match firstError t with
    | .error c => .error c
    | .ok l => .ok (a :: l)

end Sys2Proof.Machine
end

