-- ==== Sys2Proof/Machine/Seq.lean ====
section
/-! DEFINITION. The sequencer: bundles, slot queues, semaphores, charges and the token meter, CTRL ops but QUIET
(R116 to R120, R130 to R134, R138). -/

namespace Sys2Proof.Machine

/-! ### Slot ops (Table PRG-3) -/

/-- The fields of a slot. -/
def SlotOp.op (o : SlotOp) : Nat := bitsOf o.bits.toNat 7 0
@[inherit_doc SlotOp.op] def SlotOp.wsem (o : SlotOp) : Nat := bitsOf o.bits.toNat 13 8
@[inherit_doc SlotOp.op] def SlotOp.wcnt (o : SlotOp) : Nat := bitsOf o.bits.toNat 17 14
@[inherit_doc SlotOp.op] def SlotOp.ssem (o : SlotOp) : Nat := bitsOf o.bits.toNat 23 18
@[inherit_doc SlotOp.op] def SlotOp.sen (o : SlotOp) : Bool := bitOf o.bits.toNat 24
@[inherit_doc SlotOp.op] def SlotOp.recAddr (o : SlotOp) : Nat := bitsOf o.bits.toNat 37 25
@[inherit_doc SlotOp.op] def SlotOp.imm (o : SlotOp) : Nat := bitsOf o.bits.toNat 63 38

/-- The queue of a slot. -/
def Die.queue (d : Die) (slot : Nat) : List SlotOp :=
  if slot = 0 then d.qMove else if slot = 1 then d.qArray else d.qAwl

/-- The queue of a slot takes a new content. -/
def Die.setQueue (d : Die) (slot : Nat) (q : List SlotOp) : Die :=
  if slot = 0 then { d with qMove := q } else if slot = 1 then { d with qArray := q } else { d with qAwl := q }

/-- The 64 bytes of the record of an op. -/
def State.record (s : State) (n : Nat) (o : SlotOp) : List Byte := s.readIsram n (o.recAddr * 64) 64

/-! ### Semaphores (R119) -/

/-- Units of a semaphore. -/
def Die.sem (d : Die) (k : Nat) : Nat := (d.sems.getD k 0).toNat

/-- The op's wait is met. -/
def Die.semReady (d : Die) (o : SlotOp) : Bool := decide (o.wcnt ≤ d.sem o.wsem)

/-- The op takes its units. -/
def Die.takeUnits (o : SlotOp) (d : Die) : Die := { d with sems := modAt d.sems o.wsem fun v => v - BitVec.ofNat 16 o.wcnt }

/-- A signal adds units, unless the semaphore would pass 65,535. -/
def Die.signal (k units : Nat) (d : Die) : Option Die :=
  if d.sem k + units ≤ 65535 then some { d with sems := modAt d.sems k fun v => v + BitVec.ofNat 16 units } else none

/-- A signal to a die of its own, by the op of a slot; past 65,535 the execution fault PRG_SEM_OVF. -/
def State.signalOwn (n k units slot bundle : Nat) (s : State) : State :=
  match (s.die n).signal k units with
  | some d => s.modDie n fun _ => d
  | none => s.faultDie n 0x11 slot bundle

/-- A signal to a die: at once to the own, by the package fabric to another (R120). -/
def State.sendSignal (n dst k units slot bundle : Nat) (s : State) : State :=
  if dst = n then s.signalOwn n k units slot bundle
  else { s with signals := s.signals ++ [⟨n, dst, k, units, slot, bundle⟩] }

/-! ### Charges and the token meter (R132, R134) -/

/-- The token meter counts an op's tokens from now on, beside what executes already (log 11). -/
def State.meter (n tokens : Nat) (s : State) : State :=
  let d := s.die n
  let ps := s.sentinelPs n
  let stop := s.now + ceilDiv (tokens * ps) 1000
  let add := stop - max s.now d.busyTo
  let ns := d.meterNs + add
  let s := s.modDie n fun d => { d with meterNs := ns, busyTo := max d.busyTo stop }
  s.setReg (Reg.prgMeter n) (min (if ps = 0 then 0 else ns * 1000 / ps) 0xFFFFFFFF)

/-- An op's charge would pass its slot's certified total. -/
def Die.overCharge (d : Die) (slot tokens : Nat) : Bool := decide (d.cert.totals.getD slot 0 < d.sums.getD slot 0 + tokens)

/-- Tokens charged to a slot, and counted by the meter. -/
def State.charge (n slot tokens : Nat) (s : State) : State :=
  (s.modDie n fun d => { d with sums := modAt d.sums slot (· + tokens) }).meter n tokens

/-! ### Undefined ops at the head of a queue -/

/-- An op of no row of Table PRG-4 reaches issue: undefined opcode, or a TILE of mode 3 (R116, R124). -/
def badOp (slot : Nat) (o : SlotOp) : Option Nat :=
  if slot = 0 then (if o.op = 1 ∨ o.op = 2 then none else some 0x01)
  else if slot = 1 then
    if o.op = 1 then
      if 128 ≤ o.imm then some 0x01 else if bitsOf o.imm 6 5 = 3 then some 0x05 else none
    else if o.op = 2 ∨ o.op = 3 then none else some 0x01
  else if slot = 2 then (if o.op = 1 then none else some 0x01)
  else if 1 ≤ o.op ∧ o.op ≤ 6 then none else some 0x01

/-- Ops of no row that can issue fault the program. -/
def State.badHeads (n : Nat) (s : State) : State :=
  let d := s.die n
  let heads := ([0, 1, 2].filterMap fun k => (d.queue k).head?.map fun o => (k, o)) ++ ((if d.ctrlIssued then [] else d.ctrl.toList).map fun o => (3, o))
  match heads.findSome? fun h => if d.semReady h.2 then (badOp h.1 h.2).map fun c => (h, c) else none with
  | some (h, c) => s.faultDie n c h.1 h.2.bundle
  | none => s

/-! ### Issue of slots 0 to 2 (R117) -/

/-- A die runs a program. -/
def State.running (s : State) (n : Nat) : Bool := s.live n && s.prgState n == 2

/-- The op at the head of a slot's queue issues, if it is of the row, its units are there and its unit has room: it
faults with no effect, or takes its units, is charged and has its effect. `act` gives the charge and the effect. -/
def State.issueOp (n slot opc : Nat) (sel : SlotOp → Bool) (ready : SlotOp → Bool)
    (act : SlotOp → Except Nat (Nat × (State → State))) (s : State) : State :=
  match (s.die n).queue slot with
  | [] => s
  | o :: rest =>
    if !s.running n || o.op != opc || !sel o || !(s.die n).semReady o || !ready o then s
    else match act o with
      | .error c => s.faultDie n c slot o.bundle
      | .ok (cost, f) =>
        if (s.die n).overCharge slot cost then s.faultDie n 0x08 slot o.bundle
        else
          let s := s.modDie n fun d => (d.setQueue slot rest).takeUnits o
          (f (s.charge n slot cost)).badHeads n

/-- An op completes: its signal goes out (R117, R120). A MOVE with RSIG signals the die its operand names. -/
def State.complete (n slot : Nat) (o : SlotOp) (s : State) : State :=
  if !o.sen then s
  else
    let dst := if slot = 0 ∧ bitOf o.imm 6 then bitsOf o.imm 5 0 else n
    s.sendSignal n dst o.ssem 1 slot o.bundle

/-! ### Fetch (R117, R130) -/

/-- Fetch goes on at a bundle; a loop body that ends there runs again or ends. Loops nest at most 4 deep. -/
def Die.advanceGo : Nat → Die → Die
  | 0, d => d
  | k + 1, d =>
    match d.loops with
    | l :: rest =>
      if d.fetchAt = l.start + l.len then
        if l.index + 1 < l.count
        then { d with fetchAt := l.start, loops := { l with index := l.index + 1 } :: rest }
        else Die.advanceGo k { d with loops := rest }
      else d
    | [] => d

/-- Fetch goes on at a bundle. -/
def Die.advanceTo (b : Nat) (d : Die) : Die := Die.advanceGo 4 { d with fetchAt := b }

/-- The sequencer fetches one bundle and queues the ops of slots 0 to 2; a CTRL op is left to its own row. -/
def State.fetch (n : Nat) (s : State) : State :=
  let d := s.die n
  if !s.running n || !d.fetching || d.ctrl.isSome then s
  else if d.codeBytes / 32 ≤ d.fetchAt then s.faultDie n 0x01 3 (d.codeBytes / 32 - 1)
  else
    let raw := s.readIsram n (d.fetchAt * 32) 32
    let i0 := (d.loops[0]?).elim 0 (·.index)
    let i1 := (d.loops[1]?).elim 0 (·.index)
    let mk (k : Nat) : SlotOp := { bits := BitVec.ofNat 64 (fld raw (8 * k) 8), bundle := d.fetchAt, i0 := i0, i1 := i1 }
    let need := [0, 1, 2].filter fun k => (mk k).op != 0
    if need.any fun k => decide (8 ≤ (d.queue k).length) then s
    else
      let d := need.foldl (fun d k => d.setQueue k (d.queue k ++ [mk k])) d
      let d := if (mk 3).op = 0 then d.advanceTo (d.fetchAt + 1) else { d with ctrl := some (mk 3) }
      (s.modDie n fun _ => d).badHeads n

/-! ### CTRL ops (R130) -/

/-- Every op issued or queued before has completed. -/
def State.settled (s : State) (n : Nat) : Bool :=
  let d := s.die n
  d.qMove == [] && d.qArray == [] && d.qAwl == [] && d.awl.isNone && !d.unsettled && !(s.signals.any (·.src == n))

/-- The CTRL op in hand issues: its units are there and it is of the row; it faults with no effect, or takes its units
and is charged (R117, R130). -/
def State.ctrlIssue (n opc immBits : Nat) (chk : SlotOp → Option Nat) (o : SlotOp) (s : State) : State :=
  if !(s.die n).semReady o then s
  else if o.recAddr ≠ 0 ∨ 2 ^ immBits ≤ o.imm then s.faultDie n 0x01 3 o.bundle
  else match chk o with
    | some c => s.faultDie n c 3 o.bundle
    | none =>
      let cost := if opc = 5 then 256 else 1
      if (s.die n).overCharge 3 cost then s.faultDie n 0x08 3 o.bundle
      else (s.modDie n fun d => { d.takeUnits o with ctrlIssued := true }).charge n 3 cost

/-- An issued CTRL op takes effect once its wait is over, and sends its signal. -/
def State.ctrlFinish (n : Nat) (ready : SlotOp → Bool) (act : SlotOp → State → State) (o : SlotOp) (s : State) : State :=
  if (s.die n).ctrlIssued && ready o then
    let s := s.modDie n fun d => { d with ctrl := none, ctrlIssued := false }
    ((act o s).complete n 3 o).badHeads n
  else s

/-- The CTRL op in hand, if it is of the row, issues, and takes effect once its wait is over. -/
def State.ctrlOp (n opc immBits : Nat) (chk : SlotOp → Option Nat) (ready : SlotOp → Bool)
    (act : SlotOp → State → State) (s : State) : State :=
  match (s.die n).ctrl with
  | none => s
  | some o =>
    if !s.running n || o.op != opc then s
    else
      let s := if (s.die n).ctrlIssued then s else s.ctrlIssue n opc immBits chk o
      s.ctrlFinish n ready act o

/-- CTRL LOOP. -/
def State.loopStep (n : Nat) (s : State) : State :=
  let loops := (s.die n).loops
  s.ctrlOp n 1 26 (fun o =>
      let len := bitsOf o.imm 25 16
      let past : Bool := match loops with
        | l :: _ => decide (l.start + l.len < o.bundle + 1 + len)
        | [] => false
      if bitsOf o.imm 15 0 = 0 ∨ len = 0 ∨ 4 ≤ loops.length ∨ past then some 0x07 else none)
    (fun _ => true)
    (fun o s => s.modDie n fun d =>
      { d with
        loops := { start := o.bundle + 1, len := bitsOf o.imm 25 16, count := bitsOf o.imm 15 0, index := 0 } :: d.loops
        fetchAt := o.bundle + 1 })

/-- CTRL SIGNAL (R120). -/
def State.signalStep (n : Nat) (s : State) : State :=
  s.ctrlOp n 2 16 (fun o => if 47 < bitsOf o.imm 5 0 ∨ bitsOf o.imm 15 12 = 0 then some 0x01 else none)
    (fun _ => true)
    (fun o s => (s.modDie n (Die.advanceTo (o.bundle + 1))).sendSignal n (bitsOf o.imm 5 0) (bitsOf o.imm 11 6)
      (bitsOf o.imm 15 12) 3 o.bundle)

/-- CTRL FENCE. -/
def State.fenceStep (n : Nat) (s : State) : State :=
  s.ctrlOp n 3 0 (fun _ => none) (fun _ => s.settled n) (fun o s => s.modDie n (Die.advanceTo (o.bundle + 1)))

/-- The verdict a run's GATE sees (R156): none while its sequence is PENDING. -/
def State.boundVerdict (s : State) (n : Nat) : Option Bool :=
  match (s.die n).run.bind (·.seq) with
  | none => some false
  | some q =>
    if q = s.regBits Reg.gateStatus 31 16 then
      if s.verdict = 1 then none else some (s.verdict == 2)
    else some ((look s.pastVerdicts q).getD false)

/-- CTRL GATE. -/
def State.gateStep (n : Nat) (s : State) : State :=
  let d := s.die n
  s.ctrlOp n 4 16 (fun o =>
      let next := o.bundle + bitsOf o.imm 15 0 + 1
      let past : Bool := match d.loops with
        | l :: _ => decide (l.start + l.len < next)
        | [] => false
      if d.codeBytes / 32 ≤ next ∨ past then some 0x07 else none)
    (fun _ => s.settled n && (s.boundVerdict n).isSome)
    (fun o s =>
      let opened := (s.boundVerdict n).getD false
      let s := s.setField (Reg.prgStatus n) 2 2 (if opened then 0 else 1)
      s.modDie n (Die.advanceTo (if opened then o.bundle + 1 else o.bundle + bitsOf o.imm 15 0 + 1)))

/-- A tile in progress is parked (R69). -/
def Tile.park (t : Tile) : Tile := if t.status = .inProgress then { t with status := .parked } else t

/-- CTRL END: tiles in progress park, the state becomes LOADED, the run ends. -/
def State.endStep (n : Nat) (s : State) : State :=
  s.ctrlOp n 6 0 (fun _ => none) (fun _ => s.settled n)
    (fun _ s =>
      let id := (s.die n).run.elim 0 (·.item)
      let s := s.modDie n fun d => { d with tiles := d.tiles.map Tile.park, fetching := false, loops := [] }
      let s := s.setField (Reg.prgStatus n) 1 0 1
      (s.releaseRun n).settleGang id)

/-! ### Signals and notices from other dies (R120, R138) -/

/-- The next signal from a die to a die arrives, if it is for this semaphore: those of one pair arrive in the order they
were sent (R27). The target acknowledges it only while LOADED or RUNNING. -/
def State.signalArrives (src dst sem : Nat) (s : State) : State :=
  match s.signals.find? fun x => x.src == src && x.dst == dst with
  | none => s
  | some x =>
    if x.sem ≠ sem then s
    else
    let s := { s with signals := s.signals.erase x }
    if s.live dst ∧ (s.prgState dst = 1 ∨ s.prgState dst = 2) then
      match (s.die dst).signal sem x.units with
      | some d => (s.modDie dst fun _ => d).badHeads dst
      | none => s.faultDie src 0x11 x.slot x.bundle
    else s.faultDie src 0x12 x.slot x.bundle

/-- A fault notice arrives. -/
def State.noticeArrives (src dst : Nat) (s : State) : State :=
  if (src, dst) ∈ s.notices then
    let s := { s with notices := s.notices.erase (src, dst) }
    if s.running dst then s.faultDie dst 0x15 3 (s.die dst).fetchAt else s
  else s

/-- The token meter has passed path + allowance before END. -/
def State.overrun (n : Nat) (s : State) : State :=
  let d := s.die n
  if s.running n && decide (d.cert.path + d.cert.allowance < s.reg (Reg.prgMeter n))
  then s.faultDie n 0x13 3 d.fetchAt else s

/-! ### Commands -/

/-- BUNDLE_FETCH (R117). -/
def execBundleFetch (dt die : Nat) (s : State) : Host.Outcome State Fault Refusal :=
  s.finish dt ((s.advance dt).fetch die)

/-- LOOP (R130). -/
def execLoopOp (dt die : Nat) (s : State) : Host.Outcome State Fault Refusal :=
  s.finish dt ((s.advance dt).loopStep die)

/-- SIGNAL (R120). -/
def execSignal (dt die : Nat) (s : State) : Host.Outcome State Fault Refusal :=
  s.finish dt ((s.advance dt).signalStep die)

/-- FENCE (R130). -/
def execFence (dt die : Nat) (s : State) : Host.Outcome State Fault Refusal :=
  s.finish dt ((s.advance dt).fenceStep die)

/-- GATE (R130). -/
def execGate (dt die : Nat) (s : State) : Host.Outcome State Fault Refusal :=
  s.finish dt ((s.advance dt).gateStep die)

/-- END (R130). -/
def execEndOp (dt die : Nat) (s : State) : Host.Outcome State Fault Refusal :=
  s.finish dt ((s.advance dt).endStep die)

/-- REMOTE_SIGNAL (R120). -/
def execRemoteSignal (dt src dst sem : Nat) (s : State) : Host.Outcome State Fault Refusal :=
  s.finish dt ((s.advance dt).signalArrives src dst sem)

/-- FAULT_NOTICE (R138). -/
def execFaultNotice (dt src dst : Nat) (s : State) : Host.Outcome State Fault Refusal :=
  s.finish dt ((s.advance dt).noticeArrives src dst)

/-- PRG_OVERRUN (R134). -/
def execPrgOverrun (dt die : Nat) (s : State) : Host.Outcome State Fault Refusal :=
  s.finish dt ((s.advance dt).overrun die)

end Sys2Proof.Machine
end

