-- ==== Sys2Proof/Machine/Move.lean ====
section
/-! DEFINITION. The MOVE slot and the Turner (R113 to R115, R121 to R123, R126). -/

namespace Sys2Proof.Machine

/-- The i32 at an offset of a record. -/
def i32At (rec : List Byte) (off : Nat) : Int := signed 32 (fld rec off 4)

/-- The displacement i0 × s0 + i1 × s1 of the two strides at an offset (R126). -/
def SlotOp.shift (o : SlotOp) (rec : List Byte) (off : Nat) : Int :=
  (o.i0 : Int) * i32At rec off + (o.i1 : Int) * i32At rec (off + 4)

/-- The tensor descriptor at an offset of a record, moved by the two strides at another; none where a stride is not a
multiple of the payload bytes to a scale byte, whatever the indices (R126). -/
def SlotOp.tensor (o : SlotOp) (rec : List Byte) (off strides div : Nat) : Option Tensor :=
  if div ≠ 0 ∧ (i32At rec strides % div ≠ 0 ∨ i32At rec (strides + 4) % div ≠ 0) then none
  else (tensorAt rec off).moved (o.shift rec strides) div

/-- Alignment of payload bases and pitches by element kind, and payload bytes to a scale byte (R114, R115, R126). -/
def kindAlign (k : Nat) : Nat := if k = 1 then 8 else if k = 2 then 32 else if k = 3 then 2 else if k = 4 then 4 else 1
@[inherit_doc kindAlign] def kindDiv (k : Nat) : Nat := if k = 1 then 8 else if k = 2 then 32 else 0

/-- A move whose record passed its checks. -/
structure MovePlan where
  kind : Nat
  turn : Bool
  rows : Nat
  rowBytes : Nat
  src : Tensor
  dst : Tensor
  deriving DecidableEq, Repr

/-- Elements in a row of payload bytes. -/
def elemsOf (kind bytes : Nat) : Nat :=
  if kind = 1 then 2 * bytes else if kind = 3 then bytes / 2 else if kind = 4 then bytes / 4 else bytes

/-- Payload bytes of a row of elements. -/
def bytesOf (kind n : Nat) : Nat :=
  if kind = 1 then (n + 1) / 2 else if kind = 3 then 2 * n else if kind = 4 then 4 * n else n

/-- Rows and payload bytes at the destination: under TURN, a row per source column (R122). -/
def MovePlan.out (p : MovePlan) : Nat × Nat :=
  if p.turn then (elemsOf p.kind p.rowBytes, bytesOf p.kind p.rows) else (p.rows, p.rowBytes)

/-- The ranges of the rows of one end: address and length, payload then scales. -/
def rangesOf (kind : Nat) (t : Tensor) (rows len : Nat) : List (Nat × Nat) :=
  (List.range rows).flatMap fun i =>
    (t.base + i * t.pitch, len) :: (if kindDiv kind = 0 then []
      else [(t.scale + i * t.pitch / kindDiv kind, len / kindDiv kind)])

/-- The record's own checks: reserved fields, kind, lengths, Turner limits, strides (R116, R122, R123, R126). -/
def movePlan (store : Bool) (o : SlotOp) (rec : List Byte) : Except Nat MovePlan :=
  let k := fld rec 0 1
  let kind := k % 16
  let turn := bitOf k 4
  let rows := fld rec 2 2
  let len := fld rec 4 4
  if 128 ≤ o.imm ∨ 32 ≤ k ∨ fld rec 1 1 ≠ 0 ∨ !zeroIn rec 40 48 ∨ 5 ≤ kind ∨ (bitOf o.imm 6 ∧ 47 < bitsOf o.imm 5 0)
      ∨ (store ∧ turn) then .error 0x01
  else if rows = 0 ∨ len = 0 ∨ 16777216 < len ∨ len % kindAlign kind ≠ 0 then .error 0x04
  else if turn ∧ (4096 < rows ∨ 4096 < elemsOf kind len ∨ (kind = 1 ∧ rows % 16 ≠ 0) ∨ (kind = 2 ∧ rows % 32 ≠ 0))
    then .error 0x04
  else
    match o.tensor rec 8 48 (kindDiv kind), o.tensor rec 24 56 (kindDiv kind) with
    | some src, some dst => .ok ⟨kind, turn, rows, len, src, dst⟩
    | _, _ => .error 0x04

/-- The windows of both ends, checked whole (R113, R114). -/
def State.moveRanges (s : State) (n : Nat) (store : Bool) (p : MovePlan) :
    Except Nat (List Place × List Place) :=
  let al := kindAlign p.kind
  if p.src.base % al ≠ 0 ∨ p.src.pitch % al ≠ 0 ∨ p.dst.base % al ≠ 0 ∨ p.dst.pitch % al ≠ 0 then .error 0x02
  else
    let (srcUse, dstUse) := if store then (Use.storeSrc, Use.storeDst) else (Use.loadSrc, Use.loadDst)
    let chk (u : Use) (r : Nat × Nat) := s.checkRange n u 1 r.1 r.2
    match firstError ((rangesOf p.kind p.src p.rows p.rowBytes).map (chk srcUse)),
      firstError ((rangesOf p.kind p.dst p.out.1 p.out.2).map (chk dstUse)) with
    | .error c, _ => .error c
    | .ok _, .error c => .error c
    | .ok a, .ok b => .ok (a, b)

/-- A copy: range by range, row by row (R121). -/
def State.copyRanges (n : Nat) (l : List ((Place × Nat) × Place)) (s : State) : State :=
  l.foldl (fun s r => s.writeAt n r.2 (s.readAt n r.1.1 r.1.2)) s

/-- The elements of a row as values of binary32 (R39, R44). -/
def decodeF32 (wide : Bool) (pay sc : List Byte) (n : Nat) : List Num :=
  (List.range n).map fun i =>
    if wide then ofBits (toBits (b8Value (pay.getD i 0).toNat (sc.getD (i / 32) 0).toNat))
    else
      let b := (pay.getD (i / 2) 0).toNat
      ofBits (toBits (h4Value (if i % 2 = 0 then b % 16 else b / 16) (sc.getD (i / 16) 0).toNat))

/-- The Turner (R122): the rows read, and the payload and scale bytes of the new rows.

DESIGN CHOICE (log 151): no register gives the Turner R40's overflow flag, so it sets none. -/
def turnRows (kind rows cols : Nat) (pay : List (List Byte)) (sc : List (List Byte)) : List (List Byte × List Byte) :=
  if kind = 1 ∨ kind = 2 then
    let m := (pay.zip sc).map fun r => decodeF32 (kind == 2) r.1 r.2 cols
    (List.range cols).map fun j =>
      let r := encodeRow (kind == 2) (m.map fun row => row.getD j .nan) (fun _ => none)
      (r.1, r.2.1)
  else
    let w := if kind = 3 then 2 else if kind = 4 then 4 else 1
    (List.range cols).map fun j => (((List.range rows).map fun i => ((pay.getD i []).drop (j * w)).take w).flatten, [])

/-- Every second of a list, from the first, and from the second. -/
def evens {α : Type} : List α → List α
  | a :: _ :: t => a :: evens t
  | l => l
@[inherit_doc evens] def odds {α : Type} : List α → List α
  | _ :: b :: t => b :: odds t
  | _ => []

/-- The effect of a move on its checked ranges. -/
def State.moveData (n : Nat) (p : MovePlan) (src dst : List Place) (s : State) : State :=
  let lens (l : List (Nat × Nat)) : List Nat := l.map (·.2)
  if p.turn then
    let bs := (src.zip (lens (rangesOf p.kind p.src p.rows p.rowBytes))).map fun r => s.readAt n r.1 r.2
    let cols := elemsOf p.kind p.rowBytes
    let scaled := kindDiv p.kind != 0
    let rows := turnRows p.kind p.rows cols (if scaled then evens bs else bs) (if scaled then odds bs else [])
    let out := if scaled then rows.flatMap fun r => [r.1, r.2] else rows.map (·.1)
    (dst.zip out).foldl (fun s r => s.writeAt n r.1 r.2) s
  else s.copyRanges n ((src.zip (lens (rangesOf p.kind p.src p.rows p.rowBytes))).zip dst)

/-- Payload and scale bytes a move reads (Table PRG-9). -/
def MovePlan.bytes (p : MovePlan) : Nat :=
  p.rows * (p.rowBytes + (if kindDiv p.kind = 0 then 0 else p.rowBytes / kindDiv p.kind))

/-- The certified cost of a move. -/
def MovePlan.cost (p : MovePlan) : Nat :=
  if p.turn then 64 + 2 * ceilDiv p.bytes 1024 else 16 + ceilDiv p.bytes 1024

/-- A range of a move can be reached now: no crossing on its way is closed (R377), and no signal sent before on the same
pair of dies is still on its way (R27): from the own die to one whose SRAM a STORE writes, to the own die from one whose
SRAM a LOAD reads. -/
def State.rangeReady (s : State) (n : Nat) (store : Bool) (r : Nat × Nat) : Bool :=
  match placeOf n r.1 with
  | some p => s.placeOpen p r.2 && match p.space with
    | .sram m =>
      let (a, b) := if store then (n, m) else (m, n)
      m == n || !(s.signals.any fun x => x.src == a && x.dst == b)
    | _ => true
  | none => true

/-- A move waits while it touches a range the Awl has claimed (R94), stores to a range that an export admitted before has
yet to read (R221), reads a tile with a pass not settled (R113), or one of its ranges cannot be reached now.

DESIGN CHOICE (log 177): the claims of an Awl operation hold back the MOVEs of its own die only, not a STORE of another
die into this die's stock SRAM. -/
def State.moveReady (s : State) (n : Nat) (store : Bool) (o : SlotOp) : Bool :=
  let d := s.die n
  match movePlan store o (s.record n o) with
  | .error _ => true
  | .ok p =>
    let l := rangesOf p.kind p.src p.rows p.rowBytes ++ rangesOf p.kind p.dst p.out.1 p.out.2
    let claims := (d.awl.map (·.claims)).getD []
    l.all fun r =>
      !(claims.any fun c => meets (normAddr n r.1) r.2 c.1 c.2) && s.rangeReady n store r
        && !(store && s.exportHeld (d.run.elim 0 (·.item)) (normAddr n r.1) r.2)
        && match placeOf n r.1 with
          | some ⟨.acc t, _⟩ => (d.tile t).marked == [] && !(d.tile t).spillDue
          | _ => true

/-- A MOVE op of a row issues and completes. -/
def State.moveStep (store : Bool) (turn : Option Bool) (n : Nat) (s : State) : State :=
  s.issueOp n 0 (if store then 2 else 1)
    (fun o => turn.all fun t => bitOf (fld (s.record n o) 0 1) 4 == t)
    (fun o => s.moveReady n store o)
    (fun o =>
      match movePlan store o (s.record n o) with
      | .error c => .error c
      | .ok p =>
        match s.moveRanges n store p with
        | .error c => .error c
        | .ok (a, b) => .ok (p.cost, fun s => (s.moveData n p a b).complete n 0 o))

/-- LOAD (R121). -/
def execLoad (dt die : Nat) (s : State) : Host.Outcome State Fault Refusal :=
  s.finish dt ((s.advance dt).moveStep false (some false) die)

/-- LOAD_TURN (R122). -/
def execLoadTurn (dt die : Nat) (s : State) : Host.Outcome State Fault Refusal :=
  s.finish dt ((s.advance dt).moveStep false (some true) die)

/-- STORE (R121). -/
def execStore (dt die : Nat) (s : State) : Host.Outcome State Fault Refusal :=
  s.finish dt ((s.advance dt).moveStep true none die)

end Sys2Proof.Machine
end

