-- ==== Sys2Proof/Machine/Array.lean ====
section
/-! DEFINITION. The matrix array (chapter 3) and the ARRAY slot (R124 to R128): tile starts, passes, spills, overflow
replay, drains. -/

namespace Sys2Proof.Machine

/-! ### Operands (R36, R41, R45, R49) -/

/-- An element of a pass: its signed significand, exponent of two, half-octave exponent. -/
inductive Opnd where
  | zero | nan | inf (neg : Bool) | num (n : Int) (q : Int) (h : Int)
  deriving DecidableEq, Repr

/-- The operand formats of the array. -/
inductive OpFmt where
  | h4 | b8 | g16 | bf16
  deriving DecidableEq, Repr

/-- A pair of Table ARY-1: both formats, K-depth, lanes. Pair 6 is Pelun-exact. -/
def pairOf (p : Nat) : OpFmt × OpFmt × Nat × Nat :=
  if p = 0 then (.h4, .h4, 2048, 2) else if p = 1 then (.b8, .h4, 1024, 2) else if p = 2 then (.b8, .b8, 1024, 1)
  else if p = 3 then (.g16, .h4, 512, 2) else if p = 4 then (.g16, .b8, 512, 1) else if p = 5 then (.g16, .g16, 256, 1)
  else (.bf16, .bf16, 256, 1)

/-- Alignment of a base, payload bytes to a scale byte, elements to a scale byte; payload bytes of n elements. -/
def OpFmt.align : OpFmt → Nat
  | .h4 => 8
  | .b8 => 32
  | _ => 2
@[inherit_doc OpFmt.align] def OpFmt.div : OpFmt → Nat
  | .h4 => 8
  | .b8 => 32
  | _ => 0
@[inherit_doc OpFmt.align] def OpFmt.block : OpFmt → Nat
  | .h4 => 16
  | _ => 32
@[inherit_doc OpFmt.align] def OpFmt.bytes (f : OpFmt) (n : Nat) : Nat :=
  match f with
  | .h4 => (n + 1) / 2
  | .b8 => n
  | _ => 2 * n

/-- An operand of a value. -/
def Opnd.ofNum : Num → Opnd
  | .nan => .nan
  | .inf a => .inf a
  | .fin a m e => if m = 0 then .zero else .num (sgn a m) e 0

/-- Element i of a row. -/
def OpFmt.elem (f : OpFmt) (pay sc : List Byte) (i : Nat) : Opnd :=
  match f with
  | .h4 =>
    let x := (pay.getD (i / 2) 0).toNat
    let c := if i % 2 = 0 then x % 16 else x / 16
    let b := (sc.getD (i / 16) 0).toNat
    if b = 0xFF then .nan
    else if c % 8 = 0 then .zero
    else .num (if bitOf c 3 then -1 else 1) ((b : Int) - 127) ((c % 8 : Nat) - 7)
  | .b8 => Opnd.ofNum (b8Value (pay.getD i 0).toNat (sc.getD (i / 32) 0).toNat)
  | .g16 => Opnd.ofNum (Machine.g16.read (fld pay (2 * i) 2))
  | .bf16 => Opnd.ofNum (Machine.bf16.read (fld pay (2 * i) 2))

/-- The rows of an operand: payload and scale bytes of each (R114, R115). -/
def State.operandRows (s : State) (n : Nat) (f : OpFmt) (t : Tensor) (count k : Nat) :
    Except Nat (List (List Byte × List Byte)) :=
  if t.base % f.align ≠ 0 ∨ t.pitch % f.align ≠ 0 then .error 0x02
  else
    let row (i : Nat) : Except Nat (List Byte × List Byte) :=
      match s.checkRange n .operand 1 (t.base + i * t.pitch) (f.bytes k) with
      | .error c => .error c
      | .ok p =>
        let pay := s.readAt n p (f.bytes k)
        if f.div = 0 then .ok (pay, [])
        else match s.checkRange n .operand 1 (t.scale + i * t.pitch / f.div) (ceilDiv k f.block) with
          | .error c => .error c
          | .ok q => .ok (pay, s.readAt n q (ceilDiv k f.block))
    firstError ((List.range count).map row)

/-- Both operands of a pass: the columns of the stationary tile and the streamed rows, as operands, or for Pelun-exact
as bfloat16 codes. -/
structure Operands where
  cols : List (List Opnd)
  rows : List (List Opnd)
  bcols : List (List Nat)
  brows : List (List Nat)
  deriving DecidableEq, Repr

/-- The operands of a pass, checked (R113). -/
def State.operands (s : State) (n : Nat) (p : PassRec) : Except Nat Operands :=
  let (fa, fb, _, _) := pairOf p.pair
  let (fs, ft) := if p.swap then (fb, fa) else (fa, fb)
  match s.operandRows n fs p.stat 256 p.krows, s.operandRows n ft p.strm p.ms p.krows with
  | .error c, _ => .error c
  | .ok _, .error c => .error c
  | .ok a, .ok b =>
    if p.pair = 6 then
      let codes (l : List (List Byte × List Byte)) : List (List Nat) :=
        l.map fun r => (List.range p.krows).map fun i => fld r.1 (2 * i) 2
      .ok ⟨[], [], codes a, codes b⟩
    else
      let dec (f : OpFmt) (l : List (List Byte × List Byte)) : List (List Opnd) :=
        l.map fun r => (List.range p.krows).map fun i => f.elem r.1 r.2 i
      .ok ⟨dec fs a, dec ft b, [], []⟩

/-! ### Products (R49 to R51, R65, R81) -/

/-- Tags combine (Table FMT-7). -/
def Tag.add (a b : Tag) : Tag := if a = b ∨ b = .fin then a else if a = .fin then b else .nan

/-- What the products of one row and one column come to: both tree sums, the tag, whether a product was rounded,
whether any product was formed. -/
structure Sum where
  even : Int := 0
  odd : Int := 0
  tag : Tag := .fin
  inexact : Bool := false
  formed : Bool := false
  deriving DecidableEq, Repr

/-- One product is added. A zero and a finite operand give a product that is skipped. -/
def Sum.product (e : Int) (a : Sum) (xy : Opnd × Opnd) : Sum :=
  match xy with
  | (.nan, _) => { a with tag := .nan, formed := true }
  | (_, .nan) => { a with tag := .nan, formed := true }
  | (.inf _, .zero) => { a with tag := .nan, formed := true }
  | (.zero, .inf _) => { a with tag := .nan, formed := true }
  | (.inf s, .inf t) => { a with tag := a.tag.add (if s = t then .posInf else .negInf), formed := true }
  | (.inf s, .num n _ _) => { a with tag := a.tag.add (if s = decide (n < 0) then .posInf else .negInf), formed := true }
  | (.num n _ _, .inf s) => { a with tag := a.tag.add (if s = decide (n < 0) then .posInf else .negInf), formed := true }
  | (.zero, _) => a
  | (_, .zero) => a
  | (.num n q h, .num m r g) =>
    let q := q + r + (h + g) / 2
    let v := if e ≤ q then n * m * 2 ^ (q - e).toNat else rneShift (n * m) (e - q).toNat
    let a := { a with inexact := a.inexact || decide (q < e), formed := true }
    if (h + g) % 2 = 0 then { a with even := a.even + v } else { a with odd := a.odd + v }

/-- The products of a row and a column. -/
def dot (e : Int) (row col : List Opnd) : Sum := (row.zip col).foldl (Sum.product e) {}

/-! ### Sparse lanes and tags -/

/-- Two lists of lanes by rising index, added; sums of 0 are not listed. -/
def addLanes : Nat → List (Nat × Int) → List (Nat × Int) → List (Nat × Int)
  | 0, _, _ => []
  | _ + 1, [], l => l
  | _ + 1, l, [] => l
  | f + 1, (i, a) :: t, (j, b) :: u =>
    if i < j then (i, a) :: addLanes f t ((j, b) :: u)
    else if j < i then (j, b) :: addLanes f ((i, a) :: t) u
    else if a + b = 0 then addLanes f t u else (i, a + b) :: addLanes f t u

/-- Two lists of tags, combined. -/
def addTags : Nat → List (Nat × Tag) → List (Nat × Tag) → List (Nat × Tag)
  | 0, _, _ => []
  | _ + 1, [], l => l
  | _ + 1, l, [] => l
  | f + 1, (i, a) :: t, (j, b) :: u =>
    if i < j then (i, a) :: addTags f t ((j, b) :: u)
    else if j < i then (j, b) :: addTags f ((i, a) :: t) u
    else (i, a.add b) :: addTags f t u

/-- A lane's range (R48). -/
def Tile.fits (t : Tile) (v : Int) : Bool :=
  let w : Int := if t.a48 then 2 ^ 47 else 2 ^ 31
  decide (-w ≤ v) && decide (v < w)

/-- Lanes of elements whose tag is not FIN are 0 (R51). -/
def Tile.dropTagged (t : Tile) : Tile :=
  if t.tags = [] then t else { t with lanes := t.lanes.filter fun l => t.tag (l.1 / 2) = .fin }

/-- Bits of the status word are set. -/
def Tile.setWord (t : Tile) (bits : Nat) : Tile := { t with word := t.word ||| BitVec.ofNat 32 bits }

/-- CHUNK_REPLAYS. -/
def Tile.chunkReplays (t : Tile) : Nat := bitsOf t.word.toNat 5 4

/-- CHUNK_REPLAYS takes a value. -/
def Tile.setChunk (t : Tile) (v : Nat) : Tile := { t with word := BitVec.ofNat 32 (putBits t.word.toNat 5 4 v) }

/-- The tree sums of a pass are added to its tile: elements out of range are marked (R65, Sequence ARY-1 step 1). Gives
the streamed rows whose every product was skipped. -/
def Tile.pass (skip : Bool) (p : PassRec) (o : Operands) (t : Tile) : Tile × Nat :=
  let sums := o.rows.map fun row => o.cols.map fun col => dot t.e row col
  let flat := (sums.mapIdx fun i l => l.mapIdx fun j x => ((p.r0 + i) * 256 + j, x)).flatten
  let add := flat.flatMap fun x =>
    (if x.2.even = 0 then [] else [(2 * x.1, x.2.even)]) ++ (if x.2.odd = 0 then [] else [(2 * x.1 + 1, x.2.odd)])
  let tags := flat.filterMap fun x => if x.2.tag = .fin then none else some (x.1, x.2.tag)
  let t := { t with
    lanes := addLanes (t.lanes.length + add.length + 1) t.lanes add
    tags := addTags (t.tags.length + tags.length + 1) t.tags tags }
  let t := t.dropTagged
  let t := if flat.any (·.2.inexact) then t.setWord 1 else t
  let t := { t with marked := ((t.lanes.filter fun l => !t.fits l.2).map (·.1 / 2)).dedup }
  (t, if skip then (sums.filter fun l => l.all fun x => !x.formed).length else 0)

/-- A Pelun-exact pass: the first into an element writes it, each later one adds (R84). In a tile that was continued or
restored every element has been taken up, so that each pass adds (R69). -/
def Tile.passPelun (p : PassRec) (o : Operands) (t : Tile) : Tile :=
  let vals := (o.brows.mapIdx fun i row => o.bcols.mapIdx fun j col =>
    (2 * ((p.r0 + i) * 256 + j), pelunChunk row col)).flatten
  let old (x : Nat) : Option Int := look t.lanes x
  let new := vals.map fun v => (v.1, match old v.1 with
    | some w => ((fadd (BitVec.ofInt 32 w) v.2).toNat : Int)
    | none => ((if bitOf t.word.toNat 12 then fadd 0 v.2 else v.2).toNat : Int))
  let lo := p.r0 * 512
  let hi := (p.r0 + p.ms) * 512
  { t with lanes := t.lanes.filter (fun l => l.1 < lo) ++ new ++ t.lanes.filter (fun l => hi ≤ l.1) }

/-! ### Deep-sum buffers (R72, R74) -/

/-- Lanes of an element of a tile. -/
def Tile.nl (t : Tile) : Nat := if t.twoLane then 2 else 1

/-- The place of the deep-sum buffer, once its range is known good. -/
def Tile.deepAt (n : Nat) (t : Tile) : Place := (placeOf n t.deep).getD ⟨.awl, 0⟩

/-- The address of a deep lane, and of the tag copy. -/
def Tile.deepLane (t : Tile) (p : Place) (x l : Nat) : Place := { p with off := p.off + (x * t.nl + l) * 8 }
@[inherit_doc Tile.deepLane] def Tile.deepTags (t : Tile) (p : Place) : Place :=
  { p with off := p.off + t.rows * 256 * t.nl * 8 }

/-- A deep lane. -/
def State.readDeep (s : State) (n : Nat) (t : Tile) (x l : Nat) : Int :=
  if t.deep = 0 then 0 else signed 64 (leNat (s.readAt n (t.deepLane (t.deepAt n) x l) 8))

/-- A deep lane takes a value. -/
def State.writeDeep (n : Nat) (t : Tile) (x l : Nat) (v : Int) (s : State) : State :=
  s.writeAt n (t.deepLane (t.deepAt n) x l) (leBytes 8 (twos 64 v))

/-- The tag copy takes the tile's tags. -/
def State.writeTagCopy (n : Nat) (t : Tile) (s : State) : State :=
  let plane := (List.range (t.rows * 64)).map fun i =>
    BitVec.ofNat 8 ((t.tag (4 * i)).code + (t.tag (4 * i + 1)).code * 4 + (t.tag (4 * i + 2)).code * 16
      + (t.tag (4 * i + 3)).code * 64)
  s.writeAt n (t.deepTags (t.deepAt n)) plane

/-- A deep-sum buffer of zero lanes and FIN tags. -/
def State.zeroDeep (n : Nat) (t : Tile) (s : State) : State :=
  let p := t.deepAt n
  let len := t.rows * 256 * t.nl * 8 + t.rows * 64
  match p.space with
  | .sram m =>
    let s := { s with sram := Memory.clear s.sram (m * 0x8000000 + p.off) (m * 0x8000000 + p.off + len) }
    s.postLosses m p.off len
  | .awl => { s with awlBuf := Memory.clear s.awlBuf (n * 0x100000 + p.off) (n * 0x100000 + p.off + len) }
  | _ => s

/-- A number of 64 bits. -/
def fits64 (v : Int) : Bool := decide (-(2 ^ 63 : Int) ≤ v) && decide (v < 2 ^ 63)

/-- The elements whose deep sums would leave i64. -/
def State.deepOver (s : State) (n : Nat) (t : Tile) : List Nat :=
  ((t.lanes.filter fun l => !fits64 (l.2 + s.readDeep n t (l.1 / 2) (l.1 % 2))).map (·.1 / 2)).dedup

/-- Every lane is added exactly into the deep-sum buffer, and the tag copy takes the tags. -/
def State.foldDeep (n : Nat) (t : Tile) (s : State) : State :=
  let s := t.lanes.foldl (fun s l => s.writeDeep n t (l.1 / 2) (l.1 % 2) (l.2 + s.readDeep n t (l.1 / 2) (l.1 % 2))) s
  let s := t.tags.foldl (fun s x =>
    if x.2 = .fin then s else (List.range t.nl).foldl (fun s l => s.writeDeep n t x.1 l 0) s) s
  s.writeTagCopy n t

/-! ### Spill (R72 to R74, R128) -/

/-- A spill that is due. -/
def State.spillStep (n k : Nat) (s : State) : State :=
  let t := (s.die n).tile k
  if !s.live n || !t.spillDue || t.marked != [] then s
  else if t.deep = 0 then
    let b := (t.passes.getLast?).elim 0 (·.bundle)
    let id := (s.die n).run.elim 0 (·.item)
    let s := s.modDie n fun d => d.modTile k fun t => { t with spillDue := false }
    (s.faultDie n 0x10 1 b).settleGang id
  else
    let past := s.deepOver n t
    if past ≠ [] then
      (s.modDie n fun d => d.modTile k fun t => { t with marked := past }).raise (.ary n) 6
    else
      let s := s.foldDeep n t
      let id := (s.die n).run.elim 0 (·.item)
      let s := s.modDie n fun d => d.modTile k fun t =>
        { t.setChunk 0 with lanes := [], ckTags := t.tags, passes := [], spillDue := false, spilled := t.kcount }
      let s := s.charge n 1 (t.rows * t.nl)
      (if s.prgState n = 2 then s else s.settleGang id).badHeads n

/-! ### Overflow replay (Sequence ARY-1) -/

/-- The run cost of passes (R82). -/
def runCost (l : List PassRec) : Nat :=
  match l with
  | [] => 0
  | p :: rest => 128 + p.ms + 24 + rest.foldl (fun a q => a + max q.ms 128) 0

/-- The sign of a lane that overflowed: the lane itself, or its deep sum. -/
def State.overSign (s : State) (n : Nat) (t : Tile) (x l : Nat) : Option Bool :=
  let v := t.lane x l
  if !t.fits v then some (decide (v < 0))
  else
    let d := v + s.readDeep n t x l
    if fits64 d then none else some (decide (d < 0))

/-- The tag a saturated element takes: by the sign of its lane, NAN for opposite signs (step 6). -/
def State.overTag (s : State) (n : Nat) (t : Tile) (x : Nat) : Tag :=
  match s.overSign n t x 0, s.overSign n t x 1 with
  | some a, some b => if a = b then (if a then .negInf else .posInf) else .nan
  | some a, none => if a then .negInf else .posInf
  | none, some b => if b then .negInf else .posInf
  | none, none => .posInf

/-- Step 6: the marked elements are saturated. -/
def State.saturate (n k : Nat) (s : State) : State :=
  let t := (s.die n).tile k
  let tags := t.marked.mergeSort.map fun x => (x, s.overTag n t x)
  let s := s.modDie n fun d => d.modTile k fun t =>
    ({ t with tags := addTags (t.tags.length + tags.length + 1) t.tags tags, marked := [] }.dropTagged).setWord 2
  s.raise (.ary n) 0

/-- Step 3: the checkpoint is restored with E raised by 4; deep lanes are realigned. -/
def State.restoreCheckpoint (n k : Nat) (s : State) : State :=
  let t := (s.die n).tile k
  let deep := if t.deep = 0 then [] else
    (List.range (t.rows * 256 * t.nl)).filterMap fun i =>
      let d := s.readDeep n t (i / t.nl) (i % t.nl)
      if d = 0 then none else some (i, d)
  let s := deep.foldl (fun s x => s.writeDeep n t (x.1 / t.nl) (x.1 % t.nl) (rneShift x.2 4)) s
  let lost := deep.any fun x => x.2 % 16 != 0
  let old := bitOf t.word.toNat 0
  let s := s.modDie n fun d => d.modTile k fun t =>
    let t := { t with e := t.e + 4, lanes := [], tags := t.ckTags, marked := [] }
    if lost then t.setWord 1 else t
  if lost && !old then s.raise (.ary n) 2 else s

/-- One pass of a chunk runs, first or again. -/
def State.runPass (n k : Nat) (p : PassRec) (o : Operands) (s : State) : State :=
  let t := (s.die n).tile k
  let (u, idle) := t.pass (bitOf (s.reg (Reg.aryCtrl n)) 0) p o
  let s := s.modDie n fun d => d.modTile k fun _ => u
  let s := if idle = 0 then s else s.count (Reg.aryZeroRows n) idle
  if bitOf u.word.toNat 0 && !bitOf t.word.toNat 0 then s.raise (.ary n) 2 else s

/-- The loop of the sequence over the passes of the chunk: `i` is the next pass to run.

DESIGN CHOICE (log 152): a re-stream charges the run cost of the whole chunk before it runs, also where a further
overflow stops it early; and ALLOW_EXHAUSTED stays clear where the allowance is short and the chunk's replays or its E
are at their limit as well. -/
def State.replayGo (n k : Nat) (l : List (PassRec × Operands)) : Nat → Nat → State → State
  | 0, _, s => s
  | f + 1, i, s =>
    let t := (s.die n).tile k
    if t.marked ≠ [] then
      let cost := runCost (l.map (·.1))
      let short := decide ((s.die n).allowanceLeft < cost)
      if t.chunkReplays = 3 ∨ 127 < t.e + 4 ∨ short then
        let s := s.saturate n k
        let s := if short ∧ t.chunkReplays ≠ 3 ∧ t.e + 4 ≤ 127 then s.raise (.ary n) 5 else s
        State.replayGo n k l f i s
      else
        let s := s.restoreCheckpoint n k
        let s := s.modDie n fun d =>
          { d with allowanceLeft := d.allowanceLeft - cost }.modTile k fun t =>
            { t.setChunk (t.chunkReplays + 1) with
              word := BitVec.ofNat 32 (putBits (t.setChunk (t.chunkReplays + 1)).word.toNat 11 6
                (min 63 (bitsOf t.word.toNat 11 6 + 1))) }
        let s := ((s.meter n cost).count (Reg.aryReplays n) 1).raise (.ary n) 1
        State.replayGo n k l f 0 s
    else match l[i]? with
      | some p => State.replayGo n k l f (i + 1) (s.runPass n k p.1 p.2)
      | none => s

/-- The tile of a die with marked elements is replayed or saturated, through the pass that marked them. -/
def State.replayStep (n : Nat) (s : State) : State :=
  if !s.live n then s
  else match (List.range 32).find? fun k => ((s.die n).tile k).marked != [] with
    | none => s
    | some k =>
      let t := (s.die n).tile k
      let l := t.passes.map fun p => (p, (s.operands n p).toOption.getD ⟨[], [], [], []⟩)
      let s := s.replayGo n k l ((l.length + 2) * 6) l.length
      let id := (s.die n).run.elim 0 (·.item)
      (if s.prgState n = 2 then s else s.settleGang id).badHeads n

/-! ### Tile starts (R69, R71, R124) -/

/-- The M of a tile. -/
def goodM (m : Nat) : Bool := m == 64 || m == 128 || m == 256 || m == 512 || m == 1024

/-- The value of a two-lane element in units of 2^(e−63), or of a one-lane element (R52). -/
def laneValue (two : Bool) (even odd : Int) (e : Int) : Int × Int :=
  if two then (even * 2 ^ 63 + odd * 0xB504F333F9DE6484, e - 63) else (even, e)

/-- A raw tile image, read for a restore or a combine (R70, R71). -/
structure Image where
  e : Int
  fmt : Nat
  rows : Nat
  status : Nat
  kcount : Nat
  /-- lanes that are not 0, by entry 2 x + l, and tags -/
  lanes : List (Nat × Int)
  tags : List (Nat × Tag)
  deriving DecidableEq, Repr

/-- A header is well formed (R71). -/
def headOk (h : List Byte) : Bool :=
  let f := fld h 1 1
  goodM (fld h 2 2) && decide (f < 16) && !(bitOf f 3 && f % 8 != 0) && !(bitOf f 2 && bitOf f 0)
    && decide (fld h 4 4 < 2 ^ 13) && fld h 14 2 == 0

/-- The image whose bytes a reader of ranges gives; its header is well formed. -/
def imageOf (read : Nat → Nat → List Byte) : Image :=
  let h := read 0 16
  let f := fld h 1 1
  let m := fld h 2 2
  let w := laneBytes f
  let k := laneCount f
  let lane (i : Nat) : Int := if bitOf f 3 then leNat (read (16 + i * w) w) else signed (8 * w) (leNat (read (16 + i * w) w))
  let lanes := (List.range (m * 256 * k)).filterMap fun i =>
    let v := lane i
    if v = 0 ∧ !bitOf f 3 then none else some (i / k * 2 + i % k, v)
  let tags := ((List.range (m * 64)).map fun i =>
    let b := ((read (16 + m * 256 * k * w + i) 1).headD 0).toNat
    if b = 0 then [] else
      (List.range 4).filterMap fun j => if tagOf (b / 4 ^ j) = .fin then none else some (4 * i + j, tagOf (b / 4 ^ j))).flatten
  { e := signed 8 (fld h 0 1), fmt := f, rows := m, status := fld h 4 4, kcount := fld h 8 6, lanes := lanes, tags := tags }

/-- Element bytes of a tile in the accumulator store (R68). -/
def tileBytes (a48 two pelun : Bool) (m : Nat) : Nat :=
  m * 256 * (if pelun then 4 else (if a48 then 6 else 4) * (if two then 2 else 1))

/-- The checks of TILE (R124, Table PRG-6): a cause, or for RESTORE the place of the image.

DESIGN CHOICE (log 154): a record cannot declare the D64 bit of R71, so a deep image matches a record of either width:
only its two-lane and Pelun bits are compared. -/
def State.tileCheck (s : State) (n mode k : Nat) (rec : List Byte) : Except Nat (Option Place) :=
  let d := s.die n
  let t := d.tile k
  let f := fld rec 1 1
  let m := fld rec 2 2
  let deep := fld rec 4 6
  let pel := bitOf f 3
  let nl := if bitOf f 1 then 2 else 1
  let used := d.tiles.filter fun u => u.status != .free
  let room := used.foldl (fun a u => a + tileBytes u.a48 u.twoLane u.pelun u.rows) 0
    + tileBytes (bitOf f 0) (bitOf f 1) pel m
  let want := if mode = 1 then TileStatus.parked else TileStatus.free
  if f &&& 0xF4 ≠ 0 ∨ !zeroIn rec 16 64 then .error 0x01
  else if !goodM m ∨ (pel ∧ (f &&& 3 ≠ 0 ∨ deep ≠ 0)) ∨ t.status ≠ want then .error 0x05
  else if mode = 1 ∧ (t.fmt ≠ f ∨ t.rows ≠ m ∨ (t.deep ≠ 0 ∧ normAddr n deep ≠ normAddr n t.deep)) then .error 0x05
  else if mode ≠ 0 ∧ !pel ∧ deep = 0 then .error 0x05
  else if mode ≠ 1 ∧ (32 ≤ used.length ∨ 8388608 < room) then .error 0x05
  else
    let buf := if deep = 0 then Except.ok ⟨.awl, 0⟩ else s.checkDest n 64 deep (m * 256 * 8 * nl + m * 64)
    match buf with
    | .error c => .error c
    | .ok _ =>
      if mode ≠ 2 then .ok none
      else
        let a := fld rec 10 6
        match s.checkRange n .operand 1 a 16 with
        | .error c => .error c
        | .ok p =>
          let h := s.readAt n p 16
          let g := fld h 1 1
          if !headOk h ∨ fld h 2 2 ≠ m ∨ (g ^^^ f) &&& (if bitOf g 2 then 0xA else 0xB) ≠ 0 then .error 0x05
          else match s.checkRange n .operand 1 a (imageLen g m) with
            | .error c => .error c
            | .ok p => .ok (some p)

/-- A CLEAR start (R69). The deep-sum buffer, if any, starts from zero (log 23).

DESIGN CHOICE (log 156): a Pelun-exact tile has no E (R84), and no rule says which E byte its raw image then shows; it
shows the byte of the tile record. -/
def State.tileClear (n k : Nat) (rec : List Byte) (s : State) : State :=
  let f := fld rec 1 1
  let t : Tile :=
    { status := .inProgress, a48 := bitOf f 0, twoLane := bitOf f 1, pelun := bitOf f 3, rows := fld rec 2 2,
      deep := fld rec 4 6, e := signed 8 (fld rec 0 1) }
  let s := s.modDie n fun d => d.modTile k fun _ => t
  if t.deep = 0 then s else s.zeroDeep n t

/-- A CONTINUE start (R69): the parked lanes are added exactly into the deep-sum buffer.

DESIGN CHOICE (log 153): the true sum of a two-lane element that leaves i64 has the sign of even + √2·odd, its value,
not of the lane that left the range. -/
def State.tileContinue (n k : Nat) (rec : List Byte) (s : State) : State :=
  let t := (s.die n).tile k
  if t.pelun then
    s.modDie n fun d => d.modTile k fun t =>
      { (t.setChunk 0).setWord 0x1000 with status := .inProgress, passes := [], marked := [], spillDue := false }
  else
    let fresh := t.deep = 0
    let u := { t with deep := fld rec 4 6 }
    let s := if fresh then s.zeroDeep n u else s
    -- tags of the copy, combined with the parked ones
    let copy := ((List.range (u.rows * 64)).map fun i =>
      let b := ((s.readAt n { u.deepTags (u.deepAt n) with off := (u.deepTags (u.deepAt n)).off + i } 1).headD 0).toNat
      if b = 0 then [] else
        (List.range 4).filterMap fun j =>
          if tagOf (b / 4 ^ j) = .fin then none else some (4 * i + j, tagOf (b / 4 ^ j))).flatten
    let past := s.deepOver n u
    let sat := past.mergeSort.map fun x =>
      let v := laneValue u.twoLane (u.lane x 0 + s.readDeep n u x 0) (u.lane x 1 + s.readDeep n u x 1) 0
      (x, if v.1 < 0 then Tag.negInf else Tag.posInf)
    let tags := addTags (copy.length + u.tags.length + 1) copy u.tags
    let u := { u with tags := addTags (tags.length + sat.length + 1) tags sat }.dropTagged
    let s := s.foldDeep n u
    let u := { (u.setChunk 0).setWord 0x1000 with
      status := .inProgress, lanes := [], ckTags := u.tags, passes := [], marked := [], spillDue := false }
    let u := if past = [] then u else u.setWord 2
    let s := s.modDie n fun d => d.modTile k fun _ => u
    if past = [] then s else s.raise (.ary n) 6

/-- A RESTORE start (R69).

The status word is the image's (Tile.status32). A Pelun tile's tags stay FIN whatever the image's tag plane holds (R84).

DESIGN CHOICE (log 156): the E byte of a restored Pelun image, which has no E, is kept as it stands in the image. -/
def State.tileRestore (n k : Nat) (rec : List Byte) (p : Place) (s : State) : State :=
  let f := fld rec 1 1
  let im := imageOf fun off len => s.readAt n { p with off := p.off + off } len
  let t : Tile :=
    { status := .inProgress, a48 := bitOf f 0, twoLane := bitOf f 1, pelun := bitOf f 3, rows := im.rows,
      deep := fld rec 4 6, e := im.e, word := BitVec.ofNat 32 im.status, kcount := im.kcount, spilled := im.kcount,
      lanes := im.lanes, tags := im.tags, ckTags := im.tags }
  let t := ((if t.pelun then { t with tags := [], ckTags := [] } else t.dropTagged).setChunk 0).setWord 0x1000
  if t.pelun then s.modDie n fun d => d.modTile k fun _ => t
  else
    let s := (s.zeroDeep n t).foldDeep n t
    s.modDie n fun d => d.modTile k fun _ => { t with lanes := [] }

/-- The effect of a TILE op that issues, by its mode. -/
def State.tileStart (mode n k : Nat) (rec_ : List Byte) (p : Option Place) (s : State) : State :=
  let s := s.modDie n fun d => { d with lastWasPass := false }
  if mode = 0 then s.tileClear n k rec_ else if mode = 1 then s.tileContinue n k rec_
  else s.tileRestore n k rec_ (p.getD ⟨.awl, 0⟩)

/-- A TILE op of a mode. -/
def State.tileStep (mode n : Nat) (s : State) : State :=
  s.issueOp n 1 1 (fun o => decide (o.imm < 128) && bitsOf o.imm 6 5 == mode)
    (fun o =>
      let t := (s.die n).tile (o.imm % 32)
      t.marked == [] && !t.spillDue)
    (fun o =>
      let k := o.imm % 32
      let rec_ := s.record n o
      match s.tileCheck n mode k rec_ with
      | .error c => .error c
      | .ok p =>
        let cost := if mode = 0 then 0 else fld rec_ 2 2 * (if bitOf (fld rec_ 1 1) 1 then 2 else 1)
        .ok (cost, fun s => (s.tileStart mode n k rec_ p).complete n 1 o))

/-! ### Passes (R64 to R68, R125) -/

/-- The pass a record and an op describe, with its operand bases moved (R126). -/
def passRec (o : SlotOp) (rec : List Byte) : Except Nat PassRec :=
  let b := fld rec 0 1
  let pair := b % 8
  let swap := bitOf b 3
  let (fa, fb, _, _) := pairOf pair
  let (fs, ft) := if swap then (fb, fa) else (fa, fb)
  if 2 ^ 25 ≤ o.imm ∨ 16 ≤ b ∨ pair = 7 ∨ fld rec 1 1 ≠ 0 ∨ !zeroIn rec 4 8 ∨ !zeroIn rec 40 48 then .error 0x01
  else match o.tensor rec 8 48 fs.div, o.tensor rec 24 56 ft.div with
    | some st, some sm =>
      .ok ⟨pair, swap, fld rec 2 2, bitsOf o.imm 14 5, bitsOf o.imm 24 15 + 1, st, sm, o.bundle⟩
    | _, _ => .error 0x04

/-- The tile checks of PASS (R125, R67). -/
def PassRec.badFor (p : PassRec) (t : Tile) : Bool :=
  let (_, _, depth, lanes) := pairOf p.pair
  decide (t.status ≠ .inProgress) || decide (t.rows < p.r0 + p.ms) || ((p.pair == 6) != t.pelun)
    || (p.pair != 6 && (lanes == 2) != t.twoLane) || (p.pair == 0 && p.swap) || p.krows == 0
    || decide (depth < p.krows)

/-- The effect of a pass that issues: KCOUNT, the products, and whether a spill is due (R65, R72, R84).

DESIGN CHOICE (log 155): KCOUNT is a 48-bit field, and a pass that takes it past 2^48 − 1 wraps it. -/
def State.passInto (n k : Nat) (p : PassRec) (ops : Operands) (s : State) : State :=
  let s := s.modDie n fun d => { d with lastWasPass := true }.modTile k fun t =>
    { t with kcount := (t.kcount + p.krows) % 2 ^ 48 }
  if p.pair = 6 then s.modDie n fun d => d.modTile k fun t => t.passPelun p ops
  else
    let s := s.modDie n fun d => d.modTile k fun t => { t with passes := t.passes ++ [p] }
    let s := s.runPass n k p ops
    s.modDie n fun d => d.modTile k fun t =>
      { t with spillDue := decide ((t.spilled / 65536 + 1) * 65536 ≤ t.kcount) }

/-- A PASS op. No pass starts while a replay is due, none goes into a tile before its spill, nor into a tile the Awl
is reading (R73, R75, R94). -/
def State.passStep (n : Nat) (s : State) : State :=
  let d := s.die n
  s.issueOp n 1 2 (fun _ => true)
    (fun o =>
      let k := o.imm % 32
      d.tiles.all (fun t => t.marked == []) && !(d.tile k).spillDue
        && !((d.awl.map (·.claims)).getD []).any fun c => meets (0x30020000000 + k * 0x400000) 0x400000 c.1 c.2)
    (fun o =>
      let k := o.imm % 32
      let t := d.tile k
      match passRec o (s.record n o) with
      | .error c => .error c
      | .ok p =>
        if p.badFor t then .error 0x05
        else match s.operands n p with
          | .error c => .error c
          | .ok ops =>
            let c := if p.pair = 6 then 8 else 1
            let cost := if d.lastWasPass ∧ o.wcnt = 0 then max (c * p.ms) 128 else 128 + c * p.ms + 24
            .ok (cost, fun s => (s.passInto n k p ops).complete n 1 o))

/-! ### Drains (R78 to R80, R127) -/

/-- The exact value of an element at drain: the deep sum in place of the lanes (R52). -/
def State.drainValue (s : State) (n : Nat) (t : Tile) (x : Nat) : Num :=
  if t.pelun then ofBits (BitVec.ofInt 32 (t.lane x 0))
  else match t.tag x with
    | .nan => .nan
    | .posInf => .inf false
    | .negInf => .inf true
    | .fin =>
      let v := laneValue t.twoLane (t.lane x 0 + s.readDeep n t x 0) (t.lane x 1 + s.readDeep n t x 1) t.e
      ofDyadic v.1 v.2

/-- Destination of a drain row: alignment, payload bytes, payload bytes to a scale byte, scale bytes (Table ARY-5). -/
def drainShape (f : Nat) : Nat × Nat × Nat × Nat :=
  if f = 1 then (4, 1024, 0, 0) else if f = 2 then (8, 128, 8, 16) else if f = 3 then (32, 256, 32, 8) else (2, 512, 0, 0)

/-- The format byte of a raw drain: D64 lanes for a tile with a deep-sum buffer (R70, R74). -/
def Tile.rawFmt (t : Tile) : Nat := if t.deep ≠ 0 then (if t.twoLane then 6 else 4) else t.fmt

/-- The checks of DRAIN, and the places of its rows: payload and scales (R113, R127). -/
def State.drainCheck (s : State) (n : Nat) (o : SlotOp) (rec : List Byte) (t : Tile) :
    Except Nat (List (Place × Option Place)) :=
  let f := fld rec 0 1
  let r := fld rec 1 1
  let (al, pb, div, sb) := drainShape f
  if 64 ≤ o.imm ∨ 5 < f ∨ 4 ≤ r ∨ !zeroIn rec 4 8 ∨ !zeroIn rec 30 32 ∨ !zeroIn rec 36 48 then .error 0x01
  else if t.status ≠ .inProgress ∨ !(if t.pelun then f == 1 || f == 4 || f == 5 else f != 5) then .error 0x05
  else if bitOf r 0 ∧ (f = 1 ∨ f = 4 ∨ f = 5 ∨ ((f = 2 ∨ f = 3) ∧ !bitOf r 1)) then .error 0x06
  else if f ≠ 4 ∧ fld rec 32 4 < 256 then .error 0x04
  else match o.tensor rec 8 48 (if f = 4 then 0 else div) with
    | none => .error 0x04
    | some d =>
      if f = 4 then
        match s.checkDest n 1 d.base (imageLen t.rawFmt t.rows) with
        | .error c => .error c
        | .ok p => .ok [(p, none)]
      else if d.base % al ≠ 0 ∨ d.pitch % al ≠ 0 then .error 0x02
      else
        firstError ((List.range t.rows).map fun i =>
          match s.checkDest n 1 (d.base + i * d.pitch) pb with
          | .error c => .error c
          | .ok p =>
            if div = 0 then .ok (p, none)
            else match s.checkDest n 1 (d.scale + i * d.pitch / div) sb with
              | .error c => .error c
              | .ok q => .ok (p, some q))

/-- Payload and scale bytes of row i of a drain.

DESIGN CHOICE (log 151): R40 has the converting unit set its overflow flag; Table ARY-7 gives the array no such flag, so
the drain of a saturating block sets none. -/
def State.drainRow (s : State) (n : Nat) (o : SlotOp) (rec : List Byte) (t : Tile) (i : Nat) : List Byte × List Byte :=
  let f := fld rec 0 1
  let stream := fld rec 2 2
  let index := (fld rec 24 6 : Int) + o.shift rec 56 + i * fld rec 32 4
  let step := (s.die n).run.elim 0 (·.step)
  let rnd (c : Nat) : Option Nat :=
    if bitOf (fld rec 1 1) 0 then some (drawBits (s.reg Reg.hifSeed) step stream ((index + c) % 2 ^ 48).toNat) else none
  let xs := (List.range 256).map fun c => s.drainValue n t (i * 256 + c)
  if f = 0 then ((xs.mapIdx fun c x => leBytes 2 (g16.write (rnd c) x)).flatten, [])
  else if f = 1 then ((xs.map fun x => leBytes 4 (f32.write none x)).flatten, [])
  else if f = 5 then ((xs.map fun x => leBytes 2 (bf16.write none x)).flatten, [])
  else
    let r := encodeRow (f == 3) xs rnd
    (r.1, r.2.1)

/-- A raw drain's image (R70). -/
def State.rawImage (s : State) (n : Nat) (t : Tile) : List Byte :=
  let f := t.rawFmt
  let head := imageHead t.e f t.rows t.status32 t.kcount
  let lane (x l : Nat) : Int := if t.tag x = .fin then t.lane x l + s.readDeep n t x l else 0
  (List.range (imageLen f t.rows)).map fun i => imageByte head f t.rows lane t.tag i

/-- The effect of a drain that issues: its rows or its image go out, HAS_NAN and HAS_INF show, a tile RELEASEd is free. -/
def State.drainInto (n : Nat) (release : Bool) (k : Nat) (o : SlotOp) (rec_ : List Byte) (t : Tile)
    (places : List (Place × Option Place)) (s : State) : State :=
  let s := s.modDie n fun d => { d with lastWasPass := false }
  let f := fld rec_ 0 1
  let out := if f = 4 then [(s.rawImage n t, [])] else (List.range t.rows).map (s.drainRow n o rec_ t)
  let s := if release ∧ t.deep ≠ 0 then s.foldDeep n t else s
  let s := (places.zip out).foldl (fun s r =>
    let s := s.writeAt n r.1.1 r.2.1
    match r.1.2 with
    | some q => s.writeAt n q r.2.2
    | none => s) s
  let word := t.status32
  let at_ := (o.tensor rec_ 8 48 0).elim 0 (·.base)
  let s := if f ≠ 4 then s.modDie n fun d => { d with drainStatus := assoc d.drainStatus at_ word } else s
  let s := if f ≠ 4 ∧ t.tags.any (fun e => e.2 == .nan) then s.raise (.ary n) 3 else s
  let s := if f ≠ 4 ∧ t.tags.any (fun e => e.2 == .posInf || e.2 == .negInf) then s.raise (.ary n) 4 else s
  if release then s.modDie n fun d => d.modTile k fun _ => {} else s

/-- A DRAIN op (Sequence ARY-2). It waits for a replay or a spill of its tile; a deep sum that would leave i64 first
replays (R74). A drain with RELEASE folds the lanes into the buffer; one with KEEP leaves the tile as it is (log 23).

DESIGN CHOICE (log 176): R94 holds PASSes and MOVEs back while an Awl operation is under way and gives a drain no wait; a
drain goes at once, and an operation that reads a tile freed under it reads zeros. -/
def State.drainStep (release : Bool) (n : Nat) (s : State) : State :=
  let d := s.die n
  let fold := match d.qArray with
    | o :: _ =>
      let t := d.tile (o.imm % 32)
      if s.running n && o.op == 3 && bitOf o.imm 5 == release && d.semReady o && t.status == TileStatus.inProgress
          && t.marked == [] && !t.spillDue && t.deep != 0
          && (s.drainCheck n o (s.record n o) t).toOption.isSome
      then (o.imm % 32, s.deepOver n t) else (0, [])
    | [] => (0, [])
  if fold.2 ≠ [] then
    (s.modDie n fun d => d.modTile fold.1 fun t => { t with marked := fold.2 }).raise (.ary n) 6
  else
    s.issueOp n 1 3 (fun o => bitOf o.imm 5 == release)
      (fun o =>
        let t := d.tile (o.imm % 32)
        t.marked == [] && !t.spillDue)
      (fun o =>
        let k := o.imm % 32
        let t := d.tile k
        let rec_ := s.record n o
        match s.drainCheck n o rec_ t with
        | .error c => .error c
        | .ok places =>
          .ok (t.rows, fun s => (s.drainInto n release k o rec_ t places).complete n 1 o))

/-! ### Commands -/

/-- TILE_CLEAR (R124). -/
def execTileClear (dt die : Nat) (s : State) : Host.Outcome State Fault Refusal :=
  s.finish dt ((s.advance dt).tileStep 0 die)

/-- TILE_CONTINUE (R69). -/
def execTileContinue (dt die : Nat) (s : State) : Host.Outcome State Fault Refusal :=
  s.finish dt ((s.advance dt).tileStep 1 die)

/-- TILE_RESTORE (R69). -/
def execTileRestore (dt die : Nat) (s : State) : Host.Outcome State Fault Refusal :=
  s.finish dt ((s.advance dt).tileStep 2 die)

/-- PASS (R64). -/
def execPassOp (dt die : Nat) (s : State) : Host.Outcome State Fault Refusal :=
  s.finish dt ((s.advance dt).passStep die)

/-- SPILL (R72). -/
def execSpill (dt die tile : Nat) (s : State) : Host.Outcome State Fault Refusal :=
  s.finish dt ((s.advance dt).spillStep die tile)

/-- OVERFLOW_REPLAY (R75). -/
def execOverflowReplay (dt die : Nat) (s : State) : Host.Outcome State Fault Refusal :=
  s.finish dt ((s.advance dt).replayStep die)

/-- DRAIN_RELEASE (R78). -/
def execDrainRelease (dt die : Nat) (s : State) : Host.Outcome State Fault Refusal :=
  s.finish dt ((s.advance dt).drainStep true die)

/-- DRAIN_KEEP (R78). -/
def execDrainKeep (dt die : Nat) (s : State) : Host.Outcome State Fault Refusal :=
  s.finish dt ((s.advance dt).drainStep false die)

end Sys2Proof.Machine
end

