-- ==== Sys2Proof/Machine/Funcs.lean ====
section
/-! DEFINITION. The function micro-ops of Table AWL-7: exact special results, else the value to about 190 bits beyond
the point of a scaled series, then the one rounding of R99 (log 22). -/

namespace Sys2Proof.Machine

/-- Fraction bits of the fixed-point series. -/
abbrev fracBits : Nat := 240

/-- 1 in fixed point, and the product and quotient there. -/
def fxOne : Int := 2 ^ 240
@[inherit_doc fxOne] def fxMul (a b : Int) : Int := a * b / 2 ^ 240
@[inherit_doc fxOne] def fxDiv (a b : Int) : Int := a * 2 ^ 240 / b

/-- A dyadic number in fixed point, rounded down. -/
def toFx (m : Int) (e : Int) : Int :=
  let k := e + 240
  if 0 ≤ k then m * 2 ^ k.toNat else m / 2 ^ (-k).toNat

/-- The sum of terms `t`, each got from the one before by `next` with its number, up to a count. -/
def series (next : Int → Nat → Int) : Nat → Nat → Int → Int
  | 0, _, _ => 0
  | fuel + 1, k, t => t + series next fuel (k + 1) (next t k)

/-- e^r for a fixed-point r of magnitude below 1. -/
def expFx (r : Int) : Int := series (fun t k => fxMul t r / (k + 1 : Nat)) 80 0 fxOne

/-- 2 artanh z, for a fixed-point z of magnitude below 1/5: the odd powers, each over its number. -/
def atanhGo (z2 : Int) : Nat → Nat → Int → Int
  | 0, _, _ => 0
  | fuel + 1, k, p => p / (2 * k + 1 : Nat) + atanhGo z2 fuel (k + 1) (fxMul p z2)

/-- The logarithm of a fixed-point y near 1. -/
def lnFx (y : Int) : Int :=
  let z := fxDiv (y - fxOne) (y + fxOne)
  2 * atanhGo (fxMul z z) 60 0 z

/-- ln 2 = ln (4/3) + ln (3/2). -/
def ln2Fx : Int := lnFx (4 * fxOne / 3) + lnFx (3 * fxOne / 2)

/-- arctan of 1/n. -/
def atanInv (n : Nat) : Int :=
  ((List.range 110).map fun k => (if k % 2 = 0 then fxOne else -fxOne) / ((2 * k + 1) * n ^ (2 * k + 1) : Nat)).foldl (· + ·) 0

/-- π = 16 arctan (1/5) − 4 arctan (1/239). -/
def piFx : Int := 16 * atanInv 5 - 4 * atanInv 239

/-- sin x ÷ x and cos x, from x². -/
def sincFx (x2 : Int) : Int := series (fun t k => - fxMul t x2 / ((2 * k + 2) * (2 * k + 3) : Nat)) 40 0 fxOne
@[inherit_doc sincFx] def cosFx (x2 : Int) : Int := series (fun t k => - fxMul t x2 / ((2 * k + 1) * (2 * k + 2) : Nat)) 40 0 fxOne

/-- A fixed-point number as a value. -/
def fxNum (x : Int) : Num := ofDyadic x (-240)

/-- e^x as an integer and an exponent, for a finite x of magnitude at most 256. -/
def expParts (m : Int) (e : Int) : Int × Int :=
  let x := toFx m e
  let k := x / ln2Fx
  (expFx (x - k * ln2Fx), k - 240)

/-- A magnitude passes 256. -/
def past256 (m : Nat) (e : Int) : Bool := decide (0 < m) && decide (8 ≤ (Nat.log2 m : Int) + e)

/-- e^x and 2^x (FEXP, FEXP2). -/
def Num.exp : Num → Num
  | .nan => .nan
  | .inf a => if a then .fin false 0 0 else .inf false
  | .fin a m e =>
    if past256 m e then (if a then .fin false 0 0 else .inf false)
    else
      let (x, k) := expParts (sgn a m) e
      ofDyadic x k
@[inherit_doc Num.exp] def Num.exp2 : Num → Num
  | .nan => .nan
  | .inf a => if a then .fin false 0 0 else .inf false
  | .fin a m e =>
    if past256 m e then (if a then .fin false 0 0 else .inf false)
    else
      let x := toFx (sgn a m) e
      let k := x / fxOne
      ofDyadic (expFx (fxMul (x - k * fxOne) ln2Fx)) (k - 240)

/-- The logarithm of a positive finite number: the power of two taken out and the logarithm of the rest, in fixed
point; the rest lies within a factor √2 of 1. -/
def logParts (m : Nat) (e : Int) : Int × Int :=
  let l := Nat.log2 m
  let y := toFx m (-(l : Int))
  if 3 * fxOne < 2 * y then ((l : Int) + e + 1, lnFx (y / 2)) else ((l : Int) + e, lnFx y)

/-- ln x and log2 x (FLOG, FLOG2). -/
def Num.log : Num → Num
  | .nan => .nan
  | .inf a => if a then .nan else .inf false
  | .fin a m e =>
    if m = 0 then .inf true
    else if a then .nan
    else
      let (k, y) := logParts m e
      fxNum (k * ln2Fx + y)
@[inherit_doc Num.log] def Num.log2 : Num → Num
  | .nan => .nan
  | .inf a => if a then .nan else .inf false
  | .fin a m e =>
    if m = 0 then .inf true
    else if a then .nan
    else
      let (k, y) := logParts m e
      fxNum (k * fxOne + fxDiv y ln2Fx)

/-- The reciprocal, and the reciprocal of the square root (FRCP, FRSQRT). -/
def Num.rcp (x : Num) : Num := (Num.fin false 1 0).div x
@[inherit_doc Num.rcp] def Num.rsqrt : Num → Num
  | .nan => .nan
  | .inf a => if a then .nan else .fin false 0 0
  | .fin a m e =>
    if m = 0 then .inf a
    else if a then .nan
    else
      let (m, e) := if e % 2 = 0 then (m, e) else (2 * m, e - 1)
      let x := 2 ^ 240 / m
      let r := Nat.sqrt x
      .fin false (2 * r + (if r * r * m = 2 ^ 240 then 0 else 1)) (-121 - e / 2)

/-- The logistic function (FSIGM): 1 ÷ (1 + e^−a). -/
def Num.sigm : Num → Num
  | .nan => .nan
  | .inf a => if a then .fin false 0 0 else .fin false 1 0
  | .fin a m e =>
    if past256 m e then (if a then .fin false 0 0 else .fin false 1 0)
    else
      let (x, k) := expParts (sgn (!a) m) e
      ((ofDyadic x k).add (.fin false 1 0)).rcp

/-- The hyperbolic tangent (FTANH): of a magnitude below 2^−40 the value itself rounds to it. -/
def Num.tanh : Num → Num
  | .nan => .nan
  | .inf a => .fin a 1 0
  | .fin a m e =>
    if m = 0 ∨ (Nat.log2 m : Int) + e < -40 then .fin a m e
    else if past256 m e then .fin a 1 0
    else
      let (x, k) := expParts (sgn true m) (e + 1)
      let q := ((Num.fin false 1 0).add (ofDyadic x k).neg).div ((Num.fin false 1 0).add (ofDyadic x k))
      if a then q.neg else q

/-- The error function (FERF): 2 ÷ √π × x × Σ (−x²)^n ÷ (n! (2n + 1)); of a magnitude of 4.5 or more, 1. -/
def erfGo (x2 : Int) : Nat → Nat → Int → Int
  | 0, _, _ => 0
  | fuel + 1, k, t => t / (2 * k + 1 : Nat) + erfGo x2 fuel (k + 1) (- fxMul t x2 / (k + 1 : Nat))
@[inherit_doc erfGo] def Num.erf : Num → Num
  | .nan => .nan
  | .inf a => .fin a 1 0
  | .fin a m e =>
    if m = 0 then .fin a 0 0
    else if past256 m e ∨ 9 * fxOne ≤ 2 * toFx m e then .fin a 1 0
    else
      let x2 := toFx (m * m : Nat) (2 * e)
      let s := erfGo x2 160 0 fxOne
      let c := fxDiv (2 * fxOne) (Nat.sqrt (piFx.toNat * 2 ^ 240) : Nat)
      (fxNum (fxMul s c)).mul (.fin a m e)

/-- sin (π f) for a dyadic 0 ≤ f ≤ 1/2, exact at the ends. -/
def sinpiQuad (m : Nat) (e : Int) : Num :=
  if m = 0 then .fin false 0 0
  else if toFx m e * 4 ≤ fxOne then
    let t := fxMul (toFx (m * m : Nat) (2 * e)) (fxMul piFx piFx)
    (fxNum (fxMul (sincFx t) piFx)).mul (.fin false m e)
  else
    let g := fxOne / 2 - toFx m e
    fxNum (cosFx (fxMul (fxMul g g) (fxMul piFx piFx)))

/-- A magnitude m × 2^e modulo 2, as an integer over 2^k with k at least 1. -/
def mod2 (m : Nat) (e : Int) : Nat × Nat :=
  if 0 ≤ e then (m * 2 ^ e.toNat % 2 * 2, 1)
  else
    let k := (-e).toNat
    (m % 2 ^ (k + 1), k)

/-- sin (π n ÷ 2^k) for a k of at least 1 and 0 ≤ n < 2^(k+1), exact zeros +0. -/
def sinTurn (n k : Nat) : Num :=
  let half := 2 ^ k
  let (a, n) := if half ≤ n then (true, n - half) else (false, n)
  if n = 0 then .fin false 0 0
  else
    let n := if half < 2 * n then half - n else n
    match sinpiQuad n (-(k : Int)) with
    | .fin _ m e => .fin a m e
    | x => x

/-- sin (π a) and cos (π a) (FSINPI, FCOSPI). -/
def Num.sinpi : Num → Num
  | .nan => .nan
  | .inf _ => .nan
  | .fin a m e =>
    if m = 0 then .fin a 0 0
    else
      let (n, k) := mod2 m e
      let n := if a then (2 ^ (k + 1) - n) % 2 ^ (k + 1) else n
      sinTurn n k
@[inherit_doc Num.sinpi] def Num.cospi : Num → Num
  | .nan => .nan
  | .inf _ => .nan
  | .fin _ m e =>
    let (n, k) := mod2 m e
    sinTurn ((n + 2 ^ (k - 1)) % 2 ^ (k + 1)) k

end Sys2Proof.Machine
end

