-- ==== Sys2Proof/Machine/Operands.lean ====
section
/-! DEFINITION. The operand forms of the Awl vector engine: operation records, stream descriptors, micro-ops, and what
each micro-op computes (R87 to R101). -/

namespace Sys2Proof.Machine

/-! ### Stream descriptors (Tables AWL-2, AWL-3) -/

/-- A stream descriptor. -/
structure Stream where
  sp : Nat
  fmt : Nat
  zm : Bool
  base : Nat
  stride : Int
  sbase : Nat
  rnd : Nat
  top : Nat
  deriving DecidableEq, Repr

/-- A descriptor from its 64 bits. -/
def streamOf (v : Nat) : Stream :=
  ⟨bitsOf v 2 0, bitsOf v 6 3, bitOf v 7, bitsOf v 25 8, signed 16 (bitsOf v 41 26), bitsOf v 59 42, bitsOf v 61 60,
    bitsOf v 63 62⟩

/-- The stream is used. -/
def Stream.used (d : Stream) : Bool := d.sp != 7

/-- The tile and the first row of a stream of space 4. -/
def Stream.tile (d : Stream) : Nat := bitsOf d.base 4 0
@[inherit_doc Stream.tile] def Stream.row (d : Stream) : Nat := bitsOf d.base 14 5

/-- The width of an element in bytes of the formats without blocks. -/
def fmtWidth (f : Nat) : Nat := if f = 3 ∨ f = 6 then 2 else if f = 8 then 64 else if f = 9 then 8 else 4

/-- A reserved bit, space, format or round code is set. -/
def Stream.reserved (d : Stream) : Bool :=
  d.top != 0 || d.sp == 5 || d.sp == 6 || decide (10 ≤ d.fmt) || decide (2 ≤ d.rnd)
    || (d.sp == 4 && decide (2 ^ 15 ≤ d.base))

/-! ### Element operation records (Table AWL-1) -/

/-- An element operation record. -/
structure ElemRec where
  n : Nat
  prog : Nat
  ops : Nat
  red : Nat
  src : Nat
  g : Nat
  masked : Bool
  stream : Nat
  index : Nat
  ins : List Stream
  outs : List Stream
  mask : Stream
  deriving DecidableEq, Repr

/-- A record from its 64 bytes. -/
def elemRec (r : List Byte) : ElemRec :=
  let c := fld r 0 2 % 8192
  let ds := (List.range 6).map fun i => streamOf (fld r (16 + 8 * i) 8)
  { n := if c = 0 then 8192 else c, prog := fld r 2 2 % 16384, ops := fld r 4 1 % 32 + 1, red := fld r 5 1 % 16,
    src := fld r 5 1 / 16, g := fld r 6 1 % 16, masked := bitOf (fld r 6 1) 4, stream := fld r 8 2,
    index := fld r 10 6, ins := ds.take 3, outs := (ds.drop 3).take 2, mask := ds.getD 5 (streamOf 7) }

/-- The kind of a record: 0 ELEMENT, 1 COMBINE. -/
def awlKind (r : List Byte) : Nat := fld r 4 1 / 32

/-- A reserved bit or code of an element record is set.

DESIGN CHOICE (log 169): a reduction code from 10 to 15, which Table AWL-12 does not name, is AWL_RESERVED. -/
def elemReserved (r : List Byte) : Bool :=
  let e := elemRec r
  decide (8192 ≤ fld r 0 2) || decide (16384 ≤ fld r 2 2) || decide (32 ≤ fld r 6 1) || fld r 7 1 != 0
    || decide (9 < e.red) || (e.ins ++ e.outs ++ [e.mask]).any Stream.reserved

/-! ### Micro-ops (Tables AWL-4, AWL-5) -/

/-- A micro-op. -/
structure MicroOp where
  op : Nat
  d : Nat
  a : Nat
  b : Nat
  c : Nat
  immb : Bool
  resv : Nat
  imm : Word
  deriving DecidableEq, Repr

/-- A micro-op from its 64 bits. -/
def microOf (v : Nat) : MicroOp :=
  ⟨bitsOf v 7 0, bitsOf v 11 8, bitsOf v 15 12, bitsOf v 19 16, bitsOf v 23 20, bitOf v 24, bitsOf v 31 25,
    BitVec.ofNat 32 (bitsOf v 63 32)⟩

/-- The micro-program of a record. -/
def State.microProgram (s : State) (n : Nat) (e : ElemRec) : List MicroOp :=
  let raw := s.readIsram n (e.prog * 32) (e.ops * 8)
  (List.range e.ops).map fun i => microOf (fld raw (8 * i) 8)

/-- The opcode is defined. -/
def microDefined (op : Nat) : Bool :=
  decide (op ≤ 0x07) || (decide (0x10 ≤ op) && decide (op ≤ 0x1C)) || (decide (0x20 ≤ op) && decide (op ≤ 0x2A))
    || (decide (0x30 ≤ op) && decide (op ≤ 0x41)) || (decide (0x48 ≤ op) && decide (op ≤ 0x4B))

/-- The weight of a micro-op. -/
def microWeight (op : Nat) : Nat :=
  if op = 0x14 ∨ op = 0x15 then 2 else if 0x20 ≤ op ∧ op ≤ 0x2A then 4 else 1

/-- The sources a micro-op reads as temporaries: a, b, c. -/
def microReads (m : MicroOp) : List Nat :=
  let op := m.op
  let ua := op == 0x02 || op == 0x07 || decide (0x10 ≤ op)
  let ub := op == 0x03 || op == 0x06 || op == 0x07 || (decide (0x10 ≤ op) && decide (op ≤ 0x14)) || op == 0x16
    || op == 0x17 || (decide (0x1A ≤ op) && decide (op ≤ 0x1C)) || (decide (0x30 ≤ op) && decide (op ≤ 0x41))
  let uc := op == 0x07 || op == 0x13
  (if ua then [m.a] else []) ++ (if ub && !m.immb then [m.b] else []) ++ (if uc then [m.c] else [])

/-- A micro-op writes its destination temporary. -/
def microWrites (op : Nat) : Bool := op != 0x00 && op != 0x02

/-- Opcode or reserved field wrong (AWL_OPCODE). -/
def microBad (m : MicroOp) : Bool :=
  !microDefined m.op || m.resv != 0 || (m.op == 0x02 && decide (4 ≤ m.d)) || (m.op == 0x01 && decide (4 ≤ m.a))

/-- A temporary is read before any earlier micro-op writes it, or the reduction source is never written. -/
def tempBad (e : ElemRec) (ms : List MicroOp) : Bool :=
  let go := ms.foldl (fun (a : Bool × List Nat) m =>
    (a.1 || (microReads m).any (fun t => !decide (t ∈ a.2)), if microWrites m.op then m.d :: a.2 else a.2)) (false, [])
  go.1 || (e.red != 0 && !decide (e.src ∈ go.2))

/-! ### Events of Table AWL-13 -/

/-- The event bits an operation raised. -/
abbrev Ev := List Nat

/-! ### What a micro-op computes -/

/-- A truth value as a mask. -/
def truth (b : Bool) : Word := if b then 0xFFFFFFFF else 0

/-- An integer saturated into a range, with SAT when it left it. -/
def saturated (v lo hi : Int) : Word × Ev :=
  (BitVec.ofInt 32 (max lo (min hi v)), if v < lo ∨ hi < v then [3] else [])

/-- The bounds of i32. -/
abbrev iMin : Int := -2147483648
@[inherit_doc iMin] abbrev iMax : Int := 2147483647

/-- The smaller or larger of two values (R101). -/
def fpick (larger : Bool) (a b : Word) : Word :=
  match ofBits a, ofBits b with
  | .nan, _ => toBits .nan
  | _, .nan => toBits .nan
  | x, y => if larger then (if x.key < y.key then b else a) else (if y.key < x.key then b else a)

/-- A comparison: false with a NaN; +0 and −0 are equal. -/
def fcmp (f : Int → Int → Bool) (a b : Word) : Word :=
  match ofBits a, ofBits b with
  | .nan, _ => 0
  | _, .nan => 0
  | x, y =>
    let k (v : Num) : Int := if v.isZero then 0 else v.key
    truth (f (k x) (k y))

/-- binary32 to i32: nearest even or toward zero, saturating (Table AWL-6). -/
def toInt32 (trunc : Bool) (a : Word) : Word × Ev :=
  match ofBits a with
  | .nan => (0, [4])
  | .inf s => (BitVec.ofInt 32 (if s then iMin else iMax), [3])
  | .fin s m e =>
    let v : Int := if 0 ≤ e then m * 2 ^ e.toNat else if trunc then (m / 2 ^ (-e).toNat : Nat) else rneShift m (-e).toNat
    saturated (if s then -v else v) iMin iMax

/-- A division by zero of a finite nonzero number. -/
def div0 (a b : Word) : Ev := if (ofBits b).isZero && (ofBits a).isFin && !(ofBits a).isZero then [5] else []

/-- A one-operand function of binary32. -/
def fun1 (f : Num → Num) (a : Word) : Word := toBits (f (ofBits a))

/-- The result of an arithmetic micro-op on its operands, and its events. -/
def alu (op : Nat) (a b c : Word) : Word × Ev :=
  if op = 0x03 then (b, [])
  else if op = 0x07 then (if a = 0 then c else b, [])
  else if op = 0x10 then (fadd a b, [])
  else if op = 0x11 then (fsub a b, [])
  else if op = 0x12 then (fmul a b, [])
  else if op = 0x13 then (ffma a b c, [])
  else if op = 0x14 then (fdiv a b, div0 a b)
  else if op = 0x15 then (fsqrt a, [])
  else if op = 0x16 then (fpick false a b, [])
  else if op = 0x17 then (fpick true a b, [])
  else if op = 0x18 then (if (ofBits a).isNan then toBits .nan else a &&& 0x7FFFFFFF, [])
  else if op = 0x19 then (if (ofBits a).isNan then toBits .nan else a ^^^ 0x80000000, [])
  else if op = 0x1A then (fcmp (fun x y => decide (x < y)) a b, [])
  else if op = 0x1B then (fcmp (fun x y => decide (x ≤ y)) a b, [])
  else if op = 0x1C then (fcmp (fun x y => x == y) a b, [])
  else if op = 0x20 then (fun1 Num.rcp a, div0 0x3F800000 a)
  else if op = 0x21 then (fun1 Num.rsqrt a, if (ofBits a).isZero then [5] else [])
  else if op = 0x22 then (fun1 Num.exp a, [])
  else if op = 0x23 then (fun1 Num.exp2 a, [])
  else if op = 0x24 then (fun1 Num.log a, [])
  else if op = 0x25 then (fun1 Num.log2 a, [])
  else if op = 0x26 then (fun1 Num.tanh a, [])
  else if op = 0x27 then (fun1 Num.sigm a, [])
  else if op = 0x28 then (fun1 Num.erf a, [])
  else if op = 0x29 then (fun1 Num.sinpi a, [])
  else if op = 0x2A then (fun1 Num.cospi a, [])
  else if op = 0x30 then (a + b, [])
  else if op = 0x31 then (a - b, [])
  else if op = 0x32 then (a * b, [])
  else if op = 0x33 then saturated (a.toInt + b.toInt) iMin iMax
  else if op = 0x34 then saturated (a.toInt - b.toInt) iMin iMax
  else if op = 0x35 then saturated (a.toInt * b.toInt) iMin iMax
  else if op = 0x36 then saturated ((a.toNat : Int) + b.toNat) 0 4294967295
  else if op = 0x37 then saturated ((a.toNat : Int) - b.toNat) 0 4294967295
  else if op = 0x38 then (a &&& b, [])
  else if op = 0x39 then (a ||| b, [])
  else if op = 0x3A then (a ^^^ b, [])
  else if op = 0x3B then (if b.toNat < 32 then a <<< b.toNat else 0, [])
  else if op = 0x3C then (if b.toNat < 32 then a >>> b.toNat else 0, [])
  else if op = 0x3D then (a.sshiftRight (min b.toNat 31), [])
  else if op = 0x3E then (if b.toInt < a.toInt then b else a, [])
  else if op = 0x3F then (if a.toInt < b.toInt then b else a, [])
  else if op = 0x40 then (truth (decide (a.toInt < b.toInt)), [])
  else if op = 0x41 then (truth (a == b), [])
  else if op = 0x48 then toInt32 false a
  else if op = 0x49 then toInt32 true a
  else if op = 0x4A then (toBits (ofDyadic a.toInt 0), [])
  else if op = 0x4B then (toBits (ofDyadic a.toNat 0), [])
  else (0, [])

/-- What the micro-program of an element works on: its 16 temporaries, what it stored, the events. -/
structure Elem where
  temps : List Word := List.replicate 16 0
  out0 : Option Word := none
  out1 : Option Word := none
  evs : Ev := []
  deriving DecidableEq, Repr

/-- One micro-op of element i: `ins` gives the element of an input stream, `seed` the step seed (R60, R96). -/
def microStep (e : ElemRec) (seed : BitVec 64) (ins : Nat → Nat → Word) (i : Nat) (x : Elem) (m : MicroOp) : Elem :=
  let t (k : Nat) : Word := x.temps.getD k 0
  let b := if m.immb then m.imm else t m.b
  let put (w : Word) (ev : Ev) : Elem := { x with temps := x.temps.set m.d w, evs := ev ++ x.evs }
  if m.op = 0x00 then x
  else if m.op = 0x01 then put (ins m.a i) []
  else if m.op = 0x02 then (if m.d = 0 then { x with out0 := some (t m.a) } else { x with out1 := some (t m.a) })
  else if m.op = 0x04 then put (BitVec.ofNat 32 (i % 2 ^ e.g)) []
  else if m.op = 0x05 then put (BitVec.ofNat 32 i) []
  else if m.op = 0x06 then
    put ((mix (seed ^^^ (BitVec.ofNat 64 (b.toNat % 65536) <<< 48) ^^^ BitVec.ofNat 64 (e.index + i)) >>> 32).setWidth 32) []
  else
    let r := alu m.op (t m.a) b (t m.c)
    put r.1 r.2

/-- The micro-program of element i. -/
def runElem (e : ElemRec) (ms : List MicroOp) (seed : BitVec 64) (ins : Nat → Nat → Word) (i : Nat) : Elem :=
  ms.foldl (microStep e seed ins i) {}

end Sys2Proof.Machine
end

