-- ==== Sys2Proof/Machine/Awl.lean ====
section
/-! DEFINITION. The Awl vector engine (chapter 4): the checks at issue, element operations, reductions, the soft
maximum, combines. -/

namespace Sys2Proof.Machine

/-! ### Checks of element records (R110) -/

/-- Awl fault causes (Table AWL-12), offset so that they are told from program fault causes. -/
abbrev awlCause (c : Nat) : Nat := 0x100 + c

/-- Stream use broken (AWL_STREAM).

DEDUCED (log 172): SOFTMAX with O0 and O1 both unused is left to R105 (AWL_FORMAT), which names it; R97 speaks of a
micro-program that writes no output. -/
def streamBad (e : ElemRec) (ms : List MicroOp) : Bool :=
  let used (l : List Stream) (k : Nat) : Bool := (l[k]?).any Stream.used
  let stores := (ms.filter fun m => m.op == 0x02).map (·.d)
  (ms.any fun m => m.op == 0x01 && !used e.ins m.a)
    || stores.any (fun d => !used e.outs d) || decide (stores.dedup.length < stores.length)
    || (e.red != 0 && decide (1 ∈ stores)) || (e.red == 9 && decide (0 ∈ stores))
    || (stores.isEmpty && (e.red == 0 || (e.red != 9 && !used e.outs 1)))

/-- The base of a stream is aligned for its format (R90, R106). -/
def Stream.aligned (d : Stream) : Bool :=
  let al := if d.fmt ≤ 2 then 4 else if d.fmt = 3 ∨ d.fmt = 6 then 2 else if d.fmt = 4 then 32
    else if d.fmt = 5 then 8 else if d.fmt = 8 then 64 else if d.fmt = 9 then 8 else 1
  d.base % al == 0

/-- The formats O1 may take for a reduction (Table AWL-8). -/
def redFormats (red : Nat) : List Nat :=
  if red = 1 ∨ red = 5 then [0, 3, 8] else if red = 6 then [2] else if red = 7 ∨ red = 8 then [2, 9] else [0, 3]

/-- A stream breaks R90: input `false`, output `true`.

DESIGN CHOICE (log 173): an XS or XI output with another stride or a misaligned base (R106) is AWL_FORMAT. -/
def Stream.badForm (out : Bool) (d : Stream) : Bool :=
  ((d.sp == 4) != (d.fmt == 7)) || (d.sp == 4 && d.stride != 1) || (out && d.fmt == 7)
    || (!out && (d.fmt == 8 || d.fmt == 9))
    || ((d.fmt == 4 || d.fmt == 5 || d.fmt == 8 || d.fmt == 9) && d.stride != 1) || (d.sp != 4 && !d.aligned)

/-- Formats broken (AWL_FORMAT): R90, R91, Table AWL-8, R105. A reduction other than SOFTMAX that stores to O0 and leaves O1
unused breaks Table AWL-8's pairing: DESIGN CHOICE (log 150), since the manual names no cause for it. -/
def formatBad (e : ElemRec) : Bool :=
  let o0 := e.outs.getD 0 (streamOf 7)
  let o1 := e.outs.getD 1 (streamOf 7)
  (e.ins.any fun d => d.used && d.badForm false) || (e.outs.any fun d => d.used && d.badForm true)
    || (if e.masked then decide (3 < e.mask.sp) || e.mask.fmt != 0 || e.mask.stride != 0 || e.mask.sbase != 0 || e.mask.rnd != 0
        else e.mask.used)
    || (o0.used && (o0.fmt == 8 || o0.fmt == 9))
    || (e.red == 0 && o1.used && (o1.fmt == 8 || o1.fmt == 9))
    || (e.red != 0 && (!o1.used || !decide (o1.fmt ∈ redFormats e.red)))
    || (e.red == 9 && o0.used && !decide (o0.fmt ∈ [0, 3, 4, 5, 6]))

/-- The byte ranges of a stream of `n` elements within its buffer, payload then scales: first byte and length; `none`
where it leaves the buffer (R92). An output block is written whole. -/
def Stream.ranges (d : Stream) (out : Bool) (n : Nat) : Option (List (Nat × Nat)) :=
  let inBuf (lo : Int) (len : Nat) : Bool := decide (0 ≤ lo) && decide (lo + len ≤ 262144)
  if d.fmt = 4 ∨ d.fmt = 5 then
    let blk := if d.fmt = 4 then 32 else 16
    let nb := ceilDiv n blk
    let ne := if out then nb * blk else n
    let len := if d.fmt = 4 then ne else (ne + 1) / 2
    if inBuf d.base len && inBuf d.sbase nb then some [(d.base, len), (d.sbase, nb)] else none
  else
    let w := fmtWidth d.fmt
    let last : Int := d.base + (n - 1 : Nat) * d.stride * w
    let lo := min (d.base : Int) last
    let len := (max (d.base : Int) last - lo).toNat + w
    if inBuf lo len then some [(lo.toNat, len)] else none

/-- The mask bytes. -/
def Stream.maskRange (d : Stream) (n : Nat) : Option (List (Nat × Nat)) :=
  let len := ceilDiv n 8
  if d.base + len ≤ 262144 then some [(d.base, len)] else none

/-- The address of a byte of an Awl buffer in the tile address space. -/
def bufAddr (sp off : Nat) : Nat := 0x30010000000 + sp * 0x40000 + off

/-- The number of elements of O1: segments for a reduction. -/
def ElemRec.segs (e : ElemRec) : Nat := if e.red = 0 then e.n else e.n / 2 ^ e.g

/-- The ranges of all streams: I0 to I2, O0, O1, MASK; those of space 4 are left to `accRanges`. -/
def ElemRec.allRanges (e : ElemRec) : List (Option (List (Nat × Nat))) :=
  let one (out : Bool) (n : Nat) (d : Stream) : Option (List (Nat × Nat)) :=
    if !d.used ∨ d.sp = 4 then some [] else d.ranges out n
  e.ins.map (one false e.n) ++ (e.outs.mapIdx fun i d => one true (if i = 1 then e.segs else e.n) d)
    ++ [if e.masked then e.mask.maskRange e.n else some []]

/-- Two streams' ranges overlap. -/
def rangesMeet (a b : Stream) (ra rb : List (Nat × Nat)) : Bool :=
  a.used && b.used && a.sp == b.sp && ra.any fun x => rb.any fun y => meets x.1 x.2 y.1 y.2

/-- An output overlaps what it must not (R93).

DESIGN CHOICE (log 174): R93 speaks of overlaps between streams; the payload of an H4 or B8 output over its own scale
plane is none. -/
def aliasBad (e : ElemRec) (rs : List (List (Nat × Nat))) : Bool :=
  let same (a b : Stream) : Bool :=
    a.sp == b.sp && a.base == b.base && a.stride == b.stride && a.fmt == b.fmt && a.sbase == b.sbase
  let r (i : Nat) : List (Nat × Nat) := rs.getD i []
  let d (i : Nat) : Stream := (e.ins ++ e.outs ++ [e.mask]).getD i (streamOf 7)
  let meet (i j : Nat) : Bool := rangesMeet (d i) (d j) (r i) (r j)
  ([3, 4].any fun o => [0, 1, 2].any fun i => meet o i && !same (d o) (d i))
    || meet 3 4 || meet 3 5 || meet 4 5

/-- The checks of an element record, in order (R110): a fault, or the charge and the ranges claimed. A slot of a
version entry named as an output is a program fault of its own (R162). -/
def State.elemCheck (s : State) (n : Nat) (r : List Byte) : Except Nat (Nat × List (Nat × Nat)) :=
  let e := elemRec r
  let d := s.die n
  if elemReserved r then .error (awlCause 0x0A)
  else if 524288 < 32 * e.prog + 8 * e.ops then .error (awlCause 0x01)
  else
    let ms := s.microProgram n e
    let accBad := e.ins.any fun x => x.sp == 4 && (d.tile x.tile).status != TileStatus.inProgress
    let accOut := e.ins.any fun x => x.sp == 4 && decide ((d.tile x.tile).rows * 256 < x.row * 256 + e.n)
    if ms.any microBad then .error (awlCause 0x03)
    else if tempBad e ms then .error (awlCause 0x04)
    else if streamBad e ms then .error (awlCause 0x05)
    else if formatBad e then .error (awlCause 0x06)
    else if 13 < e.g ∨ (e.red ≠ 0 ∧ e.n % 2 ^ e.g ≠ 0) then .error (awlCause 0x07)
    else if e.outs.any fun x => x.used && x.rnd == 1 && decide (x.fmt ∈ [0, 1, 2, 6, 8, 9]) then .error (awlCause 0x08)
    else if accBad then .error (awlCause 0x0B)
    else if accOut ∨ e.allRanges.any Option.isNone then .error (awlCause 0x01)
    else
      let rs := e.allRanges.map (·.getD [])
      if aliasBad e rs then .error (awlCause 0x02)
      else
        let ds := e.ins ++ e.outs ++ [e.mask]
        let named := (ds.zip rs).mapIdx fun i x => (decide (3 ≤ i) && decide (i < 5), x.1.sp, x.2)
        let bad := named.any fun x => x.2.2.any fun y =>
          (s.redirect n x.1 (bufAddr x.2.1 y.1) y.2).toOption.isNone
        if bad then .error 0x02
        else
          let w := (ms.map fun m => microWeight m.op).foldl (· + ·) 0
          let g := ceilDiv e.n 1024
          let cost := if e.red = 0 then g * w + 16 else if e.red = 9 then g * (w + 12) + 40 else g * (w + 1) + 28
          let acc := (e.ins.filter fun x => x.sp == 4).map fun x => (0x30020000000 + x.tile * 0x400000, 0x400000)
          .ok (cost, acc ++ named.flatMap fun x => x.2.2.map fun y => (bufAddr x.2.1 y.1, y.2))

/-! ### Streams at work -/

/-- A stream's bytes: where a range of it lies, after redirection. -/
def State.streamAt (s : State) (n : Nat) (sp off len : Nat) : Place :=
  match s.redirect n false (bufAddr sp off) len with
  | .ok a => (placeOf n a).getD ⟨.awl, 0⟩
  | .error _ => ⟨.awl, 0⟩

/-- The payload and the scales of an input stream of `count` elements: the place of the first byte of the range, and its
offset in the buffer. -/
def State.openStream (s : State) (n : Nat) (d : Stream) (count : Nat) : List (Place × Nat) :=
  if !d.used ∨ d.sp = 4 then []
  else ((d.ranges false count).getD []).map fun r => (s.streamAt n d.sp r.1 r.2, r.1)

/-- Bytes of an opened stream, by their offset in the buffer. -/
def State.streamBytes (s : State) (n : Nat) (o : List (Place × Nat)) (k off len : Nat) : List Byte :=
  let r := o.getD k (⟨.awl, 0⟩, 0)
  s.readAt n { r.1 with off := r.1.off + (off - r.2) } len

/-- Element i of an input stream as it comes into a temporary (Table AWL-3). -/
def State.readStream (s : State) (n : Nat) (d : Stream) (o : List (Place × Nat)) (i : Nat) : Word :=
  if d.sp = 4 then
    let t := (s.die n).tile d.tile
    toBits (s.drainValue n t (d.row * 256 + i))
  else if d.fmt = 4 then
    toBits (b8Value (leNat (s.streamBytes n o 0 (d.base + i) 1)) (leNat (s.streamBytes n o 1 (d.sbase + i / 32) 1)))
  else if d.fmt = 5 then
    let c := leNat (s.streamBytes n o 0 (d.base + i / 2) 1)
    toBits (h4Value (if i % 2 = 0 then c % 16 else c / 16) (leNat (s.streamBytes n o 1 (d.sbase + i / 16) 1)))
  else
    let w := fmtWidth d.fmt
    let v := leNat (s.streamBytes n o 0 ((d.base : Int) + i * d.stride * w).toNat w)
    if d.fmt = 3 then toBits (g16.read v) else if d.fmt = 6 then toBits (bf16.read v) else BitVec.ofNat 32 v

/-- An element of an output before it is written: left alone, zero, bits, or an exact value. -/
inductive OutVal where
  | keep | zero | word (w : Word) | value (x : Num) | bytes (b : List Byte)
  deriving DecidableEq, Repr

/-- The value of an output element. -/
def OutVal.num : OutVal → Num
  | .word w => ofBits w
  | .value x => x
  | _ => .fin false 0 0

/-- The events of an output element in a floating format. -/
def outEvents (fmt code : Nat) (x : Num) : Ev :=
  let f := if fmt = 3 then g16 else if fmt = 6 then bf16 else f32
  let c := code % 2 ^ f.sign
  (if f.infCode < c then [1] else []) ++ (if c = f.infCode then [2] else [])
    ++ (if fmt = 3 ∧ c = f.infCode ∧ x.isFin then [6] else [])

/-- The random value of element i of an output, if it rounds stochastically (R60). -/
def State.outRandom (s : State) (n : Nat) (e : ElemRec) (d : Stream) (i : Nat) : Option Nat :=
  if d.rnd = 1 then
    some (drawBits (s.reg Reg.hifSeed) ((s.die n).run.elim 0 (·.step)) e.stream (e.index + i))
  else none

/-- An output stream takes its elements (R90, R91, Table AWL-3). Gives the events.

DESIGN CHOICE (log 174): an output's payload is written before its scales, where the two overlap. DESIGN CHOICE
(log 175): of the elements of an output of stride 0, which all have one place, the last stays. -/
def State.writeStream (n : Nat) (e : ElemRec) (d : Stream) (vals : List OutVal) (s : State) : State × Ev :=
  let base (off : Nat) : Place := (placeOf n (bufAddr d.sp off)).getD ⟨.awl, 0⟩
  if d.fmt = 4 ∨ d.fmt = 5 then
    let xs := vals.map OutVal.num
    let r := encodeRow (d.fmt == 4) xs (s.outRandom n e d)
    let nan := r.2.1.any (· == 0xFF)
    let blk := if d.fmt = 4 then 32 else 16
    let finNan := ((chunks blk xs.length xs).zip r.2.1).any fun b => b.2 == 0xFF && b.1.all Num.isFin
    let s := s.writeAt n (base d.base) r.1
    let s := s.writeAt n (base d.sbase) r.2.1
    (s, (if nan then [1] else []) ++ (if finNan then [6] else []))
  else
    let w := fmtWidth d.fmt
    let off (i : Nat) : Nat := ((d.base : Int) + i * d.stride * w).toNat
    let one (i : Nat) (v : OutVal) : Option (Nat × List Byte × Ev) :=
      match v with
      | .keep => none
      | .zero => some (i, zeros w, [])
      | .bytes b => some (i, b, [])
      | v =>
        if d.fmt = 1 ∨ d.fmt = 2 then
          match v with
          | .word x => some (i, leBytes 4 x.toNat, [])
          | _ => some (i, zeros 4, [])
        else
          let f := if d.fmt = 3 then g16 else if d.fmt = 6 then bf16 else f32
          let c := match v, d.fmt with
            | .word x, 0 => x.toNat
            | v, _ => f.write (s.outRandom n e d i) v.num
          some (i, leBytes w c, outEvents d.fmt c v.num)
    let l := (vals.mapIdx one).filterMap id
    (l.foldl (fun s x => s.writeAt n (base (off x.1)) x.2.1) s, l.flatMap (·.2.2))

/-! ### Reductions (R102 to R106) -/

/-- The tag of a value, for an exact sum. -/
def numTag : Num → Tag
  | .nan => .nan
  | .inf a => if a then .negInf else .posInf
  | .fin _ _ _ => .fin

/-- An exact sum: tag, units of 2^−149, every value −0. -/
structure ExactSum where
  tag : Tag
  units : Int
  allNegZero : Bool
  deriving DecidableEq, Repr

/-- The exact sum of values. -/
def exactSum (l : List Word) : ExactSum :=
  l.foldl (fun a w =>
    let x := ofBits w
    ⟨a.tag.add (numTag x), a.units + x.units, a.allNegZero && w == 0x80000000⟩) ⟨.fin, 0, l != []⟩

/-- An exact sum as a value; divided by a count for a mean. -/
def ExactSum.num (x : ExactSum) (count : Nat) : Num :=
  match x.tag with
  | .nan => .nan
  | .posInf => .inf false
  | .negInf => .inf true
  | .fin =>
    if x.units = 0 then .fin x.allNegZero 0 0
    else if count = 1 then ofDyadic x.units (-149)
    else (ofDyadic x.units (-149)).div (.fin false count 0)

/-- An XS record (Table AWL-9). -/
def xsBytes (units : Int) (count : Nat) (tag : Tag) : List Byte :=
  leBytes 48 (twos 384 units) ++ leBytes 4 count ++ leBytes 1 tag.code ++ zeros 11

/-- An XI record. -/
def xiBytes (v : Word) (index : Nat) : List Byte := leBytes 4 v.toNat ++ leBytes 4 index

/-- The first index of a list whose value no other passes, or of the first NaN. -/
def argPick (larger : Bool) (l : List (Nat × Word)) : Option (Nat × Word) :=
  match l.find? fun x => (ofBits x.2).isNan with
  | some x => some x
  | none =>
    l.foldl (fun a x => match a with
      | none => some x
      | some y =>
        let kx := (ofBits x.2).key
        let ky := (ofBits y.2).key
        if (if larger then decide (ky < kx) else decide (kx < ky)) then some x else some y) none

/-- A word with a NaN in its one form (R47). -/
def canon (w : Word) : Word := if (ofBits w).isNan then toBits .nan else w

/-- The result of a reduction over the active elements of a segment, with their indices, and its events; XS and XI
records as bytes. -/
def reduceSeg (e : ElemRec) (fmt : Nat) (l : List (Nat × Word)) : OutVal × Ev :=
  let ws := l.map (·.2)
  let empty : Ev := if l = [] then [0] else []
  if e.red = 1 ∨ e.red = 5 then
    let x := exactSum ws
    if fmt = 8 then
      (.bytes (xsBytes x.units l.length x.tag),
        empty ++ (if x.tag = .nan then [1] else if x.tag = .fin then [] else [2]))
    else (.value (if l = [] then .fin false 0 0 else x.num (if e.red = 5 then l.length else 1)), empty)
  else if e.red = 2 then (.word (ws.foldl fmul 0x3F800000), empty)
  else if e.red = 3 then (.word (ws.foldl (fpick true) 0xFF800000), empty)
  else if e.red = 4 then (.word (ws.foldl (fpick false) 0x7F800000), empty)
  else if e.red = 6 then (.word (BitVec.ofNat 32 l.length), empty)
  else
    let larger := e.red == 7
    let r := argPick larger l
    if fmt = 9 then
      match r with
      | none => (.bytes (xiBytes (if larger then 0xFF800000 else 0x7F800000) 0xFFFFFFFF), empty ++ [2])
      | some (i, w) =>
        (.bytes (xiBytes (canon w) ((e.index + i) % 2 ^ 32)),
          if (ofBits w).isNan then [1] else if (ofBits w).isInf then [2] else [])
    else (.word (match r with
      | none => 0xFFFFFFFF
      | some (i, _) => BitVec.ofNat 32 i), empty)

/-- The soft maximum of a segment (R105): what each position gets, the log-sum-exp, the events. -/
def softmaxSeg (size : Nat) (l : List (Nat × Word)) : List OutVal × Word × Ev :=
  let all (f : Nat → OutVal) : List OutVal := (List.range size).map f
  let nan : Word := toBits .nan
  if l.any fun x => (ofBits x.2).isNan then (all fun _ => .word nan, nan, [])
  else if l.all fun x => x.2 == 0xFF800000 then (all fun _ => .zero, 0xFF800000, [0])
  else
    let infs := l.filter fun x => x.2 == 0x7F800000
    if infs ≠ [] then
      let w := fdiv 0x3F800000 (toBits (ofDyadic infs.length 0))
      (all fun i => if infs.any (·.1 == i) then .word w else .zero, 0x7F800000, [7])
    else
      let m := l.foldl (fun a x => fpick true a x.2) 0xFF800000
      let es := l.map fun x => (x.1, fun1 Num.exp (fsub x.2 m))
      let sum := toBits ((exactSum (es.map (·.2))).num 1)
      (all fun i => match look es i with
        | some v => .word (fdiv v sum)
        | none => .zero, fadd m (fun1 Num.log sum), [])

/-! ### An element operation runs (R96, R102) -/

/-- Events are raised; empty segments counted. -/
def State.awlEvents (n : Nat) (evs : Ev) (empties : Nat) (s : State) : State :=
  let s := (List.range 8).foldl (fun s b => if b ∈ evs then s.raise (.awl n) b else s) s
  if empties = 0 then s else s.count (Reg.awlEmptySegs n) empties

/-- The whole of an element operation. -/
def State.elemRun (n : Nat) (r : List Byte) (s : State) : State :=
  let e := elemRec r
  let ms := s.microProgram n e
  let seed := stepSeed (s.reg Reg.hifSeed) ((s.die n).run.elim 0 (·.step))
  let opened := e.ins.map fun d => (d, s.openStream n d e.n)
  let ins (k i : Nat) : Word :=
    let d := opened.getD k (streamOf 7, [])
    s.readStream n d.1 d.2 i
  let mask := if e.masked then s.readAt n (s.streamAt n e.mask.sp e.mask.base (ceilDiv e.n 8)) (ceilDiv e.n 8) else []
  let active (i : Nat) : Bool := !e.masked || bitOf (mask.getD (i / 8) 0).toNat (i % 8)
  let runs := (List.range e.n).map fun i => (i, active i, runElem e ms seed ins i)
  let evs := runs.flatMap fun x => x.2.2.evs
  let o0 := e.outs.getD 0 (streamOf 7)
  let o1 := e.outs.getD 1 (streamOf 7)
  let outOf (d : Stream) (pick : Elem → Option Word) : List OutVal := runs.map fun x =>
    match pick x.2.2 with
    | none => .keep
    | some w => if x.2.1 then .word w else if d.zm ∨ d.fmt = 4 ∨ d.fmt = 5 then .zero else .keep
  let stored (k : Nat) : Bool := ms.any fun m => m.op == 0x02 && m.d == k
  let size := 2 ^ e.g
  let segs := (List.range e.segs).map fun g =>
    (((runs.drop (g * size)).take size).filter (·.2.1)).map fun x => (x.1 - g * size, x.2.2.temps.getD e.src 0)
  let (s, ev0) :=
    if e.red = 9 then
      if o0.used then s.writeStream n e o0 (segs.flatMap fun l => (softmaxSeg size l).1) else (s, [])
    else if stored 0 then s.writeStream n e o0 (outOf o0 (·.out0)) else (s, [])
  let (s, ev1) :=
    if e.red = 9 then s.writeStream n e o1 (segs.map fun l => .word (softmaxSeg size l).2.1)
    else if e.red ≠ 0 then s.writeStream n e o1 (segs.map fun l => (reduceSeg e o1.fmt l).1)
    else if stored 1 then s.writeStream n e o1 (outOf o1 (·.out1)) else (s, [])
  let evr := if e.red = 9 then segs.flatMap fun l => (softmaxSeg size l).2.2
    else if e.red ≠ 0 then segs.flatMap fun l => (reduceSeg e o1.fmt l).2 else []
  s.awlEvents n (evs ++ ev0 ++ ev1 ++ evr) (evr.filter (· == 0)).length

/-! ### Combine records (R107, R108, R83) -/

/-- A combine record (Table AWL-10). -/
structure CombRec where
  n : Nat
  kind : Nat
  outMode : Nat
  c : Nat
  list : Nat
  result : Nat
  deriving DecidableEq, Repr

/-- A record from its bytes. -/
def combRec (r : List Byte) : CombRec :=
  ⟨fld r 0 1 % 64, fld r 5 1 % 16, fld r 5 1 / 16, fld r 6 2, fld r 8 6, fld r 16 6⟩

/-- A reserved bit or code is set.

DESIGN CHOICE (log 169): a sub-kind from 4 to 15 and an XS output mode above 2, which Table AWL-12 does not name, are
AWL_RESERVED. -/
def combReserved (r : List Byte) : Bool :=
  let x := combRec r
  decide (64 ≤ fld r 0 2) || fld r 2 2 != 0 || fld r 4 1 != 32 || decide (3 < x.kind)
    || (if x.kind = 1 then decide (2 < x.outMode) else x.outMode != 0) || fld r 14 2 != 0 || !zeroIn r 22 64

/-- A range of a combine: AWL_BOUND where it leaves its windows; slots of version entries are PRG_WINDOW (R162). -/
def State.combRange (s : State) (n : Nat) (dest : Bool) (u : Use) (al a len : Nat) : Except Nat Place :=
  if a % al ≠ 0 then .error (awlCause 0x01)
  else match rangeOf n a len with
    | none => .error (awlCause 0x01)
    | some p =>
      if !u.allows n p.space then .error (awlCause 0x01)
      else match s.redirect n dest a len with
        | .error c => .error c
        | .ok b => match rangeOf n b len with
          | none => .error (awlCause 0x01)
          | some p => .ok p

/-- The bytes of an entry of the partial list, and its place. -/
def State.combEntries (s : State) (n : Nat) (x : CombRec) : Except Nat (List Nat) :=
  match s.combRange n false .operand 8 x.list (8 * x.n) with
  | .error c => .error c
  | .ok p =>
    let bs := s.readAt n p (8 * x.n)
    .ok ((List.range x.n).map fun i => fld bs (8 * i) 8)

/-- A place lies in the accumulators, in a tile that is not in progress. -/
def State.tileIdle (s : State) (n : Nat) (p : Place) : Bool :=
  match p.space with
  | .acc t => decide (((s.die n).tile t).status ≠ TileStatus.inProgress)
  | _ => false

/-- A range at a place lies beyond the image of the tile in progress whose slot it is in (R437). -/
def State.beyondImage (s : State) (n : Nat) (p : Place) (len : Nat) : Bool :=
  match p.space with
  | .acc t => s.accFault n t p.off len == some 0x02
  | _ => false

/-- The 16 bytes of an image header are not those of an image that ACC takes (R71, R83). -/
def headBad (h : List Byte) : Bool := !headOk h || bitOf (fld h 1 1) 3

/-- The place of an ACC partial and its image's length, as far as its range goes: its header's, then, where a tile in
progress or a memory gives a good one, that of the image it tells of. -/
def State.accPartial (s : State) (n a : Nat) : Except Nat (Place × Nat) :=
  match s.combRange n false .partialAcc 16 a 16 with
  | .error c => .error c
  | .ok p =>
    if s.beyondImage n p 16 then .error (awlCause 0x01)
    else
      let h := s.readAt n p 16
      let len := if s.tileIdle n p || headBad h then 16 else imageLen (fld h 1 1) (fld h 2 2)
      match s.combRange n false .partialAcc 16 a len with
      | .error c => .error c
      | .ok p => if s.beyondImage n p len then .error (awlCause 0x01) else .ok (p, len)

/-- The tag byte or a reserved byte of an XS record of a partial is not one (R108). -/
def State.xsBad (s : State) (n c : Nat) (p : Place) : Bool :=
  (List.range c).any fun j =>
    let t := s.readAt n { p with off := p.off + 64 * j + 52 } 12
    decide (4 ≤ fld t 0 1) || !zeroIn t 1 12

/-- The first fault of a list of ranges: a slot of a version entry, then a bound. -/
def combFirst {α : Type} (l : List (Except Nat α)) : Except Nat (List α) :=
  let errs := l.filterMap fun x => match x with
    | .error c => some c
    | .ok _ => none
  match ([0x02, awlCause 0x01].find? fun c => decide (c ∈ errs)) with
  | some c => .error c
  | none => .ok (l.filterMap Except.toOption)

/-- The length of the result of a combine. -/
def CombRec.resultLen (x : CombRec) (rows two : Nat) : Nat :=
  if x.kind = 0 then 16 + rows * 256 * two * 8 + rows * 64
  else if x.kind = 1 then (if x.outMode = 0 then 64 * x.c else 4 * x.c)
  else 8 * x.c

/-- The alignment of a combine's records.

DESIGN CHOICE (log 167): R108 aligns the 64-byte records of an XS result; F32 results are 4 bytes each and are aligned
to 4, a breach being AWL_BOUND like that of the records. -/
def CombRec.align (x : CombRec) (result : Bool) : Nat :=
  if x.kind = 0 then 16 else if x.kind = 1 then (if result && x.outMode != 0 then 4 else 64) else 8

/-- The checks of a combine record, in the order of R110 (reserved bits; n and c; the ranges of the list, the partials and the
result; tile states; headers and XS records): a fault, or the charge, the ranges claimed, the places of the partials
with their lengths and of the result.

DEDUCED (log 121): the reserved bits of the entries of the list are judged once the list's range is good, since the list
is read there. DESIGN CHOICE (log 177): the list, the partials and the result are claimed as streams are (R94). -/
def State.combCheck (s : State) (n : Nat) (r : List Byte) :
    Except Nat (Nat × List (Nat × Nat) × List (Place × Nat) × Place) :=
  let x := combRec r
  if combReserved r then .error (awlCause 0x0A)
  else if x.n = 0 ∨ 48 < x.n ∨ (if x.kind = 0 then x.c ≠ 0 else x.c = 0 ∨ 8192 < x.c) then .error (awlCause 0x09)
  else match s.combEntries n x with
    | .error c => .error c
    | .ok es =>
      if es.any fun a => decide (2 ^ 48 ≤ a) then .error (awlCause 0x0A)
      else
        let len := if x.kind = 1 then 64 * x.c else 8 * x.c
        let part (a : Nat) : Except Nat (Place × Nat) :=
          if x.kind = 0 then s.accPartial n a
          else match s.combRange n false .operand (x.align false) a len with
            | .error c => .error c
            | .ok p => .ok (p, len)
        match combFirst (es.map part) with
        | .error c => .error c
        | .ok ps =>
          let idle := ps.any fun p => s.tileIdle n p.1
          let heads := if x.kind = 0 ∧ !idle then ps.map fun p => s.readAt n p.1 16 else []
          let rows := fld (heads.headD []) 2 2
          let two := laneCount (fld (heads.headD []) 1 1)
          let bad := heads.any fun h => headBad h || fld h 2 2 != rows || laneCount (fld h 1 1) != two
          let rlen := if x.kind = 0 ∧ (idle ∨ headBad (heads.headD [])) then 16 else x.resultLen rows two
          match s.combRange n true .operand (x.align true) x.result rlen with
          | .error c => .error c
          | .ok q =>
            if x.kind = 0 ∧ idle then .error (awlCause 0x0B)
            else if bad ∨ (x.kind = 1 ∧ ps.any fun p => s.xsBad n x.c p.1) then .error (awlCause 0x09)
            else
              let cost := if x.kind = 0 then x.n * rows * two / 4 + 16
                else if x.kind = 1 then x.n * x.c + 16 else ceilDiv (x.n * x.c) 64 + 16
              .ok (cost, (normAddr n x.list, 8 * x.n) :: (normAddr n x.result, rlen)
                :: (es.zip ps).map (fun e => (normAddr n e.1, e.2.2)), ps, q)

/-- ACC (R83): the D64 image of the partials, the events DEEP_OVF of the array, and the tags seen. -/
def combineImages (ims : List Image) : List Byte × Bool × Ev :=
  let e := ims.foldl (fun a i => max a i.e) (-128)
  let rows := (ims.headD ⟨0, 0, 64, 0, 0, [], []⟩).rows
  let two := laneCount ((ims.headD ⟨0, 0, 64, 0, 0, [], []⟩).fmt)
  let shifted := ims.map fun i => i.lanes.map fun l => (l.1, rneShift l.2 (e - i.e).toNat)
  let lost := ims.any fun i => i.lanes.any fun l => decide (l.2 % (2 ^ (e - i.e).toNat : Int) ≠ 0)
  let lanes := shifted.foldl (fun a l => addLanes (a.length + l.length + 1) a l) []
  let tags := ims.foldl (fun a i => addTags (a.length + i.tags.length + 1) a i.tags) []
  let past := (lanes.filter fun l => !fits64 l.2).map fun l => (l.1 / 2, if l.2 < 0 then Tag.negInf else Tag.posInf)
  let past := (past.map (·.1)).dedup.map fun x =>
    -- the last lane that leaves i64 decides the sign
    (x, (past.filter (·.1 == x)).foldl (fun _ p => p.2) Tag.fin)
  let tags := addTags (tags.length + past.length + 1) tags past
  let tag (x : Nat) : Tag := sparseGet (fun _ => Tag.fin) tags x
  let lane (x l : Nat) : Int := if tag x = .fin then sparseGet (fun _ => (0 : Int)) lanes (2 * x + l) else 0
  let inf := tags.any fun t => t.2 == .posInf || t.2 == .negInf
  let nan := tags.any fun t => t.2 == .nan
  let st := (ims.foldl (fun a i => a ||| (i.status % 16)) 0) ||| (if lost then 1 else 0)
    ||| (if past = [] then 0 else 2)
  let fmt := 4 + (if two = 2 then 2 else 0)
  let k := min ((ims.map (·.kcount)).foldl (· + ·) 0) (2 ^ 48 - 1)
  let head := imageHead e fmt rows st k
  ((List.range (imageLen fmt rows)).map fun i => imageByte head fmt rows lane tag i, past != [],
    (if nan then [1] else []) ++ (if inf then [2] else []))

/-- Record j of an XS combine: the sums of the partials' record j.

DESIGN CHOICE (log 168): a sum of the units past i384 or of the counts past u32 wraps in its field. -/
def combineXs (mode : Nat) (rs : List (List Byte)) : List Byte × Ev :=
  let units := rs.foldl (fun a r => a + signed 384 (fld r 0 48)) (0 : Int)
  let count := (rs.map fun r => fld r 48 4).foldl (· + ·) 0
  let tag := rs.foldl (fun a r => Tag.add a (tagOf (fld r 52 1))) Tag.fin
  let ev : Ev := (if count = 0 then [0] else [])
  let tagEv : Ev := if tag = .nan then [1] else if tag = .fin then [] else [2]
  if mode = 0 then (xsBytes (if count = 0 then 0 else units) count tag, ev ++ tagEv)
  else if count = 0 then (zeros 4, ev)
  else
    let c := f32.write none ((ExactSum.mk tag units false).num (if mode = 2 then count else 1))
    (leBytes 4 c, ev ++ outEvents 0 c .nan)

/-- Record j of an XI combine. -/
def combineXi (larger : Bool) (rs : List (List Byte)) : List Byte × Ev :=
  let l := (rs.filter fun r => fld r 4 4 != 0xFFFFFFFF).map fun r => (fld r 4 4, BitVec.ofNat 32 (fld r 0 4))
  match argPick larger l with
  | none => (xiBytes (if larger then 0xFF800000 else 0x7F800000) 0xFFFFFFFF, [0, 2])
  | some (i, w) => (xiBytes (canon w) i, if (ofBits w).isNan then [1] else if (ofBits w).isInf then [2] else [])

/-- The whole of a combine, over the partials and the result place that the checks at issue found. A list or a partial that
changed since then gives another value, never a fault (R110). -/
def State.combRun (n : Nat) (x : CombRec) (parts : List (Place × Nat × List Byte)) (q : Place) (s : State) : State :=
  if x.kind = 0 then
    let ims := parts.map fun p => imageOf fun off len =>
      if off = 0 then p.2.2.take len else s.readAt n { p.1 with off := p.1.off + off } len
    let (bs, past, evs) := combineImages ims
    let s := (s.writeAt n q bs).awlEvents n evs 0
    if past then s.raise (.ary n) 6 else s
  else
    let w := if x.kind = 1 then 64 else 8
    let rec_ (j : Nat) : List (List Byte) := parts.map fun p => s.readAt n { p.1 with off := p.1.off + w * j } w
    let out := (List.range x.c).map fun j =>
      if x.kind = 1 then combineXs x.outMode (rec_ j) else combineXi (x.kind == 2) (rec_ j)
    let s := s.writeAt n q (out.flatMap (·.1))
    s.awlEvents n (out.flatMap (·.2)) (out.filter fun o => decide (0 ∈ o.2)).length

/-! ### Issue and completion (R94, R129) -/

/-- The checks of an Awl record: the charge, and the operation as it then runs. -/
def State.awlCheck (s : State) (n : Nat) (o : SlotOp) : Except Nat (Nat × AwlRun) :=
  let r := s.record n o
  if o.imm ≠ 0 then .error 0x01
  else if awlKind r = 0 then
    match s.elemCheck n r with
    | .error c => .error c
    | .ok (cost, claims) => .ok (cost, { record := r, op := o, claims := claims })
  else if awlKind r = 1 then
    match s.combCheck n r with
    | .error c => .error c
    | .ok (cost, claims, ps, q) =>
      .ok (cost, { record := r, op := o, claims := claims, result := some q,
                   parts := ps.map fun p => (p.1, p.2, s.readAt n p.1 16) })
  else .error (awlCause 0x0A)

/-- The operation reads a tile that has a spill or a replay still to come: it waits for it; other tiles do not hold it
(R94). -/
def State.readsUnsettled (s : State) (n : Nat) (o : SlotOp) : Bool :=
  let r := s.record n o
  let due (k : Nat) : Bool :=
    let t := (s.die n).tile k
    t.spillDue || t.marked != []
  let accOf (a : Nat) : Bool := match rangeOf n a 16 with
    | some ⟨.acc t, _⟩ => due t
    | _ => false
  if awlKind r = 0 then (elemRec r).ins.any fun x => x.sp == 4 && due x.tile
  else match s.combEntries n (combRec r) with
    | .ok es => es.any accOf
    | .error _ => false

/-- The op at the head of the AWL queue is handed to the Awl, which checks it (R129). It waits for the operation
before it, and for replays and spills of tiles it reads. -/
def State.issueStep (n : Nat) (s : State) : State :=
  let d := s.die n
  match d.qAwl with
  | [] => s
  | o :: _ =>
    let bad := match s.awlCheck n o with
      | .error c => decide (0x100 ≤ c)
      | .ok _ => false
    let can := s.running n && o.op == 1 && d.semReady o && d.awl.isNone && !s.readsUnsettled n o
    let t := if can && bad then
        match s.awlCheck n o with
        | .error c => s.setReg (Reg.awlFault n) (c % 256 + o.recAddr * 2 ^ 16)
        | .ok _ => s
      else s
    t.issueOp n 2 1 (fun _ => true) (fun o => d.awl.isNone && !s.readsUnsettled n o)
      (fun o =>
        match s.awlCheck n o with
        | .error c => .error (if 0x100 ≤ c then 0x09 else c)
        | .ok (cost, run) => .ok (cost, fun s => s.modDie n fun d => { d with awl := some run }))

/-- The issued operation of a kind runs to its end: claims are released, its signal goes out. -/
def State.awlStep (kind sub : Nat) (n : Nat) (s : State) : State :=
  match (s.die n).awl with
  | none => s
  | some a =>
    let r := a.record
    if !s.live n ∨ awlKind r ≠ kind ∨ (kind = 1 ∧ (combRec r).kind ≠ sub) then s
    else
      let s := if kind = 0 then s.elemRun n r
        else match a.result with
          | some q => s.combRun n (combRec r) a.parts q
          | none => s
      let s := (s.count (Reg.awlOps n) 1).modDie n fun d => { d with awl := none }
      let s := s.complete n 2 a.op
      let id := (s.die n).run.elim 0 (·.item)
      (if s.prgState n = 2 then s else s.settleGang id).badHeads n

/-! ### Commands -/

/-- ISSUE (R129). -/
def execIssue (dt die : Nat) (s : State) : Host.Outcome State Fault Refusal :=
  s.finish dt ((s.advance dt).issueStep die)

/-- AWL_ELEMENT (R96). -/
def execAwlElement (dt die : Nat) (s : State) : Host.Outcome State Fault Refusal :=
  s.finish dt ((s.advance dt).awlStep 0 0 die)

/-- COMBINE_ACC (R83). -/
def execCombineAcc (dt die : Nat) (s : State) : Host.Outcome State Fault Refusal :=
  s.finish dt ((s.advance dt).awlStep 1 0 die)

/-- COMBINE_XS (R107). -/
def execCombineXs (dt die : Nat) (s : State) : Host.Outcome State Fault Refusal :=
  s.finish dt ((s.advance dt).awlStep 1 1 die)

/-- COMBINE_XI_MAX (R107). -/
def execCombineXiMax (dt die : Nat) (s : State) : Host.Outcome State Fault Refusal :=
  s.finish dt ((s.advance dt).awlStep 1 2 die)

/-- COMBINE_XI_MIN (R107). -/
def execCombineXiMin (dt die : Nat) (s : State) : Host.Outcome State Fault Refusal :=
  s.finish dt ((s.advance dt).awlStep 1 3 die)

end Sys2Proof.Machine
end

