-- ==== Sys2Proof/Machine/Recorder.lean ====
section
/-! DEFINITION. The event recorder: the NOR, its areas, records, counter entries, freezing and clearing (chapter 16). -/

namespace Sys2Proof.Machine

/-! ### The NOR (R403 to R406) -/

/-- An area: first sector, sectors, bytes of a unit, area number of its headers. -/
structure RecArea where
  first : Nat
  count : Nat
  unit : Nat
  number : Nat
  deriving DecidableEq, Repr

/-- The areas of Table EVT-1. -/
def areaCounters : RecArea := ⟨0, 2, 32, 0⟩
@[inherit_doc areaCounters] def areaPower : RecArea := ⟨2, 8, 64, 1⟩
@[inherit_doc areaCounters] def areaFault : RecArea := ⟨10, 54, 64, 2⟩
@[inherit_doc areaCounters] def areaEvents : RecArea := ⟨64, 448, 64, 3⟩

/-- The area a sector lies in. -/
def areaOfSector (n : Nat) : RecArea :=
  if n < 2 then areaCounters else if n < 10 then areaPower else if n < 64 then areaFault else areaEvents

/-- Units of a sector. -/
def RecArea.per (a : RecArea) : Nat := 65536 / a.unit

/-- The NOR address of a unit of an area. -/
def RecArea.addr (a : RecArea) (pos : Nat) : Nat := a.first * 65536 + pos * a.unit

/-- The writer position of an area (units from the area's start). -/
def Recorder.pos (c : Recorder) (a : RecArea) : Nat :=
  if a.number = 0 then c.posCounter else if a.number = 1 then c.posPower else if a.number = 2 then c.posFault
  else c.posEvents

/-- The writer position of an area takes a value. -/
def Recorder.setPos (a : RecArea) (p : Nat) (c : Recorder) : Recorder :=
  if a.number = 0 then { c with posCounter := p } else if a.number = 1 then { c with posPower := p }
  else if a.number = 2 then { c with posFault := p } else { c with posEvents := p }

/-- Bytes of the NOR. -/
def State.norBytes (s : State) (a n : Nat) : List Byte := Memory.readN erased s.nor a n

/-- Bytes programmed into the NOR. -/
def State.program (a : Nat) (bs : List Byte) (s : State) : State := { s with nor := Memory.writeN erased s.nor a bs }

/-- No byte of a NOR range is programmed. -/
def State.norErased (s : State) (a n : Nat) : Bool :=
  !(s.nor.any fun c => decide (a ≤ c.1) && decide (c.1 < a + n))

/-- A sector carries the erase mark. -/
def State.marked (s : State) (sector : Nat) : Bool := Memory.get erased s.nor (sector * 65536) == 0xA5

/-- A sector is erased and its header programmed (R404): the pass count rises when the ring reaches the sector again. -/
def State.eraseSector (sector : Nat) (again : Bool) (s : State) : State :=
  let a := areaOfSector sector
  let pass := if s.marked sector then leNat (s.norBytes (sector * 65536 + 4) 4) + (if again then 1 else 0) else 0
  let s := { s with nor := Memory.clear s.nor (sector * 65536) ((sector + 1) * 65536) }
  let s := s.program (sector * 65536 + 1) [BitVec.ofNat 8 a.number]
  let s := s.program (sector * 65536 + 4) (leBytes 4 pass)
  s.program (sector * 65536) [0xA5]

/-- The writer may go on into a sector: it carries the erase mark and nothing after its header, and no erase of it is under
way. -/
def State.openable (s : State) (a : RecArea) (sector : Nat) : Bool :=
  s.marked sector && !decide (sector ∈ s.recorder.erasing) && s.norErased (sector * 65536 + a.unit) (65536 - a.unit)

/-- The next unit of an area that is wholly erased, from a position, by a count of tries; a header unit, where the next
sector has to be erased first (R404, R406). -/
def State.nextUnit (s : State) (a : RecArea) : Nat → Nat → Nat
  | 0, p => p
  | n + 1, p =>
    let p := p % (a.count * a.per)
    if p % a.per = 0 then (if s.openable a (a.first + p / a.per) then p + 1 else p)
    else if s.norErased (a.addr p) a.unit then p
    else s.nextUnit a n (p + 1)

/-- The sector after a sector in its ring. -/
def RecArea.after (a : RecArea) (sector : Nat) : Nat := a.first + (sector - a.first + 1) % a.count

/-- A record's 64 bytes but for the valid byte (R405). -/
def EventRec.bytes (r : EventRec) (c : Recorder) : List Byte :=
  let body := leBytes 1 (r.sev + if r.kwrite then 4 else 0) ++ leBytes 2 r.code ++ leBytes 4 c.nextSeq.toNat
    ++ leBytes 4 c.cycles ++ leBytes 6 c.opMs ++ leBytes 2 r.count ++ leBytes 8 r.siteTime ++ leBytes 1 r.die
    ++ leBytes 1 r.sub ++ [0, 0] ++ padTo 28 r.detail
  let body := padTo 59 body
  body ++ leBytes 4 (Crypto.crc32 body)

/-- The area of a record (R409): INPUT_LOSS and THERMTRIP go to POWER, other ERROR and FATAL records to FAULT. -/
def EventRec.area (r : EventRec) : RecArea :=
  if r.code = 0x0F80 ∨ r.code = 0x0F81 then areaPower else if 2 ≤ r.sev then areaFault else areaEvents

/-- A record is programmed at a unit, its valid byte last, and takes the next sequence number (R406, R407). -/
def State.programRecord (a : RecArea) (p : Nat) (r : EventRec) (s : State) : State :=
  let s := s.program (a.addr p + 1) (r.bytes s.recorder)
  let s := s.program (a.addr p) [0xA5]
  s.modRec fun c => ({ c with nextSeq := c.nextSeq + 1 }).setPos a ((p + 1) % (a.count * a.per))

/-- A record goes into a unit; the first of a sector opens it, which starts the erase of the next (R404). -/
def State.recordAt (a : RecArea) (p : Nat) (r : EventRec) (s : State) : State :=
  let s := s.programRecord a p r
  if p % a.per = 1 then s.modRec fun c => { c with erasing := addTo c.erasing (a.after (a.first + p / a.per)) } else s

/-- A record is written where its area's ring stands; where the sector to open has no erase mark, its erase starts and
the record is not written yet (`false`). -/
def State.tryRecord (r : EventRec) (s : State) : State × Bool :=
  let a := r.area
  let p := s.nextUnit a (2 * a.per) (s.recorder.pos a)
  if p % a.per = 0 then
    (s.modRec fun c => { c.setPos a p with erasing := addTo c.erasing (a.first + p / a.per) }, false)
  else (s.recordAt a p r, true)

/-- A sector whose turn has come is erased at once, an erase of it under way being finished. -/
def State.eraseNow (sector : Nat) (s : State) : State :=
  (s.eraseSector sector true).modRec fun c => { c with erasing := dropFrom c.erasing sector }

/-- A record is written at once, its sector erased first if it must (R410, R412). -/
def State.recordNow (r : EventRec) (s : State) : State :=
  let a := r.area
  let p := s.nextUnit a (2 * a.per) (s.recorder.pos a)
  let (s, p) := if p % a.per = 0 then (s.eraseNow (a.first + p / a.per), p + 1) else (s, p)
  s.recordAt a p r

/-! ### Counter entries (R408) -/

/-- A counter entry's 32 bytes but for the valid byte. -/
def State.counterBytes (s : State) (clean : Bool) : List Byte :=
  let body := leBytes 1 (if clean then 1 else 0) ++ [0, 0] ++ leBytes 4 s.recorder.cycles ++ leBytes 6 s.recorder.opMs
    ++ [0, 0] ++ (s.recorder.thresholds.map (leBytes 4)).flatten
  body ++ leBytes 4 (Crypto.crc32 body)

/-- A counter entry is written; a full sector moves writing to the other one, and is erased once that holds an entry (log
171). -/
def State.counterEntry (clean : Bool) (s : State) : State :=
  let a := areaCounters
  let p := s.nextUnit a (2 * a.per) (s.recorder.posCounter)
  let (s, p) := if p % a.per = 0 then (s.eraseNow (p / a.per), p + 1) else (s, p)
  let s := s.program (a.addr p + 1) (s.counterBytes clean)
  let s := s.program (a.addr p) [0xA5]
  let s := s.modRec fun c => { c with posCounter := (p + 1) % (2 * a.per), lastCounterMs := c.opMs, entryDue := false }
  if p % a.per = 1 then s.modRec fun c => { c with erasing := addTo c.erasing (1 - p / a.per) } else s

/-- A valid counter entry: its unit in the area, and its fields. -/
structure CounterEntry where
  pos : Nat
  cycle : Nat
  ms : Nat
  clean : Bool
  thresholds : List Nat
  deriving DecidableEq, Repr

/-- The valid counter entries of a part that answers. -/
def State.counterEntries (s : State) : List CounterEntry :=
  let starts := ((s.nor.filter fun c => decide (c.1 < 131072) && c.1 % 32 == 0 && c.1 % 65536 != 0 && c.2 == 0xA5).map (·.1))
  if !s.norPart.answers then []
  else starts.filterMap fun a =>
    let b := s.norBytes a 32
    if Crypto.crc32 ((b.drop 1).take 27) = fld b 28 4 then
      some ⟨a / 32, fld b 4 4, fld b 8 6, bitOf (fld b 1 1) 0, [fld b 16 4, fld b 20 4, fld b 24 4]⟩
    else none

/-- The newest counter entry: of the highest cycle, then of the highest operating time. -/
def State.newestCounter (s : State) : Option CounterEntry :=
  s.counterEntries.foldl (fun b e => match b with
    | none => some e
    | some f => if f.cycle < e.cycle ∨ (f.cycle = e.cycle ∧ f.ms ≤ e.ms) then some e else some f) none

/-- The recorder accepts the part (R402). -/
def NorPart.accepted (p : NorPart) : Bool :=
  p.answers && p.bytes == 33554432 && p.fourByte && p.erase64k && decide (256 ≤ p.page) && p.suspend
    && decide (100000 ≤ p.cycles)

/-- What K1 writes itself goes only to a part that would be accepted (DESIGN CHOICE, log 158). -/
def State.k1Writes (f : State → State) (s : State) : State := if s.norPart.accepted then f s else s

/-- The counters go on from an entry: its cycle, its operating time, its thresholds, the unit after it (R408). -/
def Recorder.takeEntry (e : CounterEntry) (c : Recorder) : Recorder :=
  { c with cycles := e.cycle, opMs := e.ms + c.opMs, thresholds := e.thresholds, posCounter := e.pos + 1 }

/-- At order 1 after POWER_ON K1 resumes from the newest entry, writes a new one with cycle + 1, and queues UNCLEAN if
the entry it took was not CLEAN (R408). -/
def State.resumeCounters (s : State) : State :=
  let s := s.modRec fun c => { c with resumeDue := false }
  match s.newestCounter with
  | none => (s.modRec fun c => { c with cycles := 1 }).k1Writes (·.counterEntry false)
  | some e =>
    let s := s.modRec fun c => { c.takeEntry e with cycles := (e.cycle + 1) % 2 ^ 32 }
    let s := s.k1Writes (·.counterEntry false)
    if e.clean then s else s.detail 0x1282 1 63 0xFF (leBytes 6 e.ms)

/-! ### Release of PD95 (R402, R407) -/

/-- The units of an area whose valid byte reads 0xA5, with their sequence numbers. -/
def State.validUnits (s : State) (a : RecArea) : List (Nat × BitVec 32) :=
  let lo := a.first * 65536
  let hi := (a.first + a.count) * 65536
  ((s.nor.filter fun c => decide (lo ≤ c.1) && decide (c.1 < hi) && c.1 % 64 == 0 && c.1 % 65536 != 0 && c.2 == 0xA5).map (·.1)).filterMap
    fun x =>
      let b := s.norBytes x 64
      if Crypto.crc32 ((b.drop 1).take 59) = fld b 60 4 then some ((x - lo) / 64, BitVec.ofNat 32 (fld b 4 4)) else none

/-- The newest of a list of units: a record is older when the signed difference of the numbers is above 0 (R407). -/
def newestUnit (l : List (Nat × BitVec 32)) : Option (Nat × BitVec 32) :=
  l.foldl (fun b e => match b with
    | none => some e
    | some f => if 0 < (e.2 - f.2).toInt then some e else some f) none

/-- The writer position of an area: after its newest record and every unit programmed beyond it (R406). -/
def State.scanArea (a : RecArea) (s : State) : State :=
  let v := s.validUnits a
  let from_ := match newestUnit v with
    | some (u, _) => (u + 1) % (a.count * a.per)
    | none => if s.marked a.first then 1 else 0
  -- a sector opened for a write that was interrupted holds programmed units and no record
  let begun := from_ % a.per == 0 && s.marked (a.first + from_ / a.per) && v.all fun x => x.1 / a.per != from_ / a.per
  let p := s.nextUnit a (2 * a.per) (if begun then from_ + 1 else from_)
  s.modRec (·.setPos a p)

/-- REC_CLEAR shows the thresholds. -/
def State.showThresholds (s : State) : State :=
  (List.range 3).foldl (fun s a => s.setReg (Reg.recClear a) (s.recorder.thresholds.getD a 0)) s

/-- The numbers that the NOR gives after a COLD reset: the sequence goes on one above the newest valid record (R407). -/
def State.scanSeq (s : State) : State :=
  let all := [areaPower, areaFault, areaEvents].flatMap s.validUnits
  s.modRec fun c => { c with nextSeq := (newestUnit all).elim 0 (fun x => x.2 + 1) }

/-! ### What K1 writes while PD95 is off (R410) -/

/-- The record of a clear, which takes the sequence number its thresholds hold (R412). -/
def EventRec.isClear (r : EventRec) : Bool := r.code == 0x1281

/-- K1 writes by itself. Before its counters have been resumed it takes them from the newest entry for what it writes,
and before the scan the sequence number and the place in POWER from the NOR (log 158). -/
def State.k1Alone (f : State → State) (s : State) : State :=
  let old := s.recorder
  let s := if s.recorder.scanDue then (s.scanArea areaPower).scanSeq else s
  let s := match s.recorder.resumeDue, s.newestCounter with
    | true, some e => s.modRec (Recorder.takeEntry e)
    | _, _ => s
  let s := s.k1Writes f
  if s.recorder.resumeDue then s.modRec fun c => { c with cycles := old.cycles, opMs := old.opMs } else s

/-- The LOST record that waits before the others, where the queue has room and MIN_SEV lets it be written; a CLEARED
record that a freeze has held up goes before it (R409, R412). -/
def State.lostRecord (s : State) : Option EventRec :=
  if 0 < s.recorder.lostPending ∧ s.recorder.queue.length < 4096 ∧ !(s.recorder.queue.head?.any EventRec.isClear)
      ∧ s.regBits Reg.recCtrl 2 1 ≤ 1 then
    some { sev := 1, code := 0x1280, die := 62, sub := 0xFF, siteTime := s.time, firstAt := s.now,
           detail := leBytes 4 s.recorder.lostPending }
  else none

/-- A record being programmed when the recorder stops is left without a valid mark; how many of its bytes have been
programmed is a free value (R406, R410; log 158). -/
def State.interruptRecord (s : State) : State :=
  match s.lostRecord.or s.recorder.queue.head? with
  | none => s
  | some r =>
    let a := r.area
    let p := s.nextUnit a (2 * a.per) (s.recorder.pos a)
    if s.regBits Reg.recStatus 1 0 ≠ 1 ∨ s.regBits Reg.recStatus 2 2 = 1 ∨ p % a.per = 0 then s
    else
      let n := Config.bytesWritten s.drawCount % 64
      { s with drawCount := s.drawCount + 1 }.program (a.addr p + 1) ((r.bytes s.recorder).take n)

/-! ### The commands of the recorder -/

/-- The writer runs: READY, not frozen, PD95 out of reset, K0's island clocked (R365). -/
def State.writerRuns (s : State) : Bool :=
  s.live 95 && bitOf (s.reg Reg.clkIsland) 62 && s.regBits Reg.recStatus 1 0 == 1 && s.regBits Reg.recStatus 2 2 == 0

/-- RECORD_WRITE (R406, R409): a LOST record first, where records were dropped; else the record at the head. A LOST record
that MIN_SEV filters is not written. -/
def State.recordWrite (s : State) : State :=
  if !s.writerRuns then s
  else match s.lostRecord with
    | some r =>
      match s.tryRecord r with
      | (s, true) => s.modRec fun c => { c with lostPending := 0 }
      | (s, false) => s
    | none =>
      let s := if s.recorder.queue.length < 4096 ∧ 1 < s.regBits Reg.recCtrl 2 1 then s.modRec fun c => { c with lostPending := 0 }
        else s
      match s.recorder.queue with
      | [] => s
      | r :: rest =>
        match s.tryRecord r with
        | (s, true) => s.modRec fun c => { c with queue := rest }
        | (s, false) => s

/-- COALESCE_EXPIRY (R409): 1 s after its first occurrence a held record joins the queue. -/
def State.coalesceExpiry (code die sub : Nat) (s : State) : State :=
  match s.recorder.waiting.find? fun r => r.code == code && r.die == die && r.sub == sub with
  | none => s
  | some r =>
    if r.firstAt + 1000000000 ≤ s.now then
      let s := s.modRec fun c => { c with waiting := c.waiting.filter fun x => !x.same r }
      if s.recorder.queue.length < 4096 then s.modRec fun c => { c with queue := c.queue ++ [r] }
      else
        let s := s.modRec fun c => { c with lostPending := c.lostPending + 1 }
        (s.count Reg.recLost 1).noteInfo .recd 2
    else s

/-- COUNTER_ENTRY (R408): every 60 s of operating time, and for a clear that a freeze has held up. -/
def State.counterDue (s : State) : State :=
  if s.writerRuns ∧ (s.recorder.entryDue ∨ s.recorder.lastCounterMs + 60000 ≤ s.recorder.opMs) then s.counterEntry false else s

/-- The sectors of an area that hold records, all older than a threshold (R412), in ring order from the one after the
writer's. -/
def State.clearedSectors (s : State) (a : RecArea) (thr : BitVec 32) : List Nat :=
  let v := s.validUnits a
  let here := s.recorder.pos a / a.per
  (List.range a.count).filterMap fun j =>
    let i := (here + 1 + j) % a.count
    let l := v.filter fun u => u.1 / a.per == i
    if l ≠ [] ∧ l.all (fun u => decide (0 < (thr - u.2).toInt)) then some (a.first + i) else none

/-- Where REC_CLEAR keeps an area's threshold. -/
def RecArea.clearIndex (a : RecArea) : Nat := 3 - a.number

/-- ERASING reads 1 while cleared sectors await erasure (R412). -/
def State.showErasing (s : State) : State := s.setField Reg.recStatus 3 3 (if s.recorder.clearing = [] then 0 else 1)

/-- The recorder comes out of reset: it accepts the NOR, scans it, and is READY; K1's queue passes to its own. After a
COLD reset the sequence continues one above the newest valid record; the erasure of cleared sectors goes on. A part it does
not accept makes it FAILED, and the records that wait are not written (R402, R407, R409, R412). -/
def State.recStart (cold : Bool) (s : State) : State :=
  let k := s.recorder.k1Queue
  let s := s.modRec fun c => { c with k1Queue := [] }
  if !s.norPart.accepted then (s.setField Reg.recStatus 1 0 2).raise .err 7
  else
    let s := ((s.scanArea areaPower).scanArea areaFault).scanArea areaEvents
    let s := (if cold then s.scanSeq else s).modRec fun c => { c with scanDue := false }
    let s := (s.setField Reg.recStatus 1 0 1).showThresholds
    let cl := [areaEvents, areaFault, areaPower].flatMap fun a =>
      s.clearedSectors a (BitVec.ofNat 32 (s.recorder.thresholds.getD a.clearIndex 0))
    let s := s.modRec fun c => { c with clearing := cl }
    k.foldl (fun s r => s.routeRecord r) s.showErasing

/-- A cleared sector is erased, unless a record has gone into it meanwhile. -/
def State.eraseCleared (sector : Nat) (s : State) : State :=
  let a := areaOfSector sector
  if sector ∈ s.clearedSectors a (BitVec.ofNat 32 (s.recorder.thresholds.getD a.clearIndex 0)) then
    (s.eraseSector sector false).modRec fun c =>
      if a.first + c.pos a / a.per = sector then c.setPos a ((sector - a.first) * a.per + 1) else c
  else s

/-- SECTOR_ERASE_DONE (R404, R412): the erase of a sector completes: one ahead of the writer, or the first of the cleared
ones. An erase waits while the writer is frozen. -/
def State.sectorEraseDone (sector : Nat) (s : State) : State :=
  if !s.live 95 || s.regBits Reg.recStatus 2 2 == 1 then s
  else if sector ∈ s.recorder.erasing then
    ((s.eraseSector sector true).modRec fun c =>
      { c with erasing := dropFrom c.erasing sector, clearing := dropFrom c.clearing sector }).showErasing
  else if s.recorder.clearing.head? = some sector then
    ((s.eraseCleared sector).modRec fun c => { c with clearing := dropFrom c.clearing sector }).showErasing
  else s

/-- A freeze ends (R411). -/
def State.unfreeze (s : State) : State :=
  (s.setField Reg.recStatus 2 2 0).modRec fun c => { c with frozenAt := none }

/-- The effect of a write of REC_CTRL: FREEZE = 1 stops the writer, FREEZE = 0 ends a freeze (R411). -/
def State.recCtrl (new : Nat) (s : State) : State :=
  let s := s.setReg Reg.recCtrl new
  if bitOf new 0 then
    if s.regBits Reg.recStatus 2 2 = 1 then s
    else (s.setField Reg.recStatus 2 2 1).modRec fun c => { c with frozenAt := some s.now }
  else s.unfreeze

/-- FREEZE_FORCED (R411): a full queue, or REC_FREEZE.MS since FROZEN became 1, ends a freeze. -/
def State.freezeForced (s : State) : State :=
  match s.recorder.frozenAt with
  | none => s
  | some t =>
    if 4096 ≤ s.recorder.queue.length ∨ t + s.regBits Reg.recFreeze 23 0 * 1000000 ≤ s.now then
      ((s.setField Reg.recCtrl 0 0 0).unfreeze).raise .recd 0
    else s

/-- RECORDER_WINDOW_READ (R411, R423): bytes of the sector of REC_WINDOW while FROZEN; else all ones, with
READ_UNFROZEN. `off` counts from the start of the window. -/
def State.windowRead (off : Nat) (wide : Bool) (s : State) : State :=
  let n := if wide then 8 else 4
  let ones := BitVec.ofNat 64 (if wide then 0xFFFFFFFFFFFFFFFF else 0xFFFFFFFF)
  if off % n ≠ 0 ∨ 65536 ≤ off then s.badAccess.emit (.windowRead 0)
  else if !s.live 95 then s.emit (.windowRead ones)
  else if s.regBits Reg.recStatus 2 2 = 1 then
    s.emit (.windowRead (BitVec.ofNat 64 (leNat (s.norBytes (s.regBits Reg.recWindow 8 0 * 65536 + off) n))))
  else (s.raise .recd 1).emit (.windowRead ones)

/-- The areas of a mask of Table EVT-1, in the order of their thresholds. -/
def areasOf (mask : Nat) : List RecArea :=
  (if bitOf mask 0 then [areaEvents] else []) ++ (if bitOf mask 1 then [areaFault] else [])
    ++ (if bitOf mask 2 then [areaPower] else [])

/-- The counter entry and the CLEARED record of a clear are written, or wait for the writer; the record keeps its number
(R412), and REC_CTRL.MIN_SEV does not filter it (DEDUCED, log 159). -/
def State.clearRecords (mask : Nat) (s : State) : State :=
  let r : EventRec := { sev := 0, code := 0x1281, die := 62, sub := 0xFF, siteTime := s.time, firstAt := s.now,
                        detail := leBytes 1 mask }
  if s.writerRuns ∧ !(s.recorder.queue.head?.any EventRec.isClear) then (s.counterEntry false).recordNow r
  else if s.regBits Reg.recStatus 1 0 = 1 then
    s.modRec fun c =>
      { c with entryDue := true
               queue := c.queue.takeWhile EventRec.isClear ++ [r] ++ c.queue.dropWhile EventRec.isClear }
  else s

/-- The effect of RECORDER_CLEAR at acceptance (R412). -/
def State.clearAreas (mask : Nat) (s : State) : State :=
  let waiting := (s.recorder.queue.takeWhile EventRec.isClear).length
  let thr := s.recorder.nextSeq + BitVec.ofNat 32 waiting
  let s := s.modRec fun c =>
    { c with thresholds := (areasOf mask).foldl (fun l a => l.set a.clearIndex thr.toNat) c.thresholds }
  let s := s.showThresholds.clearRecords mask
  let cl := (areasOf mask).flatMap fun a => s.clearedSectors a thr
  (s.modRec fun c => { c with clearing := cl.foldl addTo c.clearing }).showErasing

/-- RECORDER_CLEAR's checks (R412). -/
def recorderClearCheck : ItemCheck := fun _ d =>
  let m := fld d 32 1
  if m = 0 ∨ 8 ≤ m ∨ !zeroIn d 33 96 then .error { code := Code.malformed } else .ok { domains := [95] }

/-- RECORDER_CLEAR's effect. -/
def recorderClearStart : ItemStart := fun it s => (s.clearAreas (fld it.desc 32 1)).itemDone it.id Code.ok []

/-- The command RECORD_WRITE. -/
def execRecordWrite (dt : Nat) (s : State) : Host.Outcome State Fault Refusal :=
  s.finish dt (s.advance dt).recordWrite

/-- The command COALESCE_EXPIRY. -/
def execCoalesceExpiry (dt code die sub : Nat) (s : State) : Host.Outcome State Fault Refusal :=
  s.finish dt ((s.advance dt).coalesceExpiry code die sub)

/-- The command COUNTER_ENTRY. -/
def execCounterEntry (dt : Nat) (s : State) : Host.Outcome State Fault Refusal :=
  s.finish dt (s.advance dt).counterDue

/-- The command SECTOR_ERASE_DONE. -/
def execSectorEraseDone (dt sector : Nat) (s : State) : Host.Outcome State Fault Refusal :=
  s.finish dt ((s.advance dt).sectorEraseDone sector)

/-- The command FREEZE: a BAR0 write of REC_CTRL. -/
def execFreeze (dt : Nat) (v : Word) (s : State) : Host.Outcome State Fault Refusal :=
  s.finish dt (State.barWith (fun _ _ new _ s => s.recCtrl new) Reg.recCtrl false v.toNat (s.advance dt))

/-- The command UNFREEZE: a BAR0 write of REC_CTRL. -/
def execUnfreeze (dt : Nat) (v : Word) (s : State) : Host.Outcome State Fault Refusal :=
  s.finish dt (State.barWith (fun _ _ new _ s => s.recCtrl new) Reg.recCtrl false v.toNat (s.advance dt))

/-- The command FREEZE_FORCED. -/
def execFreezeForced (dt : Nat) (s : State) : Host.Outcome State Fault Refusal :=
  s.finish dt (s.advance dt).freezeForced

/-- The command RECORDER_WINDOW_READ. -/
def execRecorderWindowRead (dt off : Nat) (wide : Bool) (s : State) : Host.Outcome State Fault Refusal :=
  s.finish dt ((s.advance dt).windowRead off wide)

/-- The command RECORDER_CLEAR. -/
def execRecorderClear (dt : Nat) (s : State) : Host.Outcome State Fault Refusal :=
  s.finish dt (State.decideRow (0x48, 0) recorderClearCheck recorderClearStart (s.advance dt))

end Sys2Proof.Machine
end

