-- ==== Sys2Proof/Machine/Reset.lean ====
section
/-! DEFINITION. Resets: what a reset or a power-off takes from each block, sources, episodes, crossings, containment
(R371 to R378, R417). -/

namespace Sys2Proof.Machine

/-! ### Crossings (R377, R378) -/

/-- A crossing changes on one side. -/
def Crossing.mod (side : Side) (f : CrossSide → CrossSide) (x : Crossing) : Crossing :=
  match side with
  | .clocked => { x with clocked := f x.clocked }
  | .clockless => { x with clockless := f x.clockless }

/-- One side of a crossing. -/
def Crossing.side (x : Crossing) : Side → CrossSide
  | .clocked => x.clocked
  | .clockless => x.clockless

/-- A side of a crossing is out of reset, and its clock-stable wire is set (Sequence CLK-2, step 1). -/
def State.sideReady (s : State) (c : Nat) : Side → Bool
  | .clocked => s.live (clockedBlock c) && s.wire (dieOfCrossing c) (islandOf c)
  | .clockless => s.live (clocklessBlock (dieOfCrossing c))

/-- The entries at an open crossing are discarded, counted and recorded; a request for memory whose response is among
them fails as an uncorrectable read does (R200; log 16). -/
def State.dropEntries (c : Nat) (s : State) : State :=
  let n := Config.crossingEntries s.drawCount % 19
  let s := { s with drawCount := s.drawCount + 1 }
  let s := s.count Reg.clkXdrops n
  let s := s.detail 0x0E80 1 (dieOfCrossing c) 0xFF (leBytes 2 c ++ leBytes 2 n)
  if 0 < n ∧ 48 ≤ dieOfCrossing c ∧ dieOfCrossing c < 56 ∧ c % 16 ≠ 0 then s.endReader false (dieOfCrossing c) else s

/-- A crossing closes: both sides go back to before step 1 of Sequence CLK-2, keeping their generation. -/
def State.closeCrossing (c : Nat) (s : State) : State :=
  let wasOpen := s.crossUp c && s.sideReady c .clocked && s.sideReady c .clockless
  match look s.crossings c, wasOpen with
  | none, false => s
  | x, _ =>
    let shut (e : CrossSide) : CrossSide := { gen := e.gen }
    let x := x.getD {}
    let s := { s with crossings := assoc s.crossings c { clocked := shut x.clocked, clockless := shut x.clockless } }
    if wasOpen then s.dropEntries c else s

/-- The crossings of a list close. -/
def State.closeCrossings (cs : List Nat) (s : State) : State := cs.foldl (fun s c => s.closeCrossing c) s

/-- Step 1 of Sequence CLK-2 at one side of a closed crossing, once its condition holds: the generation is toggled and
PAIR sent. -/
def State.beginSide (c : Nat) (side : Side) (s : State) : State :=
  let x := (look s.crossings c).getD {}
  let e := x.side side
  if s.sideReady c side && !e.begun && !e.opened then
    let x := x.mod side fun e => { gen := !e.gen, begun := true }
    { s with crossings := assoc s.crossings c x }.emit (.pair c side (!e.gen) false)
  else s

/-- Both sides of the crossings of a list begin as far as they can. -/
def State.pairCrossings (cs : List Nat) (s : State) : State :=
  cs.foldl (fun s c => (s.beginSide c .clocked).beginSide c .clockless) s

/-! ### What a reset takes -/

/-- The hubs of a block list, by their logic or their PHY. -/
def hubsIn (blocks : List Nat) : List Nat := (List.range 8).filter fun j => decide (pdHub j ∈ blocks)

/-- The row-table entries whose state byte is not ABSENT and whose die has a given home hub: unit and state (R215). -/
def State.cachedUnits (s : State) (j : Nat) : List (Nat × Nat) :=
  let base := s.regBits Reg.rtBase 47 12 * 4096
  (s.hbm.filter fun c => decide (base + 22 ≤ c.1) && (c.1 - base) % 32 == 22
      && decide ((c.1 - base) / 32 < s.regBits Reg.rtCount 24 0)).filterMap fun c =>
    let die := (Memory.get blank s.hbm (c.1 + 6)).toNat
    if homeHub die = j then some ((c.1 - base) / 32, c.2.toNat) else none

/-- The units a hub loses are recorded, six to a record, by a count of records. -/
def State.lostRecords (j : Nat) : Nat → List Nat → State → State
  | 0, _, s => s
  | n + 1, l, s =>
    if l = [] then s
    else
      let d := ((l.take 6).flatMap (leBytes 4)) ++ List.replicate ((6 - l.length) * 4) 0xFF
      State.lostRecords j n (l.drop 6) (s.detail 0x0680 2 (48 + j) j d)

/-- The units that a hub loses with its row cache: those DIRTY or WRITING (R215). -/
def State.lostUnits (s : State) (j : Nat) : List Nat := ((s.cachedUnits j).filter fun u => u.2 == 3 || u.2 == 4).map (·.1)

/-- The row cache of a hub empties: its units are ABSENT. A write-back in flight from it, or to its channel, ends with the
blocks as they were (R205). -/
def State.emptyRowCache (j : Nat) (s : State) : State :=
  let base := s.regBits Reg.rtBase 47 12 * 4096
  let units := s.cachedUnits j
  let s := units.foldl (fun s u => s.writeHbm (base + u.1 * 32 + 16) (zeros 8)) s
  { s with
    pinOrder := s.pinOrder.filter fun u => !decide (u ∈ units.map (·.1))
    unitWrites := s.unitWrites.filter fun x => x.hub != j && bitsOf x.locator 32 30 != j }

/-- A hub that has lost units sets FT_EVENTS.UNIT_LOST and records their numbers (R215). -/
def State.tellLost (j : Nat) (units : List Nat) (s : State) : State :=
  if units = [] then s else (s.raise (.ft j) 5).lostRecords j units.length units

/-- A compute die loses its state. -/
def State.loseDie (n : Nat) (s : State) : State :=
  { s with
    dies := s.dies.set n Die.reset
    sentinels := s.sentinels.set n (List.replicate 4 {})
    sram := Memory.clear s.sram (n * 0x8000000) ((n + 1) * 0x8000000)
    isram := Memory.clear s.isram (n * 0x80000) ((n + 1) * 0x80000)
    awlBuf := Memory.clear s.awlBuf (n * 0x100000) ((n + 1) * 0x100000)
    signals := s.signals.filter fun x => x.src != n
    notices := s.notices.filter fun x => x.1 != n
    plans := s.plans.filter fun x => x.1 != n
    shardsReady := s.shardsReady.filter fun x => x.1 != n }

/-- A hub's logic loses its state beside its row cache: journal-valid bits, sentinels. -/
def State.loseHub (j : Nat) (s : State) : State :=
  { s with
    journalValid := s.journalValid.filter fun n => homeHub n != j
    sentinels := s.sentinels.set (48 + j) (List.replicate 2 {})
    initialised := dropFrom s.initialised j }

/-- A hub's PHY goes: the contents of its stacks are lost. -/
def State.losePhy (j : Nat) (s : State) : State :=
  { s with
    hbm := Memory.clear s.hbm (j * 0x3000000000) ((j + 1) * 0x3000000000)
    feedbacks := s.feedbacks.filter fun a => hubOfHbm a != j
    initialised := dropFrom s.initialised j }

/-- A far port's own state goes; its flows lie in its link die and stay (R253), and so do the instants of its DOWNs, which
K1 counts (Table EVT-6 row 5). -/
def FarPort.portReset (p : FarPort) : FarPort :=
  { nextStitch := p.nextStitch, sendQueue := p.sendQueue, unacked := p.unacked, rxNext := p.rxNext,
    rxSack := p.rxSack, parts := p.parts, downs := p.downs }

/-- The sentinels of every die, with nothing read. -/
def noReadings : List (List Sentinel) :=
  List.replicate 48 (List.replicate 4 ({} : Sentinel)) ++ List.replicate 14 (List.replicate 2 ({} : Sentinel))

/-- PD92 loses its state: rings, items, bookings, staged sets, the Fitter's readings (R332), the gate, the exchange's and
the Welt's module state. -/
def State.lose92 (s : State) : State :=
  { s with
    sentinels := noReadings
    cornerAt := s.now
    ended := []
    owed := []
    rings := List.replicate 8 {}
    taken := []
    items := []
    decided := []
    bookings := []
    reservations := []
    heldRecords := []
    staged := []
    plans := []
    msixTable := List.replicate 16 [0, 0, 0, 0, 0, 0, 0, 0, 0, 0, 0, 0, 1, 0, 0, 0]
    pba := 0
    excessDw := 0
    localVerdict := none
    localSent := false
    pastVerdicts := []
    armedAt := 0
    reports := []
    norms := []
    shardsReady := []
    buckets := []
    rebased := []
    deltas := []
    exportHolds := []
    inbox := []
    reduces := []
    digestRoots := []
    digestNodes := []
    digestSilent := []
    exchanges := []
    farInbox := []
    joining := []
    lastHold := []
    gathers := []
    farTransfers := [] }

/-- K1's clocked logic loses its state; its retention logic keeps RST_CAUSE, RST_COUNT and the recorder's counts
(R371). -/
def State.loseK1 (s : State) : State :=
  { s with
    surroundings := List.replicate 60 []
    cageTries := []
    triedAt := []
    presentAt := []
    accessMisses := []
    monitors := [{}, {}, {}]
    switchStep := .idle
    hotInletSince := none
    overSince := none
    coolantTold := false
    overTold := false
    domFaults := []
    switchOns := []
    switchedAt := []
    switchOffs := []
    wires := []
    heldPins := none }

/-- One block of a list loses its state beside its registers. -/
def State.loseBlock (b : Nat) (s : State) : State :=
  if b < 48 then s.loseDie b
  else if b < 56 then s.loseHub (b - 48)
  else if b < 64 then s.losePhy (b - 56)
  else if b < 76 then (s.nearLose (b - 64)).modNport (b - 64) fun q => { q with trainedAt := none }
  else if b < 82 then s.modFport (b - 76) FarPort.portReset
  else if b < 88 then
    let k := b - 82
    { s.modFport k (fun p => { downs := p.downs }) with sentinels := s.sentinels.set (56 + k) (List.replicate 2 {}) }
  else if b < 92 then s
  else if b = 92 then s.lose92
  else if b = 93 then { s with firmware := none }
  else if b = 94 then { s with cak := 0, kek := 0, authFails := 0, lockoutAt := none, drbgRequests := 0 }
  else if b = 95 then s.interruptRecord.modRec fun c =>
    { c with queue := [], waiting := [], frozenAt := none, erasing := [], clearing := [] }
  else s.loseK1

/-- The site's flows in the link dies are lost once every link die is off or in reset. -/
def State.loseFlows (blocks : List Nat) (s : State) : State :=
  if (List.range 6).all fun k => decide (pdLink k ∈ blocks) || !s.live (pdLink k)
  then { s with flows := [], recvSlots := [] } else s

/-- The instants of a port's DOWN events of the last 60 s, with one more (Table EVT-6 row 5). -/
def State.downTimes (s : State) (l : List Nat) : List Nat := (l.filter fun t => decide (s.now < t + 60000000000)) ++ [s.now]

/-- An UP near port that a reset or a power-off takes goes DOWN with cause POWER (R229). -/
def State.nearPower (p : Nat) (s : State) : State :=
  if !s.nearUp p then s
  else
    let s := s.setField (Reg.npStatus p) 6 0 (3 + 7 * 8)
    let s := s.detail 0x0780 1 (56 + p / 2) p [7]
    s.modNport p fun q => { q with downs := s.downTimes q.downs }

/-- An UP far port that a reset or a power-off takes goes DOWN with cause POWER (R253). -/
def State.farPower (k : Nat) (s : State) : State :=
  if s.regBits (Reg.fpStatus k) 2 0 ≠ 2 then s
  else
    let s := (s.setField (Reg.fpStatus k) 5 0 (3 + 4 * 8)).raise (.fp k) 3
    s.modFport k fun q => { q with since := s.now, downs := s.downTimes q.downs }

/-- The ports whose own domain or link-die core is among blocks that reset or go off. -/
def State.portsPower (blocks : List Nat) (s : State) : State :=
  let s := ((List.range 12).filter fun p => decide (pdNear p ∈ blocks) || decide (pdLink (p / 2) ∈ blocks)).foldl
    (fun s p => s.nearPower p) s
  ((List.range 6).filter fun k => decide (pdFar k ∈ blocks) || decide (pdLink k ∈ blocks)).foldl (fun s k => s.farPower k) s

/-- The block whose logic holds the state of a channel's sending end: its replays, and that it has failed (R371). -/
def Channel.block : Channel → Nat
  | .control => 93
  | c => clocklessBlock c.die

/-- The channels whose sending end is in a block of a list start afresh. -/
def State.loseChannels (blocks : List Nat) (s : State) : State :=
  { s with
    failedChannels := s.failedChannels.filter fun c => !decide ((channelOf c).block ∈ blocks)
    channelReplays := s.channelReplays.filter fun x => !decide ((channelOf x.1).block ∈ blocks) }

/-- The blocks of a list lose their state; their registers take their reset words and their lock flags clear. Their
crossings close; their ports go DOWN, and a hub's row cache is emptied by the table that its registers still name
(R205, R215); the units it loses are told of after. -/
def State.loseBlocks (cold : Bool) (blocks : List Nat) (s : State) : State :=
  let cause := s.reg Reg.rstCause
  let count := s.reg Reg.rstCount
  let s := s.closeCrossings (blocks.flatMap crossingsAt).dedup
  let s := s.portsPower blocks
  let lost := (hubsIn blocks).map fun j => (j, s.lostUnits j)
  let s := (hubsIn blocks).foldl (fun s j => s.emptyRowCache j) s
  let s := s.loseChannels blocks
  -- no port of the blocks is UP any more when the messages of one go another way
  let s := (blocks.foldl (fun s b => s.loseBlock b) s).loseFlows blocks
  -- what the losses have counted goes with the registers that count it
  let s := { s with regs := RegFile.resetBlock cold blocks s.regs }
  let s := (s.setReg Reg.rstCause cause).setReg Reg.rstCount count
  let s := { s with locked := s.locked.filter fun b =>
    !(decide (b ∈ blocks) || (b == blkRings && decide (92 ∈ blocks))) }
  -- what is told of the reset is told once the registers and the queues that hold it have been reset
  lost.foldl (fun s x => s.tellLost x.1 x.2) s

/-! ### Reaches and ranks (Tables CLK-7 to CLK-9) -/

/-- The blocks a source covers. -/
def ResetSource.cover (r : ResetSource) : List Nat :=
  let n := r.index
  match r.reach with
  | 0 => List.range 97
  | 1 => List.range 48 ++ (List.range 24).map (64 + ·) ++ [92, 93, 94, 95]
  | 2 => (List.range 24).map (64 + ·)
  | 4 =>
    if r.kind = 1 then [n]
    else if r.kind = 2 then [pdHub n, pdPhy n]
    else [pdLink n, pdNear (2 * n), pdNear (2 * n + 1), pdFar n]
  | _ => if r.kind = 4 then [pdNear n] else [pdFar n]

/-- The rank of its reach. -/
def ResetSource.rank (r : ResetSource) : Nat :=
  match r.reach with
  | 0 => 5
  | 1 => 4
  | 2 => 3
  | 4 => 2
  | _ => 1

/-- A block is powered: a domain that is on, K1 while the input is within its rating. -/
def State.powered (s : State) (b : Nat) : Bool := if b = blkK1 then s.inputOk else decide (b ∈ s.on)

/-- K1 has begun to switch a domain on, or it is on: it counts as covered by an episode (R373). -/
def State.counts (s : State) (b : Nat) : Bool := s.powered b || s.rising.any (·.1 == b)

/-- The switched domains in the order of Table CLK-10, orders 2 to 10, after K1. -/
def blockOrder : List Nat :=
  [96, 93, 94, 95, 92] ++ ((List.range 8).flatMap fun j => [48 + j, 56 + j]) ++ [88, 89, 90, 91]
    ++ (List.range 6).map (82 + ·) ++ (List.range 12).map (64 + ·) ++ (List.range 6).map (76 + ·) ++ List.range 48

/-- The order of a wake (Sequence PWB-1): the flash pairs, the compute dies, then the rest as in Table CLK-10. -/
def wakeOrder : List Nat :=
  [88, 89, 90, 91] ++ List.range 48 ++ blockOrder.filter fun b => !decide (b < 48) && !decide (b ∈ [88, 89, 90, 91])

/-- The bit of a domain in PWR_EN and PWR_EN_HI as read back is set, and PROFILE lets domains switch on (R368, R385). -/
def State.wanted (s : State) (b : Nat) : Bool := b != blkK1 && s.requested b && !bitOf (s.reg Reg.clkProfile) 4

/-- Requested domains that are off wait to be switched on, in the order of Table CLK-10 (R383), in a wake in that of
Sequence PWB-1; in Dormant those that it switches off do not. -/
def State.queueOns (s : State) : State :=
  if blkK1 ∈ s.held then s
  else
    let st := s.regBits Reg.pwrStatus 1 0
    let order := if st = 3 then wakeOrder else blockOrder
    { s with switchOns := order.filter fun b =>
        s.wanted b && !s.counts b && !decide (b ∈ s.domFaults) && !((st == 1 || st == 2) && dormantOff b) }

/-! ### Requests for Dormant (R391, R394) -/

/-- The state of PWR_STATUS: 0 ON, 1 ENTERING, 2 DORMANT, 3 WAKING. -/
def State.sleepState (s : State) : Nat := s.regBits Reg.pwrStatus 1 0

/-- Dormant is requested. -/
def State.dormantAsked (s : State) : Bool := s.dormantPin || bitOf (s.reg Reg.pwrCtrl) 0

/-- A change of the requests: entry begins from ON, the wake from ENTERING or DORMANT. -/
def State.dormantStep (s : State) : State :=
  if blkK1 ∈ s.held then s
  else if s.dormantAsked then
    if s.sleepState = 0 then (s.setField Reg.pwrStatus 1 0 1).queueOns else s
  else if s.sleepState = 1 ∨ s.sleepState = 2 then
    (({ s with wakeAt := some s.now }).setField Reg.pwrStatus 1 0 3).queueOns
  else s

/-! ### The end of an episode (R376) -/

/-- An episode ends when no source is asserted and the last block held that can be released has been. A request for
Dormant that is asserted then starts entry afresh (R394). -/
def State.tryEnd (s : State) : State :=
  if !s.inputOk ∨ s.covered = [] ∨ s.sources ≠ [] ∨ s.covered.any (fun b => decide (b ∈ s.held) && (s.counts b || decide (b ∈ s.switchOns)))
  then s
  else
    let s := match s.best with
      | some r => s.setReg Reg.rstCause (r.reach + r.cause * 2 ^ 8 + r.kind * 2 ^ 16 + r.index * 2 ^ 32)
      | none => s
    let s := s.count Reg.rstCount 1
    let s := { s with covered := [], best := none }
    (s.detail 0x0E81 0 63 0xFF (leBytes 8 (s.reg Reg.rstCause) ++ leBytes 4 (s.reg Reg.rstCount))).dormantStep

/-! ### PROFILE (R366 to R370) -/

/-- The PROFILE code of a voltage in mV at 10 µA: ±10 % about the nominal resistors, 0 below 200 Ω, open (Table
CLK-4). -/
def profileCode (mv : Nat) : Option Nat :=
  if mv < 2 then some 0
  else if 9 ≤ mv ∧ mv ≤ 11 then some 1
  else if 20 ≤ mv ∧ mv ≤ 24 then some 2
  else if 43 ≤ mv ∧ mv ≤ 51 then some 3
  else if 90 ≤ mv ∧ mv ≤ 110 then some 4
  else if 198 ≤ mv ∧ mv ≤ 242 then some 5
  else if 423 ≤ mv ∧ mv ≤ 517 then some 6
  else if 2000 ≤ mv ∧ mv ≤ 2700 then some 7
  else none

/-- The initial CLK_CKO.FREQ of a code: two bits per output, 1 100 MHz, 2 156.25 MHz, 3 25 MHz. -/
def ckoInit (code : Nat) : Nat :=
  let pair (a b : Nat) : Nat := a + a * 4 + b * 16 + b * 64
  match code with
  | 0 => 0
  | 1 => pair 1 0
  | 2 => pair 1 1
  | 3 => pair 1 2
  | 4 => pair 2 2
  | 5 => pair 1 1
  | 6 => pair 1 3
  | _ => pair 1 0

/-- K1 senses PROFILE and reads the fuse map (R368, R369). -/
def State.sense (s : State) : State :=
  let mv := min s.profilePin 4095
  let fused := bitOf s.fuses.profileFuse.toNat 3
  let code := if fused then some (s.fuses.profileFuse.toNat % 8) else profileCode mv
  let bad := match code with
    | none => true
    | some c => (c == 5 || c == 6) && bitOf s.fuses.clockDeny.toNat 1
  let c := code.getD 0
  let aligned := !bad && (c == 5 || c == 6)
  let s := s.setReg Reg.clkProfile (c + (if fused then 8 else 0) + (if bad then 16 else 0) + mv * 2 ^ 16)
  let s := s.setReg Reg.fuseClk
    (s.fuses.pinDefault.toNat + s.fuses.profileFuse.toNat * 2 ^ 8 + s.fuses.clockDeny.toNat * 2 ^ 12)
  let s := s.setField Reg.clkStatus 10 10 (if aligned then 1 else 0)
  let s := s.setField Reg.clkCtrl 1 0 (if aligned then 1 else 0)
  let s := s.setReg Reg.clkCko ((List.range 4).foldl (fun v n =>
    if bitOf s.fuses.pinDefault.toNat n then putBits v (2 * n + 1) (2 * n) 1 else v) (if bad then 0 else ckoInit c))
  { s with sensed := true }

/-! ### Asserting and releasing a source (R371 to R376) -/

/-- The QUIET sets of dies that reset or go off are dropped (R354). -/
def State.dropQuiet (cover : List Nat) (s : State) : State :=
  let gone (x : StagedSet) : Bool := x.cls == 0 && decide (x.die ∈ cover)
  let dropped := s.staged.filter gone
  let s := { s with staged := s.staged.filter fun x => !gone x }
  dropped.foldl (fun s x => (s.abortItem x.item Code.resetEnded).raise .hif 3) s

/-- Items on the units a reset covers end with RESET_ENDED (R331); with PD92 covered every item ends without a record. -/
def State.endCovered (cover : List Nat) (s : State) : State :=
  if 92 ∈ cover then
    let s := (s.items.map (·.id)).foldl (fun s id => s.stopGang id) s
    { s with items := [] }
  else
    ((s.itemsOn fun u => u.domains.any (· ∈ cover)).foldl (fun s id => s.abortItem id Code.resetEnded) s).dropQuiet cover

/-- A COLD or WARM reset ends containment, a module-fatal state and Dormant (R394, R417, R418). -/
def State.endStates (reach : Nat) (s : State) : State :=
  if 1 < reach then s
  else
    let s := { s with sources := s.sources.filter fun r => r.cause != 0x41 && r.cause != 0x31 }
    let s := (s.setReg Reg.errContain 0).setReg Reg.errContainPort 0
    let s := if reach = 0 ∨ s.fatal ≠ some 63 then { s with fatal := none } else s
    let s := { s with wakeAt := none }
    s.setField Reg.pwrStatus 1 0 0

/-- A BAD PROFILE keeps every switched domain off (R368). -/
def State.badProfileOff (s : State) : State :=
  if bitOf (s.reg Reg.clkProfile) 4 then { s with on := [], rising := [], switchOns := [] } else s

/-- A source asserts: its blocks are held and lose their state, and the episode takes it (R371, R375, R376). -/
def State.assertBase (r : ResetSource) (s : State) : State :=
  let cov := r.cover
  let cold := r.reach = 0
  let firstCold := cold ∧ blkK1 ∉ s.covered
  let slept := s.regBits Reg.pwrStatus 1 0 ≠ 0
  let s := s.endStates r.reach
  let s := s.endCovered cov
  let s := s.loseBlocks cold cov
  let s := { s with
    sources := s.sources ++ [r]
    best := match s.best with
      | some b => if b.rank < r.rank then some r else some b
      | none => some r
    held := cov.foldl addTo s.held
    covered := cov.foldl addTo s.covered
    retained := { regs := RegFile.resetBlock true cov s.retained.regs,
                  locks := s.retained.locks.filter fun b => !decide (b ∈ cov) } }
  let s := if firstCold then { s with siteTime := 0, timeRuns := false, pllLocked := false } else s
  let s := if cold then s.sense.badProfileOff else s
  if slept ∧ r.reach = 1 then s.queueOns else s

/-- The sources of a cause release. -/
def State.releaseSource (hit : ResetSource → Bool) (s : State) : State :=
  ({ s with sources := s.sources.filter fun r => !hit r }).tryEnd

/-! ### Switching domains off (R383, R384) -/

/-- Domains are switched off: reset and isolation asserted, their state lost as by a reset other than COLD. -/
def State.offBase (ds : List Nat) (s : State) : State :=
  let hit := ds.filter fun b => s.counts b
  let s := s.closeCrossings (hit.flatMap crossingsAt).dedup
  let s := { s with
    on := s.on.filter fun b => !decide (b ∈ ds)
    rising := s.rising.filter fun x => !decide (x.1 ∈ ds)
    switchOns := s.switchOns.filter fun b => !decide (b ∈ ds)
    held := hit.foldl addTo s.held }
  (s.loseBlocks false hit).tryEnd

/-! ### Containment (R417) -/

/-- An item touches the stacks of a hub: it uses the hub's domains, or is a gang with a die at home there whose
certificate counts HBM bytes (log 138). -/
def State.touchesHub (s : State) (j : Nat) (it : Item) : Bool :=
  decide (pdHub j ∈ it.doms)
    || (dType it.desc == 0x03 && (setBitsOf (fld it.desc 32 8) 48).any fun n =>
          homeHub n == j && (s.die n).cert.hbmBytes != 0)

/-- The items that the containment of a unit ends with UNIT_LOST. -/
def State.itemsLost (s : State) (r : ResetSource) : List Nat :=
  (s.items.filter fun i => !i.done
    && (i.units.any (fun u => u.domains.any (· ∈ r.cover)) || (r.kind == 2 && s.touchesHub r.index i))).map (·.id)

/-- A unit is contained: its items end, its bit shows, the event and the record arise, the CONTAIN source asserts. -/
def State.containBase (row : Nat) (r : ResetSource) (die sub : Nat) (where_ : List Byte) (s : State) : State :=
  if s.sources.any fun x => x.cause == r.cause && x.kind == r.kind && x.index == r.index then s
  else
    let s := s.loseUnits (s.itemsLost r)
    let s := s.raiseAt .err (if r.reach = 4 then 4 else 5) die sub
    let s := s.detail 0x1180 2 die sub ([BitVec.ofNat 8 row, 0, 0, 0] ++ where_)
    let s := s.assertBase r
    if r.reach = 4 then s.setReg Reg.errContain (s.reg Reg.errContain ||| 2 ^ die)
    else s.setReg Reg.errContainPort (s.reg Reg.errContainPort ||| 2 ^ (if r.kind = 4 then r.index else 12 + r.index))

/-- A port is contained. -/
def State.containPort (far : Bool) (p : Nat) (s : State) : State :=
  s.containBase 5 { cause := 0x31, reach := 3, kind := if far then 5 else 4, index := p, since := s.now }
    (if far then 56 + p else 56 + p / 2) p []

/-- A port that has gone DOWN FLAP_LIMIT times within 60 s is contained (Table EVT-6 row 5). -/
def State.flapCheck (x : Bool × Nat) (s : State) : State :=
  let n := if x.1 then (s.fport x.2).downs.length else (s.nport x.2).downs.length
  let limit := s.regBits Reg.errCtrl 3 0
  if limit ≠ 0 ∧ limit ≤ n then s.containPort x.1 x.2 else s

/-- A port has gone DOWN once more. -/
def State.flap (far : Bool) (p : Nat) (s : State) : State :=
  let s := if far then s.modFport p fun q => { q with downs := s.downTimes q.downs }
    else s.modNport p fun q => { q with downs := s.downTimes q.downs }
  s.flapCheck (far, p)

/-- The UP ports that blocks which reset or go off take DOWN: far or near, and the port. -/
def State.portsTaken (s : State) (blocks : List Nat) : List (Bool × Nat) :=
  (((List.range 12).filter fun p => s.nearUp p && (decide (pdNear p ∈ blocks) || decide (pdLink (p / 2) ∈ blocks))).map
      fun p => (false, p))
    ++ ((List.range 6).filter fun k => s.regBits (Reg.fpStatus k) 2 0 == 2
        && (decide (pdFar k ∈ blocks) || decide (pdLink k ∈ blocks))).map fun k => (true, k)

/-- A source asserts, and the ports that it has taken DOWN once too often are contained; a COLD or WARM reset, which
ends containment, contains none (log 170). -/
def State.assertSource (r : ResetSource) (s : State) : State :=
  if r.reach < 2 then s.assertBase r
  else (s.portsTaken r.cover).foldl (fun s x => s.flapCheck x) (s.assertBase r)

/-- Domains are switched off, and the ports taken DOWN once too often are contained. -/
def State.switchOff (ds : List Nat) (s : State) : State :=
  (s.portsTaken (ds.filter fun b => s.counts b)).foldl (fun s x => s.flapCheck x) (s.offBase ds)

/-- The same, as a reset of the domains: the QUIET sets of their dies are dropped (R354, R384). -/
def State.powerOff (ds : List Nat) (s : State) : State := (s.dropQuiet (ds.filter fun b => s.counts b)).switchOff ds

/-- A unit is contained, and with it the ports that this has taken DOWN once too often. -/
def State.contain (row : Nat) (r : ResetSource) (die sub : Nat) (where_ : List Byte) (s : State) : State :=
  (s.portsTaken r.cover).foldl (fun s x => s.flapCheck x) (s.containBase row r die sub where_)

/-- A die is contained. -/
def State.containDie (die row : Nat) (where_ : List Byte) (s : State) : State :=
  let (kind, index) := if die < 48 then (1, die) else if die < 56 then (2, die - 48) else (3, die - 56)
  s.contain row { cause := 0x41, reach := 4, kind := kind, index := index, since := s.now } die 0xFF where_

end Sys2Proof.Machine
end

