-- ==== Sys2Proof/Machine/Release.lean ====
section
/-! DEFINITION. Leaving reset: the conditions of R373, and what each block does at its release. -/

namespace Sys2Proof.Machine

/-! ### Ports that begin to train (Sequences NEA-1 and FEX-1, step 1) -/

/-- The cage of a near port shows a cable within reach (R226). -/
def State.reachOk (s : State) (p : Nat) : Bool :=
  let e := s.sur p
  fld e 2 1 == 1 && fld e 4 2 != 0xFFFF && bitOf (fld e 6 1) 2

/-- A near port that is not UP starts Sequence NEA-1: TRAIN, or FAILED with cause REACH. A port that is off, disabled,
without a stable clock, or of a dimension of size 1 does not start. -/
def State.nearStart (p : Nat) (s : State) : State :=
  if !s.live (pdNear p) || !s.live (pdLink (p / 2)) || !bitOf (s.reg (Reg.npCtrl p)) 0 || !s.wire (56 + p / 2) .near
      || s.dimSize (dirOfPort p).1 == 1 then s
  else
    let s := s.modNport p fun q =>
      { downs := q.downs, since := s.now, trainedAt := q.trainedAt.or (some s.now) }
    if s.reachOk p then s.setReg (Reg.npStatus p) 1
    else (s.setReg (Reg.npStatus p) (4 + 1 * 8)).raise .sur 3

/-! ### The wiring plan (R400) -/

/-- The neighbour that the wiring plan gives a near port, where the plan was read and marks it VALID: the twelve u16 from
byte 8 of entry 59 (Table PWB-9; log 162). -/
def State.plannedNeighbour (s : State) (p : Nat) : Option Nat :=
  let e := s.sur 59
  if fld e 2 1 == 1 && bitOf (fld e (8 + 2 * p) 2) 15 then some (fld e (8 + 2 * p) 2 % 512) else none

/-- A neighbour reported in NP_STATUS that differs from the planned one sets PLAN_MISMATCH; the port goes on. -/
def State.checkPlan (p : Nat) (s : State) : State :=
  if (s.plannedNeighbour p).any (· != s.regBits (Reg.npStatus p) 15 7) then s.raise .sur 2 else s

/-- NP_STATUS of a port reports a neighbour: its HELLO passed the wiring check, or failed it. -/
def State.reportsNeighbour (s : State) (p : Nat) : Bool :=
  (s.nport p).wired || s.regBits (Reg.npStatus p) 5 0 == 4 + 3 * 8

/-- The state of a far port: 0 OFF, 1 TRAIN, 2 UP, 3 DOWN, 4 FAILED. -/
def State.fpState (s : State) (k : Nat) : Nat := s.regBits (Reg.fpStatus k) 2 0

/-- The host application codes of 800GAUI-8 and 400GAUI-4, PRESUMED from CMIS (log 18): speed 0 or 1. -/
def appSpeed (app : Nat) : Option Nat :=
  if app = 0x51 ∨ app = 0x52 then some 0 else if app = 0x4F ∨ app = 0x50 then some 1 else none

/-- The seal mode of a far port is SEALED (SEC_PORT_STATUS.MODE = 0). -/
def State.sealed (s : State) (k : Nat) : Bool := !bitOf (s.reg (Reg.secPortStatus k)) 0

/-- The transmit slot and the receive slot of a far port. -/
def State.txSlot (s : State) (k : Nat) : Nat := s.regBits (Reg.secPortStatus k) 1 1
@[inherit_doc State.txSlot] def State.rxSlot (s : State) (k : Nat) : Nat := s.regBits (Reg.secPortStatus k) 2 2

/-- A key slot's state: 0 EMPTY, 1 STANDBY, 2 ACTIVE, 3 DRAINING (Table SEC-1). -/
def State.slotState (s : State) (k slot : Nat) : Nat :=
  s.regBits (Reg.secPortStatus k) (4 + 2 * slot) (3 + 2 * slot)

/-- A key slot takes a state. -/
def State.setSlotState (k slot v : Nat) (s : State) : State :=
  s.setField (Reg.secPortStatus k) (4 + 2 * slot) (3 + 2 * slot) v

/-- NOKEY shows a sealed port with an EMPTY transmit slot. -/
def State.showNoKey (k : Nat) (s : State) : State :=
  s.setField (Reg.secPortStatus k) 7 7 (if s.sealed k && s.slotState k (s.txSlot k) == 0 then 1 else 0)

/-- The speed of the host application that the module in a far port's cage selects: 800GAUI-8 or 400GAUI-4; `none` where
the module is absent, unreadable or advertises neither (R252). -/
def State.moduleSpeed (s : State) (k : Nat) : Option Nat :=
  let e := s.sur (12 + k)
  if fld e 2 1 = 1 then appSpeed (fld e 7 1) else none

/-- A far port that is not UP starts Sequence FEX-1: TRAIN, FAILED with cause OPTICS, or, SEALED with an EMPTY transmit
slot, not at all, with NOKEY (R252, R289). -/
def State.farStart (k : Nat) (s : State) : State :=
  let s := s.showNoKey k
  if !s.live (pdFar k) || !s.live (pdLink k) || !bitOf (s.reg (Reg.fpCtrl k)) 0 || !s.wire (56 + k) .far then s
  else if s.sealed k && s.slotState k (s.txSlot k) == 0 then s.setField (Reg.fpStatus k) 5 0 0
  else
    let s := s.modFport k fun q => { q with since := s.now, lock := false }
    match s.moduleSpeed k with
    | none => s.setField (Reg.fpStatus k) 5 0 (4 + 1 * 8)
    | some speed => (s.setField (Reg.fpStatus k) 5 0 1).setField (Reg.fpStatus k) 6 6 speed

/-- A far port goes DOWN with a cause of Table FEX-9. Its flows stay; its unfinished far items lose their promise
(Table PRM-5 row 2). -/
def State.farDown (k cause : Nat) (s : State) : State :=
  let s := (s.setField (Reg.fpStatus k) 5 0 (3 + cause * 8)).raise (.fp k) 3
  let s := s.modFport k fun q => { q with since := s.now, offRun := 0, sampledAt := none }
  let s := s.voidItems 2 (s.itemsOn fun u => u == .farShare k)
  (s.voidTransfers 2 fun t => t.port == k).flap true k

/-- What the module in a far port's cage is has changed (R252): without a usable one the port is FAILED with cause OPTICS;
with one a port that is OFF, or FAILED for the optics, starts Sequence FEX-1. A port that is disabled, or that its cipher
engine has halted, stays as it is. -/
def State.farOptics (k : Nat) (s : State) : State :=
  let st := s.regBits (Reg.fpStatus k) 5 0
  if !s.live (pdFar k) || !s.live (pdLink k) || !bitOf (s.reg (Reg.fpCtrl k)) 0 || st == 4 + 5 * 8 then s
  else if (s.moduleSpeed k).isSome then (if s.fpState k = 0 ∨ st = 4 + 1 * 8 then s.farStart k else s)
  else if s.fpState k = 0 then s
  else
    let s := if s.fpState k = 2 then s.farDown k 1 else s
    if s.live (pdFar k) && s.live (pdLink k) then s.setField (Reg.fpStatus k) 5 0 (4 + 1 * 8) else s

/-! ### Journals (R190) -/

/-- The address of a die's journal. -/
def State.jbase (s : State) (n : Nat) : Nat := s.regBits (Reg.cobJbase n) 47 12 * 4096

/-- The journal header of a die as Table COB-6 codes it. -/
def State.header (s : State) (n : Nat) : List Byte := s.readHbm (s.jbase n) 256

/-- The header of a die is INVALID (R190). -/
def State.headerInvalid (s : State) (n : Nat) : Bool :=
  let h := s.header n
  !decide (n ∈ s.journalValid) || fld h 0 4 != 0x4C4A4243 || decide (2 < fld h 11 1) || decide (3 < fld h 10 1)
    || fld h 12 2 == 0 || decide (1024 < fld h 12 2)

/-- The header is valid and OPEN: a roll-forward is due. -/
def State.rollfwdDue (s : State) (n : Nat) : Bool := !s.headerInvalid n && fld (s.header n) 11 1 == 1

/-- The Cobbler examines the header: one that is INVALID while its journal-open bit is set is marked so and reported. -/
def State.examineJournal (n : Nat) (s : State) : State :=
  if s.headerInvalid n ∧ n ∈ s.journalOpen then
    let s := if s.hubLive (hubOfHbm (s.jbase n)) then s.writeHbm (s.jbase n + 11) [3] else s
    ({ s with journalOpen := dropFrom s.journalOpen n }).raise (.cob n) 2
  else s

/-! ### Release (R373) -/

/-- The clocked islands that a block holds or crosses into, by die: it waits for their clock-stable wires (log 16). -/
def blockIslands (b : Nat) : List (Nat × Island) :=
  if b < 48 then [(b, .control)]
  else if b < 64 then
    let d := 48 + b % 8
    [(d, .control), (d, .hbmPhy), (d, .onfiPhy)]
  else if b < 76 then [(56 + (b - 64) / 2, .control), (56 + (b - 64) / 2, .near)]
  else if b < 82 then [(56 + (b - 76), .control), (56 + (b - 76), .far)]
  else if b < 88 then (islandsOf (56 + (b - 82))).map fun i => (56 + (b - 82), i)
  else if b < 92 then
    let d := 48 + 2 * (b - 88)
    [(d, .control), (d, .onfiPhy), (d + 1, .control), (d + 1, .onfiPhy)]
  else if b = 92 then [(56, .control), (56, .pcie), (56, .admission)]
  else if b < 96 then [(62, .control), (62, .k0)]
  else [(63, .control), (63, .k1)]

/-- A block earlier in the order does not keep a later block waiting: it is released, off and not being switched on, or
held only by sources that do not cover the later block. -/
def State.passed (s : State) (e b : Nat) : Bool :=
  !decide (e ∈ s.held) || !s.counts e
    || (let l := s.sources.filter fun r => decide (e ∈ r.cover)
        !l.isEmpty && l.all fun r => !decide (b ∈ r.cover))

/-- All the conditions of R373 hold for a block in reset. -/
def State.canRelease (s : State) (b : Nat) : Bool :=
  decide (b ∈ s.held) && s.powered b && s.sources.all (fun r => !decide (b ∈ r.cover))
    && (blockIslands b).all (fun x => s.wire x.1 x.2)
    && (b != blkK1 || (s.pllLocked && bitOf (s.reg Reg.clkStatus) 0))
    && (blockOrder.takeWhile (· != b)).all fun e => s.passed e b

/-- What a block does as it leaves reset: K1 resumes the counters and switches domains on, the security block and the
recorder start up, the PCIe link trains, ports train, a compute die examines its journal. -/
def State.atRelease (b : Nat) (s : State) : State :=
  if b < 48 then s.examineJournal b
  else if b < 64 then s
  else if b < 76 then s.nearStart (b - 64)
  else if b < 82 then s.farStart (b - 76)
  else if b = 94 then s.secStart
  else if b = 95 then s.recStart (decide (blkK1 ∈ s.covered))
  else if b = 92 then
    let rate := Config.pcieRate s.drawCount % 7
    let width := if rate = 0 then 0 else [4, 8, 16].getD (Config.pcieWidth s.drawCount % 3) 4
    let s := (s.setField Reg.hifStatus 4 2 rate).setField Reg.hifStatus 9 5 width
    { s with drawCount := s.drawCount + 1 }
  else if b = blkK1 then
    let s := if s.recorder.resumeDue then s.resumeCounters else s
    s.queueOns
  else s

/-- The retained registers of a domain are restored, with its lock flag, before it is released (R392). -/
def State.restoreRetained (b : Nat) (s : State) : State :=
  let mine := s.retained.regs.filter fun e => (blockAt e.1).any (·.pd == b)
  let s := mine.foldl (fun s e => s.setReg e.1 e.2.toNat) s
  let s := if b ∈ s.retained.locks then { s with locked := addTo s.locked b } else s
  { s with retained := { regs := s.retained.regs.filter fun e => !(blockAt e.1).any (·.pd == b),
                         locks := dropFrom s.retained.locks b } }

/-- BLOCK_RELEASE: a block that meets the conditions leaves reset, its crossings re-pair, and the episode may end. -/
def State.releaseBlock (b : Nat) (s : State) : State :=
  if s.canRelease b then
    let s := s.restoreRetained b
    let s := { s with held := dropFrom s.held b }
    let s := s.pairCrossings (crossingsAt b)
    (s.atRelease b).tryEnd
  else s

/-- The command BLOCK_RELEASE. -/
def execBlockRelease (dt block : Nat) (s : State) : Host.Outcome State Fault Refusal :=
  s.finish dt ((s.advance dt).releaseBlock block)

/-! ### Pairing (Sequence CLK-2) -/

/-- The other side. -/
def otherSide : Side → Side
  | .clocked => .clockless
  | .clockless => .clocked

/-- A side opens once it has the other side's PAIR and its own PAIR_ACK. -/
def CrossSide.settle (e : CrossSide) : CrossSide := { e with opened := e.opened || (e.pairSeen && e.ackSeen) }

/-- The traffic that waited at a crossing resumes once it is open (Sequence CLK-2, step 4): of a near port, of the PCIe
port. -/
def State.resumeCrossing (c : Nat) (s : State) : State :=
  let k := dieOfCrossing c - 56
  if !s.crossUp c then s
  else if c = pcieCrossing then s.hostBack
  else if 56 ≤ dieOfCrossing c ∧ dieOfCrossing c < 62 ∧ (c % 16 = 1 ∨ c % 16 = 2) then s.pump (2 * k + (c % 16 - 1))
  else s

/-- PAIR: a side receives the PAIR that the other side has sent; with the other side's present generation it answers with
PAIR_ACK. -/
def State.pairIn (c : Nat) (side : Side) (gen : Bool) (s : State) : State :=
  match look s.crossings c with
  | none => s
  | some x =>
    if !(x.side side).begun || !(x.side (otherSide side)).begun || (x.side (otherSide side)).gen != gen then s
    else
      let x := x.mod side fun e => { e with pairSeen := true }.settle
      ({ s with crossings := assoc s.crossings c x }.emit (.pair c side gen true)).resumeCrossing c

/-- PAIR_ACK: a side receives an acknowledgement; one with its own present generation counts. -/
def State.pairAckIn (c : Nat) (side : Side) (gen : Bool) (s : State) : State :=
  match look s.crossings c with
  | none => s
  | some x =>
    if !(x.side side).begun || (x.side side).gen != gen then s
    else { s with crossings := assoc s.crossings c (x.mod side fun e => { e with ackSeen := true }.settle) }.resumeCrossing c

/-- The command PAIR: a PAIR of the other side reaches a side. -/
def execPair (dt crossing : Nat) (side : Side) (gen : Bool) (s : State) : Host.Outcome State Fault Refusal :=
  s.finish dt ((s.advance dt).pairIn crossing side gen)

/-- The command PAIR_ACK: a PAIR_ACK reaches a side. -/
def execPairAck (dt crossing : Nat) (side : Side) (gen : Bool) (s : State) : Host.Outcome State Fault Refusal :=
  s.finish dt ((s.advance dt).pairAckIn crossing side gen)

end Sys2Proof.Machine
end

