-- ==== Sys2Proof/Machine/Clock.lean ====
section
/-! DEFINITION. Clock sources, source switches, island clocks, site time, reference outputs, the supply input, the
sideband pins and the RESET commands (chapter 14, R380, R381, R389, R410). -/

namespace Sys2Proof.Machine

/-! ### Clock monitors (R359) -/

/-- The number of a source: 0 LOCAL, 1 HOSTREF, 2 RECOV. -/
def srcIndex : ClockSource → Nat
  | .loc => 0
  | .hostref => 1
  | .recov => 2

/-- The monitor of a source. -/
def State.monitor (s : State) (i : Nat) : Monitor := s.monitors.getD i {}

/-- A source is ready: stable and not DEAD. -/
def State.srcReady (s : State) (i : Nat) : Bool := (s.monitor i).stable && !(s.monitor i).dead

/-- Aligned-clock mode (R366). -/
def State.aligned (s : State) : Bool := bitOf (s.reg Reg.clkStatus) 10

/-- A window whose count lies `ppm` off nominal is good for a source (Table CLK-1); without a stable LOCAL the others are
judged at ±3 %. -/
def windowGood (i : Nat) (coarse aligned : Bool) (ppm : Int) : Bool :=
  if i = 0 ∨ coarse then decide (-30000 ≤ ppm) && decide (ppm ≤ 30000)
  else if i = 1 ∧ !aligned then decide (-5300 ≤ ppm) && decide (ppm ≤ 300)
  else decide (-100 ≤ ppm) && decide (ppm ≤ 100)

/-- A monitor after a window: stable at 64 consecutive good ones, unstable after 2 consecutive bad ones. Edges end DEAD. -/
def Monitor.window (good seen : Bool) (m : Monitor) : Monitor :=
  if good then { good := m.good + 1, bad := 0, stable := m.stable || decide (64 ≤ m.good + 1), dead := false }
  else { good := 0, bad := m.bad + 1, stable := m.stable && decide (m.bad + 1 < 2), dead := m.dead && !seen }

/-- RECOV is present while the near port of CLK_CTRL.RECOV_PORT is UP with FEC lock. -/
def State.recovPresent (s : State) : Bool :=
  let p := s.regBits Reg.clkCtrl 7 4
  decide (p < 12) && s.nearUp p && bitOf (s.reg (Reg.npStatus p)) 6

/-- The step of Sequence CLK-1 is idle. -/
def State.switchIdle (s : State) : Bool := decide (s.switchStep = .idle)

/-- A switch begins: the multiplexer lets go of the old source and the root PLL holds over (Sequence CLK-1, step 2). -/
def State.beginSwitch (dest : Nat) (s : State) : State :=
  let s := s.setField Reg.clkCtrl 1 0 dest
  ({ s with switchStep := .released dest }).setField Reg.clkStatus 8 8 1

/-- The selected source has stopped being ready: with AUTO the root goes to LOCAL, or into holdover where it cannot; it
is in holdover too once its input is DEAD (R360, R363). In aligned-clock mode ALIGN_LOST tells the loss of HOSTREF
(R366). -/
def State.sourceLost (sel : Nat) (s : State) : State :=
  let s := s.raise .clk 3
  let s := if s.aligned && sel == 1 then s.raise .clk 5 else s
  if bitOf (s.reg Reg.clkCtrl) 2 then
    if sel ≠ 0 ∧ s.srcReady 0 then s.beginSwitch 0
    else (s.setField Reg.clkStatus 8 8 1).raise .clk 2
  else s

/-- The source that the root follows, or is relocking to; none while it waits to capture one (Sequence CLK-1, step 3). -/
def State.following (s : State) : Option Nat :=
  match s.switchStep with
  | .idle => some (s.regBits Reg.clkStatus 7 6)
  | .captured d => some d
  | .released _ => none

/-- CLK_STATUS shows the monitors; a source followed that stopped being ready is lost, and one that is DEAD puts the root
in holdover (R360, R363). In aligned-clock mode the first acquisition of HOSTREF starts (R366). -/
def State.afterMonitors (before : Nat) (s : State) : State :=
  let ready := maskOf ((List.range 3).filter s.srcReady)
  let dead := maskOf ((List.range 3).filter fun i => (s.monitor i).dead)
  let s := s.setField Reg.clkStatus 2 0 ready
  let s := s.setField Reg.clkStatus 5 3 dead
  let s := s.setField Reg.clkStatus 9 9 (if (s.monitor 0).stable then 0 else 1)
  let s := match s.following with
    | some sel =>
      if !s.pllLocked then s
      else
        let s := if bitOf before sel && !bitOf ready sel then s.sourceLost sel else s
        if s.switchIdle && bitOf dead (s.regBits Reg.clkStatus 7 6) then s.setField Reg.clkStatus 8 8 1 else s
    | none => s
  if s.pllLocked && s.switchIdle && s.aligned && s.regBits Reg.clkCtrl 1 0 == 1 && s.regBits Reg.clkStatus 7 6 == 0
      && bitOf ready 1 then s.beginSwitch 1
  else s

/-- CLOCK_MONITOR_WINDOW: one 10 µs window of each source. -/
def State.monitorWindow (loc host recov : EdgeCount) (s : State) : State :=
  if !s.inputOk then s
  else
    let before := s.regBits Reg.clkStatus 2 0
    let judge (i : Nat) (coarse : Bool) (c : EdgeCount) (s : State) : State :=
      let good := match c with
        | some ppm => windowGood i coarse s.aligned ppm
        | none => false
      { s with monitors := modAt s.monitors i (Monitor.window good c.isSome) }
    let s := judge 0 false loc s
    let coarse := !(s.monitor 0).stable
    let s := judge 1 coarse host s
    let s := judge 2 coarse (if s.recovPresent then recov else none) s
    s.afterMonitors before

/-- MISSING_EDGE: a source is DEAD, and so unstable. -/
def State.missingEdge (src : ClockSource) (s : State) : State :=
  if !s.inputOk then s
  else
    let before := s.regBits Reg.clkStatus 2 0
    ({ s with monitors := modAt s.monitors (srcIndex src) fun _ => { dead := true } }).afterMonitors before

/-! ### Selecting a source (R363, R364) -/

/-- A source may be selected: ready, not denied by CLOCK_DENY, not RECOV in aligned-clock mode. -/
def State.selectable (s : State) (i : Nat) : Bool :=
  let deny := s.regBits Reg.fuseClk 14 12
  s.srcReady i && !(i == 1 && !s.aligned && bitOf deny 0) && !(i == 2 && (bitOf deny 2 || s.aligned))

/-- The effect of a write of CLK_CTRL: a SEL that may not be selected is refused; a new one, or the old one written
again in holdover, begins a switch. -/
def State.clkCtrl (old new : Nat) (s : State) : State :=
  let sel := bitsOf new 1 0
  let s := s.setReg Reg.clkCtrl (putBits new 1 0 (bitsOf old 1 0))
  if !s.selectable sel then s.raise .clk 0
  else if sel = bitsOf old 1 0 ∧ !(s.switchIdle && bitOf (s.reg Reg.clkStatus) 8) then s
  else s.beginSwitch sel

/-- SOURCE_CAPTURE (step 3): the multiplexer follows the new source once it is ready. -/
def State.capture (s : State) : State :=
  match s.switchStep with
  | .released d => if s.inputOk && s.srcReady d then { s with switchStep := .captured d } else s
  | _ => s

/-- ROOT_RELOCK (step 4): holdover ends, CLK_STATUS.SEL shows the new source, SWITCHED is set. -/
def State.relock (s : State) : State :=
  match s.switchStep with
  | .captured d =>
    if s.inputOk && s.srcReady d then
      let s := ({ s with switchStep := .idle }).setField Reg.clkStatus 7 6 d
      (s.setField Reg.clkStatus 8 8 0).raise .clk 1
    else s
  | _ => s

/-- ROOT_PLL_LOCK: in a COLD episode the root first locks to LOCAL; site time counts, and the POWER_ON source, whose
event has passed, releases (R361, R376, log 19). -/
def State.rootLock (s : State) : State :=
  if s.inputOk && !s.pllLocked && s.srcReady 0 then
    ({ s with pllLocked := true, timeRuns := true }).releaseSource fun r => r.cause == 0x01
  else s

/-! ### Output pins as functions of the state (Table CLK-6, R370, R389, R394, R419) -/

/-- A switched domain is held in reset by an episode. -/
def State.anyHeld (s : State) : Bool :=
  s.covered.any fun b => decide (b < 96) && decide (b ∈ s.held) && (s.counts b || decide (b ∈ s.switchOns))

/-- A switched domain is held in reset, in any episode: until K1's clocked logic is released all of them are (Table
CLK-6). -/
def State.domainHeld (s : State) : Bool := decide (blkK1 ∈ s.held) || s.tripped || s.anyHeld

/-- The level K1's logic gives ALERT_N: true while it is asserted. -/
def State.alertNow (s : State) : Bool :=
  s.inputOk && (!s.sensed || bitOf (s.reg Reg.clkProfile) 4
    || (bitOf (s.reg Reg.fuseClk) 4 && s.domainHeld)
    || (!decide (blkK1 ∈ s.held)
        && ((s.reg Reg.errEvents &&& s.reg Reg.errAlertEn) != 0
            || s.sources.any fun r => r.cause == 0x41 || r.cause == 0x31)))

/-- A source enabled in PWR_WAKE_EN is pending: one of three events, or a request of the firmware, which no command
tells (a free value, log 163). -/
def State.wakePending (s : State) : Bool :=
  (s.reg Reg.pwrEvents &&& s.reg Reg.pwrWakeEn &&& 7) != 0 || (bitOf (s.reg Reg.pwrWakeEn) 3 && Config.firmwareWakes s.now)

/-- The level it gives WAKE_N: while DORMANT, and no block of an episode is held, a source enabled in PWR_WAKE_EN is
pending. -/
def State.wakeNow (s : State) : Bool :=
  s.inputOk && !s.anyHeld && s.regBits Reg.pwrStatus 1 0 == 2 && s.wakePending

/-- The frequency code it gives CKOn: 0 low, 1 100 MHz, 2 156.25 MHz, 3 25 MHz. While blocks are held only an output of
PIN_DEFAULT runs. -/
def State.ckoNow (s : State) (n : Nat) : Nat :=
  if !s.inputOk || !s.sensed then 0
  else if (s.anyHeld || decide (blkK1 ∈ s.held)) && !bitOf (s.reg Reg.fuseClk) n then 0
  else s.regBits Reg.clkCko (2 * n + 1) (2 * n)

/-- The pin ALERT_N is asserted: while K1's island waits its outputs hold their last levels (Table CLK-2). -/
def State.alert (s : State) : Bool := (s.heldPins.map (·.1)).getD s.alertNow

/-- The pin WAKE_N is asserted. -/
def State.wake (s : State) : Bool := (s.heldPins.map (·.2.1)).getD s.wakeNow

/-- The pin CKOn. -/
def State.ckoOut (s : State) (n : Nat) : Nat := (s.heldPins.map (·.2.2.getD n 0)).getD (s.ckoNow n)

/-! ### Island clocks (R365) -/

/-- CLK_ISLAND shows a die's wires: its one bit is set while the wires of all its islands are (DESIGN CHOICE, log 136). -/
def State.showIsland (die : Nat) (s : State) : State :=
  s.setField Reg.clkIsland die die (if (islandsOf die).all (s.wire die) then 1 else 0)

/-- The crossings of an island. -/
def islandCrossings (die : Nat) (i : Island) : List Nat := (crossingsOf die).filter (islandOf · = i)

/-- ISLAND_CLOCK_LOSS: the clock-stable wire of an island clears and its crossings close; K1's outputs hold their
levels. -/
def State.islandLoss (die : Nat) (i : Island) (s : State) : State :=
  if s.inputOk && decide (i ∈ islandsOf die) && s.wire die i then
    let s := if i = .k1 then { s with heldPins := some (s.alert, s.wake, (List.range 4).map s.ckoOut) } else s
    let s := s.closeCrossings (islandCrossings die i)
    let s := { s with wires := s.wires.filter (· ≠ (die, i)) }
    (s.showIsland die).raise .clk 4
  else s

/-- ISLAND_CLOCK_STABLE: the wire is set once the root PLL has locked; outputs are released, crossings re-pair, ports send
what waited. -/
def State.islandSet (die : Nat) (i : Island) (s : State) : State :=
  if s.inputOk && s.pllLocked && decide (i ∈ islandsOf die) && !s.wire die i then
    let s := ({ s with wires := (die, i) :: s.wires }).showIsland die
    let s := if i = .k1 then { s with heldPins := none } else s
    let s := s.pairCrossings (islandCrossings die i)
    if i = .near then (s.pump (2 * (die - 56))).pump (2 * (die - 56) + 1) else s
  else s

/-! ### Reference outputs and site time (R361, R367) -/

/-- A field of CLK_CKO after a write: an output whose setting asks for spread at another frequency than 100 MHz keeps
its old setting (log 20). -/
def ckoMerge (old new : Nat) : Nat × Bool :=
  (List.range 4).foldl (fun a n =>
    let f := bitsOf new (2 * n + 1) (2 * n)
    if bitOf new (8 + n) && f != 1 then
      (putBits (putBits a.1 (2 * n + 1) (2 * n) (bitsOf old (2 * n + 1) (2 * n))) (8 + n) (8 + n) (bitsOf old (8 + n) (8 + n)),
        true)
    else a) ((new, false) : Nat × Bool)

/-- The effect of a word of CLK_CKO, written before the lock or staged after it. -/
def State.cko (old new : Nat) (s : State) : State :=
  let m := ckoMerge old new
  let s := s.setReg Reg.clkCko m.1
  if m.2 then s.raise .clk 6 else s

/-- The effect of a write of CLK_TIME_SET, which the lock fixes (R431): site time takes the value. -/
def State.timeSet (v : Nat) (s : State) : State :=
  ({ s with siteTime := BitVec.ofNat 64 v }).setReg Reg.clkTimeSet v

/-! ### The supply input (R380, R381, R410) -/

/-- The level sources of the pins. -/
def srcPwrgood (t : Nat) : ResetSource := { cause := 0x02, reach := 0, kind := 0, index := 0, since := t }
@[inherit_doc srcPwrgood] def srcPerst (t : Nat) : ResetSource := { cause := 0x10, reach := 1, kind := 0, index := 0, since := t }

/-- INPUT_ENTERS_RATING: the retention logic takes its reset values, POWER_ON asserts, and with it the sources of pins
that are low; PROFILE is sensed. -/
def State.inputEnters (profileMv : Nat) (s : State) : State :=
  if s.inputOk then s
  else
    let s := { s with
      inputOk := true
      profilePin := profileMv
      journalOpen := []
      recorder := { posEvents := 0 }
      sources := []
      covered := []
      best := none
      on := []
      rising := []
      switchOns := []
      retained := {}
      held := List.range 97 }
    let s := (s.setReg Reg.rstCause 0x100).setReg Reg.rstCount 0
    let s := s.assertSource { cause := 0x01, reach := 0, kind := 0, index := 0, since := s.now }
    let s := if s.pwrgood then s else s.assertSource (srcPwrgood s.now)
    if s.perstN then s else s.assertSource (srcPerst s.now)

/-- The die with the highest TEMP_DIE reading. -/
def State.hottest (s : State) : Nat :=
  (List.range 64).foldl (fun b n => if s.tempOf b < s.tempOf n then n else b) 0

/-- INPUT_LEAVES_RATING: every switched domain goes off; K1 writes INPUT_LOSS and a CLEAN counter entry, then loses its
supply. -/
def State.inputLeaves (s : State) : State :=
  if !s.inputOk then s
  else
    let hot := s.hottest
    let r : EventRec :=
      { sev := 2, kwrite := true, code := 0x0F80, die := 63, sub := 0xFF, siteTime := s.time, firstAt := s.now,
        detail := leBytes 2 (s.regBits Reg.pwrAvg 15 0) ++ leBytes 2 (s.regBits (Reg.tempDie hot) 15 0) ++ leBytes 1 hot }
    let s := s.endCovered (List.range 97)
    let s := { s with sources := [], covered := [], best := none }
    let s := s.powerOff (List.range 96)
    let s := s.k1Alone fun s => (s.recordNow r).counterEntry true
    let s := s.loseBlocks true (List.range 97)
    { s with
      inputOk := false
      timeRuns := false
      siteTime := 0
      pllLocked := false
      sensed := false
      tripped := false
      wakeAt := none
      fatal := none
      held := List.range 97 }

/-! ### Pins (R372, R395) -/

/-- PWRGOOD goes low. What the carrier has put on the PROFILE pin by then, which K1 senses anew, is a free value (R368;
log 161). -/
def State.pwrgoodLow (s : State) : State :=
  if !s.pwrgood then s
  else
    let mv := Config.profileMv s.drawCount % 65536
    let s := { s with pwrgood := false, profilePin := mv, drawCount := s.drawCount + 1 }
    if s.inputOk then s.assertSource (srcPwrgood s.now) else s

/-- PWRGOOD goes high. -/
def State.pwrgoodHigh (s : State) : State :=
  ({ s with pwrgood := true }).releaseSource fun r => r.cause == 0x02

/-- PERST_N goes low. -/
def State.perstLow (s : State) : State :=
  if !s.perstN then s
  else
    let s := { s with perstN := false }
    if s.inputOk then s.assertSource (srcPerst s.now) else s

/-- PERST_N goes high. -/
def State.perstHigh (s : State) : State :=
  ({ s with perstN := true }).releaseSource fun r => r.cause == 0x10

/-! ### Thermal trip (R389, R410) -/

/-- THERMAL_TRIP: THERMTRIP asserts COLD, every switched domain goes off at once, K1 writes a THERMTRIP record. -/
def State.thermalTrip (die : Nat) (s : State) : State :=
  if !s.inputOk || s.tripped || 64 ≤ die then s
  else
    let r : EventRec :=
      { sev := 3, kwrite := true, code := 0x0F81, die := die, sub := 0xFF, siteTime := s.time, firstAt := s.now,
        detail := leBytes 2 (s.regBits (Reg.tempDie die) 15 0) }
    let s := { s with tripped := true, coolSince := none }
    let s := s.assertSource { cause := 0x03, reach := 0, kind := 0, index := 0, since := s.now }
    (s.powerOff (List.range 96)).k1Alone (·.recordNow r)

/-- THERMTRIP_RELEASE: every junction has read below 95 °C for 1 s. -/
def State.thermRelease (s : State) : State :=
  match s.coolSince with
  | some t =>
    if s.tripped ∧ t + 1000000000 ≤ s.now then
      ({ s with tripped := false }).releaseSource fun r => r.cause == 0x03
    else s
  | none => s

/-! ### RESET commands (R372) -/

/-- The target of a RESET descriptor is one of Table CLK-9 for its reach. -/
def resetTargetOk (reach kind index : Nat) : Bool :=
  if reach < 3 then kind == 0 && index == 0
  else if reach = 4 then
    (kind == 1 && decide (index < 48)) || (kind == 2 && decide (index < 8)) || (kind == 3 && decide (index < 6))
  else if reach = 3 then (kind == 4 && decide (index < 12)) || (kind == 5 && decide (index < 6))
  else false

/-- The cause code of a RESET command of a reach (Table CLK-8). -/
def resetCause (reach : Nat) : Nat :=
  match reach with
  | 0 => 0x04
  | 1 => 0x11
  | 2 => 0x20
  | 4 => 0x40
  | _ => 0x30

/-- The checks of a RESET descriptor: it books no unit and reserves no power. -/
def resetCheck : ItemCheck := fun _ d =>
  if !zeroIn d 36 96 || !resetTargetOk (fld d 32 1) (fld d 33 1) (fld d 34 2) then .error { code := Code.malformed }
  else .ok {}

/-- Its effect at T_s: the source asserts, and the item is done. -/
def resetStart : ItemStart := fun it s =>
  let d := it.desc
  let s := s.itemDone it.id Code.ok []
  s.assertSource { cause := resetCause (fld d 32 1), reach := fld d 32 1, kind := fld d 33 1, index := fld d 34 2,
                   since := s.now }

/-- A RESET command's source. -/
def ResetSource.isCommand (r : ResetSource) : Bool := decide (r.cause ∈ [0x04, 0x11, 0x20, 0x40, 0x30])

/-- RESET_COMMAND_RELEASE: the sources of RESET commands asserted for 10 µs release. -/
def State.commandRelease (s : State) : State :=
  if s.sources.any (fun r => r.isCommand && decide (r.since + 10000 ≤ s.now)) then
    let now := s.now
    s.releaseSource fun r => r.isCommand && decide (r.since + 10000 ≤ now)
  else s

/-! ### The commands -/

/-- The command SOURCE_SELECT: a BAR0 write of CLK_CTRL. -/
def execSourceSelect (dt : Nat) (v : Word) (s : State) : Host.Outcome State Fault Refusal :=
  s.finish dt (State.barWith (fun _ old new _ s => s.clkCtrl old new) Reg.clkCtrl false v.toNat (s.advance dt))

/-- The command SOURCE_CAPTURE. -/
def execSourceCapture (dt : Nat) (s : State) : Host.Outcome State Fault Refusal :=
  s.finish dt (s.advance dt).capture

/-- The command ROOT_RELOCK. -/
def execRootRelock (dt : Nat) (s : State) : Host.Outcome State Fault Refusal :=
  s.finish dt (s.advance dt).relock

/-- The command CLOCK_MONITOR_WINDOW. -/
def execClockMonitorWindow (dt : Nat) (loc host recov : EdgeCount) (s : State) : Host.Outcome State Fault Refusal :=
  s.finish dt ((s.advance dt).monitorWindow loc host recov)

/-- The command MISSING_EDGE. -/
def execMissingEdge (dt : Nat) (src : ClockSource) (s : State) : Host.Outcome State Fault Refusal :=
  s.finish dt ((s.advance dt).missingEdge src)

/-- The command ISLAND_CLOCK_LOSS. -/
def execIslandClockLoss (dt : Nat) (island : Nat × Island) (s : State) : Host.Outcome State Fault Refusal :=
  s.finish dt ((s.advance dt).islandLoss island.1 island.2)

/-- The command ISLAND_CLOCK_STABLE. -/
def execIslandClockStable (dt : Nat) (island : Nat × Island) (s : State) : Host.Outcome State Fault Refusal :=
  s.finish dt ((s.advance dt).islandSet island.1 island.2)

/-- The command CLK_CKO: a BAR0 write of it. -/
def execClkCko (dt : Nat) (v : Word) (s : State) : Host.Outcome State Fault Refusal :=
  s.finish dt (State.barWith (fun _ old new _ s => s.cko old new) Reg.clkCko false v.toNat (s.advance dt))

/-- The command CLK_TIME_SET: a BAR0 write of it. -/
def execClkTimeSet (dt : Nat) (v : DWord) (s : State) : Host.Outcome State Fault Refusal :=
  s.finish dt (State.barWith (fun _ _ _ v s => s.timeSet v) Reg.clkTimeSet true v.toNat (s.advance dt))

/-- The command ROOT_PLL_LOCK. -/
def execRootPllLock (dt : Nat) (s : State) : Host.Outcome State Fault Refusal :=
  s.finish dt (s.advance dt).rootLock

/-- The command INPUT_ENTERS_RATING. -/
def execInputEntersRating (dt profileMv : Nat) (s : State) : Host.Outcome State Fault Refusal :=
  s.finish dt ((s.advance dt).inputEnters profileMv)

/-- The command INPUT_LEAVES_RATING. -/
def execInputLeavesRating (dt : Nat) (s : State) : Host.Outcome State Fault Refusal :=
  s.finish dt (s.advance dt).inputLeaves

/-- The command PWRGOOD_DEASSERT. -/
def execPwrgoodDeassert (dt : Nat) (s : State) : Host.Outcome State Fault Refusal :=
  s.finish dt (s.advance dt).pwrgoodLow

/-- The command PWRGOOD_ASSERT. -/
def execPwrgoodAssert (dt : Nat) (s : State) : Host.Outcome State Fault Refusal :=
  s.finish dt (s.advance dt).pwrgoodHigh

/-- The command PERST_ASSERT. -/
def execPerstAssert (dt : Nat) (s : State) : Host.Outcome State Fault Refusal :=
  s.finish dt (s.advance dt).perstLow

/-- The command PERST_DEASSERT. -/
def execPerstDeassert (dt : Nat) (s : State) : Host.Outcome State Fault Refusal :=
  s.finish dt (s.advance dt).perstHigh

/-- The command THERMAL_TRIP. -/
def execThermalTrip (dt die : Nat) (s : State) : Host.Outcome State Fault Refusal :=
  s.finish dt ((s.advance dt).thermalTrip die)

/-- The command THERMTRIP_RELEASE. -/
def execThermtripRelease (dt : Nat) (s : State) : Host.Outcome State Fault Refusal :=
  s.finish dt (s.advance dt).thermRelease

/-- The command RESET_COLD. -/
def execResetCold (dt : Nat) (s : State) : Host.Outcome State Fault Refusal :=
  s.finish dt (State.decideRow (0x41, 0) resetCheck resetStart (s.advance dt))

/-- The command RESET_WARM. -/
def execResetWarm (dt : Nat) (s : State) : Host.Outcome State Fault Refusal :=
  s.finish dt (State.decideRow (0x41, 1) resetCheck resetStart (s.advance dt))

/-- The command RESET_FABRIC. -/
def execResetFabric (dt : Nat) (s : State) : Host.Outcome State Fault Refusal :=
  s.finish dt (State.decideRow (0x41, 2) resetCheck resetStart (s.advance dt))

/-- The command RESET_UNIT. -/
def execResetUnit (dt : Nat) (s : State) : Host.Outcome State Fault Refusal :=
  s.finish dt (State.decideRow (0x41, 4) resetCheck resetStart (s.advance dt))

/-- The command RESET_PORT. -/
def execResetPort (dt : Nat) (s : State) : Host.Outcome State Fault Refusal :=
  s.finish dt (State.decideRow (0x41, 3) resetCheck resetStart (s.advance dt))

/-- The command RESET_COMMAND_RELEASE. -/
def execResetCommandRelease (dt : Nat) (s : State) : Host.Outcome State Fault Refusal :=
  s.finish dt (s.advance dt).commandRelease

end Sys2Proof.Machine
end

