-- ==== Sys2Proof/Machine/Gate.lean ====
section
/-! DEFINITION. Group records (R235), the step-finite gate and the clip factor (R150 to R158, R178, R191, R247), and
holds on version slots that software drops (R165). -/

namespace Sys2Proof.Machine

/-! ### Group records (Table NEA-5) -/

/-- A group record. -/
structure GroupRec where
  id : Nat
  size : Nat
  self : Nat
  propagate : Bool
  gate : Bool
  epoch : Nat
  members : List Nat
  orders : List (List Nat)
  /-- entry map: version-table entry and compute die of each logical entry -/
  entries : List (Nat × Nat)
  /-- every reserved bit is 0 -/
  clean : Bool := true
  deriving DecidableEq, Repr

/-- An address on the next boundary of 8 bytes. -/
def up8 (a : Nat) : Nat := (a + 7) / 8 * 8

/-- `n` u16 at an HBM address. -/
def State.u16s (s : State) (a n : Nat) : List Nat :=
  (List.range n).map fun i => leNat (s.readHbm (a + 2 * i) 2)

/-- The group record at an HBM address, and the address after it. Its sections lie on boundaries of 8 bytes. -/
def State.groupAt (s : State) (a : Nat) : GroupRec × Nat :=
  let h := s.readHbm a 64
  let n := fld h 2 2
  let r := fld h 6 1
  let e := fld h 12 2
  let m := a + 64
  let o := up8 (m + 2 * n)
  let x := up8 (o + 2 * n * r)
  ({ id := fld h 0 2, size := n, self := fld h 4 2, propagate := bitOf (fld h 7 1) 0, gate := bitOf (fld h 7 1) 1,
     epoch := fld h 8 4, members := s.u16s m n, orders := (List.range r).map fun i => s.u16s (o + 2 * n * i) n,
     entries := (s.u16s x e).map fun v => (bitsOf v 5 0, bitsOf v 11 6),
     clean := decide (fld h 7 1 < 4) && zeroIn h 14 64 && ((s.u16s m n).all fun v => decide (v < 0x200))
       && (s.u16s x e).all fun v => decide (v < 0x1000) },
   up8 (x + 2 * e))

/-- The records of the table at NEA_GROUPS, one after another. -/
def State.groupsGo (s : State) : Nat → Nat → List GroupRec
  | 0, _ => []
  | n + 1, a => let (g, b) := s.groupAt a; g :: s.groupsGo n b

/-- The group records. -/
def State.groups (s : State) : List GroupRec :=
  s.groupsGo (s.regBits Reg.neaGroups 50 48) (s.regBits Reg.neaGroups 47 12 * 4096)

/-- The record of a group. -/
def State.group? (s : State) (id : Nat) : Option GroupRec := s.groups.find? (·.id == id)

/-- The coordinates of a member. -/
def GroupRec.member (g : GroupRec) (i : Nat) : Nat := g.members.getD i 0

/-- The gate group, where the table holds one with more than one member (R153). -/
def State.gateGroup (s : State) : Option GroupRec := (s.groups.find? (·.gate)).filter fun g => decide (1 < g.size)

/-- This module leads its gate group. A group of one is its own leader. -/
def State.leads (s : State) : Bool := match s.gateGroup with
  | none => true
  | some g => g.self == 0

/-! ### Bounds (R324, R400) -/

/-- The longest near cable in decimetres, over the READ cages whose ports are not OFF (R400). -/
def State.longestCable (s : State) : Nat :=
  (List.range 12).foldl (fun a p =>
    let e := s.sur p
    if fld e 2 1 = 1 ∧ s.npState p ≠ 0 ∧ fld e 4 2 ≠ 0xFFFF then max a (fld e 4 2) else a) 0

/-- τ_adm of the slowest link die, in 0.01 ps. -/
def State.linkTau (s : State) : Nat := (List.range 6).foldl (fun a k => max a (s.tau (56 + k))) 0

/-- The slowest link die. -/
def State.slowLink (s : State) : Nat :=
  ((List.range 6).foldl (fun (a : Nat × Nat) k => if a.2 < s.tau (56 + k) then (56 + k, s.tau (56 + k)) else a)
    ((56, 0) : Nat × Nat)).1

/-- The link dies that are on: the τ_adm of each enters a bound that takes the slowest (R328). -/
def State.linkDiesOn (s : State) : List Nat := ((List.range 6).filter fun k => s.live (pdLink k)).map (56 + ·)

/-- The torus distance between two modules. -/
def State.torusDist (s : State) (a b : Nat) : Nat :=
  (List.range 3).foldl (fun h i =>
    let n := s.dimSize i
    let d := (coordOf b i + n - coordOf a i) % n
    h + min d (n - d)) 0

/-- The hop terms of R249 and R324 over a number of hops, in nanoseconds rounded up: 1.0 µs scaled by τ_adm ÷ 1.82 ns,
and 5.0 ns a metre. -/
def State.hopNs (s : State) (hops : Nat) : Nat :=
  ceilDiv (hops * (1000 * s.linkTau * 2 + 182000 * s.longestCable)) (182000 * 2)

/-- B_g of this module (R324), in nanoseconds; 0 in a gate group of one. -/
def State.gateBound (s : State) : Nat := match s.gateGroup with
  | none => 0
  | some g => 250000 + s.hopNs (s.torusDist s.coord (g.member 0))

/-- GATE_CTRL.LIMIT in nanoseconds. -/
def State.gateLimit (s : State) : Nat := s.regBits Reg.gateCtrl 23 0 * 1000

/-! ### Verdicts (R152 to R157) -/

/-- An update run of the module is in progress (R247). -/
def State.updating (s : State) : Bool := s.dies.any fun d => d.cob.isSome

/-- The norm partial of the module: the step of its latest closed update run, and the sum of that run's die partials
(R178, R247). -/
def State.normPartial (s : State) : Nat × Int :=
  let k := s.norms.foldl (fun a x => max a x.2.1) 0
  (k, s.norms.foldl (fun a x => if x.2.1 = k then a + x.2.2 else a) 0)

/-- c_k from a sum of squares in units of 2^−298 (R178 steps 4 and 5). -/
def State.clipOf (s : State) (sum : Int) : Word :=
  let n := fsqrt (toBits (ofDyadic sum (-298)))
  let c := BitVec.ofNat 32 (s.reg Reg.cobClipnorm)
  if (ofBits c).isZero || (!(ofBits n).isNan && decide ((ofBits n).key ≤ (ofBits c).key)) then 0x3F800000#32
  else fdiv c n

/-- The module's verdict is formed: it takes c_k where the group's verdict brings it; OPEN advances COB_STEP (R191);
CLOSED counts and records its causes, bits of GATE_EVENTS (R157). -/
def State.takeVerdict (opened : Bool) (causes : List Nat) (clip : Option Word) (s : State) : State :=
  let s := match clip with
    | some c => s.setReg Reg.cobClip c.toNat
    | none => s
  if opened then
    let s := s.setField Reg.gateStatus 1 0 2
    s.setReg Reg.cobStep ((s.reg Reg.cobStep + 1) % 2 ^ 48)
  else
    let s := (s.setField Reg.gateStatus 1 0 3).count Reg.gateClosedCount 1
    causes.foldl (fun s b => s.raise .gate b) s

/-- The verdict of a gate group of one: c_k comes from the module's own partial (R153, R178). -/
def State.selfVerdict (opened : Bool) (cause : Nat) (s : State) : State :=
  s.takeVerdict opened [cause] (some (s.clipOf s.normPartial.2))

/-- The body of a GATE_GROUP (Table NEA-10). -/
def gateGroupBody (seq : Nat) (opened : Bool) (cause : Nat) (clip : Word) (nstep : Nat) : List Byte :=
  leBytes 2 seq ++ [if opened then 2 else 3, BitVec.ofNat 8 cause] ++ leBytes 4 clip.toNat ++ leBytes 6 nstep ++ [0, 0]

/-- The leader forms the group verdict from the reports it holds: it takes it, and sends it to every other member. -/
def State.groupVerdict (g : GroupRec) (opened : Bool) (cause : Nat) (s : State) : State :=
  let k := s.reports.foldl (fun a r => max a r.2.2.1) 0
  let mixed := s.reports.any fun r => r.2.2.1 != k
  let sum := s.reports.foldl (fun a r => a + r.2.2.2) 0
  let clip := if mixed then 0x3F800000#32 else s.clipOf sum
  let seq := s.regBits Reg.gateStatus 31 16
  let s := if mixed then s.raise .nea 4 else s
  let s := s.takeVerdict opened [cause] (some clip)
  ((List.range g.size).filter (· != g.self)).foldl (fun s i =>
    s.sendNear 5 0 (g.member i) g.id 0 0 (gateGroupBody seq opened (if opened then 0 else 2 ^ cause) clip k)) s

/-- The leader holds a member's report; the first CLOSED closes the verdict, and the last OPEN opens it. -/
def State.takeReport (g : GroupRec) (member : Nat) (opened : Bool) (nstep : Nat) (norm : Int) (s : State) : State :=
  if s.verdict ≠ 1 ∨ s.reports.any (fun r => r.1 == member) then s
  else
    let s := { s with reports := s.reports ++ [(member, opened, nstep, norm)] }
    if !opened then s.groupVerdict g false 0
    else if (List.range g.size).all fun i => s.reports.any fun r => r.1 == i then s.groupVerdict g true 0
    else s

/-- The module's gate is armed (R155): a new sequence, cleared loss boards, PENDING; with no loss slot anywhere the
local verdict is OPEN at once (R152). -/
def State.armGate (s : State) : State :=
  let seq := s.regBits Reg.gateStatus 31 16
  let past := if s.verdict = 0 then s.pastVerdicts else (seq, s.verdict == 2) :: s.pastVerdicts
  let clear (d : Die) : Die := { d with losses := [] }
  let s := { s with
    pastVerdicts := past
    dies := s.dies.map clear
    localVerdict := none
    localSent := false
    reports := []
    armedAt := s.now }
  let s := s.setReg Reg.gateStatus (1 + (if s.leads then 4 else 0) + (seq + 1) % 65536 * 65536)
  s.formLocal

/-! ### Messages in hand -/

/-- The first message of a type that has come in, taken out (log 24). -/
def State.takeMsg (typ : Nat) (s : State) : Option (NearMsg × State) :=
  match s.inbox.find? (·.typ == typ) with
  | none => none
  | some m => some (m, { s with inbox := s.inbox.erase m })

/-! ### The commands' effects -/

/-- GATE_LOCAL_SEND: the local verdict, once formed and with no update run in progress, goes to the leader; the leader's
own is held at once. -/
def State.gateLocalSend (s : State) : State :=
  let s := s.formLocal
  match s.gateGroup, s.localVerdict with
  | some g, some opened =>
    if s.verdict ≠ 1 ∨ s.localSent ∨ s.updating ∨ !s.live 92 then s
    else
      let (k, norm) := s.normPartial
      let s := { s with localSent := true }
      if g.self = 0 then s.takeReport g 0 opened k norm
      else
        let body := leBytes 2 (s.regBits Reg.gateStatus 31 16) ++ [if opened then 2 else 3, 0] ++ leBytes 6 k ++ zeros 6
          ++ leBytes 80 (twos 640 norm)
        s.sendNear 4 0 (g.member 0) g.id 0 0 body
  | _, _ => s

/-- GATE_SELF_VERDICT: a gate group of one forms its verdict. -/
def State.gateSelf (s : State) : State :=
  let s := s.formLocal
  match s.gateGroup, s.localVerdict with
  | none, some opened => if s.verdict ≠ 1 ∨ s.updating ∨ !s.live 92 then s else s.selfVerdict opened 0
  | _, _ => s

/-- GATE_LOCAL: the leader receives a member's report. One of another sequence is dropped. -/
def State.gateLocalIn (s : State) : State :=
  match s.takeMsg 4 with
  | none => s
  | some (m, s) =>
    match s.gateGroup with
    | none => s.count Reg.neaEpochDrops 1
    | some g =>
      if g.self ≠ 0 ∨ fld m.body 0 2 ≠ s.regBits Reg.gateStatus 31 16 then s.count Reg.neaEpochDrops 1
      else match g.members.idxOf? m.src with
        | none => s.count Reg.neaEpochDrops 1
        | some i => s.takeReport g i (fld m.body 2 1 == 2) (fld m.body 4 6) (signed 640 (fld m.body 16 80))

/-- GATE_GROUP: a member takes the group's verdict and c_k. One of another sequence is dropped. -/
def State.gateGroupIn (s : State) : State :=
  match s.takeMsg 5 with
  | none => s
  | some (m, s) =>
    if fld m.body 0 2 ≠ s.regBits Reg.gateStatus 31 16 then s.count Reg.neaEpochDrops 1
    else if s.verdict ≠ 1 then s
    else
      let cause := fld m.body 3 1
      s.takeVerdict (fld m.body 2 1 == 2) ([0, 1].filter (bitOf cause)) (some (BitVec.ofNat 32 (fld m.body 4 4)))

/-- GATE_LIMIT: the limit after the leader's arm has passed with a verdict missing. -/
def State.gateLimitPast (s : State) : State :=
  if s.verdict ≠ 1 ∨ s.now < s.armedAt + s.gateLimit ∨ !s.live 92 then s
  else match s.gateGroup with
    | none => s.selfVerdict false 1
    | some g => if g.self = 0 then s.groupVerdict g false 1 else s

/-- CLOSED_NOLEADER: a member still without a verdict closes its own (R154). -/
def State.closeAlone (s : State) : State :=
  if s.verdict ≠ 1 ∨ s.leads ∨ s.now < s.armedAt + s.gateLimit + 2 * s.gateBound ∨ !s.live 92 then s
  else s.takeVerdict false [4] none

/-- VT_DROP: the holds of the tags written are released in every entry (R165). -/
def State.dropHolds (n v : Nat) (s : State) : State :=
  (List.range 64).foldl (fun s e =>
    if s.reg (vtHold n e 0) = 0 ∧ s.reg (vtHold n e 1) = 0 then s
    else
      let s := s.setReg (vtHold n e 0) (s.reg (vtHold n e 0) &&& (2 ^ 64 - 1 - v))
      let s := s.setReg (vtHold n e 1) (s.reg (vtHold n e 1) &&& (2 ^ 64 - 1 - v))
      s.showRefs n e) s

/-! ### Commands -/

/-- GATE_LOCAL_SEND (R247). -/
def execGateLocalSend (dt : Nat) (s : State) : Host.Outcome State Fault Refusal :=
  s.finish dt (s.advance dt).gateLocalSend

/-- GATE_SELF_VERDICT (R153). -/
def execGateSelfVerdict (dt : Nat) (s : State) : Host.Outcome State Fault Refusal :=
  s.finish dt (s.advance dt).gateSelf

/-- GATE_LOCAL (R153). -/
def execGateLocal (dt : Nat) (s : State) : Host.Outcome State Fault Refusal :=
  s.finish dt (s.advance dt).gateLocalIn

/-- GATE_GROUP (R153). -/
def execGateGroup (dt : Nat) (s : State) : Host.Outcome State Fault Refusal :=
  s.finish dt (s.advance dt).gateGroupIn

/-- GATE_LIMIT (R153). -/
def execGateLimit (dt : Nat) (s : State) : Host.Outcome State Fault Refusal :=
  s.finish dt (s.advance dt).gateLimitPast

/-- CLOSED_NOLEADER (R154). -/
def execClosedNoleader (dt : Nat) (s : State) : Host.Outcome State Fault Refusal :=
  s.finish dt (s.advance dt).closeAlone

/-- VT_DROP (R165): a BAR0 write of a die's VT_DROP. -/
def execVtDrop (dt die : Nat) (v : DWord) (s : State) : Host.Outcome State Fault Refusal :=
  let t := s.advance dt
  s.finish dt (if die < 48 then State.barWith (fun _ _ _ v s => s.dropHolds die v) (Reg.vtDrop die) true v.toNat t else t)

end Sys2Proof.Machine
end

