-- ==== Sys2Proof/Machine/Buckets.lean ====
section
/-! DEFINITION. Working-copy planes (R173), bucket records (R236, R237), version slots as their writers see them
(R163). -/

namespace Sys2Proof.Machine

/-! ### Bytes at a tile address -/

/-- Bytes at a tile address as die n's units see it; zeros where no window lies. -/
def State.readTile (s : State) (n a len : Nat) : List Byte :=
  match rangeOf n a len with
  | some p => s.readAt n p len
  | none => zeros len

/-- Bytes written at a tile address; nothing where no window lies, nor where the store behind it is not usable (R31). -/
def State.writeTile (n a : Nat) (bs : List Byte) (s : State) : State :=
  match rangeOf n a bs.length with
  | some p => if s.placePowered n p bs.length then s.writeAt n p bs else s
  | none => s

/-- A range is one that MOVE may name in HBM or in the stock SRAM of any die, and is powered (R113, R246). -/
def State.copyRangeOk (s : State) (n a len : Nat) : Bool :=
  match rangeOf n a len with
  | some p => (match p.space with
    | .hbm => true
    | .sram _ => true
    | _ => false) && s.placePowered n p len
  | none => false

/-! ### Planes of a working copy (R173) -/

/-- The working copy of an entry: format (0 H4, 1 B8, 2 G16), TWIN, entry rectangle. -/
structure WGeom where
  fmt : Nat
  twin : Bool
  er0 : Nat
  ers : Nat
  ec0 : Nat
  ecs : Nat
  deriving DecidableEq, Repr

/-- Payload bytes and scale bytes of `n` elements of a stored row. -/
def rowBytes (fmt n : Nat) : Nat × Nat :=
  if fmt = 0 then (n / 2, n / 16) else if fmt = 1 then (n, n / 32) else (2 * n, 0)

/-- The next boundary of 64 bytes. -/
def up64 (a : Nat) : Nat := (a + 63) / 64 * 64

/-- Stored rows of an orientation (0 W_f, 1 W_b), and elements of each. -/
def WGeom.rowsOf (g : WGeom) (o : Nat) : Nat × Nat := if o = 0 then (g.ecs, g.ers) else (g.ers, g.ecs)

/-- Where an orientation's payload plane and scale plane begin, and the byte after them. -/
def WGeom.plane (g : WGeom) (o start : Nat) : Nat × Nat × Nat :=
  let (n, len) := g.rowsOf o
  let (p, c) := rowBytes g.fmt len
  let sc := up64 (start + n * p)
  (start, sc, sc + n * c)

/-- The planes of both orientations. -/
def WGeom.planes (g : WGeom) : (Nat × Nat × Nat) × (Nat × Nat × Nat) :=
  let f := g.plane 0 0
  (f, g.plane 1 (up64 f.2.2))

/-- The bytes of the working copy. -/
def WGeom.size (g : WGeom) : Nat := if g.twin then g.planes.2.2.2 else g.planes.1.2.2

/-- The orientations an entry holds. -/
def WGeom.orients (g : WGeom) : List Nat := if g.twin then [0, 1] else [0]

/-- Where element v of stored row u of an orientation lies (absolute feature numbers): payload offset, scale offset. -/
def WGeom.spot (g : WGeom) (o u v : Nat) : Nat × Nat :=
  let (p0, s0, _) := if o = 0 then g.planes.1 else g.planes.2
  let (u0, v0) := if o = 0 then (g.ec0, g.er0) else (g.er0, g.ec0)
  let (p, c) := rowBytes g.fmt (g.rowsOf o).2
  let (a, b) := rowBytes g.fmt (v - v0)
  (p0 + (u - u0) * p + a, s0 + (u - u0) * c + b)

/-- A rectangle of input and output features. -/
structure Rect where
  r0 : Nat
  rows : Nat
  c0 : Nat
  cols : Nat
  deriving DecidableEq, Repr

/-- The byte ranges of a shard's working copy in the order R244 sends them, each within the slot. -/
def WGeom.segments (g : WGeom) (x : Rect) : List (Nat × Nat) :=
  g.orients.flatMap fun o =>
    let (us, n, v, len) := if o = 0 then (x.c0, x.cols, x.r0, x.rows) else (x.r0, x.rows, x.c0, x.cols)
    (List.range n).flatMap fun i =>
      let (p, c) := g.spot o (us + i) v
      let (pl, cl) := rowBytes g.fmt len
      if cl = 0 then [(p, pl)] else [(p, pl), (c, cl)]

/-- The bytes of a list of ranges. -/
def segTotal (l : List (Nat × Nat)) : Nat := l.foldl (fun a x => a + x.2) 0

/-- A stream that begins `skip` bytes into a list of ranges, cut into the pieces that fall into each: offset, bytes. -/
def scatter : List (Nat × Nat) → Nat → List Byte → List (Nat × List Byte)
  | [], _, _ => []
  | (a, n) :: t, skip, bs =>
    if n ≤ skip then scatter t (skip - n) bs
    else if bs = [] then []
    else
      let k := n - skip
      (a + skip, bs.take k) :: scatter t 0 (bs.drop k)

/-! ### Bucket records (Table NEA-6) -/

/-- A bucket record. -/
structure Bucket where
  num : Nat
  group : Nat
  ring : Nat
  byCols : Bool
  source : Nat
  shard : Nat
  rows : Nat
  cols : Nat
  orow : Nat
  ocol : Nat
  lentry : Nat
  geom : WGeom
  odie : Nat
  plan : Nat
  stats : Nat
  deriving DecidableEq, Repr

/-- The 128 bytes of a record. -/
def Bucket.parse (b : List Byte) : Bucket :=
  { num := fld b 0 4, group := fld b 4 2, ring := fld b 6 1, byCols := bitOf (fld b 7 1) 0, source := fld b 8 6,
    shard := fld b 14 6, rows := fld b 20 4, cols := fld b 24 4, orow := fld b 28 4, ocol := fld b 32 4,
    lentry := fld b 36 2,
    geom := { fmt := bitsOf (fld b 38 1) 1 0, twin := bitOf (fld b 38 1) 2, er0 := fld b 40 4, ers := fld b 44 4,
              ec0 := fld b 48 4, ecs := fld b 52 4 },
    odie := fld b 39 1, plan := fld b 56 6, stats := fld b 62 6 }

/-- The bucket record at an HBM address. -/
def State.bucketAt (s : State) (a : Nat) : Bucket := Bucket.parse (s.readHbm a 128)

/-- The rectangle that ring position q owns of P, in tensor features (R237). -/
def Bucket.rect (b : Bucket) (size q : Nat) : Rect :=
  let n := (if b.byCols then b.cols else b.rows) / 32
  let lo := q * n / size * 32
  let hi := (q + 1) * n / size * 32
  if b.byCols then ⟨b.orow, b.rows, b.ocol + lo, hi - lo⟩ else ⟨b.orow + lo, hi - lo, b.ocol, b.cols⟩

/-- A rectangle holds no element. -/
def Rect.empty (x : Rect) : Bool := x.rows == 0 || x.cols == 0

/-- The member at ring position q of a bucket's ring, and the position of a member. -/
def GroupRec.atPos (g : GroupRec) (ring q : Nat) : Nat := (g.orders.getD ring []).getD q 0
@[inherit_doc GroupRec.atPos] def GroupRec.posOf (g : GroupRec) (ring member : Nat) : Nat :=
  ((g.orders.getD ring []).idxOf? member).getD 0

/-! ### Version slots (R160, R163) -/

/-- The state of a slot: 0 EMPTY, 1 CURRENT, 2 OLD, 3 FILLING. -/
def State.vtSt (s : State) (n e slot : Nat) : Nat :=
  if slot = 0 then s.regBits (Reg.vtState n e) 2 1 else s.regBits (Reg.vtState n e) 4 3

/-- A slot takes a state. -/
def State.setVtSt (n e slot v : Nat) (s : State) : State :=
  if slot = 0 then s.setField (Reg.vtState n e) 2 1 v else s.setField (Reg.vtState n e) 4 3 v

/-- An entry is valid. -/
def State.entryValid (s : State) (n e : Nat) : Bool := bitOf (s.reg (Reg.vtCfg n e)) 31

/-- The tile address and the length of a slot. -/
def State.slotBase (s : State) (n e slot : Nat) : Nat :=
  s.regBits (if slot = 0 then Reg.vtSlot0 n e else Reg.vtSlot1 n e) 47 12 * 4096
@[inherit_doc State.slotBase] def State.slotLen (s : State) (n e : Nat) : Nat := s.regBits (Reg.vtCfg n e) 19 0 * 4096

/-- The CURRENT slot of an entry. -/
def State.currentSlot (s : State) (n e : Nat) : Option Nat :=
  if s.vtSt n e 0 = 1 then some 0 else if s.vtSt n e 1 = 1 then some 1 else none

/-- The slot that a new version is written to. -/
def State.targetSlot (s : State) (n e : Nat) : Nat := if s.currentSlot n e = some 0 then 1 else 0

/-- The writes of a new version wait: the target slot is held or read. -/
def State.targetBusy (s : State) (n e : Nat) : Bool := s.refOf n e (s.targetSlot n e) != 0

/-- The version register of a slot. -/
def vtVer (n e slot : Nat) : Nat := if slot = 0 then Reg.vtVer0 n e else Reg.vtVer1 n e

/-- The version of the CURRENT slot; 0 without one. -/
def State.currentVersion (s : State) (n e : Nat) : Nat :=
  match s.currentSlot n e with
  | some k => s.reg (vtVer n e k)
  | none => 0

/-- The first write of a version claims the target: FILLING. -/
def State.claimSlot (n e : Nat) (s : State) : State := s.setVtSt n e (s.targetSlot n e) 3

/-- Bytes of a new version, at an offset of the canonical range. -/
def State.writeSlot (n e off : Nat) (bs : List Byte) (s : State) : State :=
  s.writeTile n (s.slotBase n e (s.targetSlot n e) + off) bs

/-- A slot becomes CURRENT with a version; the one that was CURRENT becomes OLD. -/
def State.makeCurrent (n e slot version : Nat) (s : State) : State :=
  let s := match s.currentSlot n e with
    | some k => if k = slot then s else s.setVtSt n e k 2
    | none => s
  let s := s.setVtSt n e slot 1
  let s := s.setField (Reg.vtState n e) 0 0 slot
  s.setReg (vtVer n e slot) (version % 2 ^ 32)

end Sys2Proof.Machine
end

