-- ==== Sys2Proof/Machine/Digest.lean ====
section
/-! DEFINITION. Digest trees (R193), the digests of a step end (R194), and the exchange of digests between the replicas
of a group (R195, R248). -/

namespace Sys2Proof.Machine

/-! ### Trees -/

/-- Numbers cut into groups of 64. -/
def cut64 : Nat → List Nat → List (List Nat)
  | 0, _ => []
  | n + 1, l => if l = [] then [] else l.take 64 :: cut64 n (l.drop 64)

/-- The level above a level of digests. -/
def levelUp (l : List Nat) : List Nat := (cut64 l.length l).map fun x => Crypto.crc64 (x.flatMap (leBytes 8))

/-- The digests of a level, 0 the leaves. -/
def treeLevel : Nat → List Nat → List Nat
  | 0, leaves => leaves
  | n + 1, leaves => treeLevel n (levelUp leaves)

/-- The level of the root over a number of leaves. -/
def rootLevelGo : Nat → Nat → Nat
  | 0, _ => 0
  | k + 1, n => if n ≤ 1 then 0 else rootLevelGo k ((n + 63) / 64) + 1

/-- The level of the root over a number of leaves. -/
def rootLevel (n : Nat) : Nat := rootLevelGo 8 n

/-- The root over leaves. -/
def treeRoot (leaves : List Nat) : Nat := (treeLevel (rootLevel leaves.length) leaves).headD 0

/-- The leaves of bytes, padded to whole blocks. -/
def leavesGo : Nat → List Byte → List Nat
  | 0, _ => []
  | n + 1, b => Crypto.crc64 (padTo 4096 (b.take 4096)) :: leavesGo n (b.drop 4096)

/-- The leaves of bytes, padded to whole blocks of 4 KiB. -/
def leavesOf (b : List Byte) : List Nat := leavesGo ((b.length + 4095) / 4096) b

/-- The root over bytes. -/
def digestRoot (b : List Byte) : Nat := treeRoot (leavesOf b)

/-- The child digests of a node of a level above 0. -/
def childDigests (leaves : List Nat) (level node : Nat) : List Nat :=
  if level = 0 then [] else ((treeLevel (level - 1) leaves).drop (64 * node)).take 64

/-! ### Entries -/

/-- The leaves of an entry's CURRENT slot; none without one. -/
def State.entryLeaves (s : State) (n e : Nat) : List Nat :=
  match s.currentSlot n e with
  | some k => if s.entryValid n e then leavesOf (s.readTile n (s.slotBase n e k) (s.slotLen n e)) else []
  | none => []

/-- A block of the CURRENT slot. -/
def State.entryBlock (s : State) (n e block : Nat) : List Byte :=
  match s.currentSlot n e with
  | some k => s.readTile n (s.slotBase n e k + block * 4096) 4096
  | none => zeros 4096

/-- The step a step end belongs to: the one before the advance of COB_STEP (R191). -/
def State.endedStep (s : State) : Nat := (s.reg Reg.cobStep + 2 ^ 48 - 1) % 2 ^ 48

/-- An entry's block is marked suspect (R195). Its record names the entry as sub (DEDUCED, log 157). -/
def State.markSuspect (n e block : Nat) (s : State) : State :=
  if n < 48 then
    let s := s.modDie n fun d =>
      { d with suspects := if (e, block) ∈ d.suspects then d.suspects else d.suspects ++ [(e, block)] }
    (s.raise (.cob n) 7).detail 0x0582 1 n (e % 256)
      (leBytes 1 e ++ zeros 3 ++ leBytes 8 (block * 4096) ++ leBytes 6 s.endedStep)
  else s

/-- A block of an entry's CURRENT slot is repaired in place (R195). One that holds the bytes already is not. -/
def State.repairBlock (n e block : Nat) (bs : List Byte) (s : State) : State :=
  match s.currentSlot n e with
  | none => s
  | some k =>
    if s.entryBlock n e block = padTo 4096 bs ∨ s.slotLen n e < (block + 1) * 4096 then s
    else
      let s := s.writeTile n (s.slotBase n e k + block * 4096) (padTo 4096 bs)
      let s := (s.count (Reg.cobRepairs n) 1).raise (.cob n) 6
      s.detail 0x0581 0 n (e % 256) (leBytes 1 e ++ zeros 3 ++ leBytes 8 (block * 4096) ++ leBytes 6 s.endedStep)

/-! ### The exchange (R248) -/

/-- The operand of DIGEST_QUERY and DIGEST_NODES. -/
def nodeOperand (entry level node : Nat) : Nat := entry % 2 ^ 16 + level % 2 ^ 8 * 2 ^ 16 + node % 2 ^ 40 * 2 ^ 24

/-- The local entry and die of a logical entry. -/
def GroupRec.entry? (g : GroupRec) (i : Nat) : Option (Nat × Nat) := (g.entries[i]?).filter fun x => decide (x.2 < 48)

/-- The child digests of this module for a node of a logical entry. -/
def State.ownNodes (s : State) (g : GroupRec) (entry level node : Nat) : List (BitVec 64) :=
  match g.entry? entry with
  | some (e, n) => (childDigests (s.entryLeaves n e) level node).map (BitVec.ofNat 64)
  | none => []

/-- A block of a logical entry goes as COPY with REPAIR to members (R248). Its tile address is that of the block in the
entry's canonical range, slot 0; the receiver takes the block of its CURRENT slot that the address names (log 25). -/
def State.sendRepair (g : GroupRec) (entry block : Nat) (to_ : List Nat) (s : State) : State :=
  match g.entry? entry with
  | none => s
  | some (e, n) =>
    let body := s.entryBlock n e block
    let at_ := normAddr n (s.slotBase n e 0) + block * 4096
    (to_.filter (· != g.self)).foldl (fun s i => s.sendNear 3 4 (g.member i) 0 0 at_ body) s

/-- A member is asked to send a block of a logical entry to members: DIGEST_QUERY of level 0, one for each, with the
member in the position field (log 25). This module sends its own at once. -/
def State.askRepair (g : GroupRec) (entry block holder : Nat) (to_ : List Nat) (s : State) : State :=
  if holder = g.self then s.sendRepair g entry block to_
  else (to_.filter (· != holder)).foldl (fun s i =>
    s.sendNear 7 0 (g.member holder) g.id i (nodeOperand entry 0 block) []) s

/-- The die, the entry and the block whose canonical range a repair's tile address names. -/
def State.repairTarget (s : State) (a : Nat) : Option (Nat × Nat × Nat) :=
  s.groups.findSome? fun g => g.entries.findSome? fun x =>
    let base := normAddr x.2 (s.slotBase x.2 x.1 0)
    if x.2 < 48 ∧ s.live x.2 ∧ s.entryValid x.2 x.1 ∧ base ≤ a ∧ a < base + s.slotLen x.2 x.1
    then some (x.2, x.1, (a - base) / 4096) else none

/-- The members that have not been given up (R248). -/
def State.replying (s : State) (g : GroupRec) : List Nat :=
  (List.range g.size).filter fun i => !decide ((g.id, i) ∈ s.digestSilent)

/-- The value that more than half of P members hold. -/
def majority (size : Nat) (vals : List (Nat × BitVec 64)) : Option (BitVec 64) :=
  (vals.map (·.2)).dedup.find? fun v => decide (size < 2 * (vals.filter (·.2 == v)).length)

/-- Member 0 asks for the children of a node. -/
def State.askNode (g : GroupRec) (entry level node : Nat) (s : State) : State :=
  if s.digestNodes.any fun d => d.group == g.id && d.entry == entry && d.level == level && d.node == node then s
  else
    let own := (g.self, s.ownNodes g entry level node)
    let d : DigestNode := { group := g.id, entry := entry, level := level, node := node, answers := [own], asked := s.now }
    let s := { s with digestNodes := s.digestNodes ++ [d] }
    ((s.replying g).filter (· != g.self)).foldl (fun s i =>
      s.sendNear 7 0 (g.member i) g.id 0 (nodeOperand entry level node) []) s

/-- A block on which the members differ: the lowest-numbered member of a majority sends it to every other that does not
hold it, or, with no majority, it is suspect at every member. -/
def State.decideBlock (g : GroupRec) (entry block : Nat) (vals : List (Nat × BitVec 64)) (s : State) : State :=
  match majority g.size vals with
  | some v =>
    match (vals.filter (·.2 == v)).foldl (fun (a : Option Nat) x => some (match a with
      | some y => min y x.1
      | none => x.1)) none with
    | some i => s.askRepair g entry block i
        ((List.range g.size).filter fun k => !(vals.any fun x => x.1 == k && x.2 == v))
    | none => s
  | none =>
    let s := ((List.range g.size).filter (· != g.self)).foldl (fun s i =>
      s.sendNear 8 0 (g.member i) g.id 0 (nodeOperand entry 0 block) []) s
    match g.entry? entry with
    | some (e, n) => s.markSuspect n e block
    | none => s

/-- The answers for a node are compared once every member that replies has answered: each child that differs is asked
for in turn, or decided. -/
def State.settleNode (g : GroupRec) (d : DigestNode) (s : State) : State :=
  if (s.replying g).any fun i => !(d.answers.any (·.1 == i)) then s
  else
    let gone := fun (x : DigestNode) => !(x.group == d.group && x.entry == d.entry && x.level == d.level && x.node == d.node)
    let s := { s with digestNodes := s.digestNodes.filter gone }
    let n := d.answers.foldl (fun a x => max a x.2.length) 0
    (List.range n).foldl (fun s c =>
      let vals := d.answers.filterMap fun x => (x.2[c]?).map fun v => (x.1, v)
      if (vals.map (·.2)).dedup.length ≤ 1 ∧ vals.length = d.answers.length then s
      else if d.level ≤ 1 then s.decideBlock g d.entry (d.node * 64 + c) vals
      else s.askNode g d.entry (d.level - 1) (d.node * 64 + c)) s

/-- Every node in hand of a group is looked at again. -/
def State.settleNodes (g : GroupRec) (s : State) : State :=
  (s.digestNodes.filter (·.group == g.id)).foldl (fun s d => s.settleNode g d) s

/-- The roots of a logical entry are compared once every member that replies has sent its own. -/
def State.compareRoots (g : GroupRec) (entry : Nat) (s : State) : State :=
  let mine := s.digestRoots.filter fun r => r.group == g.id && r.entry == entry
  if (s.replying g).any fun i => !(mine.any (·.member == i)) then s
  else
    let done := fun (r : DigestRoot) => !(r.group == g.id && r.entry == entry)
    let s := { s with digestRoots := s.digestRoots.filter done }
    let vals := mine.map fun r => (r.member, r.root)
    if (vals.map (·.2)).dedup.length ≤ 1 then s
    else match g.entry? entry with
      | none => s
      | some (e, n) =>
        let s := s.raise (.cob n) 5
        let lvl := rootLevel (s.entryLeaves n e).length
        if lvl = 0 then s.decideBlock g entry 0 vals else s.askNode g entry lvl 0

/-- Roots of a member are held at member 0. -/
def State.holdRoots (g : GroupRec) (member : Nat) (rs : List (Nat × Nat × BitVec 64)) (s : State) : State :=
  rs.foldl (fun s r =>
    let old := s.digestRoots.filter fun x => !(x.group == g.id && x.member == member && x.entry == r.1)
    let new : DigestRoot := { group := g.id, member := member, entry := r.1, version := r.2.1, root := r.2.2 }
    let s := { s with digestRoots := old ++ [new] }
    s.compareRoots g r.1) s

/-- The step end of a die (R194): it digests the CURRENT slot of every valid entry; the roots go to member 0 of each
group of more than one member whose entry map names the die (R248). -/
def State.stepEnd (n : Nat) (s : State) : State :=
  let es := (List.range 64).filter fun e => s.entryValid n e && (s.currentSlot n e).isSome
  let roots := es.map fun e => (e, s.currentVersion n e, BitVec.ofNat 64 (treeRoot (s.entryLeaves n e)))
  let step := s.endedStep
  let s := s.modDie n fun d => { d with roots := roots, digested := some step }
  (s.groups.filter fun g => decide (1 < g.size)).foldl (fun s g =>
    let mine : List (Nat × Nat × BitVec 64) := (g.entries.zipIdx).filterMap fun (x : (Nat × Nat) × Nat) =>
      if x.1.2 = n then (roots.find? (·.1 == x.1.1)).map fun r => (x.2, r.2.1, r.2.2) else none
    if mine.isEmpty then s
    else if g.self = 0 then
      let s := { s with digestSilent := s.digestSilent.filter (·.1 != g.id) }
      s.holdRoots g 0 mine
    else s.sendNear 6 0 (g.member 0) g.id 0 (s.endedStep % 2 ^ 32)
      (mine.flatMap fun r => leBytes 2 r.1 ++ [0, 0] ++ leBytes 4 r.2.1 ++ leBytes 8 r.2.2.toNat)) s

/-- A die that has digested no step end since COB_STEP last advanced, having had no run of the step, does so when the next
sequence is armed (log 88). -/
def State.lateDigests (s : State) : State :=
  if s.verdict ≠ 2 then s
  else ((List.range 48).filter fun n => s.live n && (s.die n).digested != some s.endedStep
      && (s.die n).cob.isNone && (List.range 64).any fun e => s.entryValid n e && (s.currentSlot n e).isSome).foldl
    (fun s n => s.stepEnd n) s

/-! ### Messages -/

/-- The group a message belongs to and the member that sent it. -/
def State.msgGroup (s : State) (m : NearMsg) : Option (GroupRec × Nat) :=
  (s.group? m.group).bind fun g => (g.members.idxOf? m.src).map fun i => (g, i)

/-- The logical entry, the level and the node a message names. -/
def NearMsg.node (m : NearMsg) : Nat × Nat × Nat :=
  (bitsOf m.operand.toNat 15 0, bitsOf m.operand.toNat 23 16, bitsOf m.operand.toNat 63 24)

/-- DIGEST_ROOTS: member 0 receives a member's roots. -/
def State.rootsIn (s : State) : State :=
  match s.takeMsg 6 with
  | none => s
  | some (m, s) =>
    match s.msgGroup m with
    | none => s.count Reg.neaEpochDrops 1
    | some (g, i) =>
      if g.self ≠ 0 then s
      else s.holdRoots g i ((List.range (m.body.length / 16)).map fun k =>
        (fld m.body (16 * k) 2, fld m.body (16 * k + 4) 4, BitVec.ofNat 64 (fld m.body (16 * k + 8) 8)))

/-- DIGEST_QUERY: a member answers with the child digests of a node; a query of level 0 asks it to send the block to the
member in the position field (log 25). -/
def State.queryIn (s : State) : State :=
  match s.takeMsg 7 with
  | none => s
  | some (m, s) =>
    match s.msgGroup m with
    | none => s.count Reg.neaEpochDrops 1
    | some (g, _) =>
      let (entry, level, node) := m.node
      if level = 0 then s.sendRepair g entry node [m.position]
      else s.sendNear 8 0 m.src g.id 0 (nodeOperand entry level node)
        ((s.ownNodes g entry level node).flatMap fun v => leBytes 8 v.toNat)

/-- DIGEST_NODES: member 0 receives a member's child digests; a notice of level 0 marks the entry suspect. -/
def State.nodesIn (s : State) : State :=
  match s.takeMsg 8 with
  | none => s
  | some (m, s) =>
    match s.msgGroup m with
    | none => s.count Reg.neaEpochDrops 1
    | some (g, i) =>
      let (entry, level, node) := m.node
      if level = 0 then
        match g.entry? entry with
        | some (e, n) => s.markSuspect n e node
        | none => s
      else
        let vals := (List.range (m.body.length / 8)).map fun k => BitVec.ofNat 64 (fld m.body (8 * k) 8)
        let hit := fun (d : DigestNode) => d.group == g.id && d.entry == entry && d.level == level && d.node == node
        let add (d : DigestNode) : DigestNode :=
          if hit d && !(d.answers.any (·.1 == i)) then { d with answers := d.answers ++ [(i, vals)] } else d
        let s := { s with digestNodes := s.digestNodes.map add }
        match s.digestNodes.find? hit with
        | some d => s.settleNode g d
        | none => s

/-- DIGEST_REPLY_TIMEOUT: past the cutoff of the group's latest bucket, a member that has not answered counts as holding
no value. -/
def State.replyTimeout (group member : Nat) (s : State) : State :=
  let cut := (s.reduces.filter (·.group == group)).foldl (fun a r => max a r.cutoff) 0
  match s.group? group with
  | none => s
  | some g =>
    let owes := (s.digestRoots.any (·.group == group) && !(s.digestRoots.any fun r => r.group == group && r.member == member))
      || s.digestNodes.any fun d => d.group == group && !(d.answers.any (·.1 == member))
    if g.self ≠ 0 ∨ s.time < cut ∨ !owes ∨ g.size ≤ member ∨ member = 0 then s
    else
      let s := { s with digestSilent := (group, member) :: s.digestSilent.filter (· != (group, member)) }
      let s := ((s.digestRoots.filter (·.group == group)).map (·.entry)).dedup.foldl (fun s e => s.compareRoots g e) s
      s.settleNodes g

/-! ### Commands -/

/-- DIGEST_ROOTS (R248). -/
def execDigestRoots (dt : Nat) (s : State) : Host.Outcome State Fault Refusal :=
  s.finish dt (s.advance dt).rootsIn

/-- DIGEST_QUERY (R248). -/
def execDigestQuery (dt : Nat) (s : State) : Host.Outcome State Fault Refusal :=
  s.finish dt (s.advance dt).queryIn

/-- DIGEST_NODES (R248). -/
def execDigestNodes (dt : Nat) (s : State) : Host.Outcome State Fault Refusal :=
  s.finish dt (s.advance dt).nodesIn

/-- DIGEST_REPLY_TIMEOUT (R248). -/
def execDigestReplyTimeout (dt group member : Nat) (s : State) : Host.Outcome State Fault Refusal :=
  s.finish dt ((s.advance dt).replyTimeout group member)

end Sys2Proof.Machine
end

