-- ==== Sys2Proof/Machine/Flash.lean ====
section
/-! DEFINITION. The flash channels: locators, contents, wear (R202 to R206). -/

namespace Sys2Proof.Machine

/-- A flash locator (Table MEM-2): reserved bits set, channel, block. -/
structure Locator where
  bad : Bool
  channel : Nat
  block : Nat
  deriving DecidableEq, Repr

/-- A locator read from its 64 bits. -/
def Locator.parse (v : Nat) : Locator :=
  { bad := decide (2 ^ 33 ≤ v), channel := bitsOf v 32 30, block := bitsOf v 29 0 }

/-- Logical blocks of a channel (R203). -/
def flashBlocks : Nat := 732421875

/-- `count` blocks from a locator on lie on its channel. -/
def Locator.holds (l : Locator) (count : Nat) : Bool := decide (l.block + count ≤ flashBlocks)

/-- Where a channel's blocks stand beside the tile address space, in a list of ranges of both. -/
abbrev flashWindow : Nat := 2 ^ 48

/-- Where a block lies in the flash contents. -/
def Locator.key (l : Locator) : Nat := l.channel * 0x30000000000 + l.block * 4096

/-- The state of a channel: 0 OFF, 1 READY, 2 READ_ONLY, 3 FAILED. -/
def State.ftState (s : State) (j : Nat) : Nat := s.regBits (Reg.ftStatus j) 1 0

/-- A channel takes requests of a direction (R204, R206, R217). -/
def State.flashTakes (s : State) (write : Bool) (j : Nat) : Bool :=
  s.regBits Reg.memCtrl 0 0 == 0 && (s.ftState j == 1 || (!write && s.ftState j == 2))

/-- The bound of a request of `n` blocks: 300 µs and 2.4 GB/s (R204). -/
def flashNs (n : Nat) : Nat := 300000 + ceilDiv (n * 40960) 24

/-- The blocks at a locator. -/
def State.readFlash (s : State) (l : Locator) (count : Nat) : List Byte := Memory.readN blank s.flash l.key (4096 * count)

/-- The bytes of the trailing 24 operating hours of a channel. -/
def State.dayBytes (s : State) (j : Nat) : Nat := (s.dayBuckets.getD j []).foldl (· + ·) 0

/-- The wear figures of a channel, from the NAND. -/
def State.showWear (j : Nat) (s : State) : State :=
  ((s.setReg (Reg.ftWritten j) (min (s.nandWritten.getD j 0) 0xFFFFFFFFFFFFFFFF)).setReg (Reg.ftDay j)
    (min (s.dayBytes j) (2 ^ 48 - 1))).setReg (Reg.ftLife j) (s.nandLife.getD j 0)

/-- A channel has taken `n` bytes: the figures on its NAND, the registers, and the events of R206. -/
def State.wear (j n : Nat) (s : State) : State :=
  let day := s.dayBytes j
  let life := s.nandLife.getD j 0
  let total := s.nandWritten.getD j 0 + n
  let life' := max life (min 1000 (Config.flashWear j total))
  let s := { s with
    nandWritten := s.nandWritten.set j total
    nandLife := s.nandLife.set j life'
    dayBuckets := modAt s.dayBuckets j fun l => match l with
      | [] => [n]
      | h :: t => (h + n) :: t }
  let s := s.showWear j
  let s := if day ≤ 9000000000000 ∧ 9000000000000 < day + n then s.raise (.ft j) 2 else s
  let s := if life < 900 ∧ 900 ≤ life' then s.raise (.ft j) 0 else s
  if life < 1000 ∧ 1000 ≤ life' then (s.setField (Reg.ftStatus j) 1 0 2).raise (.ft j) 1 else s

/-- A WRITE lands whole (R205); one of blocks that the channel does not present stores nothing (R203). -/
def State.writeFlash (l : Locator) (bs : List Byte) (s : State) : State :=
  if !l.holds (bs.length / 4096) then s
  else State.wear l.channel bs.length { s with flash := Memory.writeN blank s.flash l.key bs }

/-- A READ of blocks: what it delivers, and whether a block failed its correction; what it then delivers is open
(R205). -/
def State.flashDeliver (s : State) (l : Locator) (count : Nat) : List Byte × Bool :=
  if Config.flashReadFails s.drawCount then
    ((List.range (4096 * count)).map (Config.flashReadUndefined s.drawCount), true)
  else (s.readFlash l count, false)

/-- A failed READ is reported (R205). -/
def State.flashReadError (l : Locator) (count : Nat) (s : State) : State :=
  (s.raise (.ft l.channel) 3).detail 0x0681 2 (48 + l.channel) l.channel
    (leBytes 8 (l.channel * 2 ^ 30 + l.block) ++ leBytes 4 count)

end Sys2Proof.Machine
end

