-- ==== Sys2Proof/Machine/Cobbler.lean ====
section
/-! DEFINITION. The Cobbler update unit: plan records, schedule, optimisers, journal, working copies, entry commits,
lazy units, deltas and rebases (chapter 7; R213, R214, R219, R244). -/

namespace Sys2Proof.Machine

/-! ### Plan records (Table COB-2) -/

/-- A plan record. -/
structure PlanRec where
  master : Nat
  paring : Nat
  m1 : Nat
  m2 : Nat
  grad : Nat
  mask : Nat
  rect : Rect
  din : Nat
  dout : Nat
  geom : WGeom
  hyper : Nat
  entry : Nat
  stoch : Bool
  stream : Nat
  deriving DecidableEq, Repr

/-- The 128 bytes of a record. -/
def PlanRec.parse (b : List Byte) : PlanRec :=
  let w := fld b 79 1
  { master := fld b 0 6, paring := fld b 6 6, m1 := fld b 12 6, m2 := fld b 18 6, grad := fld b 24 6,
    mask := fld b 30 6, rect := ⟨fld b 36 4, fld b 40 4, fld b 44 4, fld b 48 4⟩, din := fld b 52 4, dout := fld b 56 4,
    geom := { fmt := bitsOf w 1 0, twin := bitOf w 2, er0 := fld b 60 4, ers := fld b 64 4, ec0 := fld b 68 4,
              ecs := fld b 72 4 },
    hyper := fld b 76 2, entry := bitsOf (fld b 78 1) 5 0, stoch := bitOf w 3, stream := fld b 80 2 }

/-- The plan record at an HBM address. -/
def State.planAt (s : State) (a : Nat) : PlanRec := PlanRec.parse (s.readHbm a 128)

/-- Elements of a record, and groups of 1,024. -/
def PlanRec.size (p : PlanRec) : Nat := p.rect.rows * p.rect.cols
@[inherit_doc PlanRec.size] def PlanRec.groups (p : PlanRec) : Nat := ceilDiv p.size 1024

/-- The elements of a group. -/
def PlanRec.group (p : PlanRec) (i : Nat) : Nat × Nat := (i * 1024, min p.size ((i + 1) * 1024))

/-- The tensor row and column of an element. -/
def PlanRec.at_ (p : PlanRec) (x : Nat) : Nat × Nat := (p.rect.r0 + x / p.rect.cols, p.rect.c0 + x % p.rect.cols)

/-- An update mask (R167): its row bits and its column bits; none where every element is trainable. -/
abbrev Mask := Option (List Byte × List Byte)

/-- The mask a record names. -/
def State.maskOfPlan (s : State) (n : Nat) (p : PlanRec) : Mask :=
  if p.mask = 0 then none
  else
    let h := s.readTile n p.mask 16
    let r := (fld h 0 4 + 7) / 8
    let c := (fld h 4 4 + 7) / 8
    some (s.readTile n (p.mask + 16) r, s.readTile n (p.mask + 16 + up8 r) c)

/-- Bit x of a bit field. -/
def fieldBit (l : List Byte) (x : Nat) : Bool := bitOf (l.getD (x / 8) 0).toNat (x % 8)

/-- An element is trainable. -/
def trainable (m : Mask) (r c : Nat) : Bool := match m with
  | none => true
  | some (rs, cs) => fieldBit rs r && fieldBit cs c

/-- Words from a tile address on. -/
def State.words (s : State) (n a count : Nat) : List Word :=
  let b := s.readTile n a (4 * count)
  (List.range count).map fun i => BitVec.ofNat 32 (fld b (4 * i) 4)

/-- Words as bytes. -/
def wordBytes (l : List Word) : List Byte := l.flatMap fun w => leBytes 4 w.toNat

/-! ### Hyper records and the schedule (R180, R181) -/

/-- A hyper record (Table COB-4). -/
structure Hyper where
  kind : Nat
  noDecay : Bool
  nesterov : Bool
  b1 : Word
  b2 : Word
  ob1 : Word
  ob2 : Word
  eps : Word
  lambda : Word
  lrmul : Word
  clamp : Word
  deriving DecidableEq, Repr

/-- A hyper record of the table at COB_HYPER. -/
def State.hyperAt (s : State) (i : Nat) : Hyper :=
  let b := s.readHbm (s.regBits Reg.cobHyper 47 12 * 4096 + 64 * i) 64
  let w (o : Nat) : Word := BitVec.ofNat 32 (fld b o 4)
  { kind := fld b 0 1, noDecay := bitOf (fld b 1 1) 0, nesterov := bitOf (fld b 1 1) 1, b1 := w 4, b2 := w 8,
    ob1 := w 12, ob2 := w 16, eps := w 20, lambda := w 24, lrmul := w 28, clamp := w 32 }

/-- 1.0 and 0.5. -/
abbrev one32 : Word := 0x3F800000#32
@[inherit_doc one32] abbrev half32 : Word := 0x3F000000#32

/-- A non-negative integer rounded to binary32. -/
def cvt (n : Nat) : Word := toBits (ofDyadic n 0)

/-- lr_s of step k, or none where no segment covers it (R181). -/
def State.scheduleAt (s : State) (k : Nat) : Option Word :=
  let base := s.regBits Reg.cobSched 47 12 * 4096
  let segs := ((List.range 16).map fun i => s.readHbm (base + 32 * i) 32).filter fun g =>
    decide (fld g 6 1 ≤ 3) && decide (fld g 0 6 ≤ k)
  segs.getLast?.map fun g =>
    let kind := fld g 6 1
    let len := fld g 8 4
    let a : Word := BitVec.ofNat 32 (fld g 12 4)
    let b : Word := BitVec.ofNat 32 (fld g 16 4)
    let t := k - fld g 0 6
    let t := min (if kind = 3 then t else min t len) 0xFFFFFFFF
    let fr := fdiv (cvt t) (cvt len)
    if kind = 0 then a
    else if kind = 1 then ffma (fsub b a) fr a
    else if kind = 2 then ffma (fsub a b) (fmul half32 (fadd one32 (fun1 Num.cospi fr))) b
    else fmul a (fun1 Num.rsqrt (fdiv (cvt (t + len)) (cvt len)))

/-! ### Gradients (R176 to R179) -/

/-- g of element i of a block. -/
def gradOf (b : Bs16) (i : Nat) : Word :=
  if b.poisoned || b.count == 0 then toBits .nan
  else toBits ((ofDyadic (b.ms.getD i 0) ((b.s : Int) - 141)).div (ofDyadic b.count 0))

/-- The address of the gradient area of a die's journal (R189). -/
def State.gradArea (s : State) (n : Nat) : Nat := s.jbase n + 256 + 1024 * 64

/-- g of the elements of a range, from the gradient area. -/
def State.grads (s : State) (n lo hi : Nat) : List Word :=
  ((List.range ((hi + 63) / 64 - lo / 64)).flatMap fun j =>
    let b := Bs16.parse (s.readHbm (s.gradArea n + (lo / 64 + j) * 132) 132)
    (List.range 64).map (gradOf b)).take (hi - lo)

/-- The trainable elements of a record's whole shard, with their g. -/
def State.trainGrads (s : State) (n : Nat) (p : PlanRec) (m : Mask) : List Word :=
  ((s.grads n 0 p.size).zipIdx).filterMap fun x =>
    let (r, c) := p.at_ x.2
    if trainable m r c then some x.1 else none

/-- The exact sum of squares in units of 2^−298. -/
def sumSquares (l : List Word) : Int := l.foldl (fun a w => a + (ofBits w).units ^ 2) 0

/-- The clipped and clamped gradient (R179). -/
def clampGrad (g c kappa : Word) : Word := fpick false (fpick true (fmul g c) (kappa ^^^ 0x80000000#32)) kappa

/-! ### The journal (R187 to R190) -/

/-- Bytes written into a die's journal. -/
def State.jput (n off : Nat) (bs : List Byte) (s : State) : State := s.writeHbm (s.jbase n + off) bs

/-- The 64 bytes of journal record i. -/
def State.jrecord (s : State) (n i : Nat) : List Byte := s.readHbm (s.jbase n + 256 + 64 * i) 64

/-- A field of journal record i is written. -/
def State.jset (n i off size v : Nat) (s : State) : State := s.jput n (256 + 64 * i + off) (leBytes size v)

/-- The header is written, state last, and its records with their positions, groups and plans (Sequence COB-1 step 1);
the journal-valid and journal-open bits are set (R190). -/
def State.openHeader (n kind k : Nat) (lr clip : Word) (plans : List Nat) (s : State) : State :=
  let h := leBytes 4 0x4C4A4243 ++ leBytes 6 k ++ leBytes 1 kind ++ [0] ++ leBytes 2 plans.length ++ [0, 0]
    ++ leBytes 4 lr.toNat ++ leBytes 4 clip.toNat ++ leBytes 4 (s.reg Reg.hifEpoch) ++ zeros 4
  let s := s.jput n 0 (padTo 256 h)
  let s := (plans.zipIdx).foldl (fun s x =>
    s.jput n (256 + 64 * x.2) (padTo 64 (leBytes 2 0 ++ leBytes 2 x.2 ++ zeros 8 ++ leBytes 4 (s.planAt x.1).groups
      ++ leBytes 6 x.1))) s
  let s := s.jput n 11 [1]
  let s := { s with journalValid := addTo s.journalValid n, journalOpen := addTo s.journalOpen n }
  s.modDie n fun d => { d with opened := true }

/-- The norm partial of a closed run of a step (R178): runs of one step add up; a run that committed no shard leaves the
die's partial as it was. -/
def State.noteNorm (n : Nat) (h : List Byte) (s : State) : State :=
  let k := fld h 4 6
  let part := signed 640 (fld h 160 80)
  let before : Int := match look s.norms n with
    | some x => if x.1 = k then x.2 else 0
    | none => 0
  if fld h 10 1 ≠ 0 ∨ zeroIn h 32 160 then s
  else { s with norms := (n, k, before + part) :: s.norms.filter (·.1 != n) }

/-- The header is closed (step 9): the journal-open bit clears, the norm partial is taken, and a ragged run is
recorded. -/
def State.closeHeader (n : Nat) (s : State) : State :=
  let h := s.header n
  let k := fld h 4 6
  let s := s.jput n 11 [2]
  let s := { s with journalOpen := dropFrom s.journalOpen n }
  let s := s.noteNorm n h
  if bitOf (fld h 14 1) 0 then
    let skipped := ((List.range (fld h 12 2)).filter fun i => fld (s.jrecord n i) 0 1 == 4).length
    s.detail 0x0580 1 n 0xFF (leBytes 6 k ++ leBytes 2 skipped)
  else s

/-- A record is DONE: its bitmap bit is set (step 7). -/
def State.recordDone (n i : Nat) (s : State) : State :=
  let s := s.jset n i 0 1 3
  let a := 32 + i / 8
  s.jput n a (leBytes 1 (fld (s.header n) a 1 ||| 2 ^ (i % 8)))

/-- A record is SKIPPED: RAGGED is set, and it is counted (steps 3 and 7). -/
def State.recordSkipped (n i : Nat) (s : State) : State :=
  let s := s.jset n i 0 1 4
  let s := s.jput n 14 (leBytes 1 (fld (s.header n) 14 1 ||| 1))
  (s.count (Reg.cobSkipped n) 1).raise (.cob n) 0

/-! ### Lazy units (R209 to R214) -/

/-- The row-table entry of a unit (Table MEM-5). -/
def State.rowAddr (s : State) (u : Nat) : Nat := s.regBits Reg.rtBase 47 12 * 4096 + 32 * u
@[inherit_doc State.rowAddr] def State.rowEntry (s : State) (u : Nat) : List Byte := s.readHbm (s.rowAddr u) 32

/-- The resident line, the state and the pins of a unit. -/
def State.unitLine (s : State) (u : Nat) : Nat := fld (s.rowEntry u) 16 6
@[inherit_doc State.unitLine] def State.unitState (s : State) (u : Nat) : Nat := fld (s.rowEntry u) 22 1
@[inherit_doc State.unitLine] def State.unitPins (s : State) (u : Nat) : Nat := fld (s.rowEntry u) 23 1

/-- A unit's state, or its pins, are written. -/
def State.setUnitState (u v : Nat) (s : State) : State := s.writeHbm (s.rowAddr u + 22) (leBytes 1 v)
@[inherit_doc State.setUnitState] def State.setUnitPins (u v : Nat) (s : State) : State :=
  s.writeHbm (s.rowAddr u + 23) (leBytes 1 v)

/-- The image size of a unit in blocks, its hub, the locator of its image. -/
def State.unitBlocks (s : State) (u : Nat) : Nat := fld (s.rowEntry u) 8 4
@[inherit_doc State.unitBlocks] def State.unitHub (s : State) (u : Nat) : Nat := homeHub (fld (s.rowEntry u) 28 1)
@[inherit_doc State.unitBlocks] def State.unitLoc (s : State) (u : Nat) : Locator := Locator.parse (fld (s.rowEntry u) 0 8)

/-- The image of a resident unit as it goes to flash: bytes 128 to 255 are 0 there (Table MEM-4). -/
def State.unitImage (s : State) (u : Nat) : List Byte :=
  putBytes (s.readHbm (s.unitLine u) (4096 * s.unitBlocks u)) 128 (zeros 128)

/-- A write-back of a DIRTY unit is issued: WRITING. None is while an earlier one is in flight, under the fall-back, or
on a channel that takes no WRITE (R204, R217; log 37). -/
def State.writeBack (u : Nat) (s : State) : State :=
  if s.unitState u ≠ 3 ∨ s.unitWrites.any (fun x => x.unit == u) ∨ !s.flashTakes true (s.unitLoc u).channel then s
  else
    let w : WriteBack := { unit := u, hub := s.unitHub u, locator := fld (s.rowEntry u) 0 8, image := s.unitImage u }
    ({ s with unitWrites := s.unitWrites ++ [w] }).setUnitState u 4

/-- The unit whose line holds a plan record: the row table is searched for its line. -/
def State.unitOfPlan (s : State) (plan : Nat) : Option Nat :=
  (List.range (s.regBits Reg.rtCount 24 0)).find? fun u => s.unitState u != 0 && s.unitLine u + 128 == plan

/-- The planes of a unit image from byte 256 on: masters, paring, M1, M2, working-copy payload and scales (Table
MEM-4). -/
def unitPlanes (fmt rows cols : Nat) : List Nat :=
  let n := rows * cols
  let a := up64 (256 + 4 * n)
  let b := up64 (a + n)
  let c := up64 (b + 4 * n)
  let d := up64 (c + 4 * n)
  [256, a, b, c, d, up64 (d + (rowBytes fmt n).1)]

/-- The bytes of a unit image. -/
def unitSize (fmt rows cols : Nat) : Nat := (unitPlanes fmt rows cols).getD 5 0 + (rowBytes fmt (rows * cols)).2

/-- The plan record that the row pager forms in a unit's line (R213). -/
def State.formPlan (u grad : Nat) (s : State) : State :=
  let e := s.rowEntry u
  let a := s.unitLine u
  let h := s.readHbm a 128
  let f (o : Nat) : Nat := fld h o 4
  let fmt := bitsOf (fld h 40 1) 1 0
  let pl := unitPlanes fmt (f 12) (f 16)
  let at_ (i : Nat) : List Byte := leBytes 6 (a + pl.getD i 0)
  let rec_ := at_ 0 ++ at_ 1 ++ at_ 2 ++ at_ 3 ++ leBytes 6 grad ++ zeros 6
    ++ leBytes 4 (f 8) ++ leBytes 4 (f 12) ++ leBytes 4 0 ++ leBytes 4 (f 16) ++ leBytes 4 (f 20) ++ leBytes 4 (f 24)
    ++ leBytes 4 (f 8) ++ leBytes 4 (f 12) ++ leBytes 4 0 ++ leBytes 4 (f 16)
    ++ (e.drop 12).take 2 ++ [0] ++ leBytes 1 fmt ++ (e.drop 14).take 2
  s.writeHbm (a + 128) (padTo 128 rec_)

/-- The missed steps of a unit at step k. -/
def State.gapOf (s : State) (k : Nat) (lazyUnit : Option Nat) : Nat := match lazyUnit with
  | some u => k - fld (s.readHbm (s.unitLine u) 128) 28 6 - 1
  | none => 0

/-- The factor of R214 for a base over a gap. -/
def gapPower (b : Word) (gap : Nat) : Word := fun1 Num.exp2 (fmul (cvt gap) (fun1 Num.log2 b))

/-- Moments brought forward over a gap (R214). -/
def bringMoments (h : Hyper) (gap : Nat) (m : Word × Word) : Word × Word :=
  if gap = 0 then m
  else if h.kind = 0 then (fmul m.1 (gapPower h.b1 gap), fmul m.2 (gapPower h.b2 gap))
  else if h.kind = 1 then (fmul m.1 (gapPower h.b1 gap), m.2)
  else (fmul m.1 (gapPower h.b2 gap), m.2)

/-- A master less a binary32 value, exact, then normalised; one that is not finite follows binary32 (R182). -/
def masterLess (w : Word) (p : Byte) (x : Word) : Word × Byte :=
  match ofBits w, ofBits x with
  | .fin _ _ _, .fin a m f =>
    let (v, e) := pairValue w p
    let lo := min e f
    normalise (alignTo v e lo - alignTo (sgn a m) f lo) lo
  | _, _ => (fsub w x, 0)

/-- A master brought forward over a gap: the decay of the missed steps (R214). -/
def bringMaster (h : Hyper) (lr : Word) (gap : Nat) (w : Word) (p : Byte) : Word × Byte :=
  let lam := if h.noDecay then 0#32 else h.lambda
  if gap = 0 ∨ (ofBits lam).isZero then (w, p)
  else
    let fd := gapPower (fsub one32 (fmul lr lam)) gap
    match ofBits w, ofBits fd with
    | .fin _ _ _, .fin a m f =>
      let (v, e) := pairValue w p
      normalise (v * sgn a m) (e + f)
    | _, _ => (fmul w fd, 0)

/-! ### Inner optimisers (R182) -/

/-- New moments. -/
def newMoments (h : Hyper) (g2 : Word) (m : Word × Word) : Word × Word :=
  if h.kind = 0 then
    (ffma h.b1 m.1 (fmul h.ob1 g2), ffma h.b2 m.2 (fmul h.ob2 (fmul g2 g2)))
  else if h.kind = 1 then
    let a := ffma h.b1 m.1 g2
    (a, ffma h.b1 a g2)
  else (ffma h.b2 m.1 (fmul h.ob2 g2), ffma h.b1 m.1 (fmul h.ob1 g2))

/-- The direction of SIGNMOM. -/
def signOf (x : Word) : Word :=
  if (ofBits x).isNan then toBits .nan
  else if (ofBits x).isZero then 0
  else one32 ||| (x &&& 0x80000000#32)

/-- The direction from new moments at step k. -/
def direction (h : Hyper) (k : Nat) (m : Word × Word) : Word :=
  if h.kind = 0 then
    let bc (b : Word) : Word := fsub one32 (fun1 Num.exp2 (fmul (cvt (k + 1)) (fun1 Num.log2 b)))
    fdiv (fdiv m.1 (bc h.b1)) (fadd (fsqrt (fdiv m.2 (bc h.b2))) h.eps)
  else if h.kind = 1 then m.2
  else signOf m.2

/-- The new master. -/
def newMaster (h : Hyper) (k : Nat) (lrs : Word) (m : Word × Word) (w : Word) (p : Byte) : Word × Byte :=
  let lr := fmul lrs h.lrmul
  let lam := if h.noDecay then 0#32 else h.lambda
  masterLess w p (fmul lr (fadd (direction h k m) (fmul lam w)))

/-- A moment group (step 5a): new M1 and M2, the norm partial with the first, then the mark. -/
def State.momentGroup (n i : Nat) (p : PlanRec) (lazyUnit : Option Nat) (j : Nat) (s : State) : State :=
  let hd := s.header n
  let clip : Word := BitVec.ofNat 32 (fld hd 20 4)
  let h := s.hyperAt p.hyper
  let m := s.maskOfPlan n p
  let gap := s.gapOf (fld hd 4 6) lazyUnit
  let (lo, hi) := p.group j
  let gs := s.grads n lo hi
  let old := (s.words n (p.m1 + 4 * lo) (hi - lo)).zip (s.words n (p.m2 + 4 * lo) (hi - lo))
  let new : List (Word × Word) := (old.zipIdx).map fun (x : (Word × Word) × Nat) =>
    let (r, c) := p.at_ (lo + x.2)
    if trainable m r c
    then newMoments h (clampGrad (gs.getD x.2 0) clip h.clamp) (bringMoments h gap x.1)
    else x.1
  let bad := (new.zip old).any fun x => x.1 != x.2 && !((ofBits x.1.1).isFin && (ofBits x.1.2).isFin)
  let s := if j = 0 then
      s.jput n 160 (leBytes 80 (twos 640 (signed 640 (fld hd 160 80) + sumSquares (s.trainGrads n p m))))
    else s
  let s := (s.writeTile n (p.m1 + 4 * lo) (wordBytes (new.map (·.1)))).writeTile n (p.m2 + 4 * lo)
    (wordBytes (new.map (·.2)))
  let s := s.jset n i 4 4 (j + 1)
  if bad then s.raise (.cob n) 3 else s

/-- Masters and paring of a range of elements. -/
def State.masters (s : State) (n : Nat) (p : PlanRec) (lo hi : Nat) : List (Word × Byte) :=
  (s.words n (p.master + 4 * lo) (hi - lo)).zip (s.readTile n (p.paring + lo) (hi - lo))

/-- Masters and paring of a range are written, then the mark WW (step 5c). -/
def State.putMasters (n i : Nat) (p : PlanRec) (j : Nat) (old new : List (Word × Byte)) (s : State) : State :=
  let (lo, _) := p.group j
  let bad := (new.zip old).any fun x => x.1 != x.2 && !(ofBits x.1.1).isFin
  let s := (s.writeTile n (p.master + 4 * lo) (wordBytes (new.map (·.1)))).writeTile n (p.paring + lo) (new.map (·.2))
  let s := s.jset n i 8 4 (j + 1)
  if bad then s.raise (.cob n) 3 else s

/-- A weight group (step 5c). -/
def State.weightGroup (n i : Nat) (p : PlanRec) (lazyUnit : Option Nat) (j : Nat) (s : State) : State :=
  let hd := s.header n
  let k := fld hd 4 6
  let lrs : Word := BitVec.ofNat 32 (fld hd 16 4)
  let h := s.hyperAt p.hyper
  let m := s.maskOfPlan n p
  let gap := s.gapOf k lazyUnit
  let (lo, hi) := p.group j
  let ms := (s.words n (p.m1 + 4 * lo) (hi - lo)).zip (s.words n (p.m2 + 4 * lo) (hi - lo))
  let old := s.masters n p lo hi
  let new : List (Word × Byte) := (old.zipIdx).map fun (x : (Word × Byte) × Nat) =>
    let (r, c) := p.at_ (lo + x.2)
    if trainable m r c then
      let b := bringMaster h (fmul lrs h.lrmul) gap x.1.1 x.1.2
      newMaster h k lrs (ms.getD x.2 (0, 0)) b.1 b.2
    else x.1
  s.putMasters n i p j old new

/-! ### Deltas and rebases (R184, R186) -/

/-- Anchor and anchor paring of a range, from the planes of Table MEM-7 item 4 at an HBM address. -/
def State.anchors (s : State) (n base size lo hi : Nat) : List (Word × Byte) :=
  (s.words n (base + 4 * lo) (hi - lo)).zip (s.readTile n (base + up64 (4 * size) + lo) (hi - lo))

/-- The exact sum of a pair and a list of signed pairs, all finite. -/
def addPairs (l : List (Int × Int)) : Int × Int :=
  let lo := l.foldl (fun a x => min a x.2) 0
  (l.foldl (fun a x => a + alignTo x.1 x.2 lo) 0, lo)

/-- A pair negated. -/
def negPair (x : Int × Int) : Int × Int := (-x.1, x.2)

/-- D of one element: anchor less master, rounded once; NaN arithmetic where one is not finite. -/
def deltaOf (a w : Word × Byte) : Word :=
  if (ofBits a.1).isFin && (ofBits w.1).isFin then
    let x := addPairs [pairValue a.1 a.2, negPair (pairValue w.1 w.2)]
    toBits (ofDyadic x.1 x.2)
  else fsub a.1 w.1

/-- A group of the outer delta: every element of the shard (R184). -/
def State.deltaGroup (n i plan : Nat) (p : PlanRec) (j : Nat) (s : State) : State :=
  let (lo, hi) := p.group j
  let a := s.anchors n (Config.anchorAt plan % 2 ^ 40) p.size lo hi
  let w := s.masters n p lo hi
  let s := s.writeHbm (Config.deltaAt plan % 2 ^ 40 + 4 * lo) (wordBytes ((a.zip w).map fun x => deltaOf x.1 x.2))
  s.jset n i 8 4 (j + 1)

/-- A rebased master: w + a' − a + D, exact, normalised (R186). -/
def rebaseOf (w a b : Word × Byte) (d : Word) : Word × Byte :=
  match ofBits w.1, ofBits a.1, ofBits b.1, ofBits d with
  | .fin _ _ _, .fin _ _ _, .fin _ _ _, .fin z m f =>
    let x := addPairs [pairValue w.1 w.2, pairValue b.1 b.2, negPair (pairValue a.1 a.2), (sgn z m, f)]
    normalise x.1 x.2
  | _, _, _, _ => (fadd (fsub (fadd w.1 b.1) a.1) d, 0)

/-- A group of a rebase: every trainable element (R186). -/
def State.rebaseGroup (n i plan : Nat) (p : PlanRec) (j : Nat) (s : State) : State :=
  let (lo, hi) := p.group j
  let m := s.maskOfPlan n p
  let a := s.anchors n (Config.anchorAt plan % 2 ^ 40) p.size lo hi
  let b := s.anchors n (Config.nextAnchorAt plan % 2 ^ 40) p.size lo hi
  let d := s.words n (Config.deltaAt plan % 2 ^ 40 + 4 * lo) (hi - lo)
  let old := s.masters n p lo hi
  let new : List (Word × Byte) := (old.zipIdx).map fun (x : (Word × Byte) × Nat) =>
    let (r, c) := p.at_ (lo + x.2)
    if trainable m r c then rebaseOf x.1 (a.getD x.2 (0, 0)) (b.getD x.2 (0, 0)) (d.getD x.2 0) else x.1
  s.putMasters n i p j old new

/-! ### Working copies (R183) -/

/-- Elements in one block of a format. -/
def blockLen (fmt : Nat) : Nat := if fmt = 0 then 16 else if fmt = 1 then 32 else 1

/-- One block of a working copy: payload and scale bytes from values.

DESIGN CHOICE (log 151): Table COB-9 gives the Cobbler no flag for R40's overflow, so it sets none. -/
def packBlock (fmt : Nat) (xs : List Word) (rs : Nat → Option Nat) : List Byte × List Byte :=
  if fmt = 2 then ((xs.zipIdx).flatMap fun x => leBytes 2 (Machine.g16.write (rs x.2) (ofBits x.1)), [])
  else
    let (p, c, _) := encodeRow (fmt == 1) (xs.map ofBits) rs
    (p, c)

/-- The writes that regenerate a shard's working copy: offset within the slot, bytes. Blocks that hold a trainable
element of a shard not skipped come from the masters, others from `old`, or from the masters without it. -/
def State.wcopyWrites (s : State) (n : Nat) (p : PlanRec) (k : Nat) (skipped : Bool)
    (old : Option (Nat → Nat → List Byte)) : List (Nat × List Byte) :=
  let m := s.maskOfPlan n p
  let ws := s.words n p.master p.size
  let x := p.rect
  let b := blockLen p.geom.fmt
  p.geom.orients.flatMap fun o =>
    let (u0, us, v0, vs) := if o = 0 then (x.c0, x.cols, x.r0, x.rows) else (x.r0, x.rows, x.c0, x.cols)
    (List.range us).flatMap fun i => (List.range (vs / b)).flatMap fun j =>
      let rc (q : Nat) : Nat × Nat := if o = 0 then (v0 + j * b + q, u0 + i) else (u0 + i, v0 + j * b + q)
      let (pa, sa) := p.geom.spot o (u0 + i) (v0 + j * b)
      let (pl, cl) := rowBytes p.geom.fmt b
      let cl := if p.geom.fmt = 2 then 0 else max cl 1
      let fresh := !skipped && (List.range b).any fun q => trainable m (rc q).1 (rc q).2
      match fresh, old with
      | false, some f => [(pa, f pa pl)] ++ (if cl = 0 then [] else [(sa, f sa cl)])
      | _, _ =>
        let vals := (List.range b).map fun q => ws.getD (((rc q).1 - x.r0) * x.cols + ((rc q).2 - x.c0)) 0
        let rs (q : Nat) : Option Nat :=
          if p.stoch then
            let (r, c) := rc q
            some (drawBits (s.reg Reg.hifSeed) k ((p.stream + o) % 65536) (if o = 0 then c * p.din + r else r * p.dout + c))
          else none
        let (pb, sb) := packBlock p.geom.fmt vals rs
        [(pa, pb)] ++ (if cl = 0 then [] else [(sa, sb)])

/-- Step 6: the working copy of a shard goes into the entry's target slot. -/
def State.wcopy (n : Nat) (p : PlanRec) (k : Nat) (skipped : Bool) (s : State) : State :=
  let e := p.entry
  let cur : Option (Nat → Nat → List Byte) := (s.currentSlot n e).map fun slot off len =>
    s.readTile n (s.slotBase n e slot + off) len
  let l := s.wcopyWrites n p k skipped cur
  l.foldl (fun s x => s.writeSlot n e x.1 x.2) (s.claimSlot n e)

/-- Step 6 of a lazy unit: the line's working-copy planes are rewritten in place (R213). -/
def State.wcopyLine (n u : Nat) (p : PlanRec) (k : Nat) (skipped : Bool) (s : State) : State :=
  let line := s.unitLine u
  let base := line + (unitPlanes p.geom.fmt p.rect.rows p.rect.cols).getD 4 0
  let l := s.wcopyWrites n p k skipped (some fun off len => s.readHbm (base + off) len)
  l.foldl (fun s x => s.writeHbm (base + x.1) x.2) s

/-! ### The all-gather (R244) -/

/-- Whole stored rows packed into message bodies of at most 65,472 bytes; a longer row is cut there. -/
def packBodies : Nat → List Byte → List (List Byte) → List (List Byte)
  | 0, cur, _ => if cur = [] then [] else [cur]
  | _, cur, [] => if cur = [] then [] else [cur]
  | n + 1, cur, r :: t =>
    if cur.length + r.length ≤ 65472 then packBodies n (cur ++ r) t
    else if cur ≠ [] then cur :: packBodies n [] (r :: t)
    else r.take 65472 :: packBodies n [] (r.drop 65472 :: t)

/-- The stored rows of a shard in a slot, in the order of R244. -/
def State.shardRows (s : State) (n e slot : Nat) (g : WGeom) (x : Rect) : List (List Byte) :=
  let base := s.slotBase n e slot
  let rd (sg : Nat × Nat) : List Byte := s.readTile n (base + sg.1) sg.2
  let segs := g.segments x
  if g.fmt = 2 then segs.map rd
  else (List.range (segs.length / 2)).map fun i => rd (segs.getD (2 * i) (0, 0)) ++ rd (segs.getD (2 * i + 1) (0, 0))

/-- The owner's working-copy bytes of a shard go to every other member of its bucket's group. -/
def State.sendGather (n plan : Nat) (p : PlanRec) (s : State) : State :=
  match look s.buckets plan with
  | none => s
  | some a =>
    let b := s.bucketAt a
    match s.group? b.group with
    | none => s
    | some g =>
      if g.size ≤ 1 ∨ b.lentry = 0xFFFF then s
      else
        let q := g.posOf b.ring g.self
        let rows := s.shardRows n p.entry (s.targetSlot n p.entry) p.geom p.rect
        let total := rows.foldl (fun a r => a + r.length) 0
        let bodies := packBodies (rows.length + total / 65472 + total) [] rows
        let operand := b.num + (s.currentVersion n p.entry + 1) % 2 ^ 32 * 2 ^ 32
        ((List.range g.size).filter (· != g.self)).foldl (fun s i =>
          bodies.foldl (fun s body => s.sendNear 2 0 (g.member i) g.id q operand body) s) s

/-! ### A record of a run -/

/-- The moment and weight groups of a record from its marks on, to state MOMENTS and then to WW = groups. -/
def State.runGroups (n i : Nat) (p : PlanRec) (lazyUnit : Option Nat) (s : State) : State :=
  let r := s.jrecord n i
  let s := if fld r 0 1 = 1 then
      let mw := fld r 4 4
      let s := (List.range (p.groups - mw)).foldl (fun s j => s.momentGroup n i p lazyUnit (mw + j)) s
      s.jset n i 0 1 2
    else s
  let ww := fld r 8 4
  (List.range (p.groups - ww)).foldl (fun s j => s.weightGroup n i p lazyUnit (ww + j)) s

/-- Steps 2 to 4: the gradient is copied and tested; the record opens or is skipped. A hyper record that is no inner one
makes the shard non-finite (log 28). -/
def State.openRecord (n i : Nat) (p : PlanRec) (s : State) : State :=
  let s := s.jset n i 12 4 p.groups
  let s := s.writeHbm (s.gradArea n) (s.readTile n p.grad (p.size / 64 * 132))
  let gs := s.trainGrads n p (s.maskOfPlan n p)
  if 2 < (s.hyperAt p.hyper).kind ∨ gs.any (fun g => !(ofBits g).isFin) then s.recordSkipped n i
  else ((s.jset n i 4 4 0).jset n i 8 4 0).jset n i 0 1 1

/-- Steps 6 and 7 of a record: its working copy where the version table has its entry, then DONE or SKIPPED. The step is
the one the run bound at its start (R191), which its header holds. -/
def State.finishRecord (n i plan : Nat) (p : PlanRec) (slots : Bool) (lazyUnit : Option Nat) (s : State) : State :=
  let k := fld (s.header n) 4 6
  let skipped := fld (s.jrecord n i) 0 1 == 4
  let s := match lazyUnit with
    | some u =>
      let s := s.wcopyLine n u p k skipped
      if skipped then s
      else
        let line := s.unitLine u
        let s := s.writeHbm (line + 28) (leBytes 6 k)
        let s := s.writeHbm (line + 36) (leBytes 4 ((fld (s.readHbm line 128) 36 4 + 1) % 2 ^ 32))
        s.setUnitState u 3
    | none => if slots then (s.wcopy n p k skipped).sendGather n plan p else s
  if skipped then s else s.recordDone n i

/-- The round of a rebase: the last round merged, where FX_ROUND counts them; a module that merges none takes any round
for rebased (log 33). -/
def State.rebaseRound (s : State) : Nat := if s.reg Reg.fxRound = 0 then 2 ^ 32 else s.reg Reg.fxRound - 1

/-- Two rectangles share an element. -/
def Rect.meets (x y : Rect) : Bool :=
  decide (x.r0 < y.r0 + y.rows) && decide (y.r0 < x.r0 + x.rows) && decide (x.c0 < y.c0 + y.cols)
    && decide (y.c0 < x.c0 + x.cols)

/-- An export admitted before an item, and not done, reads a rectangle of a tensor's state of an update run: the run's
writes wait until it has (R221). -/
def State.exportAhead (s : State) (id tensor : Nat) (x : Rect) : Bool :=
  (s.items.takeWhile (·.id != id)).any fun i =>
    dType i.desc == 0x0A && !i.done && (decide (fld i.desc 32 1 ≤ 4) || fld i.desc 32 1 == 7)
      && fld i.desc 36 4 == tensor && x.meets ⟨fld i.desc 40 4, fld i.desc 44 4, fld i.desc 48 4, fld i.desc 52 4⟩

/-- The die and entry that a bucket's working copy is gathered into at this module. -/
def State.gatherEntry (s : State) (b : Bucket) : Option (Nat × Nat) :=
  if b.lentry = 0xFFFF then none
  else (s.group? b.group).bind fun g => (g.entry? b.lentry).map fun x => (x.2, x.1)

/-- A new version of an entry begins, or goes on: a bucket whose parts were all in the last version gathers them afresh
(R244). -/
def State.openGathers (n e : Nat) (s : State) : State :=
  let fresh (r : Reduce) : Reduce :=
    if r.committed && s.gatherEntry (s.bucketAt r.record) == some (n, e)
    then { r with committed := false, gathered := [], lost := [], updated := false } else r
  { s with reduces := s.reduces.map fresh }

/-- The own plan record of a bucket has been worked on (R244). -/
def State.noteUpdated (n e plan : Nat) (s : State) : State :=
  let s := s.openGathers n e
  let mark (r : Reduce) : Reduce :=
    let b := s.bucketAt r.record
    if b.plan = plan ∧ b.odie = n then { r with updated := true } else r
  { s with reduces := s.reduces.map mark }

/-- The outer delta of a plan record is formed: it waits for its rebase (R33). -/
def State.deltaFormed (plan : Nat) (s : State) : State := { s with deltas := assoc s.deltas plan (s.reg Reg.cobStep) }

/-- A plan record is rebased: its next outer delta may be formed, and the steps that waited for it admitted (R33). -/
def State.rebasePlan (plan : Nat) (s : State) : State :=
  { s with rebased := assoc s.rebased plan s.rebaseRound, deltas := dissoc s.deltas plan }

/-- The groups of a record of the run that is under way, by the kind its header gives: outer deltas, a rebase, or an update
of the step (Sequence COB-1, R184, R186). -/
def State.workRecord (n i plan : Nat) (p : PlanRec) (slots : Bool) (lazyUnit : Option Nat) (s : State) : State :=
  let hk := fld (s.header n) 10 1
  let ww := fld (s.jrecord n i) 8 4
  if hk = 3 then
    let s := s.jset n i 0 1 1
    let s := (List.range (p.groups - ww)).foldl (fun s j => s.deltaGroup n i plan p (ww + j)) s
    (s.deltaFormed plan).recordDone n i
  else if hk = 1 then
    let s := if fld (s.jrecord n i) 0 1 = 2 then s else s.jset n i 0 1 2
    let s := (List.range (p.groups - ww)).foldl (fun s j => s.rebaseGroup n i plan p (ww + j)) s
    (s.rebasePlan plan).finishRecord n i plan p slots lazyUnit
  else
    let s := if fld (s.jrecord n i) 0 1 = 0 then s.openRecord n i p else s
    let s := if fld (s.jrecord n i) 0 1 = 4 then s else s.runGroups n i p lazyUnit
    s.finishRecord n i plan p slots lazyUnit

/-- The record at the next position of a die's run is worked on; the run stays where it is while the record waits for
its shard (R175), its target slot (R163), its line (Table MEM-6) or an export admitted before the run (R221). A roll-forward
skips an EMPTY record whose die was reset or whose shard is gone (R192), which of a lazy unit is one whose plan record the
pager has not formed (R213; log 165); a lazy run skips a unit that never became RESIDENT (log 144). -/
def State.cobStep (n : Nat) (s : State) : State :=
  match (s.die n).cob with
  | none => s
  | some c =>
    match c.plans[c.next]? with
    | none => s
    | some plan =>
      let i := c.next
      let lazyUnit := if c.kind = 4 then c.units[i]? else if c.kind = 5 then s.unitOfPlan plan else none
      let absent := c.kind == 4 && s.unitState (lazyUnit.getD 0) == 0
      let s0 := if c.kind = 4 ∧ !absent then s.formPlan (lazyUnit.getD 0) (c.grads.getD i 0) else s
      let p := s0.planAt plan
      let st := fld (s.jrecord n i) 0 1
      let slots := (s.die n).opened && s.entryValid n p.entry && lazyUnit.isNone || c.kind == 3
      let ready := decide ((n, plan) ∈ s.shardsReady)
      let exported := s.exportAhead c.item (match lazyUnit with
        | some u => fld (s.readHbm (s.unitLine u) 128) 4 4
        | none => Config.planTensor plan) p.rect
      let loading := c.kind == 4 && s.unitState (lazyUnit.getD 0) == 1
      let settled := c.kind == 5 && (st == 3 || st == 4)
      let hk := fld (s.header n) 10 1
      let writes := slots && !settled && (c.kind == 3 || hk == 0 || hk == 1)
      let present := if lazyUnit.isSome then p.rect.rows != 0 else ready
      let gone := c.kind == 5 && st == 0 && (!(s.die n).opened || (hk == 0 && !present))
      if !absent && ((c.kind == 0 && st == 0 && !ready) || loading || exported || (writes && s.targetBusy n p.entry))
      then s
      else
        let s := s0.modDie n fun d => { d with cob := some { c with next := i + 1 } }
        let s := { s with shardsReady := s.shardsReady.filter (· != (n, plan)) }
        let s := if writes then s.noteUpdated n p.entry plan else s
        if settled then s
        else if absent then s.recordSkipped n i
        else if c.kind = 3 then
          (if s.entryValid n p.entry then (s.wcopy n p c.k false).sendGather n plan p else s)
        else if gone then (s.recordSkipped n i).finishRecord n i plan p (slots && hk != 3) lazyUnit
        else s.workRecord n i plan p slots lazyUnit

/-- One pin of each unit of a list is released. -/
def State.unpinAll (units : List Nat) (s : State) : State :=
  units.foldl (fun s u => s.setUnitPins u (s.unitPins u - 1)) s

/-- A run whose every record is done closes its header; with no entry left to commit it ends, and the die digests its
entries (R194). -/
def State.cobEnd (n : Nat) (s : State) : State :=
  match (s.die n).cob with
  | none => s
  | some c =>
    if c.next < c.plans.length then s
    else
      let s := if c.kind ≠ 3 ∧ s.rollfwdDue n then s.closeHeader n else s
      if c.entries ≠ [] then s
      else
        let s := s.modDie n fun d => { d with cob := none }
        let s := if c.release then s.unpinAll c.units else s
        let s := c.units.foldl (fun s u => s.writeBack u) s
        let s := s.itemDone c.item 0 []
        if c.kind = 0 ∨ c.kind = 5 then s.stepEnd n else s

/-- A run goes as far as it can. -/
def State.cobRun (n : Nat) (s : State) : State :=
  match (s.die n).cob with
  | none => s
  | some c => (iter (State.cobStep n) (c.plans.length - c.next) s).cobEnd n

/-- The runs that wait for a slot or a line go on. -/
def State.resumeRuns (s : State) : State := (List.range 48).foldl (fun s n => s.cobRun n) s

/-! ### Entry commits (Sequence COB-1 step 8) -/

/-- Every gathered part of a bucket is present or lost: the shards of the other members that are not empty. -/
def State.gatheredAll (s : State) (r : Reduce) : Bool :=
  let b := s.bucketAt r.record
  match s.group? b.group with
  | none => true
  | some g =>
    (List.range g.size).all fun q =>
      let x := b.rect g.size q
      g.atPos b.ring q == g.self || x.empty || decide (q ∈ r.lost)
        || r.gathered.any fun y => y.1 == q && decide (segTotal (b.geom.segments x) ≤ y.2.2)

/-- The reduce items of the step whose bucket names an entry. -/
def State.gathersOf (s : State) (n e : Nat) : List Reduce :=
  s.reduces.filter fun r => !r.committed && s.gatherEntry (s.bucketAt r.record) == some (n, e)

/-- The own shard of a bucket, if it has one, has yet to be updated (R244). -/
def State.ownLeft (s : State) (r : Reduce) : Bool := (s.bucketAt r.record).plan != 0 && !r.updated

/-- ENTRY_COMMIT: with every own record of the entry done and the gathered parts present, the target slot becomes
CURRENT (Sequence COB-1 step 8, R244). -/
def State.commitEntry (n e : Nat) (s : State) : State :=
  let left : Bool := match (s.die n).cob with
    | none => false
    | some c => (c.plans.drop c.next).any fun a => (s.planAt a).entry == e
  let mine := s.gathersOf n e
  if 48 ≤ n ∨ !s.live n ∨ !s.entryValid n e ∨ s.vtSt n e (s.targetSlot n e) ≠ 3 ∨ left
      ∨ mine.any (fun r => !s.gatheredAll r || s.ownLeft r)
  then s
  else
    let s := s.makeCurrent n e (s.targetSlot n e) (s.currentVersion n e + 1)
    let done (r : Reduce) : Reduce := if r ∈ mine then { r with committed := true, gathered := [], lost := [] } else r
    let s := { s with reduces := s.reduces.map done }
    match (s.die n).cob with
    | some c =>
      let s := s.modDie n fun d => { d with cob := some { c with entries := dropFrom c.entries e } }
      s.cobEnd n
    | none =>
      if (List.range 64).any fun x => s.vtSt n x 0 == 3 || s.vtSt n x 1 == 3 then s else s.stepEnd n

/-! ### Starts of runs -/

/-- The plan records of a lazy run's units that have their lines are formed as it starts (R213; log 165). -/
def State.formPlans (c : CobRun) (s : State) : State :=
  (c.units.zip c.grads).foldl (fun s x => if 2 ≤ s.unitState x.1 then s.formPlan x.1 x.2 else s) s

/-- An update run starts on a die: its header is opened, but for a rebuild, and it goes as far as it can. -/
def State.startRun (n : Nat) (c : CobRun) (s : State) : State :=
  let s := if c.kind = 3 then s
    else
      let hk := if c.kind = 1 then 1 else if c.kind = 2 then 3 else 0
      let lr := if hk = 0 then s.scheduleAt c.k else some 0
      let s := if lr.isNone then s.raise (.cob n) 4 else s
      let clip := if hk = 0 then BitVec.ofNat 32 (s.reg Reg.cobClip) else one32
      s.openHeader n hk c.k (lr.getD 0) clip c.plans
  let es := if c.kind = 2 ∨ c.kind = 4 then [] else ((c.plans.map fun a => (s.planAt a).entry).dedup)
  let s := s.modDie n fun d => { d with cob := some { c with entries := es } }
  (s.formPlans c).cobRun n

/-- A roll-forward starts (R192): a header left OPEN is taken up where its records stand. -/
def State.startRollfwd (n item : Nat) (s : State) : State :=
  if !s.rollfwdDue n then s.itemDone item 0 []
  else
    let h := s.header n
    let plans := (List.range (fld h 12 2)).map fun i => fld (s.jrecord n i) 16 6
    let es := ((plans.zipIdx).filterMap fun x =>
      let e := (s.planAt x.1).entry
      let st := fld (s.jrecord n x.2) 0 1
      if (s.die n).opened && s.entryValid n e && fld h 10 1 != 3 && (s.unitOfPlan x.1).isNone
          && (st < 3 || s.vtSt n e (s.targetSlot n e) == 3) then some e else none).dedup
    let s := s.raise (.cob n) 1
    let s := s.modDie n fun d =>
      { d with cob := some { item := item, kind := 5, k := fld h 4 6, plans := plans, entries := es } }
    s.cobRun n

/-! ### Commands -/

/-- SHARD_COMPLETE (R242): the Cobbler of a die works on the records whose shards are complete. -/
def execShardComplete (dt die : Nat) (s : State) : Host.Outcome State Fault Refusal :=
  let t := s.advance dt
  s.finish dt (if die < 48 ∧ t.live die then t.cobRun die else t)

/-- ENTRY_COMMIT (R188). -/
def execEntryCommit (dt die entry : Nat) (s : State) : Host.Outcome State Fault Refusal :=
  s.finish dt ((s.advance dt).commitEntry die entry)

/-- COB_JBASE (R190): a BAR0 write of a die's COB_JBASE. -/
def State.jbaseWrite (n new : Nat) (s : State) : State :=
  let s := s.setReg (Reg.cobJbase n) new
  ({ s with journalValid := dropFrom s.journalValid n }).examineJournal n

/-- COB_JBASE (R190). -/
def execCobJbase (dt die : Nat) (v : DWord) (s : State) : Host.Outcome State Fault Refusal :=
  let t := s.advance dt
  s.finish dt (if die < 48 then
    State.barWith (fun _ _ new _ s => s.jbaseWrite die new) (Reg.cobJbase die) true v.toNat t else t)

end Sys2Proof.Machine
end

