-- ==== Sys2Proof/Machine/Power.lean ====
section
/-! DEFINITION. Domains, Dormant, the power limit, telemetry, sentinels, identity memories, the management pair (chapter
15, R318, R327, R435). -/

namespace Sys2Proof.Machine

/-! ### The base and the limit (R386) -/

/-- BASE_OVER follows the base: the event arises when the base comes to exceed the limit. -/
def State.checkBase (s : State) : State :=
  if blkK1 ∈ s.held then s
  else
    let above := decide (s.regBits Reg.pwrLimit 12 0 * 10 < s.baseDw)
    let was := bitOf (s.reg Reg.pwrStatus) 2
    let s := if above && !was then s.raise .pwr 4 else s
    s.setField Reg.pwrStatus 2 2 (if above then 1 else 0)

/-! ### Switching domains (R383 to R385) -/

/-- The link-die core a port domain depends on. -/
def coreOf (b : Nat) : Option Nat :=
  if 64 ≤ b ∧ b < 76 then some (82 + (b - 64) / 2) else if 76 ≤ b ∧ b < 82 then some (82 + (b - 76)) else none

/-- Requests as completed by the dependencies: PD56 + j follows PD48 + j, a port needs its link-die core (R385). -/
def completeEn (lo hi : Nat) : Nat × Nat :=
  let lo := (List.range 8).foldl (fun v j => putBits v (56 + j) (56 + j) (bitsOf v (48 + j) (48 + j))) lo
  let ports := (List.range 18).filter fun i => match coreOf (64 + i) with
    | some c => !bitOf hi (c - 64)
    | none => false
  let hi := ports.foldl (fun v i => putBits v i i 0) hi
  (lo, putBits hi 31 28 0xF)

/-- An admitted item not complete books a unit in a domain. -/
def State.domainBooked (s : State) (b : Nat) : Bool := s.items.any fun i => i.units.any fun u => decide (b ∈ u.domains)

/-- The domains that may go off now: unbooked, in reverse order, a link-die core after its ports, a hub with its PHY. -/
def State.settleOffs (s : State) : State :=
  let s := { s with switchOffs := s.switchOffs.filter fun b => s.counts b && !s.requested b }
  (blockOrder.reverse.filter (· ∈ s.switchOffs)).foldl (fun s b =>
    let group := if 48 ≤ b ∧ b < 56 then [b, b + 8] else if 56 ≤ b ∧ b < 64 then [b, b - 8] else [b]
    let ports := (List.range 18).map (64 + ·)
    if group.any s.domainBooked || (ports.any fun p => coreOf p == some b && s.counts p) || !decide (b ∈ s.switchOffs)
    then s
    else
      let s := { s with switchOffs := s.switchOffs.filter fun x => !decide (x ∈ group) }
      s.powerOff group) s

/-- The effect of a new request: domains to go off wait for their items, domains to come on are queued. -/
def State.applyEn (s : State) : State :=
  let offs := (List.range 92).filter fun b => !s.requested b && s.counts b
  let s := { s with switchOffs := offs, domFaults := s.domFaults.filter s.requested }
  s.queueOns.settleOffs.checkBase

/-- The effect of a write of PWR_EN or PWR_EN_HI. -/
def State.pwrEnWrite (hi : Bool) (new : Nat) (s : State) : State :=
  let l := if hi then s.reg Reg.pwrEn else new
  let h := if hi then new else s.reg Reg.pwrEnHi
  let e := completeEn l h
  ((s.setReg Reg.pwrEn e.1).setReg Reg.pwrEnHi e.2).applyEn

/-- A domain's turn can come: a port's only once its link-die core is on, or is not wanted on any more (R385). -/
def State.turnComes (s : State) (b : Nat) : Bool :=
  match coreOf b with
  | some c => decide (c ∈ s.on)
  | none => true

/-- A port whose core is neither on nor on its way, having failed to come up, is passed over. -/
def State.skipped (s : State) (b : Nat) : Bool :=
  (coreOf b).any fun c => !s.counts c && !decide (c ∈ s.switchOns)

/-- The domains that K1 switches on together have one number: the two of a hub (R385); in a wake the flash pairs, and
the compute dies six at a time (Sequence PWB-1). -/
def onGroup (waking : Bool) (b : Nat) : Nat :=
  if 48 ≤ b ∧ b < 64 then 48 + b % 8
  else if waking ∧ b < 48 then 200 + b / 6
  else if waking ∧ 88 ≤ b ∧ b < 92 then 300
  else b

/-- The groups at the head of a list of domains that go on now, at most `room` domains, by a count of groups. -/
def takeGroups (waking : Bool) : Nat → Nat → List Nat → List Nat
  | 0, _, _ => []
  | _ + 1, _, [] => []
  | n + 1, room, b :: l =>
    let same (c : Nat) : Bool := onGroup waking c == onGroup waking b
    let g := b :: l.takeWhile same
    if room < g.length then []
    else g ++ takeGroups waking n (room - g.length) (l.dropWhile same)

/-- DOMAIN_SWITCH_ON: K1 enables the regulators of the next domains waiting, in order, at most 6 in any 100 µs; a port
waits for its core, and the domains after it wait with it. A wake takes one group of flash pairs or of compute dies in
100 µs. -/
def State.switchOnNext (s : State) : State :=
  if !s.inputOk || decide (blkK1 ∈ s.held) || s.tripped then s
  else
    let recent := s.switchedAt.filter fun t => decide (s.now < t + 100000)
    let ready := (s.switchOns.filter fun b => !s.skipped b).takeWhile s.turnComes
    let waking := s.sleepState == 3
    let single := waking && ready.head?.any fun b => decide (200 ≤ onGroup waking b)
    let take :=
      if single then (if recent = [] then takeGroups waking 1 6 ready else [])
      else takeGroups waking 6 (6 - recent.length) ready
    { s with
      switchOns := s.switchOns.filter fun b => !decide (b ∈ take)
      switchedAt := recent ++ take.map fun _ => s.now
      rising := s.rising ++ take.map fun b => (b, s.now) }

/-- SUPPLY_GOOD: a domain being switched on is powered; in a wake a compute die's core rail stands at 0.75 V (Sequence
PWB-1). -/
def State.supplyGood (pd : Nat) (s : State) : State :=
  if s.rising.any (·.1 == pd) then
    let s := { s with rising := s.rising.filter (·.1 != pd), on := addTo s.on pd }
    (if s.sleepState = 3 ∧ pd < 48 then s.setReg (Reg.vcore pd) 750 else s).checkBase
  else s

/-- DOM_FAULT: 1 ms after its start a domain without supply-good is switched off again, and the event is recorded; a
hub's other domain goes with it. -/
def State.domFault (pd : Nat) (s : State) : State :=
  if s.rising.any (fun x => x.1 == pd && decide (x.2 + 1000000 ≤ s.now)) then
    let group := if 48 ≤ pd ∧ pd < 56 then [pd, pd + 8] else if 56 ≤ pd ∧ pd < 64 then [pd, pd - 8] else [pd]
    let s := { s with domFaults := group.foldl addTo s.domFaults }
    ((s.powerOff group).raise .pwr 7).checkBase
  else s

/-! ### Dormant (R390 to R394) -/

/-- The effect of a write of PWR_CTRL. -/
def State.pwrCtrlWrite (new : Nat) (s : State) : State := (s.setReg Reg.pwrCtrl new).dormantStep

/-- The registers K1 copies into retention storage: RW, RWL and STK fields of the domains that go off, and the whole
version table (R392). -/
def State.retain (s : State) : Retained :=
  let mine (off : Nat) : Bool := (blockAt off).any fun b => dormantOff b.pd && decide (b.pd ∈ s.on)
  let kept := (s.regs.filter fun e => mine e.1).filterMap fun e =>
    let vt := decide (0x100000 ≤ e.1) && decide (e.1 < 0x400000) && decide (0x1000 ≤ e.1 % 0x10000)
    match regRowAt e.1 with
    | none => none
    | some r =>
      let m := if vt then 0xFFFFFFFFFFFFFFFF else r.rw ||| r.rwl ||| r.stk
      some (e.1, BitVec.ofNat 64 ((e.2.toNat &&& m) ||| (r.reset &&& (0xFFFFFFFFFFFFFFFF - m))))
  { regs := kept, locks := s.locked.filter fun b => dormantOff b }

/-- An item that Dormant entry waits for: every one but a staged set that waits for its apply point. -/
def Item.holdsDormant (i : Item) : Bool := !(dType i.desc == 0x12 && fld i.desc 32 1 != 1)

/-- DORMANT_ENTRY: once the admitted work has completed, K1 retains the fields and switches the domains off; the HBM4
stacks go into self-refresh. Staged sets go on waiting for their apply points. -/
def State.dormantEntry (s : State) : State :=
  if s.sleepState ≠ 1 ∨ blkK1 ∈ s.held ∨ s.items.any Item.holdsDormant then s
  else
    let keep := s.retain
    let s := s.switchOff ((List.range 18).map (64 + ·) ++ List.range 48 ++ [88, 89, 90, 91])
    let s := { s with retained := keep }
    ((s.setField Reg.pwrStatus 1 0 2).raise .pwr 5).checkBase

/-- A domain has done its part of a wake (Sequence PWB-1): it is not to wake, it could not come up, a reset source holds
it, or it is on, and, unless it is a port, released. -/
def State.woken (s : State) (b : Nat) : Bool :=
  !s.wanted b || decide (b ∈ s.domFaults) || s.sources.any (fun r => decide (b ∈ r.cover))
    || (if 64 ≤ b ∧ b < 82 then s.counts b || s.skipped b else s.live b)

/-- WAKE_COMPLETE: once every domain that wakes has, STATE becomes ON; a request asserted during the wake begins entry. -/
def State.wakeComplete (s : State) : State :=
  if s.sleepState ≠ 3 ∨ blkK1 ∈ s.held ∨ !((List.range 92).all s.woken) then s
  else (({ s with wakeAt := none }).setField Reg.pwrStatus 1 0 0).raise .pwr 6 |>.dormantStep

/-! ### Telemetry (R387 to R389) -/

/-- Every junction of a sample is below 95 °C. -/
def allCool (t : Telemetry) : Bool := t.temps.all fun x => decide (x < 1520)

/-- A die's junction reading is stored: at 100 °C THERM_WARN; a compute die with admitted work that passes 105 °C sets
PRM_EVENTS.HOT. -/
def State.storeTemp (n : Nat) (x : Int) (s : State) : State :=
  let old := s.tempOf n
  let s := s.setReg (Reg.tempDie n) (twos 16 x)
  let s := if old < 1600 ∧ 1600 ≤ x then s.raise .pwr 0 else s
  if old ≤ 1680 ∧ 1680 < x ∧ n < 48 ∧ s.live 92 ∧ s.domainBooked n then s.raise .prm 4 else s

/-- COOLANT_HOT after 1 s above 40 °C, OVER_LIMIT after 10 ms more than 5 % above the limit, once for each excursion. -/
def State.watch (t : Telemetry) (s : State) : State :=
  let hot := decide (640 < t.inlet)
  let s := { s with
    hotInletSince := if hot then s.hotInletSince.or (some s.now) else none
    coolantTold := s.coolantTold && hot }
  let s := match s.hotInletSince with
    | some a => if a + 1000000000 ≤ s.now ∧ !s.coolantTold then ({ s with coolantTold := true }).raise .pwr 1 else s
    | none => s
  let above := decide (s.regBits Reg.pwrLimit 12 0 * 10 * 105 < t.msDw * 100)
  let s := { s with
    overSince := if above then s.overSince.or (some s.now) else none
    overTold := s.overTold && above }
  match s.overSince with
  | some a => if a + 10000000 ≤ s.now ∧ !s.overTold then ({ s with overTold := true }).raise .pwr 3 else s
  | none => s

/-- The smallest τ_adm, in 0.01 ps, among the admitted items of a die that are not complete (R320). -/
def State.tauFloor (s : State) (n : Nat) : Option Nat :=
  (s.items.filterMap fun i => look i.taus n).foldl (fun a t => match a with
    | none => some t
    | some x => some (min x t)) (none : Option Nat)

/-- A die's reading lies above K1's hold, τ_floor ÷ (1 + g ÷ 200) (R320). -/
def State.aboveHold (s : State) (n : Nat) : Bool :=
  (s.tauFloor n).any fun t => decide (200 * t < s.sentinelPs n * 100 * (200 + s.guardPct n))

/-- The hold raises a die's core voltage, up to 0.90 V, when a reading lies above it; by how much is a free value (R320;
log 137). -/
def State.raiseVcore (n : Nat) (s : State) : State :=
  if n < 48 ∧ s.aboveHold n ∧ !decide (blkK1 ∈ s.held) then
    let v := min 900 (max 600 (s.reg (Reg.vcore n) + 1 + Config.vcoreStep s.drawCount % 300))
    { s with drawCount := s.drawCount + 1 }.setReg (Reg.vcore n) v
  else s

/-- The core voltage that K1 applies when telemetry reports `v` mV: within 0.60 V to 0.90 V, and not lowered while the
hold needs it (R320, R382; DESIGN CHOICE, log 137). -/
def State.heldVcore (s : State) (n v : Nat) : Nat :=
  let v := min 900 (max 600 v)
  if s.aboveHold n then max v (s.reg (Reg.vcore n)) else v

/-- The draw above base and reservations raises the base (R326). -/
def State.raiseBase (t : Telemetry) (s : State) : State :=
  let plain := { s with excessDw := 0 }.reservedAt s.time
  { s with excessDw := if s.live 92 then t.msDw - plain else s.excessDw }

/-- TELEMETRY_SAMPLE: one sample of Table PWB-3. -/
def State.telemetry (t : Telemetry) (s : State) : State :=
  if !s.inputOk then s
  else
    let s := { s with coolSince := if allCool t then s.coolSince.or (some s.now) else none }
    if blkK1 ∈ s.held then s
    else
      let mv := s.regBits Reg.pwrInput 15 0
      let s := s.setReg Reg.pwrInput (t.milliVolts % 2 ^ 16 + t.centiAmps % 2 ^ 16 * 2 ^ 16)
      let s := if t.milliVolts < 48000 ∧ (mv = 0 ∨ 48000 ≤ mv) then s.raise .pwr 2 else s
      let s := s.setReg Reg.pwrAvg (min t.msDw 0xFFFF + min t.secDw 0xFFFF * 2 ^ 16)
      let s := s.setReg Reg.pwrPeak (max (s.reg Reg.pwrPeak) (min t.msDw 0xFFFF))
      let s := (List.range 64).foldl (fun s n => match t.temps[n]? with
        | some x => s.storeTemp n x
        | none => s) s
      let s := (List.range 48).foldl (fun s n => match t.vcores[n]? with
        | some v => s.setReg (Reg.vcore n) (s.heldVcore n v)
        | none => s) s
      let s := s.setReg Reg.coolant (twos 16 t.inlet + twos 16 t.outlet * 2 ^ 16)
      ((s.watch t).raiseBase t).settleOffs.checkBase

/-! ### Sentinels (R318) -/

/-- The domain that powers a clockless die's sentinels. -/
def sentinelPd (die : Nat) : Nat := if die < 48 then die else if die < 56 then pdHub (die - 48) else pdLink (die - 56)

/-- A sentinel of a die changes. -/
def State.modSentinel (die i : Nat) (f : Sentinel → Sentinel) (s : State) : State :=
  { s with sentinels := modAt s.sentinels die fun l => modAt l i f }

/-- One sentinel. -/
def State.sentinel (s : State) (die i : Nat) : Sentinel := (s.sentinels.getD die []).getD i {}

/-- A sentinel that was not faulted is, with its event. -/
def State.faultSentinel (die i : Nat) (s : State) : State :=
  if (s.sentinel die i).faulted then s
  else
    let s := s.modSentinel die i fun x => { x with faulted := true }
    if s.live 92 then s.raise .prm 3 else s

/-- SENTINEL_READING: a token time reaches the Fitter; one outside 500 to 3,000 ps faults the sentinel. A compute die's
reading above K1's hold raises its core voltage. -/
def State.sentinelReading (die i ps : Nat) (s : State) : State :=
  if 62 ≤ die || (s.sentinels.getD die []).length ≤ i || !s.live (sentinelPd die) || !s.controlOk die then s
  else
    let s := s.modSentinel die i fun x => { x with ps := min ps 4095, takenAt := some s.now, misses := 0 }
    (if ps < 500 ∨ 3000 < ps then s.faultSentinel die i else s).raiseVcore die

/-- SENTINEL_MISS: two intervals missed in a row fault the sentinel. -/
def State.sentinelMiss (die i : Nat) (s : State) : State :=
  if 62 ≤ die || (s.sentinels.getD die []).length ≤ i || !s.live (sentinelPd die) then s
  else
    let s := s.modSentinel die i fun x => { x with misses := x.misses + 1 }
    if 2 ≤ (s.sentinel die i).misses then s.faultSentinel die i else s

/-! ### The surroundings table (R398 to R400) -/

/-- The table takes an entry: where that changes it, gen rises by 2 and CHANGED is set (R400). -/
def State.setSur (e : Nat) (bytes : List Byte) (s : State) : State :=
  if s.sur e = bytes ∨ (bytes = [] ∧ s.sur e = surBlank e) then s
  else
  let s := { s with surroundings := s.surroundings.set e bytes }
  (s.setReg Reg.surGen ((s.reg Reg.surGen + 2) % 2 ^ 32)).raise .sur 0

/-- An entry with a status and nothing else. -/
def surStatus (e status : Nat) : List Byte := (surBlank e).set 2 (BitVec.ofNat 8 status)

/-- The cable length in decimetres of CMIS byte 202; 0xFFFF unknown. -/
def cableDm (code : Byte) : Nat :=
  let base := code.toNat % 64
  if base = 0 then 0xFFFF else base * 10 ^ (code.toNat / 64)

/-- The first `n` bytes of a text, padded with spaces. -/
def padText (n : Nat) (t : List Byte) : List Byte := (t ++ List.replicate n 0x20).take n

/-- Bytes of `extra` that an entry holds: a stack's capacity and height, a channel's capacity, the carrier's codes. -/
def surExtra (e : Nat) : Nat := if e < 18 ∨ e = 59 then 0 else if e < 51 then 3 else 4

/-- The entry that a read identity memory gives (Table PWB-9). The wiring plan's neighbours fill the bytes of vendor and
the first of part (log 162). -/
def surEntry (e : Nat) (media lenCode app : Byte) (vendor part serial extra : List Byte) : List Byte :=
  let cage := decide (e < 18)
  let len := if cage then cableDm lenCode else 0
  let passive := cage && media == 0x03
  let active := cage && media == 0x04
  let reach := decide (e < 12) && ((passive && decide (len ≤ 20)) || (active && decide (len ≤ 5000)))
  let flags := (if passive then 1 else 0) + (if active then 2 else 0) + (if reach then 4 else 0)
  (surBlank e).take 2 ++ [1, if cage then media else 0] ++ leBytes 2 len ++ leBytes 1 flags
    ++ [if 12 ≤ e ∧ e < 18 then app else 0]
    ++ (if e = 59 then padTo 16 vendor ++ padTo 16 part else padText 16 vendor ++ padText 16 part)
    ++ padText 16 serial ++ padTo 8 (extra.take (surExtra e))

/-- K1 or the hub that reads an identity memory can; a hub reads during its initialisation (Table PWB-7). -/
def State.readerReady (s : State) (e : Nat) : Bool :=
  if e < 19 ∨ e = 59 then s.k1Live && s.wire 63 .k1
  else
    let j := if e < 51 then (e - 19) / 4 else e - 51
    s.live (pdHub j) && s.live (pdPhy j) && (decide (e < 51) || s.live (88 + j / 2))

/-- What a new entry means to the ports: a far port looks at the module in its cage, and the neighbours that near ports
report are held against a new wiring plan. -/
def State.cageRead (e : Nat) (s : State) : State :=
  if 12 ≤ e ∧ e < 18 then s.farOptics (e - 12)
  else if e = 59 then ((List.range 12).filter s.reportsNeighbour).foldl (fun s p => s.checkPlan p) s
  else s

/-- IDENTITY_READ: one try of a read. A third failure in a row makes the entry UNREADABLE, bad content INVALID. Tries are
10 ms apart, and a cage is not read before its presence has lasted 2 s. -/
def State.identityRead (e : Nat) (r : IdRead) (s : State) : State :=
  let early := (look s.presentAt e).any fun t => decide (s.now < t + 2000000000)
  let soon := (look s.triedAt e).any fun t => decide (s.now < t + 10000000)
  if 60 ≤ e || !s.readerReady e || early || soon then s
  else
    let tries := (look s.cageTries e).getD 0
    let done (s : State) : State :=
      { s with cageTries := dissoc s.cageTries e, presentAt := dissoc s.presentAt e, triedAt := dissoc s.triedAt e }
    match r with
    | .fail =>
      if 2 ≤ tries then (((done s).setSur e (surStatus e 2)).raise .sur 1).cageRead e
      else { s with cageTries := assoc s.cageTries e (tries + 1), triedAt := assoc s.triedAt e s.now }
    | .bad => (((done s).setSur e (surStatus e 3)).raise .sur 1).cageRead e
    | .data media lenCode app vendor part serial extra =>
      ((done s).setSur e (surEntry e media lenCode app vendor part serial extra)).cageRead e

/-- CAGE_PRESENCE: a module appears in a cage; its memory is read 2 s later. -/
def State.cagePresent (e : Nat) (s : State) : State :=
  if 18 ≤ e || !s.readerReady e then s
  else { s with presentAt := assoc s.presentAt e s.now, cageTries := dissoc s.cageTries e, triedAt := dissoc s.triedAt e }

/-- CAGE_REMOVAL: the entry becomes ABSENT. -/
def State.cageGone (e : Nat) (s : State) : State :=
  if 18 ≤ e || !s.readerReady e then s
  else
    let s := { s with
      presentAt := dissoc s.presentAt e
      cageTries := dissoc s.cageTries e
      triedAt := dissoc s.triedAt e }
    if fld (s.sur e) 2 1 = 0 then s else (s.setSur e []).cageRead e

/-! ### The management pair (R397, R435) -/

/-- A byte of a private read: the K1 region, the surroundings view, else 0xFF. A register's bytes come from its word. -/
def State.mgmtByte (s : State) (a : Nat) : Byte :=
  if 0x70000 ≤ a ∧ a < 0x80000 then
    let b8 := a / 8 * 8
    let b4 := a / 4 * 4
    match regRowAt b8 with
    | some r => if r.wide then (leBytes 8 (s.word b8)).getD (a - b8) 0
      else if b4 = b8 then (leBytes 4 (s.word b4)).getD (a - b4) 0
      else match regRowAt b4 with
        | some _ => (leBytes 4 (s.word b4)).getD (a - b4) 0
        | none => 0
    | none => match regRowAt b4 with
      | some _ => (leBytes 4 (s.word b4)).getD (a - b4) 0
      | none => 0
  else if 0x80000 ≤ a ∧ a < 0x80F40 then s.surByte (a - 0x80000)
  else 0xFF

/-- MGMT_PRIVATE_READ: `len` bytes from a BAR0 offset leave on the management pair. -/
def State.mgmtRead (off len : Nat) (s : State) : State :=
  if s.k1Live && s.wire 63 .k1 then
    s.emit (.i3c ((List.range len).map fun i => s.mgmtByte (off + i)))
  else s

/-! ### POWER_LIMIT (R327) -/

/-- The instants at which the reservations change, from now on. -/
def State.loadPoints (s : State) (t : Nat) : List Nat :=
  (t :: s.reservations.map (·.1) ++ s.reservations.map (·.2.1)).filter (t ≤ ·)

/-- The instant from which the reservations stay within the limit. -/
def State.withinFrom (s : State) : Nat :=
  let t := s.time
  let cap := s.regBits Reg.pwrLimit 12 0 * 10
  let pts := s.loadPoints t
  pts.foldl (fun a p =>
    if 0 < s.loadAt p ∧ cap < s.baseDw + s.loadAt p then
      let next := (pts.filter (p < ·)).foldl (fun b q => match b with
        | none => some q
        | some x => some (min x q)) (none : Option Nat)
      max a (next.getD p)
    else a) t

/-- The checks of a POWER_LIMIT descriptor. -/
def powerLimitCheck : ItemCheck := fun _ d =>
  if !zeroIn d 36 96 then .error { code := Code.malformed }
  else if fld d 32 4 < 1200 ∨ 5000 < fld d 32 4 then .error { code := Code.lengthBound }
  else .ok {}

/-- Its effect. -/
def powerLimitStart : ItemStart := fun it s =>
  let s := s.setReg Reg.pwrLimit (fld it.desc 32 4)
  s.checkBase.itemDone it.id Code.ok (leBytes 8 s.withinFrom)

/-! ### The commands -/

/-- The command PWR_EN: a BAR0 write of PWR_EN or PWR_EN_HI. -/
def execPwrEn (dt : Nat) (hi : Bool) (v : DWord) (s : State) : Host.Outcome State Fault Refusal :=
  s.finish dt (if hi then State.barWith (fun _ _ new _ s => s.pwrEnWrite true new) Reg.pwrEnHi false (v.toNat % 2 ^ 32) (s.advance dt)
    else State.barWith (fun _ _ new _ s => s.pwrEnWrite false new) Reg.pwrEn true v.toNat (s.advance dt))

/-- The command DOMAIN_SWITCH_ON. -/
def execDomainSwitchOn (dt : Nat) (s : State) : Host.Outcome State Fault Refusal :=
  s.finish dt (s.advance dt).switchOnNext

/-- The command SUPPLY_GOOD. -/
def execSupplyGood (dt pd : Nat) (s : State) : Host.Outcome State Fault Refusal :=
  s.finish dt ((s.advance dt).supplyGood pd)

/-- The command DOM_FAULT. -/
def execDomFault (dt pd : Nat) (s : State) : Host.Outcome State Fault Refusal :=
  s.finish dt ((s.advance dt).domFault pd)

/-- The command DORMANT_REQUEST: the pin goes high, or PWR_CTRL.DORMANT is written 1. -/
def execDormantRequest (dt : Nat) (pin : Bool) (s : State) : Host.Outcome State Fault Refusal :=
  let s' := s.advance dt
  s.finish dt (if pin then ({ s' with dormantPin := true }).dormantStep
    else State.barWith (fun _ _ new _ s => s.pwrCtrlWrite new) Reg.pwrCtrl false (s'.reg Reg.pwrCtrl ||| 1) s')

/-- The command DORMANT_REQUEST_RELEASE: the pin goes low, or PWR_CTRL.DORMANT is written 0. -/
def execDormantRequestRelease (dt : Nat) (pin : Bool) (s : State) : Host.Outcome State Fault Refusal :=
  let s' := s.advance dt
  s.finish dt (if pin then ({ s' with dormantPin := false }).dormantStep
    else State.barWith (fun _ _ new _ s => s.pwrCtrlWrite new) Reg.pwrCtrl false (putBits (s'.reg Reg.pwrCtrl) 0 0 0) s')

/-- The command DORMANT_ENTRY. -/
def execDormantEntry (dt : Nat) (s : State) : Host.Outcome State Fault Refusal :=
  s.finish dt (s.advance dt).dormantEntry

/-- The command WAKE_COMPLETE. -/
def execWakeComplete (dt : Nat) (s : State) : Host.Outcome State Fault Refusal :=
  s.finish dt (s.advance dt).wakeComplete

/-- The command TELEMETRY_SAMPLE. -/
def execTelemetrySample (dt : Nat) (t : Telemetry) (s : State) : Host.Outcome State Fault Refusal :=
  s.finish dt ((s.advance dt).telemetry t)

/-- The command SENTINEL_READING. -/
def execSentinelReading (dt die i ps : Nat) (s : State) : Host.Outcome State Fault Refusal :=
  s.finish dt ((s.advance dt).sentinelReading die i ps)

/-- The command SENTINEL_MISS. -/
def execSentinelMiss (dt die i : Nat) (s : State) : Host.Outcome State Fault Refusal :=
  s.finish dt ((s.advance dt).sentinelMiss die i)

/-- The command IDENTITY_READ. -/
def execIdentityRead (dt entry : Nat) (r : IdRead) (s : State) : Host.Outcome State Fault Refusal :=
  s.finish dt ((s.advance dt).identityRead entry r)

/-- The command CAGE_PRESENCE. -/
def execCagePresence (dt entry : Nat) (s : State) : Host.Outcome State Fault Refusal :=
  s.finish dt ((s.advance dt).cagePresent entry)

/-- The command CAGE_REMOVAL. -/
def execCageRemoval (dt entry : Nat) (s : State) : Host.Outcome State Fault Refusal :=
  s.finish dt ((s.advance dt).cageGone entry)

/-- The command MGMT_PRIVATE_READ. -/
def execMgmtPrivateRead (dt off len : Nat) (s : State) : Host.Outcome State Fault Refusal :=
  s.finish dt ((s.advance dt).mgmtRead off len)

/-- The command POWER_LIMIT. -/
def execPowerLimit (dt : Nat) (s : State) : Host.Outcome State Fault Refusal :=
  s.finish dt (State.decideRow (0x49, 0) powerLimitCheck powerLimitStart (s.advance dt))

end Sys2Proof.Machine
end

