-- ==== Sys2Proof/Machine/Errors.lean ====
section
/-! DEFINITION. Error detection and containment: parity, ECC, the control network (R28, R415 to R418). -/

namespace Sys2Proof.Machine

/-! ### Channels (R28) -/

/-- An item has a transfer whose route a channel's failure changes. -/
def State.routeChanges (s t : State) (it : Item) : Bool :=
  (s.transfers it).any fun x => s.route x.1 x.2 != t.route x.1 x.2

/-- The items of a list whose promise the Fitter's guard does not cover over the longer route: the manual does not say
which the guard covers (a free value, log 134). -/
def State.uncovered (ids : List Nat) (s : State) : State × List Nat :=
  ids.foldl (fun a id =>
    ({ a.1 with drawCount := a.1.drawCount + 1 },
      if Config.guardCovers a.1.drawCount then a.2 else a.2 ++ [id])) (s, [])

/-- Those of the module's own transfers whose route changed and whose promise the guard does not cover. -/
def State.uncoveredTransfers (before s : State) : State × List Transfer :=
  let moved (t : Transfer) : Bool :=
    before.route (.link t.port) (.hub t.hub) != s.route (.link t.port) (.hub t.hub)
  (s.farTransfers.filter moved).foldl (fun a t =>
    ({ a.1 with drawCount := a.1.drawCount + 1 },
      if Config.guardCovers a.1.drawCount then a.2 else a.2 ++ [t])) (s, [])

/-- Traffic goes another way; admitted work whose route changed keeps its promise if the guard covers the longer route, and
receives PROMISE_VOID otherwise: items whose records are not yet issued (R329), and the module's own transfers. -/
def State.reroute (before : State) (s : State) : State :=
  let ids := (s.items.filter fun i => before.routeChanges s i).map (·.id)
  let x := s.uncovered ids
  let y := before.uncoveredTransfers (x.1.voidItems 0 x.2)
  y.1.voidTransfers 0 fun t => decide (t ∈ y.2)

/-- A channel fails (R28): the record, then the route change or the containment of the die. -/
def State.failChannel (c replays : Nat) (s : State) : State :=
  let ch := channelOf c
  let before := s
  let s := { s with failedChannels := addTo s.failedChannels c }
  let s := s.raiseAt .err 1 ch.die (c % 256)
  let s := s.detail 0x1181 2 ch.die (c % 256) (leBytes 2 c ++ leBytes 1 replays)
  match ch with
  | .home n => s.containDie n 2 (leBytes 8 c)
  | _ => before.reroute s

/-- The refusals of a unit in a row, this one counted: one of the unit refused last on the channel follows a failed replay,
unless that replay was good and the unit is another of the same number (a free value, log 160). -/
def State.refusalRun (s : State) (channel unit : Nat) : Nat :=
  match s.channelReplays.find? (·.1 == channel) with
  | some (_, u, n, _) => if u = unit ∧ Config.goodReplay s.drawCount = false then n + 1 else 1
  | none => 1

/-- PARITY_ERROR: a unit is refused. The channel fails at the refusal that is the seventh failed replay of one unit;
otherwise the unit is replayed, and the channel fails once more than 16 replays have been made within 1 ms. -/
def State.parityError (channel unit : Nat) (s : State) : State :=
  if !s.inputOk || decide (channel ∈ s.failedChannels) then s
  else
    let old := s.channelReplays.find? (·.1 == channel)
    let run := s.refusalRun channel unit
    let s := { s with drawCount := s.drawCount + 1 }
    if 8 ≤ run then s.failChannel channel 7
    else
      let times : List Nat :=
        ((old.elim ([] : List Nat) fun x => x.2.2.2).filter fun t => decide (s.now < t + 1000000)) ++ [s.now]
      let s := { s with
        channelReplays := (channel, unit, run, times) :: s.channelReplays.filter (·.1 != channel) }
      let s := (s.count64 Reg.errParReplays 1).raiseAt .err 0 (channelOf channel).die (channel % 256)
      if 16 < times.length then s.failChannel channel times.length else s

/-! ### ECC (R200, R416) -/

/-- The store code of Table EVT-5, where it has one. -/
def storeCode : Store → Option Nat
  | .stockSram => some 0
  | .instrSram => some 1
  | .accumulator => some 2
  | .awlBuffer => some 3
  | .hbm => some 4
  | .hubState => none
  | .linkState => none
  | .moduleState => none

/-- The sub of a store's records: the stack for HBM4. -/
def storeSub (st : Store) (addr : Nat) : Nat := if st = .hbm then addr / 0xC00000000 % 256 else 0xFF

/-- MODULE_FATAL (R418): the Fitter refuses every item, promises no longer bind. A trigger in K1 lets only a COLD reset end
it, whatever triggers came before or come after. -/
def State.moduleFatal (die addr : Nat) (s : State) : State :=
  let s := { s with fatal := if s.fatal = some 63 then some 63 else some die }
  let s := s.raiseAt .err 6 die 0xFF
  s.detail 0x1183 3 die 0xFF ([6, 0, 0, 0] ++ leBytes 8 addr)

/-- ECC_ERROR: a corrected error is counted; an uncorrectable one ends its reader, or contains its unit. -/
def State.eccError (st : Store) (die addr : Nat) (corrected : Bool) (s : State) : State :=
  if !s.inputOk then s
  else if corrected then (s.count64 Reg.errCorrected 1).raiseAt .err 2 die (storeSub st addr)
  else
    let s := (s.count Reg.errUncorr 1).raiseAt .err 3 die (storeSub st addr)
    let s := match storeCode st with
      | some c => s.detail 0x1182 2 die (storeSub st addr) ([BitVec.ofNat 8 c, 0, 0, 0] ++ leBytes 8 addr)
      | none => s
    match st with
    | .instrSram => if die < 48 then s.containDie die 0 (leBytes 8 addr) else s
    | .hubState => if 48 ≤ die ∧ die < 56 then s.containDie die 3 (leBytes 8 addr) else s
    | .linkState => if 56 ≤ die ∧ die < 62 then s.containDie die 4 (leBytes 8 addr) else s
    | .moduleState => s.moduleFatal die addr
    | .accumulator | .awlBuffer => s.endReader true die
    | _ => s.endReader false die

/-! ### The control network (Table EVT-6 row 1) -/

/-- CONTROL_ACCESS_TIMEOUT: an access to a die is unanswered within 2 µs; four in a row contain it. An answered one
ends the run. -/
def State.accessTimeout (die : Nat) (answered : Bool) (s : State) : State :=
  if !s.inputOk || 62 ≤ die then s
  else if answered then { s with accessMisses := dissoc s.accessMisses die }
  else
    let n := (look s.accessMisses die).getD 0 + 1
    if 4 ≤ n then ({ s with accessMisses := dissoc s.accessMisses die }).containDie die 1 []
    else { s with accessMisses := assoc s.accessMisses die n }

/-! ### Releases (R417) -/

/-- The die a CONTAIN source holds. -/
def ResetSource.containedDie (r : ResetSource) : Nat :=
  if r.kind = 1 then r.index else if r.kind = 2 then 48 + r.index else 56 + r.index

/-- The effect of a write of ERR_RELEASE. -/
def State.errRelease (v : Nat) (s : State) : State :=
  let s := s.setReg Reg.errContain (s.reg Reg.errContain &&& (2 ^ 64 - 1 - v % 2 ^ 64))
  s.releaseSource fun r => r.cause == 0x41 && bitOf v r.containedDie

/-- The effect of a write of ERR_RELEASE_PORT. -/
def State.errReleasePort (v : Nat) (s : State) : State :=
  let s := s.setReg Reg.errContainPort (s.reg Reg.errContainPort &&& (2 ^ 18 - 1 - v % 2 ^ 18))
  s.releaseSource fun r => r.cause == 0x31 && bitOf v (if r.kind = 4 then r.index else 12 + r.index)

/-! ### The commands -/

/-- The command PARITY_ERROR. -/
def execParityError (dt channel unit : Nat) (s : State) : Host.Outcome State Fault Refusal :=
  s.finish dt ((s.advance dt).parityError channel unit)

/-- The command ECC_ERROR. -/
def execEccError (dt : Nat) (store : Store) (die addr : Nat) (corrected : Bool) (s : State) :
    Host.Outcome State Fault Refusal :=
  s.finish dt ((s.advance dt).eccError store die addr corrected)

/-- The command CONTROL_ACCESS_TIMEOUT. -/
def execControlAccessTimeout (dt die : Nat) (answered : Bool) (s : State) : Host.Outcome State Fault Refusal :=
  s.finish dt ((s.advance dt).accessTimeout die answered)

/-- The command ERR_RELEASE: a BAR0 write of it. -/
def execErrRelease (dt : Nat) (v : DWord) (s : State) : Host.Outcome State Fault Refusal :=
  s.finish dt (State.barWith (fun _ _ _ v s => s.errRelease v) Reg.errRelease true v.toNat (s.advance dt))

/-- The command ERR_RELEASE_PORT: a BAR0 write of it. -/
def execErrReleasePort (dt : Nat) (v : Word) (s : State) : Host.Outcome State Fault Refusal :=
  s.finish dt (State.barWith (fun _ _ _ v s => s.errReleasePort v) Reg.errReleasePort false v.toNat (s.advance dt))

end Sys2Proof.Machine
end

