-- ==== Sys2Proof/Machine/FxTable.lean ====
section
/-! DEFINITION. The exchange table: header, port records, routes, relay masks, shard records (R266 to R268). -/

namespace Sys2Proof.Machine

/-- A port record (Table FEX-5). -/
structure FxPort where
  partner : Nat
  hopLimit : Nat
  dmac : List Byte
  smac : List Byte
  sip : List Byte
  dip : List Byte
  deriving DecidableEq, Repr

/-- A shard record (Table FEX-6). -/
structure FxShard where
  shard : Nat
  tensor : Nat
  row0 : Nat
  rows : Nat
  col0 : Nat
  cols : Nat
  rank : Nat
  stream : Nat
  delta : Nat
  anchor : Nat
  mom : Nat
  feedback : Nat
  send : Nat
  recv : Nat
  ohyper : Nat
  /-- the reserved bytes of the record are 0 -/
  clean : Bool := true
  deriving DecidableEq, Repr

/-- Where the exchange table lies. -/
def State.fxBase (s : State) : Nat := s.regBits Reg.fxTable 47 12 * 4096

/-- A field of the header (Table FEX-4). -/
def State.fxFld (s : State) (off n : Nat) : Nat := leNat (s.readHbm (s.fxBase + off) n)

/-- This site and this plane. -/
def State.site (s : State) : Nat := s.fxFld 12 1
@[inherit_doc State.site] def State.plane (s : State) : Nat := s.fxFld 13 1

/-- The epoch of the table; at 0 its active, rotation, weight, backup and shard fields are ignored (Table FEX-4). -/
def State.fxEpoch (s : State) : Nat := s.fxFld 4 4

/-- The active sites, by rising number. -/
def State.activeSites (s : State) : List Nat := if s.fxEpoch = 0 then [] else setBitsOf (s.fxFld 16 2) 16

/-- The site in the rotation entry of a number (R274). -/
def State.rotation (s : State) (i : Nat) : Nat := s.fxFld (20 + i % max 1 s.activeSites.length % 16) 1

/-- The weight of a site. -/
def State.siteWeight (s : State) (o : Nat) : Word := BitVec.ofNat 32 (s.fxFld (36 + 4 * o) 4)

/-- The backup site of a site; 0xFF: none. -/
def State.backup (s : State) (o : Nat) : Nat := if s.fxEpoch = 0 then 0xFF else s.fxFld (100 + o) 1

/-- The record of a port. -/
def State.fxPort (s : State) (k : Nat) : FxPort :=
  let b := s.readHbm (s.fxBase + 256 + 64 * k) 64
  { partner := fld b 0 1, hopLimit := fld b 1 1, dmac := (b.drop 2).take 6, smac := (b.drop 8).take 6,
    sip := (b.drop 16).take 16, dip := (b.drop 32).take 16 }

/-- The primary and the alternate port toward a site (R267); 7: none. -/
def State.routeTo (s : State) (d : Nat) : Nat × Nat :=
  let v := s.fxFld (640 + 2 * d) 2
  (bitsOf v 2 0, bitsOf v 10 8)

/-- The ports on which broadcast messages of an origin go. -/
def State.relayPorts (s : State) (o : Nat) : List Nat := setBitsOf (s.fxFld (672 + o) 1) 6

/-- The shard records. -/
def State.fxShards (s : State) : List FxShard :=
  (List.range (if s.fxEpoch = 0 then 0 else s.fxFld 18 2)).map fun i =>
    let b := s.readHbm (s.fxBase + 1024 + 128 * i) 128
    { shard := fld b 0 4, tensor := fld b 4 4, row0 := fld b 8 4, rows := fld b 12 4, col0 := fld b 16 4,
      cols := fld b 20 4, rank := fld b 24 1, stream := fld b 26 2, delta := fld b 28 6, anchor := fld b 34 6,
      mom := fld b 40 6, feedback := fld b 46 6, send := fld b 52 6, recv := fld b 58 6, ohyper := fld b 64 2,
      clean := zeroIn b 25 26 && zeroIn b 66 128 }

/-- The record of a shard number. -/
def State.fxShard? (s : State) (x : Nat) : Option FxShard := s.fxShards.find? (·.shard == x)

/-- The rank padded to a multiple of 32. -/
def FxShard.qp (x : FxShard) : Nat := (x.rank + 31) / 32 * 32

/-- A boundary of 64 bytes at or above. -/
def to64 (a : Nat) : Nat := (a + 63) / 64 * 64

/-- The offsets of the planes of a factor image, and its size (R270): P payload, P scales, Q payload, Q scales; of a
vector image, its payload and its scales. -/
def FxShard.planes (x : FxShard) : List Nat × Nat :=
  if x.rank = 0 then
    let n := (x.cols + 31) / 32 * 32
    ([0, n], n + n / 32)
  else
    let a := to64 (x.rows * x.qp)
    let b := to64 (a + x.rows * (x.qp / 32))
    let c := to64 (b + x.cols * x.qp)
    ([0, a, b, c], to64 (c + x.cols * (x.qp / 32)))

/-- The bytes of a factor image. -/
def FxShard.size (x : FxShard) : Nat := x.planes.2

/-- Where the receive slot of a round and origin lies. -/
def FxShard.slot (x : FxShard) (round origin : Nat) : Nat :=
  x.recv + (round % 3 * 16 + origin) * ((x.size + 4095) / 4096 * 4096)

/-- The reserved bits of the header, the port records and the route entries are 0 (R12). -/
def State.fxReservedOk (s : State) : Bool :=
  s.fxFld 116 140 == 0
    && ((List.range 6).all fun k => s.fxFld (256 + 64 * k + 14) 2 == 0 && s.fxFld (256 + 64 * k + 48) 16 == 0)
    && (List.range 16).all fun d =>
      let v := s.fxFld (640 + 2 * d) 2
      bitsOf v 7 3 == 0 && bitsOf v 15 11 == 0

/-- The magic, the counts and the reserved bits of the table (R12, R352). -/
def State.fxTableOk (s : State) : Bool :=
  s.fxReservedOk && s.fxFld 0 4 == 0x5845474E && decide (s.fxFld 12 1 < 16) && decide (s.fxFld 13 1 < 64)
    && decide (1 ≤ s.fxFld 14 1) && decide (s.fxFld 14 1 ≤ 64) && decide (1 ≤ s.fxFld 15 1) && decide (s.fxFld 15 1 ≤ 4)
    && (s.fxEpoch == 0
      || (s.activeSites != [] && decide (1 ≤ s.fxFld 18 2)
        && s.fxShards.all fun x => x.clean && decide (1 ≤ x.rows) && decide (x.rows ≤ 65536) && decide (1 ≤ x.cols)
          && decide (x.cols ≤ 65536) && decide (x.rank ≤ 64) && (x.rank != 0 || x.rows == 1)))

/-- Elements of a shard. -/
def FxShard.elems (x : FxShard) : Nat := x.rows * x.cols

/-- The bytes of a shard's anchor payload: the anchor plane, then its paring plane from a 64-byte boundary (Table MEM-7). -/
def FxShard.anchorLen (x : FxShard) : Nat := to64 (4 * x.elems) + x.elems

/-! ### Bytes that come into the exchange's buffers -/

/-- A byte range joins a list of disjoint ranges. -/
def joinRange (l : List (Nat × Nat)) (a b : Nat) : List (Nat × Nat) :=
  let near := l.filter fun r => decide (r.1 ≤ b) && decide (a ≤ r.2)
  let rest := l.filter fun r => !(decide (r.1 ≤ b) && decide (a ≤ r.2))
  rest ++ [near.foldl (fun (x : Nat × Nat) r => (min x.1 r.1, max x.2 r.2)) (a, b)]

/-- A boundary of 4 KiB at or above. -/
def to4k (a : Nat) : Nat := (a + 4095) / 4096 * 4096

/-- Where the planes of Q̂ lie in a feedback image: payload and scales (R271). -/
def FxShard.qhatAt (x : FxShard) : Nat × Nat :=
  let a := x.feedback + to4k (4 * x.elems)
  (a, a + to4k (x.cols * x.qp))

/-- The bytes of a shard's feedback image (R271): the e plane, and for a matrix the two planes of Q̂, each from a 4 KiB
boundary. -/
def FxShard.feedbackLen (x : FxShard) : Nat :=
  if x.rank = 0 then 4 * x.elems
  else to4k (4 * x.elems) + to4k (x.cols * x.qp) + x.cols * (x.qp / 32)

/-- The part of an image that has come, with one range more; all of it: none is left to wait for, and `true`. -/
def State.gatherRange (base len off n : Nat) (s : State) : State × Bool :=
  if n = 0 ∨ off + n ≤ base ∨ base + len ≤ off then (s, false)
  else
    let l := joinRange ((look s.gathers base).getD []) (off - base) (min len (off + n - base))
    if l.any fun r => r.1 == 0 && decide (len ≤ r.2) then ({ s with gathers := dissoc s.gathers base }, true)
    else ({ s with gathers := assoc s.gathers base l }, false)

/-- What is known of a round and shard. -/
def State.exch (s : State) (round shard : Nat) : Exchange :=
  (s.exchanges.find? fun (e : Exchange) => e.round == round && e.shard == shard).getD { round := round, shard := shard }

/-- It changes. -/
def State.modExch (round shard : Nat) (f : Exchange → Exchange) (s : State) : State :=
  { s with exchanges := s.exchanges.filter (fun (e : Exchange) => !(e.round == round && e.shard == shard))
      ++ [f (s.exch round shard)] }

/-- The next round of a shard that has not started: no earlier than the lowest whose merge is not applied. -/
def State.nextStart (s : State) (shard : Nat) : Nat :=
  let r := s.reg Reg.fxRound
  if (s.exch r shard).roundStart.isNone then r else r + 1

/-- Bytes have come into HBM: once the gathered delta of a shard is all there its round starts (R269), and once its
feedback image is all there it stands (R271). -/
def State.noteHbm (off n : Nat) (s : State) : State :=
  s.fxShards.foldl (fun s x =>
    let (s, d) := s.gatherRange x.delta (4 * x.elems) off n
    let s := if d then s.modExch (s.nextStart x.shard) x.shard fun e => { e with roundStart := e.roundStart.or (some s.now) }
      else s
    let (s, f) := s.gatherRange x.feedback x.feedbackLen off n
    if f then { s with feedbacks := addTo s.feedbacks x.feedback } else s) s

/-- Bytes written at a place of the module: those in HBM may be the exchange's. -/
def State.notePlace (p : Place) (n : Nat) (s : State) : State := if p.space == .hbm then s.noteHbm p.off n else s

/-- An HBM range holds bytes of an anchor that has been merged and for which step 8 of Sequence ARC-2 is not open: held,
or without a majority of roots yet (R280). -/
def State.anchorHeld (s : State) (off n : Nat) : Bool :=
  s.exchanges.any fun e => e.merged && !e.proceed && (s.fxShard? e.shard).any fun x =>
    decide (off < x.anchor + x.anchorLen) && decide (x.anchor < off + n)

end Sys2Proof.Machine
end

