-- ==== Sys2Proof/Machine/Ports.lean ====
section
/-! DEFINITION. Ports that go DOWN (R229, R253), and what a register's new word does beside being held: the behaviour
that a BAR0 write and a staged entry share. -/

namespace Sys2Proof.Machine

/-! ### Near ports -/

/-- A near port goes DOWN with a cause of Table NEA-11: its replay buffer goes, its messages go another way, the record
is made, and the port's flap count rises. -/
def State.nearDown (p cause : Nat) (s : State) : State :=
  let s := s.setField (Reg.npStatus p) 6 0 (3 + cause * 8)
  let s := s.detail 0x0780 1 (56 + p / 2) p [BitVec.ofNat 8 cause]
  (s.nearLose p).flap false p

/-- Retraining at once: an UP port goes DOWN, and Sequence NEA-1 starts. -/
def State.nearRetrain (p : Nat) (s : State) : State :=
  let s := if s.nearUp p then s.nearDown p 0 else s
  s.nearStart p

/-! ### Far ports -/

/-- Retraining at once; a port that its cipher engine has halted leaves FAILED only by a PORT reset (R301). -/
def State.farRetrain (k : Nat) (s : State) : State :=
  if s.regBits (Reg.fpStatus k) 5 0 = 4 + 5 * 8 then s
  else
    let s := if s.fpState k = 2 then s.farDown k 0 else s
    s.farStart k

/-! ### Version-table registers (R165, R170) -/

/-- The places of the slots of a die's valid entries, with their lengths. -/
def State.vtRanges (s : State) (n : Nat) : List (Option Place × Nat) :=
  ((List.range 64).filter fun e => s.entryValid n e).flatMap fun e =>
    [0, 1].map fun k => (rangeOf n (s.slotBase n e k) (s.slotLen n e), s.slotLen n e)

/-- Two ranges share a byte. -/
def placesMeet (a b : Option Place × Nat) : Bool :=
  match a.1, b.1 with
  | some p, some q => p.space == q.space && decide (p.off < q.off + b.2) && decide (q.off < p.off + a.2)
  | _, _ => false

/-- Two ranges of a list share a byte. -/
def anyMeet : List (Option Place × Nat) → Bool
  | [] => false
  | a :: t => t.any (placesMeet a) || anyMeet t

/-- An entry that is changed: both slots EMPTY with version 0. -/
def State.vtEmpty (n e : Nat) (s : State) : State :=
  ((s.setReg (Reg.vtState n e) 0).setReg (Reg.vtVer0 n e) 0).setReg (Reg.vtVer1 n e) 0

/-- An entry may change: both of its slots have REF = 0. -/
def State.vtFree (s : State) (n e : Nat) : Bool := s.refOf n e 0 == 0 && s.refOf n e 1 == 0

/-- A BAR0 write of a slot base or of VT_CFG before the lock: it changes the entry unless a slot is referenced or the
entries of the die would overlap (log 30); one that is dropped counts (R423). -/
def State.vtWrite (n e off new : Nat) (s : State) : State :=
  let t := s.setReg off new
  if !s.vtFree n e || anyMeet (t.vtRanges n) then s.badAccess else t.vtEmpty n e

/-! ### What a register's new word does -/

/-- The version-table entry whose slot bases or VT_CFG a register of a compute-die block is: its die and entry. -/
def vtOf (off : Nat) : Option (Nat × Nat) :=
  let r := (off - 0x100000) % 0x10000
  if 0x100000 ≤ off ∧ off < 0x400000 ∧ 0x1000 ≤ r ∧ r < 0x2000 ∧ r % 0x40 ∈ [0, 8, 0x10] then some ((off - 0x100000) / 0x10000, (r - 0x1000) / 0x40)
  else none

/-- The ring of a ring register. -/
def ringOf (off : Nat) : Option Nat :=
  if 0x10000 ≤ off ∧ off < 0x10800 then some ((off - 0x10000) / 0x100) else none

/-- A compute-die register takes a word; `raw` is the value written, for the WO fields. -/
def State.dieRegEffect (staged : Bool) (off new raw : Nat) (s : State) : State :=
  let n := (off - 0x100000) / 0x10000
  let r := (off - 0x100000) % 0x10000
  if r = 0x400 then s.jbaseWrite n new
  else if r = 0x2000 then (if staged then s else s.dropHolds n raw)
  else match vtOf off with
    | some (n, e) => if staged then (s.setReg off new).vtEmpty n e else s.vtWrite n e off new
    | none => s.setReg off new

/-- A port register takes a word. -/
def State.portRegEffect (staged : Bool) (off new raw : Nat) (s : State) : State :=
  let k := (off - 0x480000) / 0x10000
  let b := (off - 0x480000) % 0x10000 / 0x100
  let s := s.setReg off new
  if off % 0x100 ≠ 4 then s
  else if b ≤ 1 then
    let p := 2 * k + b
    if !staged && bitOf raw 1 then s.nearRetrain p else if s.npState p = 0 then s.nearStart p else s
  else if b = 2 then
    if !staged && bitOf raw 15 then s.farRetrain k else if s.fpState k = 0 then s.farStart k else s
  else s

/-- A register takes a new word, with the behaviour its field table gives it. -/
def State.regEffect (staged : Bool) (off old new raw : Nat) (s : State) : State :=
  if off = Reg.clkCtrl then s.clkCtrl old new
  else if off = Reg.clkCko then s.cko old new
  else if off = Reg.clkTimeSet then s.timeSet raw
  else if off = Reg.pwrEn then s.pwrEnWrite false new
  else if off = Reg.pwrEnHi then s.pwrEnWrite true new
  else if off = Reg.pwrCtrl then s.pwrCtrlWrite new
  else if off = Reg.recCtrl then s.recCtrl new
  else if off = Reg.errRelease then (if staged then s else s.errRelease raw)
  else if off = Reg.errReleasePort then (if staged then s else s.errReleasePort raw)
  else if off = Reg.neaCoord then
    let s := s.setReg off new
    (List.range 12).foldl (fun s p => if s.npState p = 0 then s.nearStart p else s) s
  else if Reg.prmHbm 0 ≤ off ∧ off < Reg.prmHbm 48 then
    let t := s.setReg off new
    if t.shareBroken && !s.shareBroken then t.raise .prm 5 else t
  else match ringOf off with
    | some n =>
      if off % 0x100 = 0x1C then s.ringCtrl n old new
      else if s.ringState n = 1 ∨ s.ringState n = 2 then s.badAccess else s.setReg off new
    | none =>
      if 0x100000 ≤ off ∧ off < 0x400000 then s.dieRegEffect staged off new raw
      else if 0x480000 ≤ off ∧ off < 0x4E0000 then s.portRegEffect staged off new raw
      else s.setReg off new

end Sys2Proof.Machine
end

