-- ==== Sys2Proof/Machine/Stage.lean ====
section
/-! DEFINITION. Staged configuration: the checks of a staged set, its apply points, the QUIET op, the fall-back (R131,
R174, R217, R351 to R354, R431, R432). -/

namespace Sys2Proof.Machine

/-! ### What an entry may name (R351, R431, R432) -/

/-- The bits a staged entry can change: RW and RWL fields that the lock does not fix (R351, R432), and STK fields, which
Table SCO-4 has written as RW ones are (log 77). -/
def RegRow.stageMask (r : RegRow) : Nat := (r.rw ||| r.rwl ||| r.stk) &&& (0xFFFFFFFFFFFFFFFF ^^^ r.fixed)

/-- The word after a staged entry. -/
def RegRow.stagedWord (r : RegRow) (old v : Nat) : Nat :=
  (v &&& r.stageMask) ||| (old &&& (0xFFFFFFFFFFFFFFFF ^^^ r.stageMask))

/-- A REG32 or REG64 entry passes the checks of its register. -/
def stageRegOk (kind off v : Nat) : Bool :=
  match regRowAt off with
  | none => false
  | some r =>
    r.wide == (kind == 2) && (kind == 2 || decide (v < 2 ^ 32)) && (v &&& r.resv) == 0 && r.stageMask != 0
      && r.ranges.all fun f =>
        let x := bitsOf v f.hi f.lo
        !bitOf r.stageMask f.lo || (f.zeroOk && x == 0) || (decide (f.min ≤ x) && decide (x ≤ f.max))

/-- The configuration with an entry's register as the entry will leave it, and nothing else done. -/
def State.previewEntry (s : State) (e : Nat × Nat × Nat) : State :=
  if e.1 = 3 then s
  else match regRowAt e.2.1 with
    | some r => s.setReg e.2.1 (r.stagedWord (s.reg e.2.1) e.2.2)
    | none => s

/-- The configuration once every set accepted and not yet applied has been, in acceptance order (R352). -/
def State.preview (s : State) : State :=
  s.staged.foldl (fun t (x : StagedSet) => x.entries.foldl State.previewEntry t) s

/-! ### Plan records (R174) -/

/-- A list that a descriptor names lies in the HBM window and can be read (R346). -/
def State.listOk (s : State) (a n : Nat) : Bool :=
  decide (a + n ≤ 0x18000000000) && s.placePowered 0xFF ⟨.hbm, a⟩ (max n 1)

/-- The checks of a plan record that need no die. -/
def State.planOk (s : State) (a : Nat) : Bool :=
  let b := s.readHbm a 128
  let p := PlanRec.parse b
  let g := p.geom
  s.listOk a 128 && decide (fld b 76 2 < 256) && decide (fld b 82 2 < 256) && decide (fld b 78 1 < 64)
    && decide (fld b 79 1 < 16) && g.fmt != 3 && zeroIn b 84 128
    && decide (1 ≤ p.rect.rows) && decide (p.rect.rows ≤ 1024) && decide (1 ≤ p.rect.cols) && decide (p.rect.cols ≤ 65536)
    && p.size % 64 == 0
    && [p.master, p.paring, p.m1, p.m2, p.grad, p.mask].all (fun x => x % 4 == 0)
    && decide (g.er0 ≤ p.rect.r0) && decide (p.rect.r0 + p.rect.rows ≤ g.er0 + g.ers)
    && decide (g.ec0 ≤ p.rect.c0) && decide (p.rect.c0 + p.rect.cols ≤ g.ec0 + g.ecs)
    && decide (g.er0 + g.ers ≤ p.din) && decide (g.ec0 + g.ecs ≤ p.dout)
    && (g.fmt == 2
      || [p.rect.r0, p.rect.rows, p.rect.c0, p.rect.cols, g.er0, g.ers, g.ec0, g.ecs].all (fun x => x % 32 == 0))

/-- A bit field is uniform over each aligned group of 32 of its `n` bits. -/
def uniform32 (l : List Byte) (n : Nat) : Bool :=
  (List.range ((n + 31) / 32)).all fun g =>
    let bits := (List.range (min 32 (n - 32 * g))).map fun i => fieldBit l (32 * g + i)
    bits.all id || bits.all not

/-- A range lies in the HBM behind a hub. -/
def behindHub (j a len : Nat) : Bool := decide (j * 0x3000000000 ≤ a) && decide (a + len ≤ (j + 1) * 0x3000000000)

/-- The mask image of a record is one for its tensor, and suits its format (R167, R174). -/
def State.maskOk (s : State) (n : Nat) (p : PlanRec) : Bool :=
  p.mask == 0 || (
    let h := s.readTile n p.mask 16
    fld h 0 4 == p.din && fld h 4 4 == p.dout && zeroIn h 8 16
      && (match s.maskOfPlan n p with
        | none => true
        | some (r, c) => p.geom.fmt == 2 || (uniform32 r p.din && uniform32 c p.dout)))

/-- The checks of a plan record on the die that works on it. -/
def State.planDieOk (s : State) (n : Nat) (p : PlanRec) : Bool :=
  let j := homeHub n
  behindHub j (s.jbase n) (256 + 65536 + p.size / 64 * 132)
    && behindHub j p.master (4 * p.size) && behindHub j p.paring p.size && behindHub j p.m1 (4 * p.size)
    && behindHub j p.m2 (4 * p.size)
    && s.entryValid n p.entry && decide (p.geom.size ≤ s.slotLen n p.entry) && s.maskOk n p

/-! ### Tables that a register locates (R352) -/

/-- A group record's counts and reserved bits. -/
def GroupRec.ok (g : GroupRec) : Bool :=
  g.clean && g.id != 0 && decide (1 ≤ g.size) && decide (g.size ≤ 512) && decide (g.self < g.size)
    && decide (1 ≤ g.orders.length) && decide (g.orders.length ≤ 6) && decide (g.entries.length ≤ 3072)

/-- Every unit of the row table fits a line of its hub's row cache (R211) and the blocks its channel presents (R203), and
the reserved bits of its entry and of its locator are 0 (R12; Tables MEM-2, MEM-5). -/
def State.unitsFit (s : State) : Bool :=
  (List.range (s.regBits Reg.rtCount 24 0)).all fun u =>
    let e := s.rowEntry u
    decide (fld e 0 8 < 2 ^ 33) && zeroIn e 24 28 && decide (fld e 29 1 < 2) && zeroIn e 30 32 && decide (fld e 28 1 < 48)
      && (Locator.parse (fld e 0 8)).holds (fld e 8 4) && decide (fld e 8 4 ≤ s.regBits (Reg.rcLine (homeHub (fld e 28 1))) 17 0)

/-- The 256 records of the hyper table at an address: kinds that Table COB-4 has, and no reserved bit (R12). -/
def State.hypersOk (s : State) (a : Nat) : Bool :=
  s.listOk a 16384 && (List.range 256).all fun i =>
    let b := s.readHbm (a + 64 * i) 64
    decide (fld b 0 1 ≤ 3) && decide (fld b 1 1 < 4) && zeroIn b 2 4 && zeroIn b 36 64

/-- The 16 segments of the schedule table at an address: kinds that Table COB-5 has, no reserved bit, sorted by rising
start, the unused last (R12, R180). -/
def State.segmentsOk (s : State) (a : Nat) : Bool :=
  let segs := (List.range 16).map fun i => s.readHbm (a + 32 * i) 32
  let used := segs.filter fun b => fld b 6 1 != 0xFF
  s.listOk a 512 && (segs.all fun b => zeroIn b 7 8 && zeroIn b 20 32)
    && (segs.drop used.length).all (fun b => fld b 6 1 == 0xFF)
    && (used.all fun b => decide (fld b 6 1 ≤ 3) && decide (1 ≤ fld b 8 4))
    && (used.zip (used.drop 1)).all fun x => decide (fld x.1 0 6 < fld x.2 0 6)

/-- The registers that locate the row table and the row caches. -/
def rowRegs : List Nat := [Reg.rtBase, Reg.rtCount] ++ (List.range 8).map fun j => Reg.rcLine j

/-- The table that an entry's register locates passes its checks. -/
def State.tableOk (s : State) (off : Nat) : Bool :=
  if off = Reg.fxTable then s.listOk s.fxBase 1024 && s.fxTableOk && (s.fxEpoch != 0 || s.reg Reg.hifEpoch == 0)
  else if off = Reg.neaGroups then s.groups.all GroupRec.ok
  else if off = Reg.cobHyper then s.hypersOk (s.regBits off 47 12 * 4096)
  else if off = Reg.cobSched then s.segmentsOk (s.regBits off 47 12 * 4096)
  else if off ∈ rowRegs then s.unitsFit
  else true

/-- The version table of an entry's die passes its checks (R160, R170). -/
def State.vtOk (s : State) (off : Nat) : Bool :=
  match vtOf off with
  | none => true
  | some (n, _) =>
    let l := s.vtRanges n
    l.all (fun x => x.1.isSome && x.2 != 0) && !anyMeet l

/-! ### The checks of a set (R352) -/

/-- An entry of a staged list. -/
def stagedEntry (b : List Byte) : Nat × Nat × Nat := (fld b 0 4, fld b 4 4, fld b 8 8)

/-- The entries of a list in HBM. -/
def State.stagedList (s : State) (a n : Nat) : List (Nat × Nat × Nat) :=
  (List.range n).map fun i => stagedEntry (s.readHbm (a + 16 * i) 16)

/-- The tables that change only at a merge boundary, under a new epoch (R235, R266). -/
def epochTables : List Nat := [Reg.neaGroups, Reg.fxTable]

/-- The dies that may work on the plan records of a set: the die of a QUIET set, those of a GAP set's mask, of an EPOCH set
all (log 142). -/
def StagedSet.planDies (x : StagedSet) : List Nat :=
  if x.cls = 0 then [x.die] else if x.cls = 1 ∧ x.mask ≠ 0 then setBitsOf x.mask 48 else List.range 48

/-- Entry by entry, on the configuration that the entries before have left; the state is the configuration once all
have been applied. -/
def State.checkEntries (x : StagedSet) : List (Nat × Nat × Nat) → Nat → State → Except Refuse State
  | [], _, s => .ok s
  | e :: rest, i, s =>
    let bad (c : Nat) : Except Refuse State := .error { code := c, pos := i }
    if e.1 = 3 then
      if e.2.1 ≠ 0 ∨ 2 ^ 48 ≤ e.2.2 then bad Code.stageInvalid
      else if !s.planOk e.2.2 || !(x.planDies.any fun n => s.planDieOk n (s.planAt e.2.2)) then bad Code.planInvalid
      else State.checkEntries x rest (i + 1) s
    else if (e.1 = 1 ∨ e.1 = 2) ∧ stageRegOk e.1 e.2.1 e.2.2 ∧ (x.cls = 2 ∨ e.2.1 ∉ epochTables) then
      State.checkEntries x rest (i + 1) (s.previewEntry e)
    else bad Code.stageInvalid

/-- The checks of a whole set. -/
def State.checkSet (s : State) (x : StagedSet) : Except Refuse Unit :=
  match State.checkEntries x x.entries 0 s.preview with
  | .error r => .error r
  | .ok t =>
    match x.entries.findIdx? fun e => e.1 != 3 && !(t.vtOk e.2.1 && t.tableOk e.2.1) with
    | some i => .error { code := Code.stageInvalid, pos := i }
    | none => .ok ()

/-- The set of a STAGE descriptor. -/
def State.setOf (s : State) (id : Nat) (d : List Byte) : StagedSet :=
  { item := id, cls := fld d 32 1, die := fld d 33 1, quietNo := fld d 34 2, epoch := fld d 36 4, round := fld d 40 4,
    mask := fld d 56 8, entries := s.stagedList (fld d 44 6) (fld d 50 2) }

/-- A die of a list has an OPEN journal header: every item but a roll-forward is refused (R347). -/
def State.openDie (s : State) (dies : List Nat) : Option Nat := dies.find? s.rollfwdDue

/-- The checks of a STAGE descriptor of a class. -/
def stageCheck (cls : Nat) : ItemCheck := fun s d =>
  let x := s.setOf 0 d
  let n := fld d 50 2
  let dies := if cls = 1 then setBitsOf x.mask 48 else if cls = 0 then [x.die] else []
  if !zeroIn d 52 56 || !zeroIn d 64 96 || 2 ^ 48 ≤ x.mask then .error { code := Code.malformed }
  else if n = 0 ∨ (if cls = 0 then 64 else 4096) < n ∨ (cls = 0 ∧ 47 < x.die) ∨ !s.listOk (fld d 44 6) (16 * n) then
    .error { code := Code.lengthBound }
  else if cls = 2 ∧ x.epoch ≤ s.reg Reg.hifEpoch then .error { code := Code.epoch }
  else if cls = 2 ∧ s.staged.any (fun y => y.cls == 2) then .error { code := Code.busyAtomic }
  else match s.openDie dies with
    | some n => .error { code := Code.rollfwdDue, die := n }
    | none =>
      match s.checkSet x with
      | .error r => .error r
      | .ok _ =>
        if cls = 1 then .ok { units := dies.map .die ++ [.pd92] } else .ok { promised := false }

/-! ### The fall-back (R217) -/

/-- A set's value for MEM_CTRL.FALLBACK: an EPOCH set that names MEM_CTRL (DEDUCED, log 31). -/
def StagedSet.fallback (x : StagedSet) : Option Bool :=
  if x.cls = 2 then (x.entries.find? fun e => e.1 == 1 && e.2.1 == Reg.memCtrl).map fun e => bitOf e.2.2 0 else none

/-- Every lazy unit is resident and every outer item has an HBM address. -/
def State.fallbackOk (s : State) : Bool :=
  ((List.range (s.regBits Reg.rtCount 24 0)).all fun u => decide (2 ≤ s.unitState u))
    && (s.fxFld 0 4 != 0x5845474E
      || s.fxShards.all fun x => x.anchor != 0 && x.mom != 0 && x.feedback != 0)

/-- The fall-back is entered or left: MEM_CTRL.FALLBACK, and LOCKED of every lazy unit. -/
def State.setFallback (on : Bool) (s : State) : State :=
  let s := s.setField Reg.memCtrl 0 0 (if on then 1 else 0)
  (List.range (s.regBits Reg.rtCount 24 0)).foldl (fun s u =>
    s.writeHbm (s.rowAddr u + 29) [if on then 1 else 0]) s

/-! ### The apply (R353, R354, R432) -/

/-- Every entry can take effect. -/
def State.canApply (s : State) (x : StagedSet) : Bool :=
  (x.entries.all fun e =>
    e.1 == 3 || (match blockAt e.2.1 with
      | none => false
      | some b =>
        s.blockLive b.pd
          && (match ringOf e.2.1 with
            | some n => s.ringState n == 0 || s.ringState n == 3
            | none => true)
          && (match vtOf e.2.1 with
            | some (n, v) => s.vtFree n v
            | none => true)))
    && (x.fallback != some true || s.regBits Reg.memCtrl 0 0 == 1 || (x.entries.foldl State.previewEntry s).fallbackOk)

/-- One entry takes effect; a PLAN entry validates its record (R347). -/
def State.applyEntry (x : StagedSet) (s : State) (e : Nat × Nat × Nat) : State :=
  if e.1 = 3 then
    let key := if x.cls = 0 then x.die else 0xFF
    { s with plans := if (key, e.2.2) ∈ s.plans then s.plans else s.plans ++ [(key, e.2.2)] }
  else match regRowAt e.2.1 with
    | some r =>
      let old := s.reg e.2.1
      let new := r.stagedWord old e.2.2
      s.regEffect true e.2.1 old new new
    | none => s

/-- The types of the near and far items. -/
def fabricTypes : List Nat := [0x05, 0x06, 0x0C, 0x0D, 0x0E, 0x0F]

/-- A far flow starts afresh in a new epoch (R259). -/
def FarPort.newEpoch (p : FarPort) : FarPort :=
  { p with nextStitch := 0, sendQueue := [], unacked := [], rxNext := 0, rxSack := [], parts := [], lastData := none,
           dataSinceAck := 0 }

/-- The new epoch: HIF_EPOCH takes it, flows restart, near and far items not complete end; a joiner's SNAP_REQ goes on
waiting (R282), and a site that has joined is no longer joining (R281). The exchange table's first round becomes the round
to merge (log 32). -/
def State.enterEpoch (epoch : Nat) (s : State) : State :=
  let s := s.setReg Reg.hifEpoch epoch
  let late := (s.items.filter fun i => !i.done && decide (dType i.desc ∈ fabricTypes)).map (·.id)
  let s := late.foldl (fun s id => s.abortItem id Code.epochEnded) s
  let s := s.count Reg.neaEpochDrops s.inbox.length
  let s := s.owed.foldl (fun s x => s.sendCtl x.2.2.1 4 x.2.2.2 1) s
  let s := { s with flows := [], owed := [], inbox := [], farInbox := s.farInbox.filter (fun m => m.kind == 9 && m.epoch == 0),
                    farPorts := s.farPorts.map FarPort.newEpoch, rebased := [], deltas := [] }
  let s := { s with joining := s.joining.filter fun x => !decide (x.1 ∈ s.activeSites) }
  if s.fxFld 0 4 == 0x5845474E && s.fxFld 4 4 != 0 then s.setReg Reg.fxRound (max (s.reg Reg.fxRound) (s.fxFld 8 4)) else s

/-- A set at its apply point: every entry takes effect in list order, or the set is dropped. -/
def State.applySet (x : StagedSet) (quietNo : Nat) (s : State) : State :=
  let s := { s with staged := s.staged.filter fun (y : StagedSet) => y.item != x.item }
  let s := if x.cls = 2 then s.setReg Reg.hifEpochPend 0 else s
  let ok := s.canApply x
  let s :=
    if ok then
      let s := x.entries.foldl (State.applyEntry x) s
      let s := match x.fallback with
        | some on => if s.regBits Reg.memCtrl 0 0 = (if on then 1 else 0) then s else s.setFallback on
        | none => s
      if x.cls = 2 then s.enterEpoch x.epoch else s
    else s.raise .hif 3
  s.itemDone x.item (if ok then Code.ok else Code.busyAtomic) (leBytes 4 (s.reg Reg.hifEpoch) ++ leBytes 2 quietNo)

/-- The start of a set's item has come. -/
def State.setStarted (s : State) (x : StagedSet) : Bool := (s.item? x.item).any fun i => decide (i.ts ≤ s.time)

/-- The sets that match a quiet point, up to a count of entries. -/
def takeSets : Nat → List StagedSet → List StagedSet
  | _, [] => []
  | room, x :: t => if x.entries.length ≤ room then x :: takeSets (room - x.entries.length) t else []

/-- The staged sets of a die at its quiet point (R353): in acceptance order, at most 64 entries. -/
def State.quietPoint (n num : Nat) (s : State) : State :=
  let l := s.staged.filter fun x =>
    x.cls == 0 && x.die == n && (x.quietNo == num || x.quietNo == 0xFFFF) && s.setStarted x
  (takeSets 64 l).foldl (fun s x => s.applySet x num) s

/-- The merge boundary of an EPOCH set has come: round 0, a module whose epoch is 0, or the rebase of the round applied
for every shard the module owns. -/
def State.epochDue (s : State) (x : StagedSet) : Bool :=
  x.cls == 2 && s.setStarted x && (x.round == 0 || s.reg Reg.hifEpoch == 0
    || s.plans.all fun p => (look s.rebased p.2).any fun r => decide (x.round ≤ r))

/-- A gate arm: the EPOCH set that is due applies before it. -/
def State.epochBoundary (s : State) : State :=
  match s.staged.find? s.epochDue with
  | some x => s.applySet x 0
  | none => s

/-! ### The items -/

/-- An accepted STAGE item's set is kept until its apply point; an EPOCH set shows as pending. -/
def State.noteSet (it : Item) (s : State) : State :=
  if it.done || s.staged.any (fun y => y.item == it.id) then s
  else
    let x := s.setOf it.id it.desc
    let s := { s with staged := s.staged ++ [x] }
    if x.cls = 2 then s.setReg Reg.hifEpochPend x.epoch else s

/-- The sets of all accepted STAGE items are kept. -/
def State.noteSets (s : State) : State :=
  (s.items.filter fun i => dType i.desc == 0x12).foldl (fun s i => s.noteSet i) s

/-- The start of a STAGE item: a GAP set applies. -/
def stageStart : ItemStart := fun it s =>
  let s := s.noteSet it
  if fld it.desc 32 1 = 1 then
    match s.staged.find? fun y => y.item == it.id with
    | some x => s.applySet x 0
    | none => s
  else s

/-- The QUIET op (R131): quiet, then the staged sets that match, then the number, then fetch. -/
def State.quietStep (n : Nat) (s : State) : State :=
  s.ctrlOp n 5 16 (fun _ => none) (fun _ => s.settled n)
    (fun o s =>
      let num := bitsOf o.imm 15 0
      let s := (s.quietPoint n num).setField (Reg.prgStatus n) 23 8 num
      s.modDie n (Die.advanceTo (o.bundle + 1)))

/-! ### Commands -/

/-- STAGE_QUIET (R353). -/
def execStageQuiet (dt : Nat) (s : State) : Host.Outcome State Fault Refusal :=
  s.finish dt (State.decideRow (0x12, 0) (stageCheck 0) stageStart (s.advance dt)).noteSets

/-- STAGE_GAP (R353). -/
def execStageGap (dt : Nat) (s : State) : Host.Outcome State Fault Refusal :=
  s.finish dt (State.decideRow (0x12, 1) (stageCheck 1) stageStart (s.advance dt)).noteSets

/-- STAGE_EPOCH (R353). -/
def execStageEpoch (dt : Nat) (s : State) : Host.Outcome State Fault Refusal :=
  s.finish dt (State.decideRow (0x12, 2) (stageCheck 2) stageStart (s.advance dt)).noteSets

/-- STAGE_GAP_APPLY (R353): at the T_s of a GAP set its entries take effect. -/
def execStageGapApply (dt item : Nat) (s : State) : Host.Outcome State Fault Refusal :=
  let t := s.advance dt
  s.finish dt (if (t.item? item).any (fun i => dType i.desc == 0x12 && fld i.desc 32 1 == 1)
    then State.startItem stageStart item t else t)

/-- QUIET (R131). -/
def execQuiet (dt die : Nat) (s : State) : Host.Outcome State Fault Refusal :=
  s.finish dt ((s.advance dt).quietStep die)

end Sys2Proof.Machine
end

