-- ==== Sys2Proof/Machine/Items.lean ====
section
/-! DEFINITION. Host transfers, program loads and starts, evaluation windows, update items (R133 to R137, R155 to R164,
R175, R321, R323, R345 to R347, R355, R356). -/

namespace Sys2Proof.Machine

/-! ### Ranges that a descriptor names -/

/-- Where a range of the module that a host transfer or a copy names lies: HBM, or the stock SRAM of a die. -/
def moduleRange (a n : Nat) : Option Place :=
  match rangeOf 0xFF a n with
  | some p => (match p.space with
    | .hbm => some p
    | .sram m => if m < 48 then some p else none
    | _ => none)
  | none => none

/-- The domains behind a range. -/
def Place.domains (p : Place) (n : Nat) : List Nat :=
  match p.space with
  | .hbm => (hubsOf p.off n).flatMap fun j => [pdHub j, pdPhy j]
  | .sram m => [m]
  | _ => []

/-- The range lies in HBM. -/
def Place.inHbm (p : Place) : Bool := p.space == .hbm

/-! ### HOST_COPY (R345, R346) -/

/-- The checks of HOST_COPY. -/
def hostCopyCheck : ItemCheck := fun s d =>
  let n := fld d 56 4
  if !zeroIn d 33 40 || !zeroIn d 54 56 || !zeroIn d 60 96 then .error { code := Code.malformed }
  else if n = 0 ∨ 2 ^ 28 < n then .error { code := Code.lengthBound }
  else if !s.hostRangeOk (fld d 40 8) n then .error { code := Code.lengthBound, hostwin := true }
  else match moduleRange (fld d 48 6) n with
    | none => .error { code := Code.lengthBound }
    | some p => .ok { promised := false, domains := p.domains n, hbm := p.inHbm }

/-- The copy, in either direction; a range no longer powered fails it (log 34), one that an export admitted before has yet
to read holds a copy into it back (R221). -/
def hostCopyStart : ItemStart := fun it s =>
  let d := it.desc
  let n := fld d 56 4
  match moduleRange (fld d 48 6) n with
  | none => s
  | some p =>
    if !s.placePowered 0xFF p n then s.itemDone it.id Code.memError (leBytes 4 0)
    else if !s.hostUp ∨ (fld d 32 1 = 0 ∧ s.exportHeld it.id (fld d 48 6) n) then s.unstart it.id
    else
      let s := if fld d 32 1 = 0 then (s.writeAt 0xFF p (s.readHost (fld d 40 8) n)).notePlace p n
        else s.writeHost (fld d 40 8) (s.readAt 0xFF p n)
      s.itemDone it.id Code.ok (leBytes 4 n)

/-! ### PROG_LOAD (R135, R136) -/

/-- The certificate of an image (Table PRG-10). -/
def certOf (h : List Byte) : Cert :=
  { path := fld h 32 8, allowance := fld h 40 4, totals := (List.range 4).map fun i => fld h (48 + 8 * i) 8,
    hbmBytes := fld h 80 6, meshBytes := fld h 86 6, peers := fld h 92 6, quietPoints := fld h 98 2 }

/-- The first cause of Table PRG-12 that refuses an image; `running`: the die is RUNNING. -/
def loadCause (img : List Byte) (running : Bool) : Option Nat :=
  let h := img.take 256
  let code := img.drop 256
  let n := fld h 8 4
  let c := certOf h
  if fld h 0 4 ≠ 0x47505846 ∨ fld h 4 2 ≠ 0x6448 ∨ fld h 6 1 ≠ 1 then some 1
  else if n % 64 ≠ 0 ∨ n < 64 ∨ 524288 < n ∨ n ≠ code.length ∨ n ≤ fld h 12 2 * 32 then some 2
  else if Crypto.crc32 code ≠ fld h 16 4 then some 3
  else if c.totals.any (c.path < ·) || decide (c.totals.foldl (· + ·) 0 < c.path) then some 4
  else if 2 ≤ fld h 7 1 ∨ !zeroIn h 14 16 ∨ !zeroIn h 20 32 ∨ !zeroIn h 44 48 ∨ !zeroIn h 100 256 then some 5
  else if running then some 6
  else none

/-- The checks of PROG_LOAD: every named die runs those of R136, the lowest refusing die's cause answers. The image that
passes is the one that is loaded. -/
def progLoadCheck : ItemCheck := fun s d =>
  let dies := setBitsOf (fld d 32 8) 48
  let n := fld d 48 4
  if !zeroIn d 38 40 || !zeroIn d 52 96 then .error { code := Code.malformed }
  else if dies = [] ∨ n < 320 ∨ 524544 < n then .error { code := Code.lengthBound }
  else if !s.hostRangeOk (fld d 40 8) n then .error { code := Code.lengthBound, hostwin := true }
  else match s.openDie dies with
    | some m => .error { code := Code.rollfwdDue, die := m }
    | none =>
      let img := s.readHost (fld d 40 8) n
      let common := loadCause img false
      match dies.find? fun m => common.isSome || s.prgState m == 2 with
      | some m => .error { code := Code.loadBase + common.getD 6, die := m }
      | none => .ok { promised := false, domains := dies, checked := img }

/-- A die takes an image that has passed its checks. -/
def State.loadDie (img : List Byte) (n : Nat) (s : State) : State :=
  let h := img.take 256
  let base := n * 0x80000
  let s := { s with isram := Memory.writeN blank (Memory.clear s.isram base (base + 0x80000)) base (img.drop 256) }
  let s := s.modDie n fun d =>
    { d with
      tiles := List.replicate 32 {}
      codeBytes := fld h 8 4
      entry := fld h 12 2
      cert := certOf h
      sems := List.replicate 64 0
      ctrlIssued := false
      meterNs := 0
      run := none }
  let s := ((s.setReg (Reg.prgFault n) 0).setReg (Reg.prgMeter n) 0)
  s.setField (Reg.prgStatus n) 1 0 1

/-- The load: every named die takes the image that was checked; a die that has come to run meanwhile is left alone, with
LOAD_BUSY (log 34). -/
def progLoadStart : ItemStart := fun it s =>
  let dies := setBitsOf (fld it.desc 32 8) 48
  let img := it.checked
  let busy := dies.any fun n => s.prgState n == 2
  let s := (dies.filter fun n => s.prgState n != 2).foldl (fun s n => s.loadDie img n) s
  s.itemDone it.id (if busy then Code.loadBase + 6 else Code.ok) []

/-! ### PROG_START (R137, R155, R158, R161, R321) -/

/-- The program of a die holds a GATE: some 32 bytes of its code have the opcode in their CTRL slot (log 35). -/
def State.hasGate (s : State) (n : Nat) : Bool :=
  (List.range ((s.die n).codeBytes / 32)).any fun b => s.readIsram n (b * 32 + 24) 1 == [4]

/-- The valid entries of a die. -/
def State.validEntries (s : State) (n : Nat) : List Nat := (List.range 64).filter (s.entryValid n)

/-- The slot of an entry that a tag holds. -/
def State.heldSlot (s : State) (n e tag : Nat) : Option Nat :=
  if bitOf (s.reg (Reg.vtHold0 n e)) tag then some 0 else if bitOf (s.reg (Reg.vtHold1 n e)) tag then some 1 else none

/-- The slot a run selects in an entry (R161). -/
def State.selected (s : State) (n e pin tag : Nat) : Option Nat :=
  if pin ≤ 1 then s.currentSlot n e else s.heldSlot n e tag

/-- The refusals of R161. -/
def State.pinRefusal (s : State) (dies : List Nat) (pin tag : Nat) : Option Refuse :=
  let bad (f : Nat → Nat → Bool) : Option Nat := dies.find? fun n => (s.validEntries n).any (f n)
  let unheld := if 2 ≤ pin then bad fun n e => (s.heldSlot n e tag).isNone else none
  let retake := if pin = 1 then bad fun n e => (s.heldSlot n e tag).isSome else none
  let empty := if pin ≤ 1 then bad fun n e => (s.currentSlot n e).isNone else none
  match unheld, retake, empty with
  | some n, _, _ => some { code := Code.versionUnheld, die := n }
  | none, some n, _ => some { code := Code.versionRetake, die := n }
  | none, none, some n => some { code := Code.versionEmpty, die := n }
  | none, none, none => none

/-- The die of a list with the largest τ_adm, and that τ_adm in 0.01 ps. -/
def State.slowest (s : State) (dies : List Nat) : Nat × Nat :=
  dies.foldl (fun a n => if a.2 < s.tau n then (n, s.tau n) else a) (0xFF, 0)

/-- The bound of a die of a gang but for its gate's term (R321). -/
def State.gangBound (s : State) (tau n : Nat) : Nat :=
  let c := (s.die n).cert
  tokensNs (c.path + c.allowance) tau + ceilDiv c.hbmBytes (s.share n) + ceilDiv (c.meshBytes * tau) 25000000
    + 500 * (setBitsOf c.peers 48).length + 2000

/-- The largest of a list of numbers. -/
def maxOf (l : List Nat) : Nat := l.foldl max 0

/-- The window that an EVAL start names, if it may run its gang. -/
def State.windowFor (s : State) (d : List Byte) : Option Item :=
  (s.item? (s.named (fld d 42 6))).filter fun w =>
    dType w.desc == 0x11 && !w.done && (setBitsOf (fld d 32 8) 48).all fun n => bitOf (fld w.desc 32 8) n

/-- The program starts accepted and not started that will arm the gate (R155, R158). -/
def State.armsDue (s : State) : List Item :=
  s.items.filter fun i => dType i.desc == 0x03 && !i.started && !i.done && bitOf (fld i.desc 40 1) 0

/-- The gate sequences without a verdict that the GATEs of a gang may wait for (R156, R158, R321): the present one while
it is PENDING, and those that earlier starts, accepted and not yet started, will arm, each from its T_s. A start with
ARM = 1 counts from its own start. -/
def State.gateSeqs (s : State) (wait : Nat) : List (Nat × Nat) :=
  (if s.verdict = 1 then [(0, s.time + (s.armedAt + wait) - s.now)] else []) ++ s.armsDue.map fun i => (i.ts, i.ts + wait)

/-- The link dies enter the bound of a gang whose gate messages go over the near fabric (R324). -/
def State.gateTokenDies (s : State) : List Nat :=
  if s.gateGroup.isSome then s.linkDiesOn else []

/-- The plan of a gang that has passed its checks. -/
def State.gangPlan (s : State) (d : List Byte) (dies : List Nat) : Plan :=
  let (gov, tau) := s.slowest dies
  let gated := if dEval d then [] else dies.filter s.hasGate
  let arm := bitOf (fld d 40 1) 0
  let wait := s.gateLimit + 2 * s.gateBound
  let extra (n : Nat) : Nat := if arm && decide (n ∈ gated) then wait else 0
  let p : Plan :=
    { units := dies.map .die, tokenDies := dies ++ (if gated = [] ∨ !arm then [] else s.gateTokenDies), powerDies := dies
      gov := gov, gateDies := s.gateTokenDies
      fixedNs := maxOf (dies.map fun n => s.gangBound tau n + extra n)
      gateNs := maxOf (gated.map fun n => s.gangBound tau n)
      gateSeqs := if gated = [] ∨ arm then [] else s.gateSeqs wait }
  match (if dEval d then s.windowFor d else none) with
  | some w =>
    { p with window := some (max w.ts (maxOf (dies.map fun n => (look w.evalFree n).getD 0))), latest := some w.tp }
  | none => p

/-- An inner step, by the value of COB_STEP that it works for, belongs to the round after next of an outer delta that is not
rebased: it is not admitted (R33; log 141). -/
def State.stepHeld (s : State) (k : Nat) : Bool := s.deltas.any fun x => decide (x.2 + Config.roundSteps x.2 ≤ k)

/-- The step that a program start works for (R155, R191): one that arms, the step after those that earlier starts have
still to arm; any other, that of the present sequence. -/
def State.stepOfStart (s : State) (arm : Bool) : Nat :=
  if arm then s.reg Reg.cobStep + s.armsDue.length
  else if s.verdict = 2 then s.reg Reg.cobStep - 1 else s.reg Reg.cobStep

/-- The checks of PROG_START. A step that waits for a rebase is refused with DEP_UNKNOWN (R33; log 141). -/
def progStartCheck : ItemCheck := fun s d =>
  let dies := setBitsOf (fld d 32 8) 48
  let pin := bitsOf (fld d 40 1) 2 1
  if !zeroIn d 38 40 || 8 ≤ fld d 40 1 || 64 ≤ fld d 41 1 || (!dEval d && !zeroIn d 42 48) || !zeroIn d 48 96 then
    .error { code := Code.malformed }
  else if dies = [] then .error { code := Code.lengthBound }
  else match s.openDie dies with
    | some n => .error { code := Code.rollfwdDue, die := n }
    | none =>
      match dies.find? fun n => s.prgState n != 1 && s.prgState n != 3 with
      | some n => .error { code := Code.startState, die := n }
      | none =>
        if bitOf (fld d 40 1) 0 ∧ s.verdict = 1 then .error { code := Code.gatePending }
        else if !dEval d && s.stepHeld (s.stepOfStart (bitOf (fld d 40 1) 0)) then .error { code := Code.depUnknown }
        else match s.pinRefusal dies pin (fld d 41 1) with
          | some r => .error r
          | none =>
            if dEval d ∧ (s.windowFor d).isNone then .error { code := Code.windowInvalid }
            else .ok (s.gangPlan d dies)

/-- A die begins the run of an item (R137, R156, R161, R191). -/
def State.beginRun (it : Item) (n : Nat) (s : State) : State :=
  let pin := bitsOf (fld it.desc 40 1) 2 1
  let tag := fld it.desc 41 1
  let slots := (s.validEntries n).filterMap fun e => (s.selected n e pin tag).map fun k => (e, k)
  let seq := if dEval it.desc ∨ s.verdict = 0 then none else some (s.regBits Reg.gateStatus 31 16)
  let run : RunInfo :=
    { item := it.id, pin := pin, tag := tag, slots := slots, seq := seq, step := s.reg Reg.cobStep, isEval := dEval it.desc }
  let fresh := s.prgState n == 3
  let s := s.modDie n fun d =>
    { d with
      sems := if fresh then List.replicate 64 0 else d.sems
      tiles := d.tiles.map fun (t : Tile) => if t.status = .parked then t else {}
      fetchAt := d.entry
      fetching := true
      ctrl := none
      ctrlIssued := false
      qMove := []
      qArray := []
      qAwl := []
      loops := []
      sums := [0, 0, 0, 0]
      allowanceLeft := d.cert.allowance
      lastWasPass := false
      meterNs := 0
      busyTo := 0
      run := some run }
  let s := (s.setReg (Reg.prgMeter n) 0).setField (Reg.prgStatus n) 1 0 2
  slots.foldl (fun s x =>
    let h := vtHold n x.1 x.2
    let s := if pin = 1 then s.setReg h (s.reg h ||| 2 ^ tag) else s
    s.showRefs n x.1) s

/-- A gang starts: the gate is armed where the start says so, an EPOCH set that is due applying before it; then every
die of the gang goes RUNNING. -/
def progStartStart : ItemStart := fun it s =>
  let s := if bitOf (fld it.desc 40 1) 0 then s.epochBoundary.lateDigests.armGate else s
  (setBitsOf (fld it.desc 32 8) 48).foldl (fun s n => s.beginRun it n) s

/-- An accepted EVAL item takes its place in its window (R355). -/
def State.noteEval (id : Nat) (s : State) : State :=
  match s.item? id with
  | none => s
  | some it =>
    if dType it.desc ≠ 0x03 ∨ !dEval it.desc then s
    else s.modItem (s.named (fld it.desc 42 6)) fun w =>
      { w with
        evals := w.evals + 1
        evalFree := (setBitsOf (fld it.desc 32 8) 48).foldl (fun l n => assoc l n it.tp) w.evalFree }

/-- PROG_START of the descriptor at the head. -/
def State.progStart (s : State) : State :=
  let id := (s.taken.head?.map fun t => itemId t.ring t.index).getD 0
  let old := (s.item? id).isSome
  let t := State.decideRow (0x03, 0) progStartCheck progStartStart s
  if old then t else t.noteEval id

/-! ### WINDOW (R355) -/

/-- The checks of WINDOW. -/
def windowCheck : ItemCheck := fun s d =>
  let dies := setBitsOf (fld d 32 8) 48
  let len := fld d 40 8
  if !zeroIn d 38 40 || !zeroIn d 48 96 then .error { code := Code.malformed }
  else if dies = [] ∨ len < 1000 ∨ 10000000000 < len then .error { code := Code.lengthBound }
  else match s.openDie dies with
    | some n => .error { code := Code.rollfwdDue, die := n }
    | none => .ok { units := dies.map .die, fixedNs := len }

/-- A window starts: nothing but its time passes. -/
def windowStart : ItemStart := fun _ s => s

/-! ### UPDATE (R164, R175, R195, R323, R347; Table COB-3) -/

/-- The latest T_p of the KEEP_DROP runs of a tag that are admitted on a die (R164). -/
def State.dropsAt (s : State) (n tag : Nat) : Option Nat :=
  let l := s.items.filter fun i =>
    dType i.desc == 0x03 && !i.done && bitsOf (fld i.desc 40 1) 2 1 == 3 && fld i.desc 41 1 == tag
      && bitOf (fld i.desc 32 8) n
  if l = [] then none else some (maxOf (l.map (·.tp)))

/-- R164 for one entry: none if its target stays held, else the instant before which the update may not start. -/
def State.targetFree (s : State) (n e : Nat) : Option Nat :=
  let k := s.targetSlot n e
  let tags := setBitsOf (s.reg (vtHold n e k)) 64
  let drops := tags.map (s.dropsAt n)
  if drops.any (·.isNone) then none
  else
    let reader := if s.prgState n = 2 then
        (match (s.die n).run with
        | some r => if (e, k) ∈ r.slots then (s.item? r.item).elim 0 (·.tp) else 0
        | none => 0) else 0
    some (max reader (maxOf (drops.map fun x => x.getD 0)))

/-- The entries that an update writes may be written: the instant before which it may not start (R164, R195). -/
def State.entriesFree (s : State) (n : Nat) (es : List Nat) : Except Refuse Nat :=
  if es.any fun e => (s.targetFree n e).isNone then .error { code := Code.versionHeld, die := n }
  else if es.any fun e => (s.die n).suspects.any fun x => x.1 == e then .error { code := Code.digestHold, die := n }
  else .ok (maxOf (es.map fun e => (s.targetFree n e).getD 0))

/-- Orientations of a record's working copy, and the bytes of its shard's. -/
def PlanRec.orients (p : PlanRec) : Nat := if p.geom.twin then 2 else 1
@[inherit_doc PlanRec.orients] def PlanRec.wcBytes (p : PlanRec) : Nat := segTotal (p.geom.segments p.rect)

/-- The tokens of a record whole, by the kind of its run: 0 STEP, 1 REBASE, 2 DELTA, 3 REBUILD, 4 LAZY. -/
def PlanRec.tokens (p : PlanRec) (kind : Nat) : Nat :=
  let g := p.groups
  64 + if kind = 1 then 8 * g + 2 * g * p.orients
    else if kind = 2 then 4 * g
    else if kind = 3 then 2 * g * p.orients
    else 14 * g + 2 * g * p.orients

/-- The HBM bytes of a record of `size` elements with `wc` bytes of working copy (Table PRM-2): its Table COB-1 state, that is
master, paring, both moments and the working copy, read once and written once; an outer delta and a rebase also the anchor
and D, a rebase both anchors (log 36). -/
def recordHbm (kind size wc : Nat) : Nat :=
  2 * (13 * size + wc + (if kind = 1 then 14 * size else if kind = 2 then 9 * size else 0))

/-- The HBM bytes of a plan record by the kind of its run. -/
def PlanRec.bytes (p : PlanRec) (kind : Nat) : Nat := recordHbm kind p.size p.wcBytes

/-- The tokens of the digests of a step's end: every valid entry of the die (R194). -/
def State.digestTokens (s : State) (n : Nat) : Nat :=
  (s.validEntries n).foldl (fun a e => a + 2 * (s.slotLen n e / 4096)) 0

/-- The plan of an update item on a die. -/
def State.cobPlan (s : State) (n tokens bytes notBefore : Nat) (flash : List Nat) : Plan :=
  { units := .die n :: flash.map .flash, domains := [pdHub (homeHub n), pdPhy (homeHub n)], hbm := true,
    tokenDies := [n], powerDies := [n], gov := n, notBefore := notBefore
    fixedNs := 2000 + tokensNs tokens (s.tau n) + ceilDiv bytes (s.share n) }

/-- The bytes of an UPDATE's list of `n` entries of `w` bytes, as the checks read them. -/
def State.updBytes (s : State) (d : List Byte) (w : Nat) : List Byte := s.readHbm (fld d 36 6) (w * fld d 34 2)

/-- A list cut into entries of `w` bytes. -/
def entriesOf (w : Nat) (b : List Byte) : List (List Byte) :=
  (List.range (b.length / w)).map fun i => (b.drop (w * i)).take w

/-- The checks every UPDATE passes: its form, its die, its list. -/
def State.updForm (s : State) (d : List Byte) (w : Nat) : Option Refuse :=
  let n := fld d 34 2
  if 2 ≤ fld d 48 1 ∨ (fld d 48 1 ≠ 0 ∧ fld d 33 1 ≠ 4) ∨ !zeroIn d 49 96 then some { code := Code.malformed }
  else if 47 < fld d 32 1 then some { code := Code.lengthBound }
  else if s.rollfwdDue (fld d 32 1) then some { code := Code.rollfwdDue, die := fld d 32 1 }
  else if n = 0 ∨ 1024 < n ∨ !s.listOk (fld d 36 6) (w * n) then some { code := Code.lengthBound }
  else none

/-- An UPDATE of kind STEP, REBASE, DELTA or REBUILD. A rebase is not admitted while an update run of the die is in progress
(R186), nor an outer delta before the rebase of the one before, nor a step that waits for a rebase (R33): DEP_UNKNOWN
(log 141). -/
def updateCheck (kind : Nat) : ItemCheck := fun s d =>
  match s.updForm d 8 with
  | some r => .error r
  | none =>
    let n := fld d 32 1
    let list := s.updBytes d 8
    let plans := (entriesOf 8 list).map fun b => fld b 0 8
    if plans.any (2 ^ 48 ≤ ·) then .error { code := Code.malformed }
    else match plans.findIdx? fun a => !(s.plans.any fun x => x.2 == a) || !s.planDieOk n (s.planAt a) with
      | some i => .error { code := Code.planInvalid, die := n, pos := i }
      | none =>
        let recs := plans.map s.planAt
        let es := if kind = 2 then [] else (recs.map (·.entry)).dedup
        if kind = 1 ∧ (s.die n).cob.isSome then .error { code := Code.depUnknown, die := n }
        else if kind = 2 ∧ plans.any (fun a => s.deltas.any (·.1 == a)) then .error { code := Code.depUnknown, die := n }
        else if kind = 0 ∧ s.stepHeld (s.reg Reg.cobStep - 1) then .error { code := Code.depUnknown, die := n }
        else match s.entriesFree n es with
        | .error r => .error r
        | .ok t =>
          let tokens := recs.foldl (fun a (p : PlanRec) => a + p.tokens kind) (if kind = 0 then s.digestTokens n else 0)
          let bytes := recs.foldl (fun a (p : PlanRec) => a + p.bytes kind) 0
          .ok { s.cobPlan n tokens bytes t [] with checked := list }

/-- The step an update run works for: the step that COB_STEP has left, for a rebase or a delta the present one. -/
def State.cobK (s : State) (kind : Nat) : Nat :=
  if kind = 1 ∨ kind = 2 then s.reg Reg.cobStep else (s.reg Reg.cobStep + (2 ^ 48 - 1)) % 2 ^ 48

/-- The start of an UPDATE of these kinds. Under a CLOSED verdict no update of the step runs: the item is done with nothing
committed (R157; log 164). -/
def updateStart (kind : Nat) : ItemStart := fun it s =>
  let d := it.desc
  if kind = 0 ∧ s.verdict = 3 then s.itemDone it.id Code.ok [] else
  let plans := (entriesOf 8 it.checked).map fun b => fld b 0 6
  let k := if kind = 3 then fld d 42 6 else s.cobK kind
  s.startRun (fld d 32 1) { item := it.id, kind := kind, k := k, plans := plans }

/-- The unit, and the address of its reduced gradient, of a lazy pair. -/
def lazyPair (b : List Byte) : Nat × Nat := (fld b 0 4, fld b 8 8)

/-- UPDATE of kind LAZY (R213), of a step that does not wait for a rebase (R33; log 141). -/
def updateLazyCheck : ItemCheck := fun s d =>
  match s.updForm d 16 with
  | some r => .error r
  | none =>
    let n := fld d 32 1
    let list := s.updBytes d 16
    let l := entriesOf 16 list
    let us := l.map lazyPair
    if l.any fun b => fld b 4 4 != 0 || decide (2 ^ 48 ≤ fld b 8 8) then .error { code := Code.malformed }
    else if s.stepHeld (s.reg Reg.cobStep - 1) then .error { code := Code.depUnknown, die := n }
    else match us.findIdx? fun u => decide (s.regBits Reg.rtCount 24 0 ≤ u.1) || u.2 % 4 != 0 with
      | some i => .error { code := Code.lengthBound, die := n, pos := i }
      | none =>
        match us.findIdx? fun u => fld (s.rowEntry u.1) 28 1 != n with
        | some i => .error { code := Code.planInvalid, die := n, pos := i }
        | none =>
          match us.findIdx? fun u => s.unitState u.1 == 0 || s.unitPins u.1 == 0 with
          | some i => .error { code := Code.unitAbsent, die := n, pos := i }
          | none =>
            let shape (u : Nat) : Nat × Nat :=
              let h := s.readHbm (s.unitLine u) 128
              let size := fld h 12 4 * fld h 16 4
              let row := rowBytes (bitsOf (fld h 40 1) 1 0) size
              (size, row.1 + row.2)
            let sizes := us.map fun u => shape u.1
            let tokens := sizes.foldl (fun a z => a + 64 + 16 * ceilDiv z.1 1024) 0
            let bytes := sizes.foldl (fun a z => a + recordHbm 4 z.1 z.2) 0
            let chans := if s.regBits Reg.memCtrl 0 0 = 1 then []
              else ((us.map fun u => bitsOf (fld (s.rowEntry u.1) 0 8) 32 30)).dedup
            .ok { s.cobPlan n tokens bytes 0 chans with checked := list }

/-- The start of a lazy update run; none under a CLOSED verdict (R157; log 164). -/
def updateLazyStart : ItemStart := fun it s =>
  let d := it.desc
  if s.verdict = 3 then s.itemDone it.id Code.ok [] else
  let us := (entriesOf 16 it.checked).map lazyPair
  s.startRun (fld d 32 1)
    { item := it.id, kind := 4, k := s.cobK 4, plans := us.map fun u => s.unitLine u.1 + 128,
      grads := us.map (·.2), units := us.map (·.1), release := bitOf (fld d 48 1) 0 }

/-- UPDATE of kind ROLLFWD (R192): the phases that remain of the records left, and the digests of the step's end. -/
def updateRollfwdCheck : ItemCheck := fun s d =>
  let n := fld d 32 1
  if 1 ≤ fld d 48 1 ∨ !zeroIn d 49 96 then .error { code := Code.malformed }
  else if 47 < n then .error { code := Code.lengthBound }
  else
    let h := s.header n
    let recs := if s.rollfwdDue n then (List.range (fld h 12 2)).map (s.jrecord n) else []
    let slots (p : PlanRec) : Bool := (s.die n).opened && s.entryValid n p.entry
    let cost := recs.map fun r =>
      let p := s.planAt (fld r 16 6)
      let st := fld r 0 1
      let kind := fld h 10 1
      let g := if kind = 2 then fld r 12 4 else p.groups
      let wc := if slots p then 2 * g * p.orients else 0
      let ww := g - fld r 8 4
      if 3 ≤ st ∨ (st = 0 ∧ !(s.die n).opened) then (0, 0)
      else if kind = 3 then (64 + 4 * ww, p.bytes 2)
      else if kind = 2 then (64 + 8 * ww, 18 * 1024 * ww)
      else if kind = 1 then (64 + 8 * ww + wc, p.bytes 1)
      else if st = 0 then (64 + 14 * g + wc, p.bytes 0)
      else (64 + (if st = 1 then 6 * (g - fld r 4 4) else 0) + 6 * ww + wc, p.bytes 0)
    let ends := if s.rollfwdDue n ∧ fld h 10 1 = 0 then s.digestTokens n else 0
    let es := ((recs.filter fun r => decide (fld r 0 1 < 3) && fld h 10 1 != 2).map fun r => s.planAt (fld r 16 6)).filter slots
    match s.entriesFree n ((es.map (·.entry)).dedup) with
    | .error r => .error r
    | .ok t => .ok (s.cobPlan n (cost.foldl (fun a x => a + x.1) ends) (cost.foldl (fun a x => a + x.2) 0) t [])

/-! ### Commands -/

/-- HOST_COPY_TO_MODULE (R346). -/
def execHostCopyToModule (dt : Nat) (s : State) : Host.Outcome State Fault Refusal :=
  s.finish dt (State.decideRow (0x01, 0) hostCopyCheck hostCopyStart (s.advance dt))

/-- HOST_COPY_TO_HOST (R346). -/
def execHostCopyToHost (dt : Nat) (s : State) : Host.Outcome State Fault Refusal :=
  s.finish dt (State.decideRow (0x01, 1) hostCopyCheck hostCopyStart (s.advance dt))

/-- PROG_LOAD (R136). -/
def execProgLoad (dt : Nat) (s : State) : Host.Outcome State Fault Refusal :=
  s.finish dt (State.decideRow (0x02, 0) progLoadCheck progLoadStart (s.advance dt))

/-- PROG_START (R137). -/
def execProgStart (dt : Nat) (s : State) : Host.Outcome State Fault Refusal :=
  s.finish dt (s.advance dt).progStart

/-- UPDATE_STEP (R175). -/
def execUpdateStep (dt : Nat) (s : State) : Host.Outcome State Fault Refusal :=
  s.finish dt (State.decideRow (0x04, 0) (updateCheck 0) (updateStart 0) (s.advance dt))

/-- UPDATE_REBASE (R186). -/
def execUpdateRebase (dt : Nat) (s : State) : Host.Outcome State Fault Refusal :=
  s.finish dt (State.decideRow (0x04, 1) (updateCheck 1) (updateStart 1) (s.advance dt))

/-- UPDATE_DELTA (R184). -/
def execUpdateDelta (dt : Nat) (s : State) : Host.Outcome State Fault Refusal :=
  s.finish dt (State.decideRow (0x04, 2) (updateCheck 2) (updateStart 2) (s.advance dt))

/-- UPDATE_REBUILD (R219). -/
def execUpdateRebuild (dt : Nat) (s : State) : Host.Outcome State Fault Refusal :=
  s.finish dt (State.decideRow (0x04, 3) (updateCheck 3) (updateStart 3) (s.advance dt))

/-- UPDATE_LAZY (R213). -/
def execUpdateLazy (dt : Nat) (s : State) : Host.Outcome State Fault Refusal :=
  s.finish dt (State.decideRow (0x04, 4) updateLazyCheck updateLazyStart (s.advance dt))

/-- WINDOW (R355). -/
def execWindow (dt : Nat) (s : State) : Host.Outcome State Fault Refusal :=
  s.finish dt (State.decideRow (0x11, 0) windowCheck windowStart (s.advance dt))

end Sys2Proof.Machine
end

