-- ==== Sys2Proof/Machine/Store.lean ====
section
/-! DEFINITION. Hub initialisation, flash requests, the row pager, export and import (chapter 8). -/

namespace Sys2Proof.Machine

/-! ### Initialisation and wear (R202, R206, R374) -/

/-- A hub finishes HBM4 and ONFI initialisation: its stacks serve; its channel is READY, READ_ONLY where its wear says
so, or FAILED by its parameter page (R202). With the flash pair off the channel stays OFF. -/
def State.hubInit (j : Nat) (crcOk : Bool) (rawGB : Nat) (s : State) : State :=
  if 8 ≤ j ∨ !s.live (pdHub j) ∨ !s.live (pdPhy j) then s
  else
    let s := { s with initialised := addTo s.initialised j }
    if !s.live (pdFlash j) || s.ftState j != 0 then s
    else if !crcOk || rawGB < 4000 then (s.setField (Reg.ftStatus j) 1 0 3).raise (.ft j) 4
    else
      let s := s.setField (Reg.ftStatus j) 1 0 (if 1000 ≤ s.nandLife.getD j 0 then 2 else 1)
      (s.setReg (Reg.ftCapacity j) flashBlocks).showWear j

/-- An operating hour of a channel ends: the trailing day moves on a bucket. -/
def State.dayBucket (j : Nat) (s : State) : State :=
  if 8 ≤ j ∨ !(s.hubLive j) ∨ (s.ftState j ≠ 1 ∧ s.ftState j ≠ 2) then s
  else State.showWear j { s with dayBuckets := modAt s.dayBuckets j fun l => (0 :: l).take 24 }

/-! ### Flash requests (R204, R205) -/

/-- A hub is another's own or one ring segment away. -/
def nearHub (j k : Nat) : Bool := j == k || (j + 1) % 8 == k || (k + 1) % 8 == j

/-- The locator of a FLASH descriptor. -/
def flashLoc (d : List Byte) : Locator := Locator.parse (fld d 32 8)

/-- The checks of FLASH. -/
def flashCheck (write : Bool) : ItemCheck := fun s d =>
  let l := flashLoc d
  let n := fld d 40 4
  let a := fld d 44 6
  let hubs := hubsOf a (4096 * n)
  if l.bad || !zeroIn d 51 96 then .error { code := Code.malformed }
  else if n = 0 ∨ 262144 < n ∨ !l.holds n ∨ a % 4096 ≠ 0 ∨ 0x18000000000 < a + 4096 * n
      ∨ hubs.any (fun k => !nearHub l.channel k) then .error { code := Code.lengthBound }
  else if !s.flashTakes write l.channel then .error { code := Code.flashState }
  else .ok { units := [.flash l.channel], domains := hubs.flatMap fun k => [pdHub k, pdPhy k], hbm := true,
             fixedNs := 2000 + flashNs n }

/-- A READ: the blocks come into HBM, once no export admitted before has yet to read that range (R221). -/
def flashReadStart : ItemStart := fun it s =>
  let d := it.desc
  let l := flashLoc d
  let n := fld d 40 4
  let (bs, bad) := s.flashDeliver l n
  if s.exportHeld it.id (fld d 44 6) (4096 * n) then s.unstart it.id
  else
  let s := (State.writeHbm (fld d 44 6) bs { s with drawCount := s.drawCount + 1 }).noteHbm (fld d 44 6) (4096 * n)
  if bad then (s.flashReadError l n).itemDone it.id Code.flashRead [] else s.itemDone it.id Code.ok []

/-- A WRITE: the HBM bytes replace the blocks, as a whole, once no export admitted before has yet to read them (R221). A
channel that has come to take no WRITE stores nothing: the item ends with UNIT_LOST (log 145). -/
def flashWriteStart : ItemStart := fun it s =>
  let d := it.desc
  if s.exportHeld it.id (flashWindow + (flashLoc d).key) (4096 * fld d 40 4) then s.unstart it.id
  else if !s.flashTakes true (flashLoc d).channel then s.itemDone it.id Code.unitLost []
  else (s.writeFlash (flashLoc d) (s.readHbm (fld d 44 6) (4096 * fld d 40 4))).itemDone it.id Code.ok []

/-! ### The row pager (R211, R212) -/

/-- The bytes of the list of a page-in or an unpin, as the checks read them. -/
def State.unitBytes (s : State) (d : List Byte) : List Byte := s.readHbm (fld d 32 6) (4 * fld d 38 2)

/-- The units of a list. -/
def unitsIn (b : List Byte) : List Nat := (entriesOf 4 b).map fun x => fld x 0 4

/-- The units that a descriptor lists. -/
def State.unitList (s : State) (d : List Byte) : List Nat := unitsIn (s.unitBytes d)

/-- The units that an accepted page-in or unpin lists: those that were checked. -/
def Item.unitList (it : Item) : List Nat := unitsIn it.checked

/-- The lines of a hub's row cache that no unit holds. -/
def State.freeLines (s : State) (j : Nat) : List Nat :=
  let used := (s.cachedUnits j).map fun u => s.unitLine u.1
  ((List.range (s.regBits (Reg.rcCfg j) 23 0)).map fun i =>
    s.regBits (Reg.rcBase j) 47 12 * 4096 + i * s.regBits (Reg.rcLine j) 17 0 * 4096).filter fun a => !decide (a ∈ used)

/-- A unit may give up its line: no pins, not LOCKED, not LOADING, and its channel takes the write-back it needs. -/
def State.evictable (s : State) (u : Nat) : Bool :=
  s.unitPins u == 0 && !bitOf (fld (s.rowEntry u) 29 1) 0
    && (s.unitState u == 2 || s.unitState u == 4
      || (s.unitState u == 3 && s.flashTakes true (s.unitLoc u).channel))

/-- The write-back in flight of a unit lands, at the locator it was issued for. -/
def State.landWrite (u : Nat) (s : State) : State :=
  match s.unitWrites.find? fun x => x.unit == u with
  | none => s
  | some w => State.writeFlash (Locator.parse w.locator) w.image
      { s with unitWrites := s.unitWrites.filter fun x => x.unit != u }

/-- A unit takes a line and a state. -/
def State.setLine (u line st : Nat) (s : State) : State :=
  s.writeHbm (s.rowAddr u + 16) (leBytes 6 line ++ leBytes 1 st)

/-- A unit takes a pin: it is now the one pinned last. -/
def State.pin (u : Nat) (s : State) : State :=
  let s := s.setUnitPins u (min 255 (s.unitPins u + 1))
  { s with pinOrder := s.pinOrder.filter (· != u) ++ [u] }

/-- A unit's line is freed, a DIRTY unit written back first, whole (log 37); the blocks it wrote. -/
def State.evict (u : Nat) (s : State) : State × Nat :=
  let s := s.landWrite u
  let dirty := s.unitState u == 3
  let n := s.unitBlocks u
  let s := if dirty then s.writeFlash (s.unitLoc u) (s.unitImage u) else s
  let s := s.setLine u 0 0
  ({ s with pinOrder := s.pinOrder.filter (· != u) }, if dirty then n else 0)

/-- One listed unit is paged in: the state, and the requests it makes as channel and blocks; none without a line. -/
def State.pageOne (listed : List Nat) (u : Nat) (s : State) : Option (State × List (Nat × Nat)) :=
  if s.unitState u ≠ 0 then some (s.pin u, [])
  else
    let j := s.unitHub u
    let rd := ((s.unitLoc u).channel, s.unitBlocks u)
    match s.freeLines j with
    | a :: _ => some ((s.setLine u a 1).pin u, [rd])
    | [] =>
      match s.pinOrder.find? fun v => s.unitHub v == j && !decide (v ∈ listed) && s.evictable v with
      | none => none
      | some v =>
        let a := s.unitLine v
        let ch := (s.unitLoc v).channel
        let (s, n) := s.evict v
        some ((s.setLine u a 1).pin u, (if n = 0 then [] else [(ch, n)]) ++ [rd])

/-- The listed units are paged in, in order. -/
def State.pageAll (listed : List Nat) : List Nat → State → Option (State × List (Nat × Nat))
  | [], s => some (s, [])
  | u :: t, s =>
    match s.pageOne listed u with
    | none => none
    | some (s, l) => (State.pageAll listed t s).map fun x => (x.1, l ++ x.2)

/-- The longest time that requests take, each channel its own in order (R204). -/
def requestNs (l : List (Nat × Nat)) : Nat :=
  maxOf ((List.range 8).map fun j => (l.filter (·.1 == j)).foldl (fun a x => a + flashNs x.2) 0)

/-- The checks that PAGE_IN and UNPIN share: their form, their list, their units. -/
def State.unitListBad (s : State) (d : List Byte) : Option Refuse :=
  let n := fld d 38 2
  if !zeroIn d 40 96 then some { code := Code.malformed }
  else if n = 0 ∨ 1024 < n ∨ !s.listOk (fld d 32 6) (4 * n) then some { code := Code.lengthBound }
  else ((s.unitList d).findIdx? fun u => decide (s.regBits Reg.rtCount 24 0 ≤ u)).map fun i =>
    { code := Code.lengthBound, pos := i }

/-- The checks of PAGE_IN. A READ of blocks that the channel does not present breaks the limits of R203 and R204. One that
joins a READ in flight books that READ's channel (R211, R323). -/
def pageInCheck : ItemCheck := fun s d =>
  match s.unitListBad d with
  | some r => .error r
  | none =>
    let l := s.unitList d
    match l.findIdx? fun u => decide (255 < s.unitPins u + l.count u) with
    | some i => .error { code := Code.pinLimit, pos := i }
    | none =>
      match l.findIdx? fun u => s.unitState u == 0 && !s.flashTakes false (s.unitLoc u).channel with
      | some i => .error { code := Code.flashState, pos := i }
      | none =>
      match l.findIdx? fun u => s.unitState u == 0 && !(s.unitLoc u).holds (s.unitBlocks u) with
      | some i => .error { code := Code.lengthBound, pos := i }
      | none =>
        match State.pageAll l l s with
        | none => .error { code := Code.rowCacheFull }
        | some (_, rq) =>
          let joined := (l.filter fun u => s.unitState u == 1).map fun u => (s.unitLoc u).channel
          .ok { units := (rq.map (·.1) ++ joined).dedup.map .flash, checked := s.unitBytes d, domains := (l.map s.unitHub).dedup.flatMap fun j => [pdHub j, pdPhy j],
                hbm := true, fixedNs := 2000 + requestNs rq }

/-- A page-in that has started is done once every unit it lists is resident. -/
def State.settlePage (it : Item) (s : State) : State :=
  if it.unitList.all fun u => decide (2 ≤ s.unitState u) then s.itemDone it.id Code.ok [] else s

/-- A page-in starts. -/
def pageInStart : ItemStart := fun it s => s.settlePage it

/-- The page-ins under way that list a unit. -/
def State.pagesOf (s : State) (u : Nat) : List Item :=
  s.items.filter fun i => dType i.desc == 0x08 && i.started && !i.done && decide (u ∈ i.unitList)

/-- The READ of a LOADING unit is in flight: every page-in that lists it has started, or one has. -/
def State.readIssued (s : State) (u : Nat) : Bool :=
  !(s.pagesOf u).isEmpty
    || !(s.items.any fun i => dType i.desc == 0x08 && !i.started && !i.done && decide (u ∈ i.unitList))

/-- PAGE_IN of the descriptor at the head: its pins and lines are taken at the decision (log 37); those of a RESUBMIT are
its origin's (R348). -/
def State.pageIn (s : State) : State :=
  let id := (s.taken.head?.map fun t => itemId t.ring t.index).getD 0
  let old := (s.item? id).isSome
  let t := State.decideRow (0x08, 0) pageInCheck pageInStart s
  match (if old then none else t.item? id) with
  | some it =>
    if dType it.desc ≠ 0x08 then t
    else if dResubmit it.desc then (if it.started then t.settlePage it else t)
    else
      let l := it.unitList
      let t := ((State.pageAll l l t).map (·.1)).getD t
      if it.started then t.settlePage it else t
  | none => t

/-- The checks of UNPIN. -/
def unpinCheck : ItemCheck := fun s d =>
  match s.unitListBad d with
  | some r => .error r
  | none =>
    let l := s.unitList d
    match l.findIdx? fun u => decide (s.unitPins u < l.count u) with
    | some i => .error { code := Code.pinLimit, pos := i }
    | none => .ok { domains := (l.map s.unitHub).dedup.flatMap fun j => [pdHub j, pdPhy j], hbm := true,
                    checked := s.unitBytes d }

/-- The start of UNPIN. -/
def unpinStart : ItemStart := fun it s => (s.unpinAll it.unitList).itemDone it.id Code.ok []

/-- A page-in READ completes: the unit is RESIDENT, or, where a block fails its correction, ABSENT again, and the
page-ins that list it fail; what was its line then holds undefined bytes (R205, log 37). The READs of their other units go on. -/
def State.unitRead (u : Nat) (s : State) : State :=
  if s.regBits Reg.rtCount 24 0 ≤ u ∨ s.unitState u ≠ 1 ∨ !s.hubLive (s.unitHub u) ∨ !s.readIssued u then s
  else
    let l := s.unitLoc u
    let n := s.unitBlocks u
    let pages := s.pagesOf u
    let (bs, bad) := s.flashDeliver l n
    let s := { s with drawCount := s.drawCount + 1 }
    if bad then
      let s := ((s.flashReadError l n).writeHbm (s.unitLine u) bs).setLine u 0 0
      let s := { s with pinOrder := s.pinOrder.filter (· != u) }
      (pages.foldl (fun s i => s.itemDone i.id Code.flashRead []) s).resumeRuns
    else
      let s := (s.writeHbm (s.unitLine u) bs).setUnitState u 2
      (pages.foldl (fun s i => s.settlePage i) s).resumeRuns

/-- A write-back completes: the unit is RESIDENT unless it was dirtied meanwhile. -/
def State.unitWrite (u : Nat) (s : State) : State :=
  match s.unitWrites.find? fun x => x.unit == u with
  | none => s
  | some w =>
    if !s.hubLive w.hub || !s.hubLive (bitsOf w.locator 32 30) then s
    else
      let s := s.landWrite u
      if u < s.regBits Reg.rtCount 24 0 ∧ s.unitState u = 4 then s.setUnitState u 2 else s

/-! ### Shard images (R220 to R222) -/

/-- What holds a rectangle of a tensor's state at this module: the die (0xFF: a gateway's shard) and the base of each
plane; for a working copy the base of its slot and its geometry. -/
structure Cover where
  rect : Rect
  die : Nat
  bases : List Nat
  geom : Option WGeom := none
  /-- version-table entry of a working copy -/
  entry : Nat := 0
  deriving DecidableEq, Repr

/-- The die that runs a validated plan: the one it was staged for, else the lowest that may (log 29). -/
def State.planDie (s : State) (x : Nat × Nat) : Nat :=
  if x.1 < 48 then x.1
  else ((List.range 48).find? fun n => s.planDieOk n (s.planAt x.2)).getD 0xFF

/-- The geometry of a valid entry and the tensor it belongs to (log 29). -/
def State.entryGeom (s : State) (n e : Nat) : Nat × WGeom :=
  match s.plans.find? fun x => s.planDie x == n && (s.planAt x.2).entry == e with
  | some x => (Config.planTensor x.2, (s.planAt x.2).geom)
  | none =>
    let f := Config.entryCover n e
    (f 0, { fmt := f 1 % 3, twin := f 2 % 2 == 1, er0 := f 3, ers := f 4, ec0 := f 5, ecs := f 6 })

/-- The holders of an item of a tensor. `slot` picks the version slot of a working copy. -/
def State.covers (s : State) (item tensor : Nat) (slot : Nat → Nat → Option Nat) : List Cover :=
  let plans := s.plans.filter fun x => Config.planTensor x.2 == tensor
  let shards := s.fxShards.filter fun x => x.tensor == tensor && s.fxFld 0 4 == 0x5845474E
  let shard (f : FxShard → List Nat) : List Cover :=
    shards.map fun x => { rect := ⟨x.row0, x.rows, x.col0, x.cols⟩, die := 0xFF, bases := f x }
  let plan (f : Nat → PlanRec → List Nat) : List Cover :=
    plans.map fun x => { rect := (s.planAt x.2).rect, die := s.planDie x, bases := f x.2 (s.planAt x.2) }
  if item = 0 then plan fun _ p => [p.master, p.paring]
  else if item = 1 then plan fun _ p => [p.m1, p.m2]
  else if item = 4 then
    shard (fun x => [x.anchor, x.anchor + up64 (4 * (x.rows * x.cols))])
      ++ plan fun a p => [Config.anchorAt a % 2 ^ 40, Config.anchorAt a % 2 ^ 40 + up64 (4 * p.size)]
  else if item = 5 then shard fun x => [x.mom]
  else if item = 6 then shard fun x => [x.feedback]
  else
    (List.range 48).flatMap fun n => (s.validEntries n).filterMap fun e =>
      let (t, g) := s.entryGeom n e
      (slot n e).bind fun k =>
        if t = tensor ∧ s.live n ∧ (item = 2 ∨ g.twin) then
          some { rect := ⟨g.er0, g.ers, g.ec0, g.ecs⟩, die := n, bases := [s.slotBase n e k], geom := some g, entry := e }
        else none

/-- Elements of a cell of an item, and the bytes of a cell in each plane. -/
def cellOf (item fmt : Nat) : Nat × List Nat :=
  if item = 0 ∨ item = 4 then (1, [4, 1])
  else if item = 1 then (1, [4, 4])
  else if item = 2 ∨ item = 3 then (if fmt = 0 then (16, [8, 1]) else if fmt = 1 then (32, [32, 1]) else (1, [2]))
  else (1, [4])

/-- The cells of a rectangle in the order of an image: tensor row and column of their first element. -/
def cellsOf (item fmt : Nat) (x : Rect) : List (Nat × Nat) :=
  let b := (cellOf item fmt).1
  if item = 2 then
    (List.range x.cols).flatMap fun u => (List.range (x.rows / b)).map fun j => (x.r0 + b * j, x.c0 + u)
  else
    (List.range x.rows).flatMap fun u => (List.range (x.cols / b)).map fun j => (x.r0 + u, x.c0 + b * j)

/-- The address of a cell in each plane. -/
def Cover.spots (c : Cover) (item : Nat) (rc : Nat × Nat) : List Nat :=
  match c.geom with
  | some g =>
    let (p, q) := if item = 2 then g.spot 0 rc.2 rc.1 else g.spot 1 rc.1 rc.2
    let base := c.bases.getD 0 0
    if g.fmt = 2 then [base + p] else [base + p, base + q]
  | none =>
    let i := (rc.1 - c.rect.r0) * c.rect.cols + (rc.2 - c.rect.c0)
    (c.bases.zip (cellOf item 0).2).map fun x => x.1 + x.2 * i

/-- A cell lies in a rectangle. -/
def Rect.holds (x : Rect) (rc : Nat × Nat) : Bool :=
  decide (x.r0 ≤ rc.1) && decide (rc.1 < x.r0 + x.rows) && decide (x.c0 ≤ rc.2) && decide (rc.2 < x.c0 + x.cols)

/-- The holder and the addresses of each cell of a rectangle; none where a cell has none. -/
def coverCells (cs : List Cover) (item : Nat) : List (Nat × Nat) → Option (List (Cover × List Nat))
  | [] => some []
  | rc :: t =>
    match cs.find? fun (c : Cover) => c.rect.holds rc with
    | none => none
    | some c => (coverCells cs item t).map fun l => (c, c.spots item rc) :: l

/-- Where the planes of an image of `n` cells begin, and the byte after the last. -/
def imagePlanes (sizes : List Nat) (n : Nat) : List Nat × Nat :=
  sizes.foldl (fun (a : List Nat × Nat) z => (a.1 ++ [up64 a.2], up64 a.2 + z * n)) (([], 0) : List Nat × Nat)

/-- The planes of an image from the cells of its rectangle. -/
def State.imageOf (s : State) (sizes : List Nat) (cells : List (Cover × List Nat)) : List Byte :=
  (sizes.zipIdx).foldl (fun (a : List Byte) z =>
    padTo (up64 a.length) a ++ cells.flatMap fun c => s.readTile c.1.die (c.2.getD z.2 0) z.1) []

/-- The payload of an image is written to the cells of its rectangle. -/
def State.putImage (sizes : List Nat) (cells : List (Cover × List Nat)) (bs : List Byte) (s : State) : State :=
  let (starts, _) := imagePlanes sizes cells.length
  (sizes.zipIdx).foldl (fun s z => (cells.zipIdx).foldl (fun s c =>
    s.writeTile c.1.1.die (c.1.2.getD z.2 0) ((bs.drop (starts.getD z.2 0 + z.1 * c.2)).take z.1)) s) s

/-- A rectangle from four words. -/
def rectAt (d : List Byte) (o : Nat) : Rect := ⟨fld d o 4, fld d (o + 4) 4, fld d (o + 8) 4, fld d (o + 12) 4⟩

/-- The first 128 bytes of a unit's image: of its line, else of its flash image. -/
def State.unitHead (s : State) (u : Nat) : List Byte :=
  if s.unitState u ≤ 1 then Memory.readN blank s.flash (s.unitLoc u).key 128 else s.readHbm (s.unitLine u) 128

/-- The lazy unit that a tensor and a rectangle name. -/
def State.unitNamed (s : State) (tensor : Nat) (x : Rect) : Option Nat :=
  (List.range (s.regBits Reg.rtCount 24 0)).find? fun u =>
    let h := s.unitHead u
    fld h 4 4 == tensor && fld h 8 4 == x.r0 && fld h 12 4 == x.rows && x.c0 == 0 && fld h 16 4 == x.cols

/-- The header of a shard image (Table MEM-7). -/
def imageHeader (item fmt tensor : Nat) (x : Rect) (step round epoch version root : Nat) : List Byte :=
  padTo 64 (leBytes 4 0x4453554C ++ leBytes 1 item ++ leBytes 1 fmt ++ [0, 0] ++ leBytes 4 tensor ++ leBytes 4 x.r0
    ++ leBytes 4 x.rows ++ leBytes 4 x.c0 ++ leBytes 4 x.cols ++ leBytes 6 step ++ [0, 0] ++ leBytes 4 round
    ++ leBytes 4 epoch ++ leBytes 4 version ++ leBytes 8 root)

/-- What an export or an import works on: format, version, dies, cells with their plane sizes, or a lazy unit. -/
structure ImagePlan where
  fmt : Nat := 0
  version : Nat := 0
  dies : List Nat := []
  sizes : List Nat := []
  cells : List (Cover × List Nat) := []
  unit : Option Nat := none
  /-- further planes, each by the ranges that hold it (R271) -/
  tails : List (List (Nat × Nat)) := []
  /-- the payload's bytes -/
  bytes : Nat := 0
  deriving DecidableEq, Repr

/-- The Q̂ of the feedback images of a tensor's shards over the columns of a rectangle: the ranges of its payload and of its
scales (R271; log 166). -/
def State.qhatRanges (s : State) (tensor : Nat) (x : Rect) : List (List (Nat × Nat)) :=
  let hit := s.fxShards.filter fun y =>
    y.tensor == tensor && y.rank != 0 && (⟨y.row0, y.rows, y.col0, y.cols⟩ : Rect).meets x
  let part (f : FxShard → Nat × Nat) : List (Nat × Nat) := hit.map fun y =>
    let lo := max x.c0 y.col0
    let (base, row) := f y
    (base + (lo - y.col0) * row, (min (x.c0 + x.cols) (y.col0 + y.cols) - lo) * row)
  if hit = [] then [] else [part fun y => (y.qhatAt.1, y.qp), part fun y => (y.qhatAt.2, y.qp / 32)]

/-- The bytes of a list of ranges. -/
def rangeTotal (l : List (Nat × Nat)) : Nat := l.foldl (fun a r => a + r.2) 0

/-- Where the further planes of an image begin, each from a boundary of 64 bytes, and the byte after the last. -/
def tailPlaces : List (List (Nat × Nat)) → Nat → List Nat × Nat
  | [], a => ([], a)
  | l :: t, a =>
    let x := tailPlaces t (up64 a + rangeTotal l)
    (up64 a :: x.1, x.2)

/-- The bytes of the further planes of an image, which begins with others. -/
def State.tailBytes (s : State) (tails : List (List (Nat × Nat))) (bs : List Byte) : List Byte :=
  tails.foldl (fun (a : List Byte) l => padTo (up64 a.length) a ++ l.flatMap fun r => s.readHbm r.1 r.2) bs

/-- The further planes of an image are written to their ranges. -/
def State.putTails (tails : List (List (Nat × Nat))) (start : Nat) (bs : List Byte) (s : State) : State :=
  (tails.zip (tailPlaces tails start).1).foldl (fun s x =>
    (x.1.foldl (fun (a : State × Nat) r => (a.1.writeHbm r.1 ((bs.drop a.2).take r.2), a.2 + r.2)) (s, x.2)).1) s

/-- The plan of an image, if its rectangle has a place. -/
def State.imagePlan (s : State) (item tensor : Nat) (x : Rect) (slot : Nat → Nat → Option Nat) : Option ImagePlan :=
  if x.rows = 0 ∨ x.cols = 0 then none
  else if item = 7 then
    (s.unitNamed tensor x).map fun u =>
      { dies := [fld (s.rowEntry u) 28 1], unit := some u, bytes := 4096 * s.unitBlocks u }
  else
    let cs := s.covers item tensor slot
    let g := cs.head?.bind (·.geom)
    let fmt := g.elim 0 (·.fmt)
    let (b, sizes) := cellOf item fmt
    if (item = 2 ∨ item = 3) ∧ fmt ≠ 2 ∧ (x.r0 % b ≠ 0 ∨ x.rows % b ≠ 0 ∨ x.c0 % b ≠ 0 ∨ x.cols % b ≠ 0) then none
    else (coverCells (cs.filter fun c => c.geom.elim 0 (·.fmt) == fmt) item (cellsOf item fmt x)).map fun cells =>
      let c := cells.head?.map (·.1)
      let tails := if item = 6 then s.qhatRanges tensor x else []
      { fmt := fmt, version := if g.isSome then c.elim 0 fun c => s.currentVersion c.die c.entry else 0
        dies := ((cells.map (·.1.die)).filter (· < 48)).dedup, sizes := sizes, cells := cells
        tails := tails
        bytes := ceilDiv (tailPlaces tails (imagePlanes sizes cells.length).2).2 4096 * 4096 }

/-- The hubs that an image plan reaches: those behind its cells' addresses, or the home hub of its unit. -/
def State.imageHubs (s : State) (p : ImagePlan) : List Nat :=
  match p.unit with
  | some u => [s.unitHub u]
  | none => ((p.cells.flatMap fun c => (c.2.filter (· < 0x18000000000)).map hubOfHbm)
      ++ p.tails.flatten.map fun r => hubOfHbm r.1).dedup

/-- The payload that an export writes. -/
def State.payload (s : State) (p : ImagePlan) : List Byte :=
  match p.unit with
  | some u =>
    if s.unitState u ≤ 1 then putBytes (s.readFlash (s.unitLoc u) (s.unitBlocks u)) 128 (zeros 128) else s.unitImage u
  | none => padTo p.bytes (s.tailBytes p.tails (s.imageOf p.sizes p.cells))

/-- A range joined to a list of ranges whose last one it may follow. -/
def followRange (l : List (Nat × Nat)) (r : Nat × Nat) : List (Nat × Nat) :=
  match l with
  | (a, n) :: t => if a + n = r.1 then (a, n + r.2) :: t else r :: l
  | [] => [r]

/-- The ranges that hold what an image plan names, by tile address: of a lazy unit its line, if it has one, and its flash
image. -/
def State.planRanges (s : State) (p : ImagePlan) : List (Nat × Nat) :=
  match p.unit with
  | some u =>
    let n := 4096 * s.unitBlocks u
    (if 2 ≤ s.unitState u then [(s.unitLine u, n)] else []) ++ [(flashWindow + (s.unitLoc u).key, n)]
  | none => ((p.sizes.zipIdx).flatMap fun z =>
      (p.cells.map fun c => (normAddr c.1.die (c.2.getD z.2 0), z.1)).foldl followRange []) ++ p.tails.flatten

/-- The bytes of a range that lie behind a hub: in its stacks, or on its flash channel. -/
def bytesBehind (j : Nat) (r : Nat × Nat) : Nat :=
  let common (lo hi : Nat) : Nat := min (r.1 + r.2) hi - max r.1 lo
  common (j * 0x3000000000) ((j + 1) * 0x3000000000)
    + common (flashWindow + j * 0x30000000000) (flashWindow + (j + 1) * 0x30000000000)

/-- The time of an export or an import: the bytes of each hub at 0.4 TB/s, of the hub with the most (Table PRM-2; log
75). -/
def imageNs (l : List (Nat × Nat)) : Nat :=
  maxOf ((List.range 8).map fun j => ceilDiv (l.foldl (fun a r => a + bytesBehind j r) 0) 400)

/-- The ranges that an export reads, or an import writes: a unit with a line is read and written there. -/
def State.movedRanges (s : State) (p : ImagePlan) : List (Nat × Nat) :=
  match p.unit with
  | some _ => (s.planRanges p).take 1
  | none => s.planRanges p

/-- The plan of an EXPORT. -/
def State.exportPlan (s : State) (d : List Byte) : Option ImagePlan :=
  s.imagePlan (fld d 32 1) (fld d 36 4) (rectAt d 40) s.currentSlot

/-- The commits that an export reads after, where they are admitted before it: the updates of its dies, and of an anchor or
an outer momentum the merges (R221). -/
def commitsAhead (item : Nat) (dies : List Nat) (l : List Item) : List Item :=
  l.filter fun i => !i.done && ((dType i.desc == 0x04 && decide (fld i.desc 32 1 ∈ dies))
    || (dType i.desc == 0x0D && (item == 4 || item == 5)))

/-- A lazy unit without a line whose flash image lies past the blocks its channel presents has none to read (R203). -/
def State.unitBeyond (s : State) (p : ImagePlan) : Bool :=
  p.unit.any fun u => decide (s.unitState u ≤ 1) && !(s.unitLoc u).holds (s.unitBlocks u)

/-- The checks of EXPORT. It starts no earlier than the commits admitted before it promise to end (R221). -/
def exportCheck : ItemCheck := fun s d =>
  if 8 ≤ fld d 32 1 ∨ !zeroIn d 33 36 ∨ !zeroIn d 62 64 ∨ !zeroIn d 68 96 then .error { code := Code.malformed }
  else match s.exportPlan d with
    | none => .error { code := Code.lengthBound }
    | some p =>
      let n := p.bytes + 64
      if fld d 64 4 < n ∨ !s.listOk (fld d 56 6) n ∨ s.unitBeyond p then .error { code := Code.lengthBound }
      else
        let hubs := (s.imageHubs p ++ hubsOf (fld d 56 6) n).dedup
        if let some n := s.openDie p.dies then .error { code := Code.rollfwdDue, die := n }
        else
          .ok { units := hubs.map .hub, hbm := true, domains := p.dies
                notBefore := maxOf ((commitsAhead (fld d 32 1) p.dies s.items).map (·.tp))
                fixedNs := 2000 + imageNs ((fld d 56 6, n) :: s.movedRanges p) }

/-- The export, once the commits admitted before it are done: the image goes to its destination. -/
def exportStart : ItemStart := fun it s =>
  let d := it.desc
  match s.exportPlan d with
  | none => s.itemDone it.id Code.unitLost (leBytes 4 0)
  | some p =>
    if commitsAhead (fld d 32 1) p.dies (s.items.takeWhile (·.id != it.id)) ≠ [] then s.unstart it.id
    else
    let body := s.payload p
    let h := imageHeader (fld d 32 1) p.fmt (fld d 36 4) (rectAt d 40) (s.reg Reg.cobStep) (s.reg Reg.fxRound)
      (s.reg Reg.hifEpoch) p.version (digestRoot body)
    let s := s.writeHbm (fld d 56 6) (h ++ body)
    (s.itemDone it.id Code.ok (leBytes 4 (64 + body.length))).resumeRuns

/-- An accepted export holds back later writes to what it reads until it has read it (R221). -/
def State.noteExport (id : Nat) (s : State) : State :=
  let live := s.exportHolds.filter fun x => (s.item? x.1).any fun i => !i.done
  match s.item? id with
  | none => s
  | some it =>
    if dType it.desc ≠ 0x0A ∨ it.done then { s with exportHolds := live }
    else
      let l := (s.exportPlan it.desc).elim [] s.planRanges
      { s with exportHolds := live.filter (·.1 != id) ++ [(id, l)] }

/-- EXPORT of the descriptor at the head. -/
def State.exportRow (s : State) : State :=
  let id := (s.taken.head?.map fun t => itemId t.ring t.index).getD 0
  (State.decideRow (0x0A, 0) exportCheck exportStart s).noteExport id

/-- The plan of the image an IMPORT names. -/
def State.importPlan (s : State) (h : List Byte) : Option ImagePlan :=
  s.imagePlan (fld h 4 1) (fld h 8 4) (rectAt h 12) fun _ _ => some 0

/-- The header of an image is of the form of Table MEM-7. -/
def headerOk (h : List Byte) : Bool :=
  let wc := fld h 4 1 == 2 || fld h 4 1 == 3
  fld h 0 4 == 0x4453554C && decide (fld h 4 1 < 8) && (if wc then decide (fld h 5 1 < 3) else fld h 5 1 == 0)
    && zeroIn h 6 8 && zeroIn h 34 36 && (wc || zeroIn h 44 48) && zeroIn h 56 64

/-- The ranges that a FLASH item moves between. -/
def flashRanges (d : List Byte) : List (Nat × Nat) :=
  let n := 4096 * fld d 40 4
  [(fld d 44 6, n), (flashWindow + (flashLoc d).key, n)]

/-- An item admitted and not done works on what an image would overwrite: a run, an update or a roll-forward on its dies; a
flash request over its bytes or its unit's blocks, a page-in of its unit; or the unit's READ or write-back is in flight
(R222). -/
def State.importBusy (s : State) (p : ImagePlan) : Bool :=
  let mine := s.planRanges p
  (s.items.any fun i =>
    let t := dType i.desc
    !i.done &&
      ((t == 0x03 && p.dies.any fun m => bitOf (fld i.desc 32 8) m)
        || (t == 0x04 && p.dies.any fun m => fld i.desc 32 1 == m)
        || (t == 0x07 && (flashRanges i.desc).any fun a => mine.any fun b => meets a.1 a.2 b.1 b.2)
        || (t == 0x08 && p.unit.any fun u => decide (u ∈ i.unitList))))
    || p.unit.any fun u => s.unitState u == 1 || s.unitWrites.any fun w => w.unit == u

/-- A payload is the image of a lazy unit of a tensor and a rectangle, as it lies on flash, no reserved bit set (R12; Table
MEM-4). -/
def unitBodyOk (b : List Byte) (tensor : Nat) (x : Rect) : Bool :=
  fld b 0 4 == 0x544E554C && fld b 4 4 == tensor && fld b 8 4 == x.r0 && fld b 12 4 == x.rows && fld b 16 4 == x.cols
    && zeroIn b 34 36 && decide (fld b 40 1 < 4) && zeroIn b 41 256

/-- The channel that an import of a unit without a line writes takes WRITEs (R202, R206). -/
def State.importStores (s : State) (p : ImagePlan) : Bool :=
  p.unit.all fun u => decide (2 ≤ s.unitState u) || s.flashTakes true (s.unitLoc u).channel

/-- The checks of IMPORT: the image is checked whole. One of a unit whose flash channel takes no WRITE is refused with
FLASH_STATE (R204; log 145). -/
def importCheck : ItemCheck := fun s d =>
  let n := fld d 40 4
  if !zeroIn d 38 40 || !zeroIn d 44 96 then .error { code := Code.malformed }
  else if n < 64 ∨ !s.listOk (fld d 32 6) n then .error { code := Code.lengthBound }
  else
    let h := s.readHbm (fld d 32 6) 64
    if !headerOk h then .error { code := Code.importFormat }
    else match s.importPlan h with
      | none => .error { code := Code.importFormat }
      | some p =>
        if (fld h 4 1 = 2 ∨ fld h 4 1 = 3) ∧ fld h 5 1 ≠ p.fmt then .error { code := Code.importFormat }
        else if n < 64 + p.bytes then .error { code := Code.lengthBound }
        else
          let body := s.readHbm (fld d 32 6 + 64) p.bytes
          if p.unit.isSome && !unitBodyOk body (fld h 8 4) (rectAt h 12) then .error { code := Code.importFormat }
          else if digestRoot body ≠ fld h 48 8 then .error { code := Code.importDigest }
          else if s.importBusy p then .error { code := Code.importBusy }
          else if !s.importStores p then .error { code := Code.flashState }
          else if p.unit.any fun u => !(s.unitLoc u).holds (s.unitBlocks u) then .error { code := Code.lengthBound }
          else
            let hubs := (s.imageHubs p ++ hubsOf (fld d 32 6) n).dedup
            .ok { units := hubs.map .hub, domains := p.dies, hbm := true, checked := h ++ body
                  fixedNs := 2000 + imageNs ((fld d 32 6, 64 + p.bytes) :: s.movedRanges p) }

/-- The journal header of a die is marked CLOSED by an import of masters (R222). -/
def State.closeForImport (n : Nat) (s : State) : State :=
  if s.headerInvalid n then s else { s.jput n 11 [2] with journalOpen := dropFrom s.journalOpen n }

/-- A unit's image is written: to its line, which is then DIRTY, else to its flash blocks. -/
def State.putUnit (u : Nat) (body : List Byte) (s : State) : State :=
  if 2 ≤ s.unitState u then (s.writeHbm (s.unitLine u) body).setUnitState u 3
  else s.writeFlash (s.unitLoc u) body

/-- A state import leaves the norm partial at 0, so that the next c_k is 1.0 (R178). -/
def State.clearNorms (s : State) : State := { s with norms := [] }

/-- The import: every element goes where the present epoch places it, once no export admitted before has yet to read it
(R221). A flash channel that has come to take no WRITE stores nothing: the item ends with UNIT_LOST (log 145). -/
def importStart : ItemStart := fun it s =>
  let h := it.checked.take 64
  match s.importPlan h with
  | none => s.itemDone it.id Code.unitLost []
  | some p =>
    let body := it.checked.drop 64
    if (s.planRanges p).any (fun r => s.exportHeld it.id r.1 r.2) then s.unstart it.id
    else if !s.importStores p then s.itemDone it.id Code.unitLost []
    else
    let s := match p.unit with
      | some u => s.putUnit u body
      | none =>
        let ranges := s.planRanges p
        ranges.foldl (fun s (r : Nat × Nat) => match moduleRange r.1 r.2 with
          | some q => s.notePlace q r.2
          | none => s) ((s.putImage p.sizes p.cells body).putTails p.tails (imagePlanes p.sizes p.cells.length).2 body)
    let s := if fld h 4 1 = 0 then p.dies.foldl (fun s n => s.closeForImport n) s else s
    let es := if fld h 4 1 = 2 ∨ fld h 4 1 = 3 then ((p.cells.map fun c => (c.1.die, c.1.entry)).dedup) else []
    let s := es.foldl (fun s x => s.makeCurrent x.1 x.2 0 (fld h 44 4)) s
    s.clearNorms.itemDone it.id Code.ok []

/-! ### Commands -/

/-- HUB_INITIALISATION_DONE (R374). -/
def execHubInitialisationDone (dt hub : Nat) (crcOk : Bool) (rawGB : Nat) (s : State) :
    Host.Outcome State Fault Refusal :=
  s.finish dt ((s.advance dt).hubInit hub crcOk rawGB)

/-- FT_DAY_BUCKET (R206). -/
def execFtDayBucket (dt hub : Nat) (s : State) : Host.Outcome State Fault Refusal :=
  s.finish dt ((s.advance dt).dayBucket hub)

/-- FLASH_READ (R204). -/
def execFlashRead (dt : Nat) (s : State) : Host.Outcome State Fault Refusal :=
  s.finish dt (State.decideRow (0x07, 0) (flashCheck false) flashReadStart (s.advance dt))

/-- FLASH_WRITE (R205). -/
def execFlashWrite (dt : Nat) (s : State) : Host.Outcome State Fault Refusal :=
  s.finish dt (State.decideRow (0x07, 1) (flashCheck true) flashWriteStart (s.advance dt))

/-- PAGE_IN (R211). -/
def execPageIn (dt : Nat) (s : State) : Host.Outcome State Fault Refusal := s.finish dt (s.advance dt).pageIn

/-- UNPIN (R211). -/
def execUnpin (dt : Nat) (s : State) : Host.Outcome State Fault Refusal :=
  s.finish dt (State.decideRow (0x09, 0) unpinCheck unpinStart (s.advance dt))

/-- UNIT_READ_COMPLETE (R211). -/
def execUnitReadComplete (dt unit : Nat) (s : State) : Host.Outcome State Fault Refusal :=
  s.finish dt ((s.advance dt).unitRead unit)

/-- UNIT_WRITE_COMPLETE (R211). -/
def execUnitWriteComplete (dt unit : Nat) (s : State) : Host.Outcome State Fault Refusal :=
  s.finish dt ((s.advance dt).unitWrite unit)

/-- EXPORT (R221). -/
def execExportItem (dt : Nat) (s : State) : Host.Outcome State Fault Refusal :=
  s.finish dt (s.advance dt).exportRow

/-- IMPORT (R222). -/
def execImportItem (dt : Nat) (s : State) : Host.Outcome State Fault Refusal :=
  s.finish dt (State.decideRow (0x0B, 0) importCheck importStart (s.advance dt))

end Sys2Proof.Machine
end

