-- ==== Sys2Proof/Machine/Welt.lean ====
section
/-! DEFINITION. The Welt near reduction engine: reduce-scatter, cutoff, statistics, all-gather, copies, the host's
resolution of digests (R195, R236 to R246, R249). -/

namespace Sys2Proof.Machine

/-! ### Cost terms (R249, R323) -/

/-- The flits of a message with a body of `n` bytes. -/
def msgFlits (n : Nat) : Nat := ceilDiv (32 + n) 244

/-- The flits of `total` bytes in bodies of at most `body`. -/
def streamFlits (total body : Nat) : Nat :=
  total / body * msgFlits body + (if total % body = 0 then 0 else msgFlits (total % body))

/-- Flits on one port: 256 bytes each at 200 GB/s. -/
def flitNs (n : Nat) : Nat := ceilDiv (n * 256) 200

/-- The token time of the slowest link-die channel on the ways of the link dies to a hub, each at its slower end: the
link die or the attached hub that the route takes (R25, R26, R319). -/
def State.channelTau (s : State) (hub : Nat) : Nat :=
  (List.range 6).foldl (fun a k => max a (max (s.tau (56 + k)) (s.tau (48 + s.attachedHub k hub)))) 0

/-- The dies whose τ_adm enters the time of a write over a link-die channel (R328). -/
def State.channelDies (s : State) (hub : Nat) : List Nat :=
  (s.linkDiesOn ++ (s.linkDiesOn.map fun l => 48 + s.attachedHub (l - 56) hub)).dedup

/-- The time of bytes over a link-die channel, of 1,000 bytes a nanosecond at the nominal corner (Table ARC-5). -/
def State.channelNs (s : State) (bytes hub : Nat) : Nat :=
  ceilDiv (bytes * s.channelTau hub) (100000 * (Channel.link 0 0).rate)

/-- The near ports on which messages to a module leave: both of the first direction of the route (R231). -/
def State.portsToward (s : State) (dst : Nat) : List Nat :=
  match (List.range 3).find? fun i => coordOf s.coord i != coordOf dst i with
  | none => []
  | some i =>
    let n := s.dimSize i
    let fwd := (coordOf dst i + n - coordOf s.coord i) % n
    let (a, b) := portsOf i (decide (fwd ≤ n - fwd))
    [a, b]

/-- Those that are UP; both where neither is, so that the item is refused with UNIT_OFF (Table PRM-4). -/
def State.upToward (s : State) (dst : Nat) : List Nat :=
  let l := s.portsToward dst
  if l.any s.nearUp then l.filter s.nearUp else l

/-! ### Chains (R237, R238) -/

/-- The blocks of a rectangle. -/
def Rect.blocks (x : Rect) : Nat := x.rows * x.cols / 64

/-- The member number at a ring position, counted modulo P. -/
def GroupRec.ringAt (g : GroupRec) (ring pos : Nat) : Nat := g.atPos ring (pos % max 1 g.size)

/-- The hops of the longest chain of a ring: every ring step but the shortest. -/
def State.chainHops (s : State) (g : GroupRec) (ring : Nat) : Nat :=
  let steps := (List.range g.size).map fun p =>
    s.torusDist (g.member (g.ringAt ring p)) (g.member (g.ringAt ring (p + 1)))
  let least := steps.foldl min (steps.headD 0)
  if g.size ≤ 1 then 0 else steps.foldl (· + ·) 0 - least

/-- The position of this module on a bucket's ring. -/
def GroupRec.myPos (g : GroupRec) (b : Bucket) : Nat := g.posOf b.ring g.self

/-- The member after a position of the ring. -/
def GroupRec.after (g : GroupRec) (b : Bucket) (pos : Nat) : Nat := g.ringAt b.ring (pos + 1)

/-! ### Blocks (R55, R56, R240) -/

/-- The G16 values of block i of a rectangle of a bucket: 64 consecutive elements, row-major over the rectangle. -/
def State.sourceBlock (s : State) (b : Bucket) (x : Rect) (i : Nat) : List Num :=
  (List.range 64).map fun k =>
    let e := 64 * i + k
    let at_ := (x.r0 - b.orow + e / x.cols) * b.cols + (x.c0 - b.ocol + e % x.cols)
    g16.read (leNat (s.readTile b.odie (b.source + 2 * at_) 2))

/-- An empty block. -/
def Bs16.empty : Bs16 := ⟨0, 0, 0, List.replicate 64 0⟩

/-- What one addition adds to a member's statistics (Table NEA-8): raised, places, rounded, excluded, poisoned, and
whether a poisoned block came in under EXCLUDE. -/
structure BlockStats where
  raised : Nat := 0
  places : Nat := 0
  rounded : Nat := 0
  excluded : Nat := 0
  poisoned : Nat := 0
  poisonIn : Bool := false
  deriving DecidableEq, Repr

/-- Elements for which one of two flags is set. -/
def countEither (a b : List Bool) : Nat :=
  ((List.range 64).filter fun i => a.getD i false || b.getD i false).length

/-- A block at one chain member (Table NEA-7): own values, the arriving block if the member is not the first of the
chain; the block that goes on, and the statistics. -/
def weltBlock (propagate : Bool) (own : List Num) (arriving : Option Bs16) : Bs16 × BlockStats :=
  let (o, lostO) := Bs16.encode own
  let st : BlockStats := { rounded := countEither lostO [] }
  let out : Bs16 × BlockStats :=
    match arriving with
    | none =>
      if o.poisoned && !propagate then (Bs16.empty, { st with excluded := 1 }) else (o, st)
    | some b =>
      if !o.poisoned && !b.poisoned then
        let (sum, k, lost) := Bs16.add b o
        if sum.poisoned && !propagate then (b, { st with excluded := 1 })
        else (sum, { st with raised := if 0 < k then 1 else 0, places := k, rounded := countEither lostO lost })
      else if propagate then (Bs16.poison b.raised ((b.count + 1) % 65536), st)
      else if !b.poisoned then (b, { st with excluded := 1 })
      else if !o.poisoned then (o, { st with excluded := b.count, poisonIn := true })
      else (Bs16.empty, { st with excluded := 1 + b.count, poisonIn := true })
  (out.1, { out.2 with poisoned := if out.1.poisoned then 1 else 0 })

/-- Statistics taken into a reduce record. -/
def Reduce.add (st : BlockStats) (r : Reduce) : Reduce :=
  let at_ (i : Nat) : Nat := r.stats.getD i 0
  { r with stats := [at_ 0 + st.raised, at_ 1 + st.places, at_ 2 + st.rounded, at_ 3 + st.excluded, at_ 4 + st.poisoned,
                     at_ 5, at_ 6, if st.poisonIn then at_ 7 ||| 2 else at_ 7] }

/-! ### Records of reduce items -/

/-- A reduce record changes. -/
def State.modReduce (item : Nat) (f : Reduce → Reduce) (s : State) : State :=
  { s with reduces := s.reduces.map fun (r : Reduce) => if r.item = item then f r else r }

/-- The record of an item. -/
def State.reduce? (s : State) (item : Nat) : Option Reduce := s.reduces.find? fun (r : Reduce) => r.item == item

/-- The record of a bucket of a group. -/
def State.reduceOf (s : State) (group bucket : Nat) : Option Reduce :=
  s.reduces.find? fun (r : Reduce) => r.group == group && r.bucket == bucket

/-- The statistics of an addition are counted in the record, in NEA_EXCLUDED and in NEA_EVENTS. -/
def State.noteBlock (item : Nat) (st : BlockStats) (s : State) : State :=
  let s := s.modReduce item (Reduce.add st)
  let s := if st.poisonIn then s.raise .nea 2 else s
  if 0 < st.excluded then (s.count Reg.neaExcluded st.excluded).raise .nea 5 else s

/-- The owner writes a block of its shard. -/
def State.ownWrite (item : Nat) (b : Bucket) (i : Nat) (x : Bs16) (s : State) : State :=
  let s := s.writeTile b.odie (b.shard + 132 * i) x.bytes
  s.modReduce item fun r =>
    { r with written := addTo r.written i
             stats := r.stats.set 6 (max (r.stats.getD 6 0) x.raised) }

/-- Blocks of shard q go to a member, in messages of at most 496 consecutive blocks. -/
def State.sendBlocks (g : GroupRec) (b : Bucket) (q dst : Nat) : Nat → List (Nat × Bs16) → State → State
  | 0, _, s => s
  | n + 1, l, s =>
    match l with
    | [] => s
    | (i, _) :: _ =>
      let run := (l.zipIdx.takeWhile fun x => decide (x.2 < 496) && x.1.1 == i + x.2).map (·.1)
      let s := s.sendNear 1 0 (g.member dst) g.id q (b.num + i * 2 ^ 32) (run.flatMap fun x => x.2.bytes)
      State.sendBlocks g b q dst n (l.drop run.length) s

/-- The report of a complete shard to the Cobbler of odie (R242), and the bucket record it came from. -/
def State.reportShard (r : Reduce) (b : Bucket) (s : State) : State :=
  let s := s.modReduce r.item fun x => { x with reported := true }
  if b.plan = 0 then s
  else { s with
    shardsReady := if (b.odie, b.plan) ∈ s.shardsReady then s.shardsReady else s.shardsReady ++ [(b.odie, b.plan)]
    buckets := assoc s.buckets b.plan r.record }

/-- The statistics record (Table NEA-8). -/
def statsBytes (l : List Nat) : List Byte :=
  ((List.range 6).flatMap fun i => leBytes 4 (l.getD i 0)) ++ leBytes 1 (l.getD 6 0) ++ leBytes 1 (l.getD 7 0) ++ zeros 6

/-- A reduce item is complete: its statistics are written, and it is done. -/
def State.reduceDone (item : Nat) (s : State) : State :=
  match s.reduce? item with
  | none => s
  | some r =>
    let b := s.bucketAt r.record
    let s := if b.stats = 0 then s else s.writeTile b.odie b.stats (statsBytes r.stats)
    s.itemDone item Code.ok []

/-- The shards of a bucket that hold an element, by ring position. -/
def GroupRec.shards (g : GroupRec) (b : Bucket) : List Nat :=
  (List.range g.size).filter fun q => !(b.rect g.size q).empty

/-- This module begins the chain of a shard. -/
def GroupRec.begins (g : GroupRec) (b : Bucket) (q : Nat) : Bool := g.size ≠ 1 && (q + 1) % g.size == g.myPos b

/-- This member has done all its part in a shard. -/
def Reduce.shardDone (r : Reduce) (g : GroupRec) (b : Bucket) (q : Nat) : Bool :=
  let n := (b.rect g.size q).blocks
  if q = g.myPos b then decide (n ≤ r.written.length)
  else g.begins b q || decide (n ≤ (r.seen.filter (·.1 == q)).length)

/-- The own shard is reported once it is written; the item is complete once every shard has this member's part. -/
def State.settleReduce (item : Nat) (s : State) : State :=
  match s.reduce? item with
  | none => s
  | some r =>
    let b := s.bucketAt r.record
    match s.group? r.group with
    | none => s
    | some g =>
      let own := g.myPos b
      let s := if !r.reported && r.ready && !(b.rect g.size own).empty && r.shardDone g b own then s.reportShard r b else s
      if !r.stopped && r.ready && (s.item? item).any (fun i => !i.done) && (g.shards b).all (r.shardDone g b)
      then s.reduceDone item else s

/-! ### REDUCE (R236, R238) -/

/-- The own bucket is complete: the item has started and every item it depends on is done (log 41). -/
def State.bucketReady (s : State) (it : Item) : Bool :=
  it.started && it.deps.all fun d => !(s.item? d).any fun i => !i.done

/-- Under a CLOSED verdict no bucket forms: the item is done, with nothing sent and no shard reported (R157; log 164). -/
def State.noBucket (item : Nat) (s : State) : State :=
  (s.modReduce item fun r => { r with stopped := true, committed := true, gathered := [] }).reduceDone item

/-- The own bucket is complete: this member sends the shards whose chains it begins, and with one member writes its
own. -/
def State.reduceReady (item : Nat) (s : State) : State :=
  match s.reduce? item, s.item? item with
  | some r, some it =>
    let b := s.bucketAt r.record
    match s.group? r.group with
    | none => s
    | some g =>
      if r.ready || r.stopped || !s.bucketReady it then s
      else if s.verdict = 3 then s.noBucket item
      else
        let s := s.modReduce item fun x => { x with ready := true }
        let s := (g.shards b).foldl (fun s q =>
          let x := b.rect g.size q
          if g.size = 1 then
            (List.range x.blocks).foldl (fun s i =>
              let (o, st) := weltBlock g.propagate (s.sourceBlock b x i) none
              (s.ownWrite item b i o).noteBlock item st) s
          else if g.begins b q then
            let l := (List.range x.blocks).map fun i => (i, weltBlock g.propagate (s.sourceBlock b x i) none)
            let s := l.foldl (fun s y => s.noteBlock item y.2.2) s
            s.sendBlocks g b q (g.after b (g.myPos b)) x.blocks (l.map fun y => (y.1, y.2.1))
          else s) s
        s.settleReduce item
  | _, _ => s

/-- The reduce items that wait for their bucket. -/
def State.reducesReady (s : State) : State :=
  ((s.reduces.filter fun r => !r.ready && !r.stopped).map (·.item)).foldl (fun s i => s.reduceReady i) s

/-- The owner's write of its shard (Table PRM-2). -/
def State.shardWriteNs (s : State) (g : GroupRec) (b : Bucket) : Nat :=
  s.channelNs ((b.rect g.size (g.myPos b)).blocks * 132) (homeHub b.odie)

/-- The reserved bits of a bucket record are 0, and its format is one (Table NEA-6). -/
def bucketFormOk (b : List Byte) : Bool :=
  decide (fld b 7 1 < 2) && decide (fld b 38 1 < 8) && bitsOf (fld b 38 1) 1 0 != 3 && zeroIn b 68 128

/-- The counts, lengths and ranges of a bucket record are in range (R236, R344). -/
def State.bucketOk (s : State) (g : GroupRec) (b : Bucket) : Bool :=
  let own := (b.rect g.size (g.myPos b)).blocks * 132
  decide (32 ≤ b.rows) && decide (b.rows ≤ 1024) && b.rows % 32 == 0 && decide (32 ≤ b.cols) && decide (b.cols ≤ 65536)
    && b.cols % 32 == 0 && decide (b.ring < g.orders.length) && decide (b.odie < 48)
    && (b.lentry == 0xFFFF || decide (b.lentry < g.entries.length)) && decide (g.self < g.size)
    && b.source % 2 == 0 && b.shard % 4 == 0
    && (match moduleRange b.source (2 * b.rows * b.cols) with
      | some p => !p.inHbm && s.placePowered 0xFF p (2 * b.rows * b.cols)
      | none => false)
    && (own == 0 || (match moduleRange b.shard own with
      | some p => s.placePowered 0xFF p own
      | none => false))
    && (b.stats == 0 || (match moduleRange b.stats 32 with
      | some p => s.placePowered 0xFF p 32
      | none => false))

/-- The ranges of the module that a bucket's reduction uses, with their lengths: its source, its own shard, its
statistics. -/
def GroupRec.bucketPlaces (g : GroupRec) (b : Bucket) : List (Place × Nat) :=
  [(b.source, 2 * b.rows * b.cols), (b.shard, (b.rect g.size (g.myPos b)).blocks * 132),
    (b.stats, if b.stats = 0 then 0 else 32)].filterMap
    fun x => if x.2 = 0 then none else (moduleRange x.1 x.2).map fun p => (p, x.2)

/-- The checks of REDUCE. -/
def reduceCheck : ItemCheck := fun s d =>
  let a := fld d 32 6
  if !zeroIn d 38 96 then .error { code := Code.malformed }
  else if !s.listOk a 128 then .error { code := Code.lengthBound }
  else if !bucketFormOk (s.readHbm a 128) then .error { code := Code.malformed }
  else
    let b := s.bucketAt a
    match s.group? b.group with
    | none => .error { code := Code.lengthBound }
    | some g =>
      if !s.bucketOk g b then .error { code := Code.lengthBound }
      else if s.rollfwdDue b.odie then .error { code := Code.rollfwdDue, die := b.odie }
      else
        let ports := if g.size = 1 then [] else s.upToward (g.member (g.after b (g.myPos b)))
        let flits := ((g.shards b).filter (· != g.myPos b)).foldl (fun a q =>
          a + streamFlits ((b.rect g.size q).blocks * 132) (496 * 132)) 0
        let link := if g.size = 1 then 0 else flitNs flits + s.hopNs (s.chainHops g b.ring)
        let places := g.bucketPlaces b
        let channel := s.channelDies (homeHub b.odie)
        .ok { units := ports.map .nearOut, domains := (b.odie :: places.flatMap fun x => x.1.domains x.2).dedup
              hbm := places.any fun x => x.1.inHbm, tokenDies := channel, linkDies := (ports.map (· / 2)).dedup.length
              gov := if g.size = 1 then (s.slowest channel).1 else s.slowLink,
              fixedNs := 2000 + link + s.shardWriteNs g b }

/-- A reduce item starts: its bucket is complete once the items it depends on are. -/
def reduceStart : ItemStart := fun it s => s.reduceReady it.id

/-- The cutoff of a reduce item on a bucket: its T_p less the owner's write of its shard (R241). -/
def State.cutoffOf (s : State) (it : Item) : Nat :=
  let b := s.bucketAt (fld it.desc 32 6)
  it.tp - ((s.group? b.group).map fun g => s.shardWriteNs g b).getD 0

/-- The record of an admitted reduce item takes the place of an earlier one of its bucket, with the parts of the next
version that have been gathered for it already (R244; log 41). -/
def State.admitReduce (it : Item) (s : State) : State :=
  let a := fld it.desc 32 6
  let b := s.bucketAt a
  let early := match s.reduceOf b.group b.num with
    | some x => if x.committed then [] else x.gathered
    | none => []
  let r : Reduce :=
    { item := it.id, record := a, bucket := b.num, group := b.group, cutoff := s.cutoffOf it, gathered := early }
  { s with reduces := s.reduces.filter (fun (x : Reduce) => !(x.group == b.group && x.bucket == b.num)) ++ [r] }

/-- REDUCE of the descriptor at the head: its record exists from its admission on; that of a RESUBMIT is its origin's, with
the cutoff of the fresh promise (R348). -/
def State.reduceRow (s : State) : State :=
  let id := (s.taken.head?.map fun t => itemId t.ring t.index).getD 0
  let old := (s.item? id).isSome
  let t := State.decideRow (0x05, 0) reduceCheck (fun _ s => s) s
  match (if old then none else t.item? id) with
  | some it =>
    if dType it.desc ≠ 0x05 then t
    else if dResubmit it.desc then (t.modReduce id fun r => { r with cutoff := t.cutoffOf it }).reduceReady id
    else (t.admitReduce it).reduceReady id
  | none => t

/-! ### Arriving blocks (R238 to R241) -/

/-- A message of a type that can be processed now, taken out of those that have come in (log 24). -/
def State.takeMsgIf (typ : Nat) (ok : NearMsg → Bool) (s : State) : Option (NearMsg × State) :=
  match s.inbox.find? fun (m : NearMsg) => m.typ == typ && ok m with
  | none => none
  | some m => some (m, { s with inbox := s.inbox.erase m })

/-- A partial sum that has waited is taken: its receive credit goes back (R238). -/
def State.payCredit (m : NearMsg) (s : State) : State :=
  let mine (x : Nat × Nat × Nat × Nat) : Bool := x.1 == m.src && x.2.1 == m.stitch
  let due := s.owed.filter mine
  due.foldl (fun s x => s.sendCtl x.2.2.1 4 x.2.2.2 1) { s with owed := s.owed.filter fun x => !mine x }

/-- The bucket that a message names. -/
def NearMsg.bucket (m : NearMsg) : Nat := bitsOf m.operand.toNat 31 0

/-- An arriving block of a shard: a second arrival is discarded, else it is added and goes on, or is written at the
owner. Answers the block to send, if any. -/
def State.blockIn (g : GroupRec) (item : Nat) (b : Bucket) (q i : Nat) (inb : Bs16) (s : State) :
    State × List (Nat × Bs16) :=
  match s.reduce? item with
  | none => (s, [])
  | some r =>
    let x := b.rect g.size q
    if x.blocks ≤ i then (s, [])
    else if (q, i) ∈ r.seen then (s.count Reg.neaDupBlocks 1, [])
    else
      let s := s.modReduce item fun r => { r with seen := r.seen ++ [(q, i)] }
      let (o, st) := weltBlock g.propagate (s.sourceBlock b x i) (some inb)
      let s := s.noteBlock item st
      if q = g.myPos b then (s.ownWrite item b i o, []) else (s, [(i, o)])

/-- A REDUCE can be processed: its bucket is complete here, or not admitted, or past its cutoff. -/
def State.canReduce (s : State) (m : NearMsg) : Bool :=
  (s.reduceOf m.group m.bucket).all fun (r : Reduce) => r.ready || r.stopped

/-- REDUCE_MSG: the first message whose bucket is complete here, or not admitted, or past its cutoff. -/
def State.reduceMsg (s : State) : State :=
  match s.takeMsgIf 1 s.canReduce with
  | none => s
  | some (m, s) =>
    let s := s.payCredit m
    match s.reduceOf m.group m.bucket, s.group? m.group with
    | some r, some g =>
      let b := s.bucketAt r.record
      let q := m.position
      let first := bitsOf m.operand.toNat 63 32
      let n := m.body.length / 132
      if r.stopped then s.count Reg.neaLate n
      else if g.size ≤ q then s
      else
        let (s, out) := (List.range n).foldl (fun (a : State × List (Nat × Bs16)) i =>
          let (t, l) := a.1.blockIn g r.item b q (first + i) (Bs16.parse ((m.body.drop (132 * i)).take 132))
          (t, a.2 ++ l)) (s, [])
        let s := s.sendBlocks g b q (g.after b (g.myPos b)) out.length out
        s.settleReduce r.item
    | _, _ => s.raise .nea 3

/-- A REDUCE message whose destination is unreachable goes to the next member of the chain (R241); past the owner it
goes nowhere. -/
def State.rerouteReduce (m : NearMsg) (s : State) : State :=
  match s.group? m.group, s.reduceOf m.group m.bucket with
  | some g, some r =>
    let b := s.bucketAt r.record
    let s := s.raise .nea 0
    let s := s.modReduce r.item fun r => { r with stats := r.stats.set 7 (r.stats.getD 7 0 ||| 1) }
    let pos := g.posOf b.ring ((g.members.idxOf? m.dst).getD 0)
    if pos = m.position ∨ r.stopped then s
    else s.sendNear 1 0 (g.member (g.after b pos)) m.group m.position m.operand.toNat m.body
  | _, _ => s

/-- The reduction stops at its cutoff: the owner writes empty blocks for those that have not arrived, and nothing more
is sent for the bucket (R241). -/
def State.stopReduce (r : Reduce) (g : GroupRec) (b : Bucket) (s : State) : State :=
  let own := g.myPos b
  let missing := (List.range (b.rect g.size own).blocks).filter fun i => !decide (i ∈ r.written)
  let s := missing.foldl (fun s i => s.ownWrite r.item b i Bs16.empty) s
  let others := ((g.shards b).filter fun q => q != own && !g.begins b q).foldl (fun a q =>
    a + ((b.rect g.size q).blocks - (r.seen.filter (·.1 == q)).length)) 0
  let s := s.modReduce r.item fun r =>
    { r with stopped := true, stats := r.stats.set 5 (r.stats.getD 5 0 + missing.length + others) }
  let keep (k : Kept) : Bool := !(k.msg.typ == 1 && k.msg.group == r.group && k.msg.bucket == r.bucket)
  let gone := s.flows.flatMap fun (f : Flow) => (f.kept.filter fun k => !keep k).map fun k => (f.peer, k.msg.stitch)
  let stay (q : FlitReq) : Bool := !decide ((q.peer, q.stitch) ∈ gone)
  let s := { s with
    flows := s.flows.map fun (f : Flow) => { f with kept := f.kept.filter keep }
    nearPorts := s.nearPorts.map fun (p : NearPort) => { p with sendQueue := p.sendQueue.filter stay } }
  let s := if r.reported || (b.rect g.size own).empty then s else s.reportShard r b
  if (s.item? r.item).any fun i => !i.done then s.reduceDone r.item else s

/-! ### Gathers (R244, R245) -/

/-- A part of a gathered entry. -/
def Reduce.part (r : Reduce) (q : Nat) : Option (Nat × Nat × Nat) := r.gathered.find? (·.1 == q)

/-- A GATHER can be processed: its target slot can be written, or its bucket is not admitted here. -/
def State.canGather (s : State) (m : NearMsg) : Bool :=
  (s.reduceOf m.group m.bucket).all fun (r : Reduce) =>
    (s.gatherEntry (s.bucketAt r.record)).all fun (x : Nat × Nat) => !s.targetBusy x.1 x.2

/-- GATHER, but for a late part of the version already committed: the first message whose target slot can be written, or
whose bucket is not admitted here. -/
def State.gatherIn (s : State) : State :=
  match s.takeMsgIf 2 s.canGather with
  | none => s
  | some (m, s) =>
    match s.reduceOf m.group m.bucket, s.group? m.group with
    | some r, some g =>
      let b := s.bucketAt r.record
      let q := m.position
      match s.gatherEntry b with
      | none => s
      | some (n, e) =>
        let late := r.committed && bitsOf m.operand.toNat 63 32 == s.currentVersion n e
        if g.size ≤ q ∨ q ∈ r.lost ∨ late ∨ !s.live n ∨ !s.entryValid n e then s
        else
          let skip := (if r.committed then none else r.part q).elim 0 (·.2.2)
          let s := (s.openGathers n e).claimSlot n e
          let s := (scatter (b.geom.segments (b.rect g.size q)) skip m.body).foldl (fun s x => s.writeSlot n e x.1 x.2) s
          s.modReduce r.item fun r =>
            { r with gathered := (q, bitsOf m.operand.toNat 63 32, skip + m.body.length) :: r.gathered.filter (·.1 != q) }
    | _, _ => s.raise .nea 3

/-- The gathered parts of a bucket that have not all arrived are lost: their range of the target slot is filled from the
CURRENT slot (R245). -/
def State.loseGathers (r : Reduce) (g : GroupRec) (b : Bucket) (s : State) : State :=
  match s.gatherEntry b with
  | none => s
  | some (n, e) =>
    let gone := ((g.shards b).filter fun q => g.atPos b.ring q != g.self && !decide (q ∈ r.lost)
      && !((r.part q).any fun y => decide (segTotal (b.geom.segments (b.rect g.size q)) ≤ y.2.2)))
    if gone.isEmpty ∨ r.committed ∨ !s.live n ∨ !s.entryValid n e ∨ s.targetBusy n e then s
    else
      let cur := s.currentSlot n e
      let s := s.claimSlot n e
      let s := gone.foldl (fun s q => match cur with
        | none => s
        | some k => (b.geom.segments (b.rect g.size q)).foldl (fun s x =>
            s.writeSlot n e x.1 (s.readTile n (s.slotBase n e k + x.1) x.2)) s) s
      let s := s.modReduce r.item fun r => { r with lost := r.lost ++ gone }
      s.raise .nea 1

/-- REDUCE_CUTOFF: from the item's cutoff on, the reduction stops; once it has, the parts of the all-gather that have not
arrived are lost (log 39). -/
def State.reduceCutoff (item : Nat) (s : State) : State :=
  match s.reduce? item with
  | none => s
  | some r =>
    let b := s.bucketAt r.record
    match s.group? r.group with
    | none => s
    | some g =>
      if s.time < r.cutoff then s
      else if !r.ready && !r.stopped && s.verdict == 3 then s.noBucket item
      else
        let first := (s.item? item).any (fun i => !i.done) && !r.stopped
        let s := if r.stopped then s else s.stopReduce r g b
        if first then s else s.loseGathers r g b

/-! ### Copies (R246) -/

/-- The hops to a module. -/
def State.hopsTo (s : State) (dst : Nat) : Nat := s.torusDist s.coord dst

/-- The copy bound of bytes to a module (R249). -/
def State.copyNs (s : State) (bytes dst : Nat) : Nat := flitNs (streamFlits bytes 65472) + s.hopNs (s.hopsTo dst)

/-- Coordinates that lie in the site's torus. -/
def State.inTorus (s : State) (c : Nat) : Bool := (List.range 3).all fun i => decide (coordOf c i < s.dimSize i)

/-- The checks of COPY, at both ends (R113). -/
def copyCheck : ItemCheck := fun s d =>
  let n := fld d 48 4
  let dst := fld d 38 2
  if !zeroIn d 46 48 || !zeroIn d 52 96 || 512 ≤ dst then .error { code := Code.malformed }
  else if n = 0 ∨ 2 ^ 30 < n ∨ !s.inTorus dst ∨ dst = s.coord then .error { code := Code.lengthBound }
  else match moduleRange (fld d 32 6) n, moduleRange (fld d 40 6) n with
    | some p, some _ =>
      let ports := s.upToward dst
      .ok { units := ports.map .nearOut, domains := p.domains n, hbm := p.inHbm, tokenDies := s.linkDiesOn,
            linkDies := (ports.map (· / 2)).dedup.length, gov := s.slowLink, fixedNs := 2000 + s.copyNs n dst }
    | _, _ => .error { code := Code.lengthBound }

/-- Bytes go to a module in COPY messages. -/
def State.sendCopies (dst a : Nat) : Nat → List Byte → State → State
  | 0, _, s => s
  | n + 1, bs, s =>
    if bs.isEmpty then s
    else State.sendCopies dst (a + 65472) n (bs.drop 65472) (s.sendNear 3 0 dst 0 0 a (bs.take 65472))

/-- The copy starts: all its messages are sent; it is done once they are acknowledged. A copy out of an anchor waits until
step 8 of Sequence ARC-2 is open for it (R280). -/
def copyStart : ItemStart := fun it s =>
  let d := it.desc
  let n := fld d 48 4
  let dst := fld d 38 2
  match moduleRange (fld d 32 6) n with
  | none => s
  | some p =>
    if p.inHbm && s.anchorHeld p.off n then s
    else if !s.placePowered 0xFF p n then s.itemDone it.id Code.memError []
    else
      let first := (s.flow dst).nextStitch
      let k := ceilDiv n 65472
      let s := s.modItem it.id fun i => { i with stitches := some (first, first + k - 1) }
      s.sendCopies dst (fld d 40 6) k (s.readAt 0xFF p n)

/-- The copies that have waited for step 8 start. -/
def State.resumeCopies (s : State) : State :=
  (s.items.filter fun i => dType i.desc == 0x06 && i.started && !i.done && i.stitches.isNone).foldl
    (fun s i => copyStart i s) s

/-- The copy item that a message to a module belongs to. -/
def State.copyItem (s : State) (m : NearMsg) : Option Item :=
  if m.typ ≠ 3 ∨ bitOf m.flags 2 then none
  else s.items.find? fun i => dType i.desc == 0x06 && !i.done && fld i.desc 38 2 == m.dst
    && i.stitches.any fun x => decide (x.1 ≤ m.stitch) && decide (m.stitch ≤ x.2)

/-- A copy is done once none of its messages is kept any more. -/
def State.settleCopy (m : NearMsg) (s : State) : State :=
  match s.copyItem m with
  | none => s
  | some it =>
    if (s.flow m.dst).kept.any fun (k : Kept) => (s.copyItem k.msg).any (·.id == it.id) then s
    else s.itemDone it.id Code.ok []

/-- COPY_MSG: the bytes go to their tile address, or repair a block of a CURRENT slot (R195). -/
def State.copyMsg (s : State) : State :=
  match s.takeMsg 3 with
  | none => s
  | some (m, s) =>
    if bitOf m.flags 2 then
      match s.repairTarget m.operand.toNat with
      | some (n, e, block) => s.repairBlock n e block m.body
      | none => s
    else match moduleRange m.operand.toNat m.body.length with
      | some p => if s.placePowered 0xFF p m.body.length then (s.writeAt 0xFF p m.body).notePlace p m.body.length else s
      | none => s

/-! ### DIGEST_RESOLVE (R195) -/

/-- The group and the logical entry of an entry of a die. -/
def State.groupOfEntry (s : State) (n e : Nat) : Option (GroupRec × Nat) :=
  s.groups.findSome? fun g => (g.entries.idxOf? (e, n)).map fun i => (g, i)

/-- The suspect blocks of an entry. -/
def State.suspectBlocks (s : State) (n e : Nat) : List Nat :=
  ((s.die n).suspects.filter (·.1 == e)).map (·.2)

/-- The checks of DIGEST_RESOLVE. -/
def resolveCheck (winner : Bool) : ItemCheck := fun s d =>
  let n := fld d 32 1
  let e := fld d 33 1
  let w := fld d 36 2
  if 64 ≤ e ∨ !zeroIn d 35 36 ∨ !zeroIn d 38 96 then .error { code := Code.malformed }
  else if 47 < n then .error { code := Code.lengthBound }
  else if s.rollfwdDue n then .error { code := Code.rollfwdDue, die := n }
  else if !winner then .ok { domains := [n] }
  else match s.groupOfEntry n e with
    | none => .error { code := Code.lengthBound }
    | some (g, _) =>
      if g.size ≤ w then .error { code := Code.lengthBound }
      else
        let far := maxOf (g.members.map s.hopsTo)
        .ok { domains := [n], tokenDies := s.linkDiesOn, gov := s.slowLink
              fixedNs := 2000 + (s.suspectBlocks n e).length * (flitNs (msgFlits 4096) + s.hopNs far) }

/-- The suspect marks of an entry are cleared. -/
def State.clearSuspects (n e : Nat) (s : State) : State :=
  s.modDie n fun d => { d with suspects := d.suspects.filter (·.1 != e) }

/-- CLEAR. -/
def resolveClearStart : ItemStart := fun it s =>
  (s.clearSuspects (fld it.desc 32 1) (fld it.desc 33 1)).itemDone it.id Code.ok []

/-- WINNER: the suspect blocks go from the winning replica to the others; the marks are cleared. -/
def resolveWinnerStart : ItemStart := fun it s =>
  let n := fld it.desc 32 1
  let e := fld it.desc 33 1
  let w := fld it.desc 36 2
  let s := match s.groupOfEntry n e with
    | none => s
    | some (g, i) => (s.suspectBlocks n e).foldl (fun s block =>
        s.askRepair g i block w (List.range g.size)) s
  (s.clearSuspects n e).itemDone it.id Code.ok []

/-! ### Commands -/

/-- REDUCE (R238). -/
def execReduce (dt : Nat) (s : State) : Host.Outcome State Fault Refusal := s.finish dt (s.advance dt).reduceRow

/-- REDUCE_MSG (R238). -/
def execReduceMsg (dt : Nat) (s : State) : Host.Outcome State Fault Refusal := s.finish dt (s.advance dt).reduceMsg

/-- REDUCE_CUTOFF (R241). -/
def execReduceCutoff (dt item : Nat) (s : State) : Host.Outcome State Fault Refusal :=
  s.finish dt ((s.advance dt).reduceCutoff item)

/-- GATHER (R244). -/
def execGather (dt : Nat) (s : State) : Host.Outcome State Fault Refusal := s.finish dt (s.advance dt).gatherIn

/-- COPY (R246). -/
def execCopy (dt : Nat) (s : State) : Host.Outcome State Fault Refusal :=
  s.finish dt (State.decideRow (0x06, 0) copyCheck copyStart (s.advance dt))

/-- COPY_MSG (R246). -/
def execCopyMsg (dt : Nat) (s : State) : Host.Outcome State Fault Refusal := s.finish dt (s.advance dt).copyMsg

/-- DIGEST_RESOLVE_CLEAR (R195). -/
def execDigestResolveClear (dt : Nat) (s : State) : Host.Outcome State Fault Refusal :=
  s.finish dt (State.decideRow (0x10, 0) (resolveCheck false) resolveClearStart (s.advance dt))

/-- DIGEST_RESOLVE_WINNER (R195). -/
def execDigestResolveWinner (dt : Nat) (s : State) : Host.Outcome State Fault Refusal :=
  s.finish dt (State.decideRow (0x10, 1) (resolveCheck true) resolveWinnerStart (s.advance dt))

end Sys2Proof.Machine
end

