-- ==== Sys2Proof/Machine/Flits.lean ====
section
/-! DEFINITION. Near ports: bring-up, flits, replay, delivery of messages, end-to-end acknowledgement (R227 to R234). -/

namespace Sys2Proof.Machine

/-! ### Bring-up (Sequence NEA-1) -/

/-- Milliseconds and seconds in nanoseconds. -/
abbrev ms : Nat := 1000000
@[inherit_doc ms] abbrev secNs : Nat := 1000000000

/-- A near port and its link die are powered and out of reset. -/
def State.nearLive (s : State) (p : Nat) : Bool := decide (p < 12) && s.live (pdNear p) && s.live (pdLink (p / 2))

/-- FEC is aligned on all lanes. -/
def State.fecLock (s : State) (p : Nat) : Bool := s.regBits (Reg.npStatus p) 6 6 == 1

/-- Steps 2 and 3: link training and codeword alignment complete. -/
def State.trainingDone (p : Nat) (s : State) : State :=
  if !s.nearLive p || !s.linkClock p || s.npState p != 1 || s.fecLock p || (s.nport p).since + 500 * ms < s.now then s
  else (s.setField (Reg.npStatus p) 6 6 1).modNport p fun q => { q with since := s.now }

/-- A port that has not equalised in 500 ms, or has heard no HELLO in the 10 ms after FEC lock, is FAILED. -/
def State.trainingTimeout (p : Nat) (s : State) : State :=
  let port := s.nport p
  let late := if s.fecLock p then !port.wired && decide (port.since + 10 * ms ≤ s.now)
    else decide (port.since + 500 * ms ≤ s.now)
  if s.nearLive p && s.npState p == 1 && late then s.setField (Reg.npStatus p) 5 0 (4 + 2 * 8) else s

/-- The payload of a HELLO: own coordinates, dimensions, port number, site (log 40). -/
def State.helloBytes (s : State) (p : Nat) : List Byte :=
  leBytes 2 s.coord ++ leBytes 2 (s.regBits Reg.neaCoord 17 9) ++ leBytes 1 p ++ leBytes 1 (s.regBits Reg.neaCoord 21 18)

/-- A HELLO goes out in bring-up. -/
def State.helloSend (p : Nat) (s : State) : State :=
  if s.nearLive p && s.npState p == 1 && s.fecLock p && s.linkClock p
  then s.emit (.flit p (flitBytes 3 0 0 0 (s.helloBytes p))) else s

/-- The credits a port grants for each virtual channel (log 17). -/
def grant : Nat := Config.nearCredits % 65535 + 1

/-- Step 6: a port that has passed its wiring check and holds its neighbour's credits, which the neighbour grants once
it has passed its own, is UP (log 40). -/
def State.tryUp (p : Nat) (s : State) : State :=
  let port := s.nport p
  if s.npState p == 1 && port.wired && port.credits.any (0 < ·) then
    let s := s.setField (Reg.npStatus p) 5 0 2
    (s.modNport p fun q => { q with since := s.now }).pump p
  else s

/-- Step 5: the wiring check on a HELLO's payload, whose report the wiring plan is held against (R400). A port that
passes grants its credits. -/
def State.helloIn (p : Nat) (b : List Byte) (s : State) : State :=
  if s.npState p != 1 || !s.fecLock p || (s.nport p).wired then s
  else
    let s := (s.setField (Reg.npStatus p) 19 7 (fld b 0 2 % 512 + fld b 4 1 % 16 * 512)).checkPlan p
    if fld b 0 2 = s.neighbour p ∧ fld b 4 1 = pairedPort p ∧ fld b 2 2 = s.regBits Reg.neaCoord 17 9
        ∧ fld b 5 1 = s.regBits Reg.neaCoord 21 18 then
      let s := s.modNport p fun q => { q with wired := true }
      ((List.range 4).foldl (fun s vc => s.sendCtl p 4 vc grant) s).tryUp p
    else s.setField (Reg.npStatus p) 5 0 (4 + 3 * 8)

/-- An UP port goes DOWN with a cause. -/
def State.upDown (p cause : Nat) (s : State) : State :=
  if s.nearLive p && s.nearUp p then s.nearDown p cause else s

/-- No flit for 100 µs. -/
def State.silence (p : Nat) (s : State) : State :=
  if s.now < (s.nport p).since + 100000 then s else s.upDown p 6

/-- A DOWN port with EN = 1 retrains every second. -/
def State.retrainTimer (p : Nat) (s : State) : State :=
  if s.nearLive p && s.npState p == 3 && decide ((s.nport p).since + secNs ≤ s.now) then s.nearStart p else s

/-! ### Delivery (R233, R234) -/

/-- The messages of a flow whose turn has come, out of those that wait. -/
def drain : Nat → Flow → Flow × List NearMsg
  | 0, f => (f, [])
  | n + 1, f =>
    match f.waiting.find? fun (m : NearMsg) => m.stitch == f.rxNext with
    | none => (f, [])
    | some m =>
      let (g, l) := drain n { f with rxNext := (f.rxNext + 1) % 2 ^ 48, waiting := f.waiting.erase m }
      (g, m :: l)

/-- A message for this module is acknowledged, accepted once, and delivered in stitch order; one too far ahead of a
missing one is not held. -/
def State.accept1 (m : NearMsg) (s : State) : State :=
  let f := s.flow m.src
  let ahead := (m.stitch + 2 ^ 48 - f.rxNext) % 2 ^ 48
  if 2 ^ 47 ≤ ahead ∨ f.waiting.any (fun (x : NearMsg) => x.stitch == m.stitch) then s.sendAck m.src m.stitch
  else if ahead ≠ 0 ∧ 4096 ≤ f.waiting.length then s
  else
    let (g, out) := drain (f.waiting.length + 1) { f with waiting := f.waiting ++ [m] }
    let s := s.modFlow m.src fun _ => g
    { s with inbox := s.inbox ++ out }.sendAck m.src m.stitch

/-- The reserved bytes of a body are 0 (Tables NEA-4, NEA-9, NEA-10). -/
def NearMsg.bodyClean (m : NearMsg) : Bool :=
  let b := m.body
  if m.typ = 4 then zeroIn b 3 4 && zeroIn b 10 16
  else if m.typ = 5 then decide (fld b 3 1 < 4) && zeroIn b 14 16
  else if m.typ = 6 then (List.range (b.length / 16)).all fun k => zeroIn b (16 * k + 2) (16 * k + 4)
  else true

/-- A message that this module drops: of another epoch, of unknown type, or with a reserved bit set (R233). -/
def State.dropsMsg (s : State) (m : NearMsg) : Bool :=
  !m.bodyClean || m.epoch != s.reg Reg.hifEpoch || m.typ == 0 || decide (9 < m.typ) || decide (8 ≤ m.flags)
    || (bitOf m.flags 2 && m.typ != 3) || decide (512 ≤ m.dst) || decide (512 ≤ m.src)

/-- A message has come in whole on a port: it is forwarded, dropped, or taken. -/
def State.messageIn (p vc : Nat) (b : List Byte) (s : State) : State :=
  match NearMsg.parse b with
  | none => s.count Reg.neaEpochDrops 1
  | some m =>
    if m.dst % 512 ≠ s.coord then s.routeMsg m vc (some p)
    else if s.dropsMsg m then s.count Reg.neaEpochDrops 1
    else if m.typ = 9 then { s with inbox := s.inbox ++ [m] }
    else s.accept1 m

/-! ### Flits (R227, R228) -/

/-- An acknowledgement releases the replay buffer up to a sequence number it holds. -/
def NearPort.ackTo (ack : Nat) (q : NearPort) : NearPort :=
  match q.replay.findIdx? (·.1 == ack) with
  | some i => { q with replay := q.replay.drop (i + 1), nakAck := none, nakCount := 0 }
  | none => q

/-- A NAK goes out naming the last good flit. -/
def State.sendNak (p : Nat) (s : State) : State :=
  (s.sendCtl p 2 0 0).modNport p fun q => { q with nakSent := true }

/-- What every flit with a good CRC does: it is heard, its acknowledgement and its credits are taken. -/
def State.flitHead (p : Nat) (f : List Byte) (s : State) : State :=
  let k := fld f 4 1
  let vc := k / 64
  let s := s.modNport p fun q =>
    let q := if s.nearUp p then { q with since := s.now } else q
    let q := if bitOf k 3 then q.ackTo (fld f 2 2) else q
    { q with credits := modAt q.credits vc (min 65535 <| · + fld f 6 2) }
  (s.tryUp p).pump p

/-- The last flit of a message has come in: its receive credit goes back, but for a partial sum that waits for its
bucket, which holds it (R238; log 140). -/
def State.lastFlit (p vc : Nat) (b : List Byte) (s : State) : State :=
  let t := s.messageIn p vc b
  match NearMsg.parse b with
  | some m =>
    if m.typ = 1 ∧ m ∈ t.inbox ∧ m ∉ s.inbox then { t with owed := t.owed ++ [(m.src, m.stitch, p, vc)] }
    else t.sendCtl p 4 vc 1
  | none => t.sendCtl p 4 vc 1

/-- A DATA flit: the next expected one is taken, and its receive credit returned; any other is discarded, with a NAK
unless one is out. Over a closed crossing none is taken (R377). -/
def State.dataIn (p : Nat) (f : List Byte) (s : State) : State :=
  let q := s.nport p
  if !s.nearUp p || !s.portFlows p then s
  else if fld f 0 2 ≠ q.rxSeq then (if q.nakSent then s else s.sendNak p)
  else
    let k := fld f 4 1
    let vc := k / 64
    let body := (f.drop 8).take (min 244 (fld f 5 1))
    let whole := (if bitOf k 4 then [] else q.partials.getD vc []) ++ body
    let s := s.modNport p fun q =>
      { q with rxSeq := (q.rxSeq + 1) % 65536, nakSent := false
               partials := q.partials.set vc (if bitOf k 5 then [] else whole) }
    if bitOf k 5 then s.lastFlit p vc whole else s.sendCtl p 4 vc 1

/-- A NAK: the flits after the acknowledged one are sent again, in order; the sixteenth that names the same flit without
progress takes the port DOWN. -/
def State.nakIn (p : Nat) (f : List Byte) (s : State) : State :=
  if !s.nearUp p then s
  else
    let ack := fld f 2 2
    let s := s.modNport p fun q =>
      let n := if q.nakAck = some ack then q.nakCount + 1 else 1
      { q.ackTo ack with nakAck := some ack, nakCount := n }
    let q := s.nport p
    if 16 ≤ q.nakCount then s.nearDown p 4
    else
      let s := s.count (Reg.npReplays p) 1
      q.replay.foldl (fun s x => s.emit (.flit p (dataFlit q x.1 x.2))) s

/-- A flit arrives on a port: one that fails its CRC is discarded, counted and answered with a NAK; one of the kind of
the command is taken. A port without its clock hears none (R365). -/
def State.flitIn (p kind : Nat) (f : List Byte) (act : State → State) (s : State) : State :=
  if !s.nearLive p || !s.linkClock p || f.length != 256 || (s.npState p != 1 && s.npState p != 2) then s
  else if Crypto.crc32 (f.take 252) ≠ fld f 252 4 then
    let s := s.count (Reg.npCrcErr p) 1
    if s.nearUp p then s.sendNak p else s
  else if fld f 4 1 % 8 ≠ kind then s
  else act (s.flitHead p f)

/-! ### End-to-end acknowledgement (R234) -/

/-- E2E_ACK: the message it names is no longer kept. -/
def State.e2eAck (s : State) : State :=
  match s.takeMsg 9 with
  | none => s
  | some (a, s) =>
    let n := bitsOf a.operand.toNat 47 0
    match (s.flow a.src).kept.find? fun (k : Kept) => k.msg.stitch == n with
    | none => s
    | some k =>
      let s := s.modFlow a.src fun f => { f with kept := f.kept.filter fun (x : Kept) => x.msg.stitch != n }
      s.settleCopy k.msg

/-- A message whose destination is unreachable: a REDUCE goes to the next member of the chain, a GATE_GROUP sets
MEMBER_LOST, a copy fails, the others end (R154, R241, R245, R246). -/
def State.unreachable (m : NearMsg) (s : State) : State :=
  if m.typ = 1 then s.rerouteReduce m
  else if m.typ = 5 then s.raise .nea 0
  else match s.copyItem m with
    | none => s
    | some it =>
      let mine (k : Kept) : Bool := (s.copyItem k.msg).any (·.id == it.id)
      let s := s.modFlow m.dst fun f => { f with kept := f.kept.filter fun (k : Kept) => !mine k }
      s.itemDone it.id Code.unreachable []

/-- E2E_RESEND: a message not acknowledged 50 µs after it was last sent is sent again, at most four times. -/
def State.e2eResend (peer stitch : Nat) (s : State) : State :=
  match (s.flow peer).kept.find? fun (k : Kept) => k.msg.stitch == stitch with
  | none => s
  | some k =>
    if s.now < k.sentAt + 50000 then s
    else if k.resends < 4 then s.resendNear peer stitch
    else
      (s.modFlow peer fun f => { f with kept := f.kept.filter fun (x : Kept) => x.msg.stitch != stitch }).unreachable k.msg

/-! ### Commands -/

/-- FLIT_DATA (R228). -/
def execFlitData (dt port : Nat) (flit : List Byte) (s : State) : Host.Outcome State Fault Refusal :=
  s.finish dt (State.flitIn port 1 flit (State.dataIn port flit) (s.advance dt))

/-- FLIT_NAK (R228). -/
def execFlitNak (dt port : Nat) (flit : List Byte) (s : State) : Host.Outcome State Fault Refusal :=
  s.finish dt (State.flitIn port 2 flit (State.nakIn port flit) (s.advance dt))

/-- FLIT_HELLO (R229). -/
def execFlitHello (dt port : Nat) (flit : List Byte) (s : State) : Host.Outcome State Fault Refusal :=
  s.finish dt (State.flitIn port 3 flit (State.helloIn port (flit.drop 8)) (s.advance dt))

/-- FLIT_CREDIT (R227). -/
def execFlitCredit (dt port : Nat) (flit : List Byte) (s : State) : Host.Outcome State Fault Refusal :=
  s.finish dt (State.flitIn port 4 flit id (s.advance dt))

/-- FLIT_IDLE (R227). -/
def execFlitIdle (dt port : Nat) (flit : List Byte) (s : State) : Host.Outcome State Fault Refusal :=
  s.finish dt (State.flitIn port 0 flit id (s.advance dt))

/-- NEAR_TRAINING_DONE (R229). -/
def execNearTrainingDone (dt port : Nat) (s : State) : Host.Outcome State Fault Refusal :=
  s.finish dt ((s.advance dt).trainingDone port)

/-- NEAR_TRAINING_TIMEOUT (R229). -/
def execNearTrainingTimeout (dt port : Nat) (s : State) : Host.Outcome State Fault Refusal :=
  s.finish dt ((s.advance dt).trainingTimeout port)

/-- HELLO_SEND (R229). -/
def execHelloSend (dt port : Nat) (s : State) : Host.Outcome State Fault Refusal :=
  s.finish dt ((s.advance dt).helloSend port)

/-- FEC_ALIGN_LOSS (R229). -/
def execFecAlignLoss (dt port : Nat) (s : State) : Host.Outcome State Fault Refusal :=
  s.finish dt ((s.advance dt).upDown port 5)

/-- LINK_SILENCE (R229). -/
def execLinkSilence (dt port : Nat) (s : State) : Host.Outcome State Fault Refusal :=
  s.finish dt ((s.advance dt).silence port)

/-- NEAR_RETRAIN_TIMER (R229). -/
def execNearRetrainTimer (dt port : Nat) (s : State) : Host.Outcome State Fault Refusal :=
  s.finish dt ((s.advance dt).retrainTimer port)

/-- NP_RETRAIN (R250): a BAR0 write of NP_CTRL with RETRAIN set and EN as it is. -/
def execNpRetrain (dt port : Nat) (s : State) : Host.Outcome State Fault Refusal :=
  let t := s.advance dt
  s.finish dt (if port < 12 then
    State.barWith (fun _ old new v s => s.regEffect false (Reg.npCtrl port) old new v) (Reg.npCtrl port) false
      (t.reg (Reg.npCtrl port) % 2 + 2) t else t)

/-- E2E_ACK (R234). -/
def execE2eAck (dt : Nat) (s : State) : Host.Outcome State Fault Refusal := s.finish dt (s.advance dt).e2eAck

/-- E2E_RESEND (R234). -/
def execE2eResend (dt peer stitch : Nat) (s : State) : Host.Outcome State Fault Refusal :=
  s.finish dt ((s.advance dt).e2eResend peer stitch)

end Sys2Proof.Machine
end

