-- ==== Sys2Proof/Machine/Farlink.lean ====
section
/-! DEFINITION. Far ports: NGT frames, sealing, pacing, acknowledgement, delay, bring-up, delivery (R251 to R267, R287 to
R301). -/

namespace Sys2Proof.Machine

/-! ### The NGT header (Table FEX-2) -/

/-- The fields of an NGT header. -/
structure NgtHead where
  typ : Nat
  flags : Nat := 0
  kind : Nat := 0
  plane : Nat := 0
  hop : Nat := 0
  dst : Nat := 0
  origin : Nat := 0
  epoch : Nat := 0
  round : Nat := 0
  stitch : Nat := 0
  shard : Nat := 0
  offset : Nat := 0
  msglen : Nat := 0
  paylen : Nat := 0
  txtime : Nat := 0
  counter : Nat := 0
  deriving DecidableEq, Repr

/-- The 64 bytes of a header. -/
def NgtHead.bytes (h : NgtHead) : List Byte :=
  leBytes 1 h.typ ++ leBytes 1 h.flags ++ leBytes 1 h.kind ++ leBytes 1 h.plane ++ leBytes 1 h.hop ++ leBytes 1 h.dst
    ++ leBytes 1 h.origin ++ [0] ++ leBytes 4 h.epoch ++ leBytes 4 h.round ++ leBytes 6 h.stitch ++ zeros 2
    ++ leBytes 4 h.shard ++ leBytes 4 h.offset ++ leBytes 4 h.msglen ++ leBytes 2 h.paylen ++ zeros 2
    ++ leBytes 8 h.txtime ++ leBytes 8 h.counter ++ zeros 8

/-- The header that 64 bytes hold. -/
def NgtHead.parse (b : List Byte) : NgtHead :=
  { typ := fld b 0 1, flags := fld b 1 1, kind := fld b 2 1, plane := fld b 3 1, hop := fld b 4 1, dst := fld b 5 1
    origin := fld b 6 1, epoch := fld b 8 4, round := fld b 12 4, stitch := fld b 16 6, shard := fld b 24 4
    offset := fld b 28 4, msglen := fld b 32 4, paylen := fld b 36 2, txtime := fld b 40 8, counter := fld b 48 8 }

/-- A reserved bit of a header is set. -/
def ngtReserved (b : List Byte) : Bool :=
  fld b 7 1 != 0 || !zeroIn b 22 24 || !zeroIn b 38 40 || !zeroIn b 56 64 || decide (32 ≤ fld b 1 1)

/-! ### Encapsulation (R251, R254) -/

/-- Bytes of a number, most significant first. -/
def beB (n v : Nat) : List Byte := (leBytes n v).reverse

/-- The number that bytes hold, most significant first. -/
def beN (b : List Byte) : Nat := leNat b.reverse

/-- The sum of the 16-bit words of bytes, a last odd byte padded. -/
def wordSum : List Byte → Nat
  | a :: b :: t => a.toNat * 256 + b.toNat + wordSum t
  | [a] => a.toNat * 256
  | [] => 0

/-- The one's-complement sum of 16-bit words. -/
def onesSum (b : List Byte) : Nat :=
  let fold (n : Nat) : Nat := n % 65536 + n / 65536
  fold (fold (fold (wordSum b)))

/-- The sum of a UDP datagram with the pseudo-header of its addresses, length and next header. -/
def udpSum (sip dip dgram : List Byte) : Nat :=
  onesSum (sip ++ dip ++ beB 4 dgram.length ++ [0, 0, 0, 17] ++ dgram)

/-- The port is set for UDP over IPv6. -/
def State.encap6 (s : State) (k : Nat) : Bool := bitOf (s.reg (Reg.fpCtrl k)) 1

/-- The MAC header of a port, but for the EtherType. -/
def State.macHead (s : State) (k : Nat) : List Byte :=
  let r := s.fxPort k
  let c := s.reg (Reg.fpCtrl k)
  r.dmac ++ r.smac ++ (if bitOf c 2 then [0x81, 0x00] ++ beB 2 (bitsOf c 14 3) else [])

/-- A frame on the wire round an NGT frame, with its FCS. -/
def State.wrapFrame (s : State) (k : Nat) (ngt : List Byte) : List Byte :=
  let r := s.fxPort k
  let cfg := s.reg Reg.fxCfg
  let body :=
    if s.encap6 k then
      let ports := beB 2 (Config.udpSource k) ++ beB 2 (bitsOf cfg 31 16) ++ beB 2 (8 + ngt.length)
      let sum := 65535 - udpSum r.sip r.dip (ports ++ [0, 0] ++ ngt)
      let check := if sum = 0 then 65535 else sum
      [0x86, 0xDD] ++ [0x60, 0, 0, 0] ++ beB 2 (8 + ngt.length) ++ [17] ++ leBytes 1 r.hopLimit ++ r.sip ++ r.dip
        ++ ports ++ beB 2 check ++ ngt
    else beB 2 (bitsOf cfg 15 0) ++ ngt
  let f := s.macHead k ++ body
  f ++ leBytes 4 (Crypto.crc32 f)

/-- The NGT frame in a frame of the wire: `none` for one that is to be counted in FP_BAD, `some none` for a MAC control
frame, which is discarded. -/
def State.unwrapFrame (s : State) (k : Nat) (f : List Byte) : Option (Option (List Byte)) :=
  let r := s.fxPort k
  let c := s.reg (Reg.fpCtrl k)
  let cfg := s.reg Reg.fxCfg
  let n := f.length
  if n < 18 ∨ 9216 < n ∨ Crypto.crc32 (f.take (n - 4)) ≠ leNat (f.drop (n - 4)) then none
  else
    let b := f.take (n - 4)
    let typ := beN ((b.drop 12).take 2)
    if typ = 0x8808 then some none
    else if b.take 6 ≠ r.smac then none
    else
      let tagged := typ == 0x8100
      let vid := beN ((b.drop 14).take 2) % 4096
      if tagged != bitOf c 2 || (tagged && vid != bitsOf c 14 3) then none
      else
        let p := if tagged then b.drop 16 else b.drop 12
        let et := beN (p.take 2)
        let p := p.drop 2
        if !bitOf c 1 then (if et = bitsOf cfg 15 0 then some (some p) else none)
        else
          let len := beN ((p.drop 4).take 2)
          let sip := (p.drop 8).take 16
          let dip := (p.drop 24).take 16
          let d := (p.drop 40).take len
          if et ≠ 0x86DD ∨ p.length < 48 ∨ fld p 0 1 / 16 ≠ 6 ∨ fld p 6 1 ≠ 17 ∨ sip ≠ r.dip ∨ dip ≠ r.sip
              ∨ p.length < 40 + len ∨ len < 8 ∨ beN ((d.drop 4).take 2) ≠ len ∨ beN ((d.drop 2).take 2) ≠ bitsOf cfg 31 16
              ∨ beN ((d.drop 6).take 2) = 0 ∨ udpSum sip dip d ≠ 65535 then none
          else some (some (d.drop 8))

/-- The wire bytes of a frame, preamble and gap included (R257). -/
def State.wireBytes (s : State) (k payload : Nat) : Nat :=
  payload + (if s.encap6 k then 166 else 118) + (if bitOf (s.reg (Reg.fpCtrl k)) 2 then 4 else 0)

/-! ### Key slots (R292 to R299) -/

/-- The transmit counter register of a slot. -/
def txctr (k slot : Nat) : Nat := if slot = 0 then Reg.secTxctr0 k else Reg.secTxctr1 k

/-- A key slot of a far port. -/
def State.keySlot (s : State) (k slot : Nat) : KeySlot := (s.fport k).keys.getD slot {}

/-- A key slot changes. -/
def State.modKey (k slot : Nat) (f : KeySlot → KeySlot) (s : State) : State :=
  s.modFport k fun q => { q with keys := modAt q.keys slot f }

/-- A slot is zeroised to EMPTY (R297). -/
def State.zeroise (k slot : Nat) (s : State) : State :=
  (((s.modKey k slot fun _ => {}).setReg (txctr k slot) 0).setSlotState k slot 0).showNoKey k

/-- A slot begins to drain: until an instant. -/
def State.drainSlot (k slot until_ : Nat) (s : State) : State :=
  (s.setSlotState k slot 3).modKey k slot fun x => { x with windowEnd := some until_ }

/-- SWITCH: the other slot becomes the transmit slot; the old one stays ACTIVE while it is the receive slot, and drains
otherwise, with a window of 0 (Table SEC-2; log 42). -/
def State.switchTx (k : Nat) (s : State) : State :=
  let old := s.txSlot k
  let s := (s.setField (Reg.secPortStatus k) 1 1 (1 - old)).setSlotState k (1 - old) 2
  let s := s.modKey k (1 - old) fun x => { x with transmitted := true }
  let s := if s.rxSlot k = old then s else s.drainSlot k old s.now
  s.showNoKey k

/-- The nanoseconds of an overlap window that starts now (R299). -/
def State.overlapNs (s : State) (k : Nat) : Nat :=
  let us := s.regBits (Reg.secOverlap k) 23 0
  if us ≠ 0 then us * 1000
  else match (s.fport k).srttNs with
    | some t => max ms (2 * t)
    | none => 2 * (s.regBits (Reg.fpEnv k) 15 0 * 1000)

/-- A slot under which a frame has been opened becomes the receive slot; the one before drains unless it is still the
transmit slot. -/
def State.switchRx (k slot : Nat) (s : State) : State :=
  let old := s.rxSlot k
  if old = slot then s
  else
    let fresh := s.slotState k slot == 1
    let s := (s.setField (Reg.secPortStatus k) 2 2 slot).setSlotState k slot 2
    let s := if s.txSlot k = old then s else s.drainSlot k old (s.now + s.overlapNs k)
    if fresh then s.raise (.secPort k) 4 else s

/-- The frames of an item: it has none left to send or have acknowledged. -/
def State.itemFrames (s : State) (id : Nat) : Bool :=
  s.farPorts.any fun (q : FarPort) => (q.sendQueue ++ q.unacked).any fun (f : FarFrame) => f.item == some id

/-- The third mismatch on one frame halts the port (R301): its items are void and end without delivery. -/
def State.cipherHalt (k : Nat) (s : State) : State :=
  let s := (s.zeroise k 0).zeroise k 1
  let s := (s.setField (Reg.fpStatus k) 5 0 (4 + 5 * 8)).raise (.secPort k) 3
  let ids := s.itemsOn fun u => u == .farShare k
  let s := (s.voidItems 3 ids).voidTransfers 3 fun t => t.port == k
  ids.foldl (fun s id => match s.item? id with
    | none => s
    | some it =>
      let s := s.modItem id fun i => { i with done := true, code := Code.undelivered, detail := it.farDetail }
      (s.dropWork id).completeItem id) s

/-! ### Sending a frame (R256, R287, R291 to R294) -/

/-- A far port and its link die are powered and out of reset: its link timeouts run, whatever its island's clock does
(R365). -/
def State.farOn (s : State) (k : Nat) : Bool := decide (k < 6) && s.live (pdFar k) && s.live (pdLink k)

/-- The crossing of a far port: its link die's third (log 16). -/
def farCrossing (k : Nat) : Nat := 16 * (56 + k) + 3

/-- Frames pass between a far port and its link die: the port is on, its clock runs and its crossing is open (R365, R377). -/
def State.farLive (s : State) (k : Nat) : Bool := s.farOn k && s.wire (56 + k) .far && s.crossUp (farCrossing k)

/-- The IV of a frame (R291). -/
def ivOf (salt : BitVec 32) (counter : Nat) : List Nat := Crypto.beBytes 4 salt.toNat ++ Crypto.beBytes 8 counter

/-- The port can send a frame: plain, or with a key and a counter left. -/
def State.canSeal (s : State) (k : Nat) : Bool :=
  !s.sealed k || (s.slotState k (s.txSlot k) != 0 && decide (s.reg (txctr k (s.txSlot k)) < 2 ^ 63))

/-- The transmit counter rises by 1 (R294). -/
def State.stepCounter (k : Nat) (s : State) : State :=
  let slot := s.txSlot k
  let c := s.reg (txctr k slot) + 1
  let s := s.setReg (txctr k slot) c
  let s := if c = 2 ^ 62 then s.raise (.secPort k) 0 else s
  if c < 2 ^ 63 then s
  else if s.slotState k (1 - slot) = 1 then (s.switchTx k).raise (.secPort k) 1
  else s.raise (.secPort k) 2

/-- The header of a frame of this gateway: its plane, site and epoch, its length, the instant, its seal. -/
def State.fillHead (s : State) (k : Nat) (h : NgtHead) (n : Nat) : NgtHead :=
  let h := { h with plane := s.plane, hop := s.site, epoch := s.reg Reg.hifEpoch, paylen := n, txtime := s.time }
  if s.sealed k then { h with flags := h.flags + 1 + 2 * s.txSlot k, counter := s.reg (txctr k (s.txSlot k)) } else h

/-- A frame is sealed, or takes its CRC, and goes out; the slot and counter of its seal come with it. Where lockstep
mismatches reach three, the port halts instead. -/
def State.sendNgt (k : Nat) (h : NgtHead) (p : List Byte) (miss : Nat) (s : State) : State × BitVec 64 :=
  let h := s.fillHead k h p.length
  let head := h.bytes
  if s.sealed k then
    let slot := s.txSlot k
    let key := s.keySlot k slot
    let s := s.count (Reg.secMismatch k) (min miss 3)
    if 3 ≤ miss then (s.cipherHalt k, 0)
    else
      let (c, tag) := Crypto.gcmSeal key.key (ivOf key.txSalt h.counter) head p
      let s := s.emit (.frame k (s.wrapFrame k (head ++ c ++ tag)))
      (s.stepCounter k, BitVec.ofNat 64 (slot * 2 ^ 63 + h.counter))
  else
    (s.emit (.frame k (s.wrapFrame k (head ++ p ++ leBytes 4 (Crypto.crc32 (head ++ p)) ++ zeros 12))), 0)

/-- The lockstep mismatches on an ACK or PROBE that is about to be sealed: how many come is not the command's to say (a
free value, log 147). -/
def State.ownMisses (k : Nat) (s : State) : State × Nat :=
  if s.sealed k then ({ s with drawCount := s.drawCount + 1 }, Config.ackMismatches s.drawCount) else (s, 0)

/-- The number of the 125 µs interval of now. -/
def State.interval (s : State) : Nat := s.now / 125000

/-- An ACK goes out (R260). -/
def State.sendFarAck (k : Nat) (s : State) : State :=
  if !s.canSeal k then s
  else
    let q := s.fport k
    let (echo, at_) := q.lastData.getD (0, 0)
    let sack := maskOf ((q.rxSack.map fun x => (x + 2 ^ 48 - q.rxNext) % 2 ^ 48).filter (· < 256))
    let h : NgtHead := { typ := 2, flags := if q.pathChgDue then 16 else 0, dst := (s.fxPort k).partner,
                         origin := s.site, stitch := (q.rxNext + 2 ^ 48 - 1) % 2 ^ 48 }
    let (s, miss) := s.ownMisses k
    let (s, _) := s.sendNgt k h (leBytes 8 echo ++ leBytes 8 (s.time - at_) ++ leBytes 32 sack) miss
    s.modFport k fun q => { q with dataSinceAck := 0, ackedAt := s.now, pathChgDue := false }

/-- A PROBE goes out. -/
def State.sendProbe (k : Nat) (s : State) : State :=
  if !s.canSeal k then s
  else
    let h : NgtHead := { typ := 3, dst := (s.fxPort k).partner, origin := s.site }
    let (s, miss) := s.ownMisses k
    let (s, _) := s.sendNgt k h [] miss
    s.modFport k fun q => { q with sentDataAt := some s.interval }

/-- The port on which a message to a site goes out now; 7: none. -/
def State.portTo (s : State) (d : Nat) : Nat :=
  let (a, b) := s.routeTo d
  if a < 6 ∧ s.fpState a = 2 then a else if b < 6 then b else a

/-! ### Pacing and the window (R261, R284) -/

/-- The rate of a port in Gb/s. -/
def State.farRate (s : State) (k : Nat) : Nat :=
  let speed := if bitOf (s.reg (Reg.fpStatus k)) 6 then 400 else 800
  let g := s.regBits (Reg.fpRate k) 9 0
  if g = 0 then speed else min g speed

/-- Percent of the rate reserved for relayed and served traffic. -/
def State.relayPct (s : State) (k : Nat) : Nat := s.regBits (Reg.fpRate k) 22 16

/-- Nanoseconds that bytes take at a percentage of a port's rate. -/
def State.shareNs (s : State) (k pct bytes : Nat) : Nat := ceilDiv (bytes * 800) (max 1 (s.farRate k * pct))

/-- RTT_ENV in nanoseconds. -/
def State.rttEnv (s : State) (k : Nat) : Nat := s.regBits (Reg.fpEnv k) 15 0 * 1000

/-- The resend timer (R261); before the first sample it starts from the 1 s of RFC 6298. -/
def State.rto (s : State) (k : Nat) : Nat :=
  let q := s.fport k
  let t := match q.srttNs with
    | some t => t + 4 * q.rttvarNs
    | none => secNs
  min (max t ms) (s.rttEnv k * 3 / 2)

/-- The ports that a contribution goes out on, with the times it is sent on each: those of the relay mask, and the one
toward the backup site, which may be one of them (R272). -/
def State.contribSends (s : State) : List (Nat × Nat) :=
  let b := s.backup s.site
  let mirror := if b < 16 ∧ s.portTo b < 6 then [s.portTo b] else []
  let relay := s.relayPorts s.site
  (relay ++ mirror).dedup.map fun k => (k, relay.count k + mirror.count k)

/-- The wire bytes of the frames that an item has yet to have acknowledged on a port: those it has queued, or, of one that
has not started, those it will queue (Table FEX-8). -/
def State.itemBytes (s : State) (k : Nat) (it : Item) : Nat :=
  if it.started then
    let q := s.fport k
    let l := (q.sendQueue ++ q.unacked).filter fun (f : FarFrame) => f.item == some it.id
    sumOver (l.map fun (f : FarFrame) => match f.payload with
      | .inline b => s.wireBytes k b.length
      | .hbm _ n => s.wireBytes k n) id
  else if dType it.desc = 0x0C then
    let n := ((s.contribSends.find? (·.1 == k)).map (·.2)).getD 0
    let frames := (s.fxShard? (fld it.desc 36 4)).elim 0 fun x => ceilDiv x.size 8192
    n * frames * s.wireBytes k 8192
  else if dType it.desc = 0x0E then s.wireBytes k 12
  else s.wireBytes k 8

/-- The nanoseconds that an item's remaining frames of a port take at the local share, and those of the reply that a
SNAP_FETCH asks for at the relay share (Table FEX-8). -/
def State.remainingNs (s : State) (k : Nat) (it : Item) : Nat :=
  let reply := if dType it.desc = 0x0E then ceilDiv (fld it.desc 52 4) 8192 * s.wireBytes k 8192 else 0
  s.shareNs k (100 - s.relayPct k) (s.itemBytes k it) + s.shareNs k (max 1 (s.relayPct k)) reply

/-- An item keeps its promise on a port where its remaining frames and one round trip still fit, from now or, of one that
has not started, from its T_s; else it is void (R265). -/
def State.reviewItem (k id : Nat) (s : State) : State :=
  match s.item? id with
  | none => s
  | some it =>
    let rtt := (s.fport k).srttNs.getD (s.rttEnv k)
    let from_ := if it.started then s.time else max s.time it.ts
    if from_ + s.remainingNs k it + rtt ≤ it.tp then s else s.voidItems 1 [id]

/-- Every far item of a port that has not completed is re-evaluated (R264 step 4). -/
def State.reviewPort (k : Nat) (s : State) : State :=
  match (s.fport k).srttNs with
  | none => s
  | some t =>
    if t ≤ s.rttEnv k then s
    else
      let s := (s.itemsOn fun u => u == .farShare k).foldl (fun s id => s.reviewItem k id) s
      s.voidTransfers 1 fun x => x.port == k && x.tp.any (· < s.time + t)

/-- The resends that an item is allowed: its loss allowance over the frames it sends, on every port it sends them (R265,
Table FEX-8). -/
def State.lossAllowance (s : State) (k : Nat) (it : Item) : Nat :=
  let per (n : Nat) : Nat := ceilDiv (n * s.regBits (Reg.fpEnv k) 31 16) 1000000
  if dType it.desc = 0x0C then
    match s.fxShard? (fld it.desc 36 4) with
    | some x => per (ceilDiv x.size 8192) * max 1 (sumOver (s.contribSends.map (·.2)) id)
    | none => per 1
  else per 1 * max 1 it.units.length

/-- A frame of an item has been sent: its stitch and counter, its resends. -/
def State.noteSent (k : Nat) (f : FarFrame) (word : BitVec 64) (again : Bool) (s : State) : State :=
  match f.item with
  | none => s
  | some id =>
    let s := s.modItem id fun i =>
      let i := { i with counters := some ((i.counters.getD (word, word)).1, word) }
      if again then { i with resends := i.resends + 1 }
      else { i with stitches := some ((i.stitches.getD (f.stitch, f.stitch)).1, f.stitch) }
    match s.item? id with
    | none => s
    | some it =>
      if again && it.resends == s.lossAllowance k it + 1 then (s.raise (.fp k) 2).reviewItem k id else s

/-- The bytes of a frame's payload, read at its sending (R261). -/
def State.payloadBytes (s : State) (f : FarFrame) : List Byte :=
  match f.payload with
  | .inline b => b
  | .hbm a n => s.readHbm a n

/-- A DATA frame goes out: a first sending, or a resend. -/
def State.sendData (k : Nat) (f : FarFrame) (again : Bool) (miss : Nat) (s : State) : State :=
  let p := s.payloadBytes f
  let h : NgtHead :=
    { typ := 1, flags := (if again then 4 else 0) + (if f.mirror then 8 else 0), kind := f.kind, dst := f.dst
      origin := f.origin, round := f.round, stitch := f.stitch, shard := f.shard, offset := f.offset, msglen := f.msglen }
  let (s, word) := s.sendNgt k h p miss
  if s.fpState k ≠ 2 then s
  else
    let wire := s.wireBytes k p.length
    let s := s.count64 (Reg.fpTxFrames k) 1
    let s := if again then s.count (Reg.fpRetx k) 1 else s
    let s := s.modFport k fun q =>
      { q with
        sentDataAt := some s.interval
        freeAt := s.now + s.shareNs k 100 wire
        relayFreeAt := if f.relay then max q.relayFreeAt s.now + s.shareNs k (s.relayPct k) wire else q.relayFreeAt
        localFreeAt := if f.relay then q.localFreeAt else max q.localFreeAt s.now + s.shareNs k (100 - s.relayPct k) wire }
    s.noteSent k f word again

/-- A frame is within the share of its kind at an instant: relayed and served frames in the relay share, the others in the
local share (R284). -/
def FarPort.inShare (q : FarPort) (now : Nat) (f : FarFrame) : Bool :=
  decide ((if f.relay then q.relayFreeAt else q.localFreeAt) ≤ now)

/-- The payload of a frame of a port can be read: one that lies in HBM4 waits while the crossing to its stack is closed,
its hub is off, or no way leads to it (R31, R377). -/
def State.readable (s : State) (k : Nat) (f : FarFrame) : Bool :=
  match f.payload with
  | .inline _ => true
  | .hbm a n => (hubsOf a n).all fun j => s.hubServes j && s.reaches (.link k) (.hub j)

/-- The next frame of a port's queue: the first that can be read and is within its share. -/
def State.pick (s : State) (k : Nat) : Option FarFrame :=
  (s.fport k).sendQueue.find? fun f => (s.fport k).inShare s.now f && s.readable k f

/-- The frame to be sent again: the first that is due, can be read and is within its share. -/
def State.pickDue (s : State) (k : Nat) : Option FarFrame :=
  (s.fport k).unacked.find? fun f => f.due && (s.fport k).inShare s.now f && s.readable k f

/-- FRAME_TRANSMIT: a frame due to be resent goes first, else the next frame within the window. -/
def State.frameTransmit (k miss : Nat) (s : State) : State :=
  let q := s.fport k
  if !s.farLive k || s.fpState k != 2 || !s.canSeal k || decide (s.now < q.freeAt) then s
  else match s.pickDue k with
    | some f =>
      let g := { f with due := false, resent := true, sentAt := s.now, resends := f.resends + 1 }
      let s := s.modFport k fun q =>
        { q with unacked := q.unacked.map fun (x : FarFrame) => if x.stitch = f.stitch then g else x }
      s.sendData k g true miss
    | none =>
      match s.pick k with
      | none => s
      | some f =>
        if s.regBits (Reg.fpWindow k) 20 0 ≤ q.unacked.length then s
        else if 2 ^ 48 - 1 ≤ q.nextStitch then s.raise (.fp k) 4
        else
          let g := { f with stitch := q.nextStitch, sentAt := s.now }
          let s := s.modFport k fun q =>
            { q with sendQueue := q.sendQueue.erase f, unacked := q.unacked ++ [g], nextStitch := q.nextStitch + 1 }
          s.sendData k g false miss

/-! ### The module's own transfers (R283, R350) -/

/-- The frames a message is counted at, with its loss allowance (Table FEX-8). -/
def State.countedFrames (s : State) (k bytes : Nat) : Nat :=
  let n := ceilDiv bytes 8192
  n + ceilDiv (n * s.regBits (Reg.fpEnv k) 31 16) 1000000

/-- The bound of a send of counted frames on one port (Table FEX-8, R290). -/
def State.sendNs (s : State) (k frames : Nat) : Nat :=
  s.shareNs k (100 - s.relayPct k) (frames * s.wireBytes k 8192) + 6 * s.rttEnv k + 400

/-- The bound of a fetch or a transfer of bytes by a port: the request one way, the reply at the relay share of the
holder's port, which is taken to be set as this one, and eight round trips (Table FEX-8, R290). -/
def State.fetchNs (s : State) (k bytes : Nat) : Nat :=
  ceilDiv (s.rttEnv k) 2 + s.shareNs k (max 1 (s.relayPct k)) (s.countedFrames k bytes * s.wireBytes k 8192)
    + 8 * s.rttEnv k + 400

/-- Two transfers are of one member or block. -/
def Transfer.same (t u : Transfer) : Bool :=
  t.round == u.round && t.shard == u.shard && t.image == u.image && t.key == u.key

/-- A transfer in its new form. -/
def State.swapTransfer (u : Transfer) (s : State) : State :=
  { s with farTransfers := s.farTransfers.map fun x => if x.same u then u else x }

/-- The Fitter admits a transfer: while the port that its request goes out on is UP, it books that port's local share and
gives it a promise; otherwise it does so as the port comes UP (log 148). One that has its promise keeps it, and books its
new port until then. -/
def State.admitTransfer (t : Transfer) (s : State) : State :=
  if t.done || !decide (t.port < 6) || s.fpState t.port != 2 then s.swapTransfer t
  else
    let e := t.tp.getD (max s.time (s.freeAt (.farShare t.port)) + 2000 + s.fetchNs t.port t.bytes)
    (State.book e s (.farShare t.port)).swapTransfer { t with tp := some e }

/-! ### Messages to send (R257, R267) -/

/-- The frames of a message. -/
def cutMessage (f : FarFrame) : List FarFrame :=
  match f.payload with
  | .inline b => (List.range (ceilDiv b.length 8192)).map fun i =>
      { f with offset := 8192 * i, msglen := b.length, payload := .inline ((b.drop (8192 * i)).take 8192) }
  | .hbm a n => (List.range (ceilDiv n 8192)).map fun i =>
      { f with offset := 8192 * i, msglen := n, payload := .hbm (a + 8192 * i) (min 8192 (n - 8192 * i)) }

/-- Frames join the queue of a port. -/
def State.queueFar (k : Nat) (l : List FarFrame) (s : State) : State :=
  if k < 6 then s.modFport k fun q => { q with sendQueue := q.sendQueue ++ l } else s

/-- A message goes to one site. -/
def State.sendTo (f : FarFrame) (s : State) : State := s.queueFar (s.portTo f.dst) (cutMessage f)

/-- A broadcast message goes out on ports. -/
def State.sendOn (ports : List Nat) (f : FarFrame) (s : State) : State :=
  ports.foldl (fun s k => s.queueFar k (cutMessage { f with dst := 0xFF })) s

/-- A message that this gateway makes. -/
def State.ownMsg (s : State) (kind dst round shard : Nat) (body : List Byte) : FarFrame :=
  { kind := kind, mirror := false, dst := dst, origin := s.site, round := round, shard := shard, offset := 0, msglen := 0
    payload := .inline body, item := none }

/-- A broadcast of this gateway on the relay tree of its site. -/
def State.cast (kind round shard : Nat) (body : List Byte) (s : State) : State :=
  s.sendOn (s.relayPorts s.site) (s.ownMsg kind 0xFF round shard body)

/-- A message of this gateway to a site. -/
def State.tell (kind dst round shard : Nat) (body : List Byte) (s : State) : State :=
  s.sendTo (s.ownMsg kind dst round shard body)

/-! ### Delay (R260, R263, R264) -/

/-- A round-trip sample, as RFC 6298 takes it. -/
def State.rttSample (k : Nat) (r : Nat) (s : State) : State :=
  let s := s.modFport k fun q => match q.srttNs with
    | none => { q with srttNs := some r, rttvarNs := r / 2 }
    | some t => { q with srttNs := some ((7 * t + r) / 8)
                         rttvarNs := (3 * q.rttvarNs + (if t < r then r - t else t - r)) / 4 }
  let t := (s.fport k).srttNs.getD 0
  let s := s.setReg (Reg.fpRtt k) (min t 0xFFFFFFFF)
  if 40 * ms < t then
    ((s.voidItems 1 (s.itemsOn fun u => u == .farShare k)).voidTransfers 1 fun x => x.port == k).raise (.fp k) 1
  else s

/-- Eight samples off d_ref: PATH_CHANGE (R264). -/
def State.pathChange (k : Nat) (sample : Int) (s : State) : State :=
  let s := s.modFport k fun q => { q with dref := some sample, offRun := 0, pathChgDue := true }
  let s := (s.setReg (Reg.fpDref k) (twos 64 sample)).raise (.fp k) 0
  (s.count (Reg.fpPathChanges k) 1).reviewPort k

/-- A one-way sample, at most one in each 125 µs interval (R263). -/
def State.delaySample (k txtime : Nat) (s : State) : State :=
  let q := s.fport k
  if q.sampledAt = some s.interval then s
  else
    let x : Int := signed 64 (twos 64 ((s.time : Int) - (txtime : Int)))
    let s := s.modFport k fun q => { q with sampledAt := some s.interval }
    match q.dref with
    | none => (s.modFport k fun q => { q with dref := some x }).setReg (Reg.fpDref k) (twos 64 x)
    | some d =>
      let e := x - d
      if -250000 ≤ e ∧ e ≤ 250000 then
        let d' := d + e.tdiv 16
        (s.modFport k fun q => { q with dref := some d', offRun := 0 }).setReg (Reg.fpDref k) (twos 64 d')
      else
        let up := decide (0 < e)
        let run := if q.offRun ≠ 0 ∧ q.offUp = up then q.offRun + 1 else 1
        if 8 ≤ run then s.pathChange k x
        else s.modFport k fun q => { q with offRun := run, offUp := up }

end Sys2Proof.Machine
end

