-- ==== Sys2Proof/Machine/Farports.lean ====
section
/-! DEFINITION. Far ports: frames that arrive, bring-up, and the commands of the far links (R253, R258 to R267, R296,
R299, R301). -/

namespace Sys2Proof.Machine

/-! ### Bring-up (Sequence FEX-1) -/

/-- A far port is UP: its flows resume, what is unacknowledged is sent again, and the module's transfers that wait for it
are admitted (R32). -/
def State.farUp (k : Nat) (s : State) : State :=
  let s := (s.setField (Reg.fpStatus k) 5 0 2).modFport k fun q =>
    { q with since := s.now, dref := none, offRun := 0, sampledAt := none, sentDataAt := none
             unacked := q.unacked.map fun (f : FarFrame) => { f with due := true } }
  (s.farTransfers.filter fun t => t.port == k && !t.voided && !t.done).foldl
    (fun s t => s.admitTransfer t) s

/-- Step 2: PCS alignment and FEC lock within 2 s; the port begins to send PROBEs. -/
def State.farPcsLock (k : Nat) (s : State) : State :=
  if !s.farOn k || !s.wire (56 + k) .far || s.fpState k != 1 || (s.fport k).lock
      || decide ((s.fport k).since + 2 * secNs < s.now) then s
  else
    let s := s.modFport k fun q => { q with lock := true, since := s.now }
    if s.farLive k then s.sendProbe k else s

/-- No lock within 2 s, or no PROBE within 1 s of it: FAILED with cause LINK. -/
def State.farTimeout (k : Nat) (s : State) : State :=
  let q := s.fport k
  if s.farOn k && s.fpState k == 1 && decide (q.since + (if q.lock then secNs else 2 * secNs) ≤ s.now) then
    s.setField (Reg.fpStatus k) 5 0 (4 + 2 * 8)
  else s

/-- The partner is not the one expected: FAILED with cause PARTNER. -/
def State.wrongPartner (k : Nat) (s : State) : State := s.setField (Reg.fpStatus k) 5 0 (4 + 3 * 8)

/-- Step 4: the partner check on a PROBE with a good trailer. A PROBE of the other seal mode fails it where the frame
comes in. -/
def State.partnerCheck (k : Nat) (h : NgtHead) (s : State) : State :=
  let own := s.reg Reg.hifEpoch
  if h.hop = (s.fxPort k).partner ∧ h.plane = s.plane ∧ (h.epoch = own ∨ h.epoch = 0 ∨ own = 0) then s.farUp k
  else s.wrongPartner k

/-- A PROBE: in bring-up, the partner check. -/
def State.probeIn (k : Nat) (h : NgtHead) (_ : List Byte) (s : State) : State :=
  if s.fpState k = 1 then s.partnerCheck k h else s

/-- PCS lock is lost for 1 ms. -/
def State.farPcsLoss (k : Nat) (s : State) : State :=
  if s.farOn k && s.fpState k == 2 then s.farDown k 2 else s

/-- No frame for 5 ms. -/
def State.farSilence (k : Nat) (s : State) : State :=
  if decide (s.now < (s.fport k).since + 5 * ms) then s else s.farPcsLoss k

/-- A DOWN port with EN = 1 retries step 2 every 100 ms, with the module that is then in its cage (R252). -/
def State.farRetry (k : Nat) (s : State) : State :=
  if s.farOn k && s.fpState k == 3 && bitOf (s.reg (Reg.fpCtrl k)) 0
      && decide ((s.fport k).since + 100 * ms ≤ s.now) then s.farStart k
  else s

/-! ### DATA frames (R259, R262, R267, R273) -/

/-- The receive slot that a round, origin and shard name. -/
def State.recvSlot (s : State) (round origin shard : Nat) : RecvSlot :=
  (s.recvSlots.find? fun (r : RecvSlot) => r.round == round && r.origin == origin && r.shard == shard).getD
    { round := round, origin := origin, shard := shard, ranges := [], complete := false }

/-- A receive slot changes. -/
def State.putSlot (r : RecvSlot) (s : State) : State :=
  { s with recvSlots := s.recvSlots.filter (fun (x : RecvSlot) =>
      !(x.round == r.round && x.origin == r.origin && x.shard == r.shard)) ++ [r] }

/-- A message that has come in whole. -/
def State.farArrive (m : FarMsg) (s : State) : State := { s with farInbox := s.farInbox ++ [m] }

/-- The message of a frame, but for its body. -/
def msgOf (k : Nat) (h : NgtHead) : FarMsg :=
  { kind := h.kind, mirror := bitOf h.flags 3, dst := h.dst, origin := h.origin, hop := h.hop, epoch := h.epoch
    round := h.round, shard := h.shard, port := k, body := [] }

/-- A frame of a CONTRIB: written at its offset into the receive slot, if its round is accepted; a slot that is complete
takes no more. A frame that names no slot of this gateway is discarded. -/
def State.contribFrame (k : Nat) (h : NgtHead) (p : List Byte) (s : State) : State :=
  let rm := s.reg Reg.fxRound
  if h.round + 1 < rm ∨ rm + 1 < h.round then (if h.offset = 0 then s.count Reg.fxStaleDrops 1 else s)
  else match s.fxShard? h.shard with
    | none => s
    | some x =>
      let a := x.slot h.round h.origin
      if 16 ≤ h.origin ∨ h.msglen ≠ x.size ∨ x.size < h.offset + p.length ∨ !s.hubLive (hubOfHbm a) then s
      else
        let r := s.recvSlot h.round h.origin h.shard
        if r.complete then s.count Reg.fxDup 1
        else
          let l := joinRange r.ranges h.offset (h.offset + p.length)
          let done := l.any fun q => q.1 == 0 && decide (x.size ≤ q.2)
          let s := (s.writeHbm (a + h.offset) p).putSlot { r with ranges := l, complete := done }
          if done then s.farArrive (msgOf k h) else s

/-- The pieces of a message cover it. -/
def pieceRanges (l : List (Nat × List Byte)) : List (Nat × Nat) :=
  l.foldl (fun r x => joinRange r x.1 (x.1 + x.2.length)) []

/-- A frame of any other kind: collected until its message is whole. -/
def State.controlFrame (k : Nat) (h : NgtHead) (p : List Byte) (s : State) : State :=
  let m := msgOf k h
  let same (x : FarPart) : Bool := { x.head with hop := m.hop, epoch := m.epoch } == m && x.msglen == h.msglen
  let q := s.fport k
  let pieces := ((q.parts.find? same).elim [] fun (x : FarPart) => x.pieces) ++ [(h.offset, p)]
  let rest := q.parts.filter fun (x : FarPart) => !same x
  if (pieceRanges pieces).any fun r => r.1 == 0 && decide (h.msglen ≤ r.2) then
    let body := pieces.foldl (fun b x => putBytes b x.1 x.2) (zeros h.msglen)
    (s.modFport k fun q => { q with parts := rest }).farArrive { m with body := body.take h.msglen }
  else s.modFport k fun q => { q with parts := rest ++ [{ head := m, msglen := h.msglen, pieces := pieces }] }

/-- A frame for this gateway. -/
def State.ownFrame (k : Nat) (h : NgtHead) (p : List Byte) (s : State) : State :=
  if h.kind = 1 then s.contribFrame k h p else s.controlFrame k h p

/-- A frame accepted once: forwarded frame by frame on the relay tree or the route, or taken. A MIRROR copy is written to
the receiving gateway's slot and never forwarded. -/
def State.takeData (k : Nat) (h : NgtHead) (p : List Byte) (s : State) : State :=
  let f : FarFrame :=
    { kind := h.kind, mirror := bitOf h.flags 3, dst := h.dst, origin := h.origin, round := h.round, shard := h.shard
      offset := h.offset, msglen := h.msglen, payload := .inline p, item := none, relay := true }
  if f.mirror then s.ownFrame k h p
  else if h.dst = 0xFF then
    let s := ((s.relayPorts h.origin).filter (· != k)).foldl (fun s j => s.queueFar j [f]) s
    s.ownFrame k h p
  else if h.dst = s.site then s.ownFrame k h p
  else if h.dst < 16 then s.queueFar (s.portTo h.dst) [f]
  else s

/-- The next stitch number expected, once the ones received are counted off. -/
def advanceRx : Nat → Nat → List Nat → Nat × List Nat
  | 0, n, l => (n, l)
  | j + 1, n, l => if n ∈ l then advanceRx j ((n + 1) % 2 ^ 48) (l.erase n) else (n, l)

/-- A frame of a CONTRIB for this gateway whose receive slot lies behind a hub that is on, but to which a crossing or the
way from the port is closed: it cannot be written now (R31, R377). -/
def State.contribWaits (s : State) (k : Nat) (h : NgtHead) (p : List Byte) : Bool :=
  let mine := bitOf h.flags 3 || h.dst == 0xFF || h.dst == s.site
  let hubs (x : FxShard) : List Nat := hubsOf (x.slot h.round h.origin + h.offset) p.length
  h.kind == 1 && mine && (s.fxShard? h.shard).any fun x =>
    (hubs x).any fun j => s.hubLive j && !(s.hubServes j && s.reaches (.link k) (.hub j))

/-- A DATA frame: accepted once, its later copies counted in FP_DUP; an ACK goes out after every 64. One that cannot be
written now is not accepted, and its sender sends it again. -/
def State.farData (k : Nat) (h : NgtHead) (p : List Byte) (s : State) : State :=
  if s.fpState k ≠ 2 ∨ s.contribWaits k h p then s
  else
    let q := s.fport k
    let ahead := (h.stitch + 2 ^ 48 - q.rxNext) % 2 ^ 48
    let s := s.modFport k fun q => { q with lastData := some (h.txtime, s.time), dataSinceAck := q.dataSinceAck + 1 }
    let s :=
      if 2 ^ 47 ≤ ahead ∨ h.stitch ∈ q.rxSack then s.count (Reg.fpDup k) 1
      else
        let (n, l) := advanceRx (q.rxSack.length + 1) q.rxNext (q.rxSack ++ [h.stitch])
        let s := (s.modFport k fun q => { q with rxNext := n, rxSack := l }).count64 (Reg.fpRxFrames k) 1
        s.takeData k h p
    if 64 ≤ (s.fport k).dataSinceAck then s.sendFarAck k else s

/-! ### ACK frames (R260, R261) -/

/-- A contribution or a JOIN is done once all its frames are acknowledged. -/
def State.settleFar (id : Nat) (s : State) : State :=
  match s.item? id with
  | none => s
  | some it => if (dType it.desc = 0x0C ∨ dType it.desc = 0x0F) ∧ !s.itemFrames id then s.itemDone id Code.ok it.farDetail else s

/-- What an ACK says of a frame: where it lies beyond the cumulative acknowledgement, and whether it has arrived. -/
def ackedBy (cum sack stitch : Nat) : Nat × Bool :=
  let d := (stitch + 2 ^ 48 - (cum + 1) % 2 ^ 48) % 2 ^ 48
  (d, (decide (cum < 2 ^ 48 - 1) && decide (stitch ≤ cum)) || (decide (d < 256) && bitOf sack d))

/-- An ACK: the frames that have arrived are no longer kept, a round-trip sample is taken, and a frame with three later
ones received and itself missing is due to be sent again. -/
def State.farAck (k : Nat) (h : NgtHead) (p : List Byte) (s : State) : State :=
  if s.fpState k ≠ 2 then s
  else
    let sack := fld p 16 32
    let gone := (s.fport k).unacked.filter fun (f : FarFrame) => (ackedBy h.stitch sack f.stitch).2
    let s := s.modFport k fun q =>
      { q with unacked := q.unacked.filter fun (f : FarFrame) => !(ackedBy h.stitch sack f.stitch).2 }
    let s := if bitOf h.flags 4 then (s.modFport k fun q => { q with srttNs := none, rttvarNs := 0 }).setReg (Reg.fpRtt k) 0
      else s
    let s := s.rttSample k (s.time - fld p 0 8 - fld p 8 8)
    let s := if bitOf h.flags 4 then s.reviewPort k else s
    let srtt := (s.fport k).srttNs.getD 0
    let missing (f : FarFrame) : Bool :=
      let d := (ackedBy h.stitch sack f.stitch).1
      decide (3 ≤ ((setBitsOf sack 256).filter (d < ·)).length) && decide (d < 256)
        && (!f.resent || decide (f.sentAt + srtt ≤ s.now))
    let s := s.modFport k fun q =>
      { q with unacked := q.unacked.map fun (f : FarFrame) => if missing f then { f with due := true } else f }
    ((gone.filterMap fun (f : FarFrame) => f.item).dedup).foldl (fun s id => s.settleFar id) s

/-- ACK_TIMER: 50 µs after the last ACK one goes out while any frame is unacknowledged, or after 64 DATA frames. -/
def State.ackTimer (k : Nat) (s : State) : State :=
  let q := s.fport k
  if s.farLive k && s.fpState k == 2 && decide (0 < q.dataSinceAck)
      && (decide (64 ≤ q.dataSinceAck) || decide (q.ackedAt + 50000 ≤ s.now)) then s.sendFarAck k else s

/-- RESEND_TIMER: a frame whose timer has expired is due to be sent again. -/
def State.farResend (k stitch : Nat) (s : State) : State :=
  if !s.farOn k || s.fpState k != 2 then s
  else
    let t := s.rto k
    s.modFport k fun q =>
      { q with unacked := q.unacked.map fun (f : FarFrame) =>
          if f.stitch = stitch ∧ f.sentAt + t ≤ s.now then { f with due := true } else f }

/-- PROBE_INTERVAL: an interval without a DATA frame sends a PROBE; in bring-up every interval does. -/
def State.probeInterval (k : Nat) (s : State) : State :=
  if s.farLive k && (s.fpState k == 2 || (s.fpState k == 1 && (s.fport k).lock))
      && (s.fport k).sentDataAt != some s.interval then s.sendProbe k else s

/-! ### Frames that arrive (R254 to R258, R296, R299) -/

/-- A frame is discarded and counted. -/
def State.farBad (k : Nat) (s : State) : State := s.count (Reg.fpBad k) 1

/-- The length of the payload of a frame type (R257). -/
def payloadOk (typ n : Nat) : Bool :=
  if typ = 1 then decide (1 ≤ n) && decide (n ≤ 8192) else if typ = 2 then n == 48 else typ == 3 && n == 0

/-- The epoch of a frame is the module's, or one of the two exceptions that let a site join holds. -/
def State.epochOk (s : State) (h : NgtHead) : Bool :=
  let own := s.reg Reg.hifEpoch
  h.epoch == own
    || (own == 0 && (h.typ != 1 || h.kind == 8 || h.kind == 10))
    || (h.epoch == 0 && !decide (h.hop ∈ s.activeSites) && (h.typ != 1 || h.kind == 8 || h.kind == 9))

/-- The reserved bytes in a frame's part of a message body are 0 (Table FEX-3): the head of a MANIFEST, FETCH, JOIN or
SNAP_REQ, every record of a DIGEST. -/
def farBodyClean (h : NgtHead) (p : List Byte) : Bool :=
  if h.typ ≠ 1 then true
  else if h.kind = 3 ∨ h.kind = 4 then h.offset != 0 || zeroIn p 1 8
  else if h.kind = 5 then (List.range (p.length / 16)).all fun i => zeroIn p (16 * i + 4) (16 * i + 8)
  else if h.kind = 8 ∨ h.kind = 9 then h.offset != 0 || zeroIn p 1 4
  else true

/-- The checks of R258 on a frame whose trailer is good; the plane and the epoch of a PROBE in bring-up are the partner
check's. -/
def State.frameOk (s : State) (k : Nat) (h : NgtHead) (p : List Byte) : Bool :=
  (h.typ != 1 || (decide (1 ≤ h.kind) && decide (h.kind ≤ 10))) && farBodyClean h p
    && ((s.fpState k == 1 && h.typ == 3) || (h.plane == s.plane && s.epochOk h))

/-- The highest counter accepted on an ACK or PROBE under a slot rises (R296). -/
def State.noteCounter (k : Nat) (h : NgtHead) (s : State) : State :=
  if h.typ = 1 ∨ !bitOf h.flags 0 then s
  else s.modKey k (if bitOf h.flags 1 then 1 else 0) fun x => { x with rxHigh := h.counter }

/-- What a frame whose trailer is good does: it is checked, counts as accepted, gives its delay sample, and acts. -/
def State.goodFrame (k typ : Nat) (h : NgtHead) (p : List Byte) (act : NgtHead → List Byte → State → State) (s : State) :
    State :=
  if !s.frameOk k h p then s.farBad k
  else
    let s := s.noteCounter k h
    let s := if s.fpState k = 2 then s.delaySample k h.txtime else s
    if h.typ = typ then act h p s else s

/-- A sealed frame is opened under the slot that its KSLOT flag names (R299). -/
def State.openSealed (k typ : Nat) (head body tag : List Byte) (miss : Nat) (act : NgtHead → List Byte → State → State)
    (s : State) : State :=
  let h := NgtHead.parse head
  let slot := if bitOf h.flags 1 then 1 else 0
  let key := s.keySlot k slot
  let st := s.slotState k slot
  if st = 0 ∨ (st = 3 ∧ !key.windowEnd.any (s.now < ·)) then s.farBad k
  else
    let s := s.count (Reg.secMismatch k) (min miss 3)
    if 3 ≤ miss then s.cipherHalt k
    else match Crypto.gcmOpen key.key (ivOf key.rxSalt h.counter) head body tag with
      | none => s.farBad k
      | some p =>
        if h.typ ≠ 1 ∧ h.counter ≤ key.rxHigh then s.farBad k
        else
          let s := if st = 3 then s else s.switchRx k slot
          s.goodFrame k typ h p act

/-- The CRC trailer of a plain frame is good (R256). -/
def plainTrailer (head body tag : List Byte) : Bool :=
  fld tag 0 4 == Crypto.crc32 (head ++ body) && zeroIn tag 4 16

/-- The trailer of a frame of the other seal mode is good: the CRC of a plain one, the tag of a sealed one under the slot
it names. -/
def State.otherTrailer (s : State) (k : Nat) (head body tag : List Byte) : Bool :=
  let h := NgtHead.parse head
  let slot := if bitOf h.flags 1 then 1 else 0
  if bitOf h.flags 0 then
    s.slotState k slot != 0
      && (Crypto.gcmOpen (s.keySlot k slot).key (ivOf (s.keySlot k slot).rxSalt h.counter) head body tag).isSome
  else plainTrailer head body tag

/-- A frame of the other seal mode is discarded; a PROBE with a good trailer also fails the partner check of a port in
bring-up (R253; log 146). -/
def State.otherMode (k typ : Nat) (head body tag : List Byte) (s : State) : State :=
  let t := s.farBad k
  if s.fpState k = 1 ∧ typ = 3 ∧ (NgtHead.parse head).typ = 3 ∧ s.otherTrailer k head body tag then t.wrongPartner k else t

/-- An NGT frame, out of its encapsulation. -/
def State.ngtIn (k typ : Nat) (b : List Byte) (miss : Nat) (act : NgtHead → List Byte → State → State) (s : State) :
    State :=
  let head := b.take 64
  let h := NgtHead.parse head
  let body := (b.drop 64).take h.paylen
  let tag := b.drop (64 + h.paylen)
  if b.length ≠ 80 + h.paylen ∨ !payloadOk h.typ h.paylen ∨ ngtReserved head then s.farBad k
  else if bitOf h.flags 0 ≠ s.sealed k then s.otherMode k typ head body tag
  else if s.sealed k then s.openSealed k typ head body tag miss act
  else if !plainTrailer head body tag then s.farBad k
  else s.goodFrame k typ h body act

/-- A frame arrives on a far port; one of the type of the command acts. -/
def State.farFrameIn (k typ : Nat) (f : List Byte) (miss : Nat) (act : NgtHead → List Byte → State → State) (s : State) :
    State :=
  if !s.farLive k || !(s.fpState k == 2 || (s.fpState k == 1 && (s.fport k).lock)) then s
  else
    let s := if s.fpState k = 2 then s.modFport k fun q => { q with since := s.now } else s
    match s.unwrapFrame k f with
    | none => s.farBad k
    | some none => s
    | some (some b) => s.ngtIn k typ b miss act

/-! ### Commands -/

/-- FRAME_TRANSMIT (R261). -/
def execFrameTransmit (dt port mismatches : Nat) (s : State) : Host.Outcome State Fault Refusal :=
  s.finish dt ((s.advance dt).frameTransmit port mismatches)

/-- NGT_DATA_FRAME (R262). -/
def execNgtDataFrame (dt port : Nat) (frame : List Byte) (mismatches : Nat) (s : State) : Host.Outcome State Fault Refusal :=
  s.finish dt ((s.advance dt).farFrameIn port 1 frame mismatches fun h p t => t.farData port h p)

/-- NGT_ACK (R260). -/
def execNgtAck (dt port : Nat) (frame : List Byte) (mismatches : Nat) (s : State) : Host.Outcome State Fault Refusal :=
  s.finish dt ((s.advance dt).farFrameIn port 2 frame mismatches fun h p t => t.farAck port h p)

/-- PROBE (R253, R263). -/
def execProbe (dt port : Nat) (frame : List Byte) (mismatches : Nat) (s : State) : Host.Outcome State Fault Refusal :=
  s.finish dt ((s.advance dt).farFrameIn port 3 frame mismatches fun h p t => t.probeIn port h p)

/-- ACK_TIMER (R260). -/
def execAckTimer (dt port : Nat) (s : State) : Host.Outcome State Fault Refusal :=
  s.finish dt ((s.advance dt).ackTimer port)

/-- RESEND_TIMER (R261). -/
def execResendTimer (dt port stitch : Nat) (s : State) : Host.Outcome State Fault Refusal :=
  s.finish dt ((s.advance dt).farResend port stitch)

/-- PROBE_INTERVAL (R263). -/
def execProbeInterval (dt port : Nat) (s : State) : Host.Outcome State Fault Refusal :=
  s.finish dt ((s.advance dt).probeInterval port)

/-- OVERLAP_WINDOW_END (R299): a DRAINING slot whose window has ended is zeroised. -/
def execOverlapWindowEnd (dt port slot : Nat) (s : State) : Host.Outcome State Fault Refusal :=
  let t := s.advance dt
  s.finish dt (if decide (port < 6) && decide (slot < 2) && t.slotState port slot == 3
      && (t.keySlot port slot).windowEnd.all (· ≤ t.now) then t.zeroise port slot else t)

/-- FAR_PCS_LOCK (R253). -/
def execFarPcsLock (dt port : Nat) (s : State) : Host.Outcome State Fault Refusal :=
  s.finish dt ((s.advance dt).farPcsLock port)

/-- FAR_TRAINING_TIMEOUT (R253). -/
def execFarTrainingTimeout (dt port : Nat) (s : State) : Host.Outcome State Fault Refusal :=
  s.finish dt ((s.advance dt).farTimeout port)

/-- FAR_PCS_LOSS (R253). -/
def execFarPcsLoss (dt port : Nat) (s : State) : Host.Outcome State Fault Refusal :=
  s.finish dt ((s.advance dt).farPcsLoss port)

/-- FAR_FRAME_SILENCE (R253). -/
def execFarFrameSilence (dt port : Nat) (s : State) : Host.Outcome State Fault Refusal :=
  s.finish dt ((s.advance dt).farSilence port)

/-- FAR_RETRY_TIMER (R253). -/
def execFarRetryTimer (dt port : Nat) (s : State) : Host.Outcome State Fault Refusal :=
  s.finish dt ((s.advance dt).farRetry port)

/-- FP_RETRAIN (R285): a BAR0 write of FP_CTRL with RETRAIN set and its other fields as they are. -/
def execFpRetrain (dt port : Nat) (s : State) : Host.Outcome State Fault Refusal :=
  let t := s.advance dt
  s.finish dt (if port < 6 then
    State.barWith (fun _ old new v s => s.regEffect false (Reg.fpCtrl port) old new v) (Reg.fpCtrl port) false
      (t.reg (Reg.fpCtrl port) % 2 ^ 15 + 2 ^ 15) t else t)

end Sys2Proof.Machine
end

