-- ==== Sys2Proof/Machine/Exchange.lean ====
section
/-! DEFINITION. The outer exchange: contributions and the Skiver, holdings, manifests, fetches, the merge, anchor digests,
joining (R269 to R283). -/

namespace Sys2Proof.Machine

/-! ### What a gateway knows of a round and shard -/

/-- An event of FX_EVENTS: its records name the plane. -/
def State.fxEvent (bit : Nat) (s : State) : State := s.raiseAt .fx bit 56 s.plane

/-- The gateway works: PD92 is up and the exchange table is there. -/
def State.gateway (s : State) : Bool := s.live 92 && s.fxFld 0 4 == 0x5845474E

/-- A round is one of those that a gateway accepts (R273). -/
def State.roundOk (s : State) (round : Nat) : Bool :=
  decide (s.reg Reg.fxRound ≤ round + 1) && decide (round ≤ s.reg Reg.fxRound + 1)

/-- A round is not so old that what is known of it is gone. -/
def State.notPast (s : State) (round : Nat) : Bool := decide (s.reg Reg.fxRound ≤ round + 1)

/-- The contribution of an origin is held here. -/
def State.memberHeld (s : State) (round origin shard : Nat) : Bool :=
  (origin == s.site && (s.exch round shard).ownHeld) || (s.recvSlot round origin shard).held

/-- The origins held here for a round. -/
def State.heldMask (s : State) (round shard : Nat) : Nat :=
  maskOf ((List.range 16).filter fun o => s.memberHeld round o shard)

/-- Where the image of a member lies: the own one at the send address. -/
def State.memberAt (s : State) (x : FxShard) (round origin : Nat) : Nat :=
  if origin == s.site && (s.exch round x.shard).ownHeld then x.send else x.slot round origin

/-- The first message of a kind that can be processed now, taken out of those that have come in. -/
def State.takeFar (kind : Nat) (ok : FarMsg → Bool) (s : State) : Option (FarMsg × State) :=
  if !s.gateway then none
  else match s.farInbox.find? fun (m : FarMsg) => m.kind == kind && ok m with
    | none => none
    | some m => some (m, { s with farInbox := s.farInbox.erase m })

/-! ### Factor images (R269, R270, R279) -/

/-- An element of a factor: of P, or of Q̂. -/
def FxShard.factor (x : FxShard) (img : List Byte) (second : Bool) (i c : Nat) : Num :=
  let o := x.planes.1
  let p := o.getD (if second then 2 else 0) 0
  let sc := o.getD (if second then 3 else 1) 0
  b8Value (fld img (p + i * x.qp + c) 1) (fld img (sc + i * (x.qp / 32) + c / 32) 1)

/-- d: the exact expansion of an element of an image. -/
def FxShard.expand (x : FxShard) (img : List Byte) (i j : Nat) : Num :=
  if x.rank = 0 then b8Value (fld img j 1) (fld img (x.planes.1.getD 1 0 + j / 32) 1)
  else (List.range x.qp).foldl (fun t c => t.add ((x.factor img false i c).mul (x.factor img true j c))) (.fin false 0 0)

/-! ### The power iteration (R269) -/

/-- A binary32 word as a G16 operand (R46). -/
def g16Of (w : Word) : Num := Machine.g16.read (Machine.g16.write none (ofBits w))

/-- An element of a product of G16 operands: summed exactly, drained to binary32. -/
def dotG (a b : List Word) : Word :=
  toBits ((a.zip b).foldl (fun t x => t.add ((g16Of x.1).mul (g16Of x.2))) (.fin false 0 0))

/-- The product of a matrix, by its rows, with one given by its columns: by its columns. -/
def productG (rows cols : List (List Word)) : List (List Word) := cols.map fun c => rows.map fun r => dotG r c

/-- The dot product of two columns in binary32, element by element (log 10). -/
def dotF (a b : List Word) : Word := (a.zip b).foldl (fun t x => ffma x.1 x.2 t) 0

/-- A column less its part along another. -/
def lessPart (c b : List Word) : List Word :=
  let d := dotF b c
  (c.zip b).map fun x => fsub x.1 (fmul d x.2)

/-- A column over its norm; one whose norm is 0 stays 0. -/
def unitColumn (c : List Word) : List Word :=
  let norm := fsqrt (dotF c c)
  if (ofBits norm).isZero then c.map fun _ => 0 else c.map fun x => fdiv x norm

/-- Modified Gram-Schmidt on columns, in binary32. -/
def mgs (cols : List (List Word)) : List (List Word) :=
  cols.foldl (fun done c => done ++ [unitColumn (done.foldl lessPart c)]) []

/-- A count of power iterations on a matrix, given by its rows and by its columns: P and Qw, by their columns. -/
def powerIter (rows cols : List (List Word)) : Nat → List (List Word) → List (List Word) × List (List Word)
  | 0, q => ([], q)
  | t + 1, q =>
    let p := mgs (productG rows q)
    let q := productG cols p
    if t = 0 then (p, q) else powerIter rows cols t q

/-- The columns of the seed: RAND under the shard's stream, an i32 times 2^−31 (Table AWL-5). -/
def State.seedQ (s : State) (x : FxShard) : List (List Word) :=
  (List.range x.rank).map fun k => (List.range x.cols).map fun j =>
    let v := (drawWord (s.reg Reg.hifSeed) (s.reg Reg.cobStep) x.stream (j * x.rank + k) >>> 32).toNat
    let i := signed 32 v
    toBits (.fin (decide (i < 0)) i.natAbs (-31))

/-- The columns of the Q̂ that the feedback image holds. -/
def State.warmQ (s : State) (x : FxShard) : List (List Word) :=
  let pay := s.readHbm x.qhatAt.1 (x.cols * x.qp)
  let sc := s.readHbm x.qhatAt.2 (x.cols * (x.qp / 32))
  (List.range x.rank).map fun k => (List.range x.cols).map fun j =>
    toBits (b8Value (fld pay (j * x.qp + k) 1) (fld sc (j * (x.qp / 32) + k / 32) 1))

/-- The feedback image of a shard stands; a site that joins, or whose image is lost, has none (R271). -/
def State.hasFeedback (s : State) (x : FxShard) : Bool := decide (x.feedback ∈ s.feedbacks)

/-- The error feedback of a shard: 0 where no image stands. -/
def State.feedbackOf (s : State) (x : FxShard) : List Word :=
  let b := s.readHbm x.feedback (4 * x.elems)
  if s.hasFeedback x then (List.range x.elems).map fun i => BitVec.ofNat 32 (fld b (4 * i) 4)
  else List.replicate x.elems 0

/-- The payload and scales of a factor given by its columns, of a count of rows: B8 in blocks of 32 along the rank. -/
def FxShard.factorPlanes (x : FxShard) (n : Nat) (cols : List (List Word)) : List Byte × List Byte :=
  let at_ (i c : Nat) : Num := if c < x.rank then ofBits ((cols.getD c []).getD i 0) else .fin false 0 0
  let rows := (List.range n).map fun i => encodeRow true ((List.range x.qp).map (at_ i)) fun _ => none
  (rows.flatMap (·.1), rows.flatMap fun r => r.2.1)

/-- The factor image of a compensated delta. -/
def State.formImage (s : State) (x : FxShard) (mm : List Word) : List Byte :=
  if x.rank = 0 then
    let (p, sc, _) := encodeRow true (mm.map ofBits) fun _ => none
    p ++ sc
  else
    let rows := (List.range x.rows).map fun i => (mm.drop (i * x.cols)).take x.cols
    let cols := (List.range x.cols).map fun j => rows.map fun r => r.getD j 0
    let (pc, qc) := powerIter rows cols (s.fxFld 15 1) (if s.hasFeedback x then s.warmQ x else s.seedQ x)
    let (p, ps) := x.factorPlanes x.rows pc
    let (q, qs) := x.factorPlanes x.cols qc
    let o := x.planes.1
    padTo x.size (putBytes (putBytes (putBytes (putBytes (zeros x.size) (o.getD 0 0) p) (o.getD 1 0) ps) (o.getD 2 0) q)
      (o.getD 3 0) qs)

/-- The feedback image (R271): the e plane, and for a matrix the planes of Q̂, each from a 4 KiB boundary. -/
def State.putFeedback (x : FxShard) (e : List Word) (img : List Byte) (s : State) : State :=
  let s := s.writeHbm x.feedback (wordBytes e)
  let s := { s with feedbacks := addTo s.feedbacks x.feedback }
  if x.rank = 0 then s
  else
    let o := x.planes.1
    let s := s.writeHbm x.qhatAt.1 ((img.drop (o.getD 2 0)).take (x.cols * x.qp))
    s.writeHbm x.qhatAt.2 ((img.drop (o.getD 3 0)).take (x.cols * (x.qp / 32)))

/-- Binary32 words of HBM. -/
def State.hbmWords (s : State) (a n : Nat) : List Word :=
  let b := s.readHbm a (4 * n)
  (List.range n).map fun i => BitVec.ofNat 32 (fld b (4 * i) 4)

/-! ### CONTRIB (R269, R272, R283) -/

/-- The counters of a sealed port cover frames and their two retransmission rounds, or the other slot is STANDBY (R295). -/
def State.countersCover (s : State) (k frames : Nat) : Bool :=
  !s.sealed k || s.slotState k (1 - s.txSlot k) == 1
    || decide (s.reg (txctr k (s.txSlot k)) + 3 * frames ≤ 2 ^ 63)

/-- The dies whose programs thin a shard and that hold one (log 10); a vector shard is not thinned (R269). -/
def State.thinningDies (s : State) (x : FxShard) : List Nat :=
  if x.rank = 0 then [] else (setBitsOf (Config.thinningDies x.shard) 48).filter fun n => s.prgState n != 0

/-- The checks of CONTRIB. A mirror that goes out on a port of the relay mask counts its frames on that port too. -/
def contribCheck : ItemCheck := fun s d =>
  if !zeroIn d 40 96 then .error { code := Code.malformed }
  else match s.fxShard? (fld d 36 4) with
    | none => .error { code := Code.lengthBound }
    | some x =>
      let sends := s.contribSends.map fun p => (p.1, p.2 * s.countedFrames p.1 x.size)
      let dies := s.thinningDies x
      if let some n := s.openDie dies then .error { code := Code.rollfwdDue, die := n }
      else if sends.any fun p => !s.countersCover p.1 p.2 then .error { code := Code.keyExhausted }
      else
        let skiver := ceilDiv (x.elems * s.tau s.slowLink) 3200000
        .ok { units := sends.map fun p => .farShare p.1, hbm := true, linkDies := max 1 sends.length
              tokenDies := s.linkDiesOn ++ dies, powerDies := dies, gov := (s.slowest (s.slowLink :: dies)).1
              domains := ([x.delta, x.feedback, x.send].map hubOfHbm).dedup.flatMap fun j => [pdHub j, pdPhy j]
              fixedNs := 2000 + maxOf (dies.map fun n => s.gangBound (s.tau n) n) + skiver
                + maxOf (sends.map fun p => s.sendNs p.1 p.2) }

/-- A contribution of this site's has come to be held; one that neither its own round's manifest nor the next one's late
mask took is dropped (R276). -/
def State.noteLate (round origin shard : Nat) (s : State) : State :=
  match (s.exch round shard).manifest, (s.exch (round + 1) shard).manifest with
  | some (m, _, _, _), some (_, l, _, _) => if bitOf m origin || bitOf l origin then s else s.fxEvent 6
  | _, _ => s

/-- A contribution is formed and sent; one whose compensated delta is not finite is withheld, with e = 0. -/
def contribStart : ItemStart := fun it s =>
  let round := fld it.desc 32 4
  match s.fxShard? (fld it.desc 36 4) with
  | none => s
  | some x =>
    if s.exportHeld it.id x.feedback x.feedbackLen then s.unstart it.id
    else
    let s := s.modExch round x.shard fun e => { e with roundStart := e.roundStart.or (some s.now) }
    let mm := ((s.hbmWords x.delta x.elems).zip (s.feedbackOf x)).map fun p => fadd p.1 p.2
    if mm.any fun w => !(ofBits w).isFin then
      ((s.writeHbm x.feedback (zeros (4 * x.elems))).fxEvent 9).itemDone it.id Code.ok it.farDetail
    else
      let img := s.formImage x mm
      let e := mm.mapIdx fun k w => toBits ((ofBits w).add (x.expand img (k / x.cols) (k % x.cols)).neg)
      let s := (s.putFeedback x e img).writeHbm x.send img
      let s := (s.modExch round x.shard fun e => { e with ownHeld := true }).noteLate round s.site x.shard
      let f : FarFrame :=
        { kind := 1, mirror := false, dst := 0xFF, origin := s.site, round := round, shard := x.shard, offset := 0
          msglen := 0, payload := .hbm x.send x.size, item := some it.id }
      let s := s.sendOn (s.relayPorts s.site) f
      let b := s.backup s.site
      let s := if b < 16 then s.sendTo { f with mirror := true, dst := b } else s
      s.settleFar it.id

/-! ### The module's own transfers (R283, R350) -/

/-- A fetch of a member or a transfer of a block begins, unless it is under way (log 148). -/
def State.beginTransfer (t : Transfer) (s : State) : State :=
  if s.farTransfers.any t.same then s
  else { s with farTransfers := s.farTransfers ++ [t] }.admitTransfer t

/-- Its bytes have come: it failed if its promise had passed. -/
def State.endTransfer (image shard key : Nat) (s : State) : State :=
  { s with farTransfers := s.farTransfers.map fun t =>
      if t.image = image ∧ t.shard = shard ∧ t.key = key ∧ !t.done
      then { t with done := true, failed := t.tp.any (· < s.time) } else t }

/-- The record of a MERGE or SNAP_FETCH reports the voids and failures of the transfers of its round and shard. -/
def State.reportTransfers (id round shard : Nat) (s : State) : State :=
  let mine := s.farTransfers.filter fun t => t.round == round && t.shard == shard
  let failed := mine.any fun t => t.failed || (!t.done && t.tp.any (· < s.time))
  let s := { s with farTransfers := s.farTransfers.filter fun t => !(t.round == round && t.shard == shard && t.done) }
  s.modItem id fun i =>
    { i with voided := i.voided || mine.any (·.voided)
             code := if failed && i.code == Code.ok then Code.fetchFailed else i.code }

/-! ### Contributions that arrive (R262, R273) -/

/-- The named scale bytes of an image hold 0xFF: it is malformed. -/
def FxShard.malformed (x : FxShard) (img : List Byte) : Bool :=
  let o := x.planes.1
  let bad (a n : Nat) : Bool := ((img.drop a).take n).any (· == 0xFF)
  if x.rank = 0 then bad (o.getD 1 0) ((x.cols + 31) / 32)
  else bad (o.getD 1 0) (x.rows * (x.qp / 32)) || bad (o.getD 3 0) (x.cols * (x.qp / 32))

/-- CONTRIB_MSG: a complete contribution is held; a malformed one is cleared out of its slot. -/
def State.contribMsg (s : State) : State :=
  match s.takeFar 1 fun _ => true with
  | none => s
  | some (m, s) =>
    let r := s.recvSlot m.round m.origin m.shard
    match s.fxShard? m.shard with
    | none => s
    | some x =>
      if !r.complete || !s.roundOk m.round then s
      else if x.malformed (s.readHbm (x.slot m.round m.origin) x.size) then
        s.putSlot { r with ranges := [], complete := false }
      else
        let s := (s.putSlot { r with held := true }).modExch m.round m.shard fun e =>
          { e with fetches := e.fetches.filter (·.1 != m.origin) }
        (s.endTransfer m.round m.shard m.origin).noteLate m.round m.origin m.shard

/-! ### Holdings (R275) -/

/-- The records of a HOLD for a round: every shard whose manifest has not come. -/
def State.holdRecords (s : State) (round : Nat) : List (List Byte) :=
  (s.fxShards.filter fun x => (s.exch round x.shard).manifest.isNone).map fun x =>
    leBytes 4 x.shard ++ leBytes 2 (s.heldMask round x.shard)
      ++ leBytes 2 (if round = 0 then 0 else s.heldMask (round - 1) x.shard)

/-- Records cut into bodies of at most 1,024. -/
def bodiesOf : Nat → List (List Byte) → List (List Byte)
  | 0, _ => []
  | n + 1, l => if l.isEmpty then [] else (l.take 1024).flatten :: bodiesOf n (l.drop 1024)

/-- The part of a record that tells holdings has changed since the body of an earlier HOLD, in which a shard without a
record had none. -/
def holdChanged (last : List Byte) (r : List Byte) : Bool :=
  let old := (entriesOf 8 last).find? fun q => fld q 0 4 == fld r 0 4
  match old with
  | some q => q != r
  | none => !zeroIn r 4 8

/-- HOLD_SEND: at most once per millisecond the changed holdings go to the coordinator. -/
def State.holdSend (round : Nat) (s : State) : State :=
  let rs := s.holdRecords round
  let last := s.lastHold.find? (·.1 == round)
  let fresh := match last with
    | some (_, t, b) => rs.any (holdChanged b) && decide (t + ms ≤ s.now)
    | none => rs.any fun r => !zeroIn r 4 8
  if !s.gateway || !s.notPast round || s.rotation round == s.site || rs.isEmpty || !fresh then s
  else
    let s := { s with lastHold := (round, s.now, rs.flatten) :: s.lastHold.filter fun x => x.1 != round && s.notPast x.1 }
    (bodiesOf rs.length rs).foldl (fun s b => s.tell 2 (s.rotation round) round 0 b) s

/-- HOLD: the coordinator takes a site's holdings. -/
def State.holdIn (s : State) : State :=
  match s.takeFar 2 fun _ => true with
  | none => s
  | some (m, s) =>
    if !s.notPast m.round then s
    else (List.range (m.body.length / 8)).foldl (fun s i =>
      let r := (m.body.drop (8 * i)).take 8
      if (s.fxShard? (fld r 0 4)).isNone then s
      else s.modExch m.round (fld r 0 4) fun e =>
        { e with holds := (m.origin, fld r 4 2, fld r 6 2) :: e.holds.filter (·.1 != m.origin) }) s

/-! ### Manifests (R276 to R278) -/

/-- The sites that report a copy of a member: this gateway, and those whose HOLDs are counted. -/
def State.reporters (s : State) (e : Exchange) (late : Bool) (o : Nat) : List Nat :=
  let own := if late then decide (0 < e.round) && s.memberHeld (e.round - 1) o e.shard else s.memberHeld e.round o e.shard
  (List.range 16).filter fun site => (site == s.site && own)
    || e.holds.any fun h => h.1 == site && bitOf (if late then h.2.2 else h.2.1) o

/-- The holder named for a member out of those that report it. -/
def State.holderOf (s : State) (o : Nat) (l : List Nat) : Nat :=
  if s.backup o ∈ l then s.backup o else if o ∈ l then o else l.headD 0

/-- The manifest record of a round and shard: masks and holders. -/
def State.formManifest (s : State) (e : Exchange) : Nat × Nat × List Nat :=
  let sites := s.activeSites
  let ontime := sites.filter fun o => (s.reporters e false o) != []
  let before := if e.round = 0 then none else (s.exch (e.round - 1) e.shard).manifest
  let late := match before with
    | some (m, _, _, _) =>
      if bitOf (s.reg Reg.fxCtrl) 1 then []
      else sites.filter fun o => !bitOf m o && (s.reporters e true o) != []
    | none => []
  let holder (o : Nat) : Nat :=
    if o ∈ ontime then s.holderOf o (s.reporters e false o)
    else if o ∈ late then s.holderOf o (s.reporters e true o) else 0
  (maskOf ontime, maskOf late, (List.range 16).map holder)

/-- The 16 bytes of a manifest record. -/
def manifestBytes (shard ontime late : Nat) (holders : List Nat) : List Byte :=
  leBytes 4 shard ++ leBytes 2 ontime ++ leBytes 2 late
    ++ leBytes 8 (holders.zipIdx.foldl (fun a (x : Nat × Nat) => a + x.1 % 16 * 16 ^ x.2) 0)

/-- The members of a manifest in canonical order: round and origin, late ones first. -/
def membersOf (round ontime late : Nat) : List (Nat × Nat) :=
  ((setBitsOf late 16).map fun o => (round - 1, o)) ++ (setBitsOf ontime 16).map fun o => (round, o)

/-- The sites that a FETCH goes to, in their cycle: the named holder, the origin, the origin's backup. -/
def State.fetchCycle (s : State) (holder origin : Nat) : List Nat :=
  [holder, origin, s.backup origin].filter fun d => d != s.site && decide (d < 16)

/-- The first FETCH of a member begins its transfer. -/
def State.beginFetch (merge holder round shard origin : Nat) (s : State) : State :=
  match s.fxShard? shard, (s.fetchCycle holder origin).head? with
  | some x, some d =>
    s.beginTransfer { round := merge, shard := shard, image := round, key := origin, port := s.portTo d, bytes := x.size
                      hub := hubOfHbm (x.slot round origin), tp := none }
  | _, _ => s

/-- The next FETCH of a member goes out; its transfer is booked on the port that this one takes (R32). -/
def State.sendFetch (holder round shard origin : Nat) (s : State) : State :=
  let n := (((s.exch round shard).fetches.find? (·.1 == origin)).map fun f => f.2.1).getD 0
  let cyc := s.fetchCycle holder origin
  let s := s.modExch round shard fun e => { e with fetches := (origin, n + 1, s.now) :: e.fetches.filter (·.1 != origin) }
  match cyc[n % max 1 cyc.length]? with
  | some d =>
    let k := s.portTo d
    let moved := s.farTransfers.filter fun t =>
      t.image == round && t.shard == shard && t.key == origin && !t.done && t.port != k
    let s := moved.foldl (fun s t => s.admitTransfer { t with port := k }) s
    s.tell 4 d round shard (leBytes 1 origin ++ zeros 7)
  | none => s

/-- The origins whose held contributions of a round neither its manifest nor the late mask of the next one takes, once both
are applied (R276). -/
def State.droppedOf (s : State) (round shard : Nat) : List Nat :=
  match (s.exch round shard).manifest, (s.exch (round + 1) shard).manifest with
  | some (m, _, _, _), some (_, l, _, _) =>
    (setBitsOf (s.heldMask round shard) 16).filter fun o => !bitOf m o && !bitOf l o
  | _, _ => []

/-- The first manifest of a round and shard is applied: its credits and drops are reported, and a fetch runs for every
member that is not held. -/
def State.applyManifest (round shard ontime late rank : Nat) (holders : List Nat) (s : State) : State :=
  let s := s.modExch round shard fun e => { e with manifest := some (ontime, late, holders, rank) }
  let s := (setBitsOf late 16).foldl (fun s _ => s.fxEvent 5) s
  let dropped := (if round = 0 then [] else s.droppedOf (round - 1) shard) ++ s.droppedOf round shard
  let s := dropped.foldl (fun s _ => s.fxEvent 6) s
  (membersOf round ontime late).foldl (fun s m =>
    let h := holders.getD m.2 0
    if s.memberHeld m.1 m.2 shard then s else (s.beginFetch round h m.1 shard m.2).sendFetch h m.1 shard m.2) s

/-- This gateway forms a manifest, broadcasts it with a rank, and applies it. -/
def State.makeManifest (e : Exchange) (rank : Nat) (s : State) : State :=
  let (a, b, h) := s.formManifest e
  let s := s.cast 3 e.round 0 (leBytes 1 rank ++ zeros 7 ++ manifestBytes e.shard a b h)
  s.applyManifest e.round e.shard a b rank h

/-- The instant of a round start has lain back a number of microseconds. -/
def Exchange.past (e : Exchange) (now us : Nat) : Bool := e.roundStart.any fun t => decide (t + us * 1000 ≤ now)

/-- MANIFEST_CUTOFF: the coordinating gateway forms the manifest from its own holdings and the HOLDs that have come. -/
def State.manifestCutoff (round shard : Nat) (s : State) : State :=
  let e := s.exch round shard
  if s.gateway && (s.fxShard? shard).isSome && s.notPast round && s.rotation round == s.site && e.manifest.isNone
      && e.past s.now (s.regBits Reg.fxCutoff 23 0) then s.makeManifest e 0 else s

/-- MANIFEST_TAKEOVER: without a manifest one FX_MWAIT after the cutoff, the next site of the rotation forms one of rank 1
from its own holdings; after a second, the site after that one of rank 2. -/
def State.takeover (round shard : Nat) (s : State) : State :=
  let e := s.exch round shard
  let cut := s.regBits Reg.fxCutoff 23 0
  let wait := s.regBits Reg.fxMwait 23 0
  let rank := if s.rotation (round + 1) = s.site ∧ e.past s.now (cut + wait) then 1
    else if s.rotation (round + 2) = s.site ∧ e.past s.now (cut + 2 * wait) then 2 else 0
  if s.gateway && (s.fxShard? shard).isSome && s.notPast round && e.manifest.isNone && rank != 0 then
    (s.makeManifest { e with holds := [] } rank).fxEvent 0
  else s

/-- A record of a MANIFEST: the first of its round and shard is applied, whatever the round; a differing one is discarded.
Of a round whose merges are all applied the first has been. -/
def State.manifestRecord (round rank : Nat) (r : List Byte) (s : State) : State :=
  let shard := fld r 0 4
  let holders := (List.range 16).map fun o => bitsOf (fld r 8 8) (4 * o + 3) (4 * o)
  if (s.fxShard? shard).isNone then s
  else match (s.exch round shard).manifest with
    | none => if round < s.reg Reg.fxRound then s else s.applyManifest round shard (fld r 4 2) (fld r 6 2) rank holders
    | some (a, b, h, _) => if manifestBytes shard a b h = r then s else s.fxEvent 1

/-- MANIFEST. -/
def State.manifestIn (s : State) : State :=
  match s.takeFar 3 fun _ => true with
  | none => s
  | some (m, s) =>
    (List.range ((m.body.length - 8) / 16)).foldl (fun s i =>
      s.manifestRecord m.round (fld m.body 0 1) ((m.body.drop (8 + 16 * i)).take 16)) s

/-- FETCH: a holder answers with the contribution, addressed to the requester. -/
def State.fetchIn (s : State) : State :=
  match s.takeFar 4 fun _ => true with
  | none => s
  | some (m, s) =>
    let o := fld m.body 0 1
    match s.fxShard? m.shard with
    | none => s
    | some x =>
      if !s.memberHeld m.round o m.shard then s
      else s.sendTo { kind := 1, mirror := false, dst := m.origin, origin := o, round := m.round, shard := m.shard
                      offset := 0, msglen := 0, payload := .hbm (s.memberAt x m.round o) x.size, item := none, relay := true }

/-- The holder that a manifest names for a member. -/
def State.namedHolder (s : State) (round shard origin : Nat) : Nat :=
  match (s.exch round shard).manifest, (s.exch (round + 1) shard).manifest with
  | some (a, _, h, _), other => if bitOf a origin then h.getD origin 0 else (other.map fun m => m.2.2.1.getD origin 0).getD 0
  | none, some (_, _, h, _) => h.getD origin 0
  | none, none => 0

/-- FETCH_RETRY: a member that has not come within twice RTT_ENV of the port is asked for again, at the next site of the
cycle; after eight FETCHes FETCH_STALL is set and the gateway goes on. -/
def State.fetchRetry (round shard origin : Nat) (s : State) : State :=
  match (s.exch round shard).fetches.find? (·.1 == origin) with
  | none => s
  | some (_, n, t) =>
    let holder := s.namedHolder round shard origin
    let cyc := s.fetchCycle holder origin
    let k := s.portTo (cyc.getD ((n - 1) % max 1 cyc.length) 0)
    if !s.gateway || s.memberHeld round origin shard || decide (s.now < t + 2 * s.rttEnv (min k 5)) then s
    else
      let s := if n = 8 then s.fxEvent 2 else s
      s.sendFetch holder round shard origin

/-! ### The merge (R185, R279) -/

/-- The weight of a member. -/
def State.memberWeight (s : State) (om : Word) (round : Nat) (m : Nat × Nat) : Word :=
  let w := fdiv (s.siteWeight m.2) om
  if m.1 = round then w else fmul (BitVec.ofNat 32 (s.reg Reg.fxStale)) w

/-- The merged delta. -/
def State.mergedDelta (s : State) (x : FxShard) (round ontime late : Nat) : List Word :=
  if ontime = 0 then List.replicate x.elems 0
  else
    let om := toBits ((setBitsOf ontime 16).foldl (fun t o => t.add (ofBits (s.siteWeight o))) (.fin false 0 0))
    let ms := (membersOf round ontime late).map fun m =>
      (ofBits (s.memberWeight om round m), s.readHbm (s.memberAt x m.1 m.2) x.size)
    (List.range x.elems).map fun k =>
      toBits (ms.foldl (fun t m => t.add (m.1.mul (x.expand m.2 (k / x.cols) (k % x.cols)))) (.fin false 0 0))

/-- The outer optimiser on one element: momentum, anchor and paring. -/
def outerStep (h : Hyper) (u : Word) (a : Word × Byte) (delta : Word) : Word × (Word × Byte) :=
  let u := ffma h.b1 u delta
  let d := if h.nesterov then ffma h.b1 u delta else u
  (u, masterLess a.1 a.2 (fmul h.lrmul d))

/-- The outer optimiser on the elements of a shard from one on, by the Cobbler of a die: a momentum or an anchor that is
not finite is reported (Table COB-9). -/
def State.outerFrom (n lo : Nat) (x : FxShard) (delta : List Word) (s : State) : State :=
  let h := s.hyperAt x.ohyper
  let ap := x.anchor + to64 (4 * x.elems)
  let c := x.elems - lo
  let an := (s.hbmWords (x.anchor + 4 * lo) c).zip (s.readHbm (ap + lo) c)
  let new := (((s.hbmWords (x.mom + 4 * lo) c).zip an).zip (delta.drop lo)).map fun t => outerStep h t.1.1 t.1.2 t.2
  let s := s.writeHbm (x.mom + 4 * lo) (wordBytes (new.map (·.1)))
  let s := s.writeHbm (x.anchor + 4 * lo) (wordBytes (new.map fun t => t.2.1))
  let s := s.writeHbm (ap + lo) (new.map fun t => t.2.2)
  if new.any fun t => !(ofBits t.1).isFin || !(ofBits t.2.1).isFin then s.raise (.cob n) 3 else s

/-- The anchor payload of a shard, padded to whole blocks. -/
def State.anchorPayload (s : State) (x : FxShard) : List Byte :=
  let n := x.elems
  padTo (to4k x.anchorLen) (padTo (to64 (4 * n)) (s.readHbm x.anchor (4 * n)) ++ s.readHbm (x.anchor + to64 (4 * n)) n)

/-- The die whose Cobbler applies a shard's outer optimiser (log 27). -/
def outerDieOf (x : FxShard) : Nat := 6 * hubOfHbm x.anchor + Config.outerDie x.shard % 6

/-- The address of a shard's record in the exchange table. -/
def State.shardAddr (s : State) (x : FxShard) : Nat :=
  s.fxBase + 1024 + 128 * ((s.fxShards.findIdx? (·.shard == x.shard)).getD 0)

/-- The merge leaves a CLOSED header of kind OUTER with its one record DONE in the die's journal, unless a run of the die
has it (log 27). -/
def State.outerJournal (n : Nat) (x : FxShard) (s : State) : State :=
  if (s.die n).cob.isSome ∨ s.rollfwdDue n then s
  else
    let groups := ceilDiv x.elems 1024
    let s := s.openHeader n 2 (s.reg Reg.cobStep) 0 one32 [s.shardAddr x]
    let s := (s.jset n 0 12 4 groups).jset n 0 8 4 groups
    (s.recordDone n 0).closeHeader n

/-- The lowest round whose merge is not applied rises past every round that all the shards have merged; older slots are
freed. -/
def State.roundMergedGo : Nat → State → State
  | 0, s => s
  | n + 1, s =>
    let r := s.reg Reg.fxRound
    if s.fxShards.all fun x => (s.exch r x.shard).merged then
      let s := s.setReg Reg.fxRound ((r + 1) % 2 ^ 32)
      State.roundMergedGo n { s with
        recvSlots := s.recvSlots.filter fun (x : RecvSlot) => decide (r ≤ x.round)
        exchanges := s.exchanges.filter fun (e : Exchange) => decide (r ≤ e.round + 2) }
    else s

/-- A shard is merged. -/
def State.roundMerged (s : State) : State := State.roundMergedGo (s.exchanges.length + 1) s

/-- The checks of MERGE: the manifest is there and every member held. -/
def mergeCheck : ItemCheck := fun s d =>
  let round := fld d 32 4
  if !zeroIn d 40 96 then .error { code := Code.malformed }
  else match s.fxShard? (fld d 36 4) with
    | none => .error { code := Code.lengthBound }
    | some x =>
      let e := s.exch round x.shard
      let n := outerDieOf x
      if s.rollfwdDue n then .error { code := Code.rollfwdDue, die := n }
      else match e.manifest with
        | none => .error { code := Code.depUnknown }
        | some (a, b, _, _) =>
          let ms := membersOf round a b
          if e.merged ∨ ms.any fun m => !s.memberHeld m.1 m.2 x.shard then
            .error { code := Code.depUnknown }
          else
            let link := s.slowLink
            let groups := ceilDiv x.elems 1024
            let products := ms.length * x.elems * max 1 x.qp
            .ok { tokenDies := n :: s.linkDiesOn, powerDies := [n], linkDies := 1, hbm := true, gov := n
                  domains := n :: (hubsOf x.anchor x.anchorLen).flatMap fun j => [pdHub j, pdPhy j]
                  fixedNs := 2000 + ceilDiv (products * s.tau link) 25600000
                    + tokensNs (64 + 8 * groups + 2 * ceilDiv x.anchorLen 4096) (s.tau n)
                    + ceilDiv (ms.length * x.size + 18 * x.elems + x.anchorLen) (max 1 (s.share n)) }

/-! ### Anchor digests (R280) -/

/-- The sites that hold a value of the root of the anchor of round + 1, this one among them. -/
def Exchange.votes (e : Exchange) (site : Nat) : List (Nat × BitVec 64) :=
  match e.ownRoot with
  | some (v, _) => (site, v) :: e.roots.filter (·.1 != site)
  | none => []

/-- Step 8 of Sequence ARC-2 is open for the shard. -/
def State.openStep8 (round shard : Nat) (s : State) : State :=
  (s.modExch round shard fun e => { e with proceed := true, held := false, asked := [] }).resumeCopies

/-- A block of another site's anchor is asked for: its place in that site's image. -/
def State.askBlock (round shard site block : Nat) (s : State) : State :=
  let t : Transfer :=
    { round := round + 1, shard := shard, image := round + 1, key := 16 + block, port := s.portTo site
      bytes := 4096, hub := hubOfHbm ((s.fxShard? shard).elim 0 (·.anchor)), tp := none }
  (s.beginTransfer t).tell 9 site (round + 1) shard ([4, 0, 0, 0] ++ leBytes 4 (64 + 4096 * block) ++ leBytes 4 4096)

/-- Digests or blocks of another site are asked for; of blocks, one at a time. -/
def State.askNodes (round shard : Nat) (l : List (Nat × Nat × Nat)) (s : State) : State :=
  let busy := (s.exch round shard).asked.any fun q => q.2.1 == 0
  let s := s.modExch round shard fun e => { e with asked := e.asked ++ l }
  let s := (l.filter fun q => q.2.1 != 0).foldl (fun s q =>
    s.tell 6 q.1 (round + 1) shard (leBytes 8 (nodeOperand (shard % 65536) q.2.1 q.2.2))) s
  match l.find? fun q => q.2.1 == 0 with
  | some q => if busy then s else s.askBlock round shard q.1 q.2.2
  | none => s

/-- The anchor is bisected against another site's. -/
def State.bisect (round shard site : Nat) (s : State) : State :=
  match s.fxShard? shard with
  | none => s
  | some x => s.askNodes round shard [(site, rootLevel (ceilDiv x.anchorLen 4096), 0)]

/-- What the roots held so far decide: proceed, bisect against the lowest site of another majority, or neither. -/
def State.judgeRoots (round shard : Nat) (s : State) : State :=
  let e := s.exch round shard
  if !e.merged || e.proceed || e.held || e.asked != [] then s
  else match majority s.activeSites.length ((e.votes s.site).filter fun v => decide (v.1 ∈ s.activeSites)), e.ownRoot with
    | some v, some (own, _) =>
      if v = own then s.openStep8 round shard
      else
        let sites := ((e.votes s.site).filter (·.2 == v)).map (·.1)
        s.bisect round shard (sites.foldl min (sites.headD 0))
    | _, _ => s

/-- The anchor of the next round is formed: its root is taken and broadcast, and judged against those of other sites. -/
def State.anchorFormed (round : Nat) (x : FxShard) (s : State) : State :=
  let root := BitVec.ofNat 64 (digestRoot (s.anchorPayload x))
  let s := s.modExch round x.shard fun e => { e with merged := true, ownRoot := some (root, s.now) }
  let s := s.cast 5 (round + 1) 0 (leBytes 4 x.shard ++ zeros 4 ++ leBytes 8 root.toNat)
  s.roundMerged.judgeRoots round x.shard

/-- The merge: Δ, the outer optimiser, the root, which is broadcast. It waits while an export admitted before it has yet to
read the anchor or the momentum (R221). -/
def mergeStart : ItemStart := fun it s =>
  let round := fld it.desc 32 4
  match s.fxShard? (fld it.desc 36 4) with
  | none => s
  | some x =>
    match (s.exch round x.shard).manifest with
    | none => s
    | some (a, b, _, _) =>
      if s.exportHeld it.id x.anchor x.anchorLen || s.exportHeld it.id x.mom (4 * x.elems) then s.unstart it.id
      else
      let s := s.outerFrom (outerDieOf x) 0 x (s.mergedDelta x round a b)
      let s := (if a = 0 then s.fxEvent 7 else s).outerJournal (outerDieOf x) x
      ((s.anchorFormed round x).itemDone it.id Code.ok it.farDetail).reportTransfers it.id round x.shard

/-- The shard that the one record of an OPEN OUTER header names, with the round that its merge is of: the lowest whose
manifest is applied, whose members are held and that is not merged (R192). -/
def State.outerDue (s : State) (n : Nat) : Option (FxShard × Exchange) :=
  match s.fxShards.find? fun x => s.shardAddr x == fld (s.jrecord n 0) 16 6 with
  | none => none
  | some x =>
    ((List.range 2).map fun i => s.exch (s.reg Reg.fxRound + i) x.shard).findSome? fun e =>
      match e.manifest with
      | some (a, b, _, _) =>
        if !e.merged && (membersOf e.round a b).all fun m => s.memberHeld m.1 m.2 x.shard then some (x, e) else none
      | none => none

/-- The roll-forward of an OUTER header: the weight groups from WW on, whose anchor and momentum the merge has not
written, then DONE; a merge whose members are gone is SKIPPED (R189, R192). -/
def State.outerRollfwd (n item : Nat) (s : State) : State :=
  let s := s.raise (.cob n) 1
  match s.outerDue n with
  | none => ((s.recordSkipped n 0).closeHeader n).itemDone item Code.ok []
  | some (x, e) =>
    let (a, b) := match e.manifest with
      | some (a, b, _, _) => (a, b)
      | none => (0, 0)
    let s := s.outerFrom n (1024 * fld (s.jrecord n 0) 8 4) x (s.mergedDelta x e.round a b)
    let s := s.jset n 0 8 4 (ceilDiv x.elems 1024)
    (((s.recordDone n 0).closeHeader n).anchorFormed e.round x).itemDone item Code.ok []

/-- The start of a roll-forward: that of an OPEN header of kind OUTER redoes a merge. -/
def updateRollfwdStart : ItemStart := fun it s =>
  let n := fld it.desc 32 1
  if s.rollfwdDue n ∧ fld (s.header n) 10 1 = 2 then s.outerRollfwd n it.id else s.startRollfwd n it.id

/-- DIGEST: roots of the anchor of the message's round are counted. -/
def State.digestIn (s : State) : State :=
  match s.takeFar 5 fun _ => true with
  | none => s
  | some (m, s) =>
    (List.range (m.body.length / 16)).foldl (fun s i =>
      let r := (m.body.drop (16 * i)).take 16
      let shard := fld r 0 4
      if m.round = 0 ∨ (s.fxShard? shard).isNone then s
      else
        let s := s.modExch (m.round - 1) shard fun e =>
          { e with roots := (m.origin, BitVec.ofNat 64 (fld r 8 8)) :: e.roots.filter (·.1 != m.origin) }
        s.judgeRoots (m.round - 1) shard) s

/-- ANCHOR_DIGEST_WAIT: no majority FX_MWAIT after the own root: ANCHOR_SUSPECT, and step 8 is held. -/
def State.digestWait (round shard : Nat) (s : State) : State :=
  let e := s.exch round shard
  let due := e.ownRoot.any fun x => decide (x.2 + s.regBits Reg.fxMwait 23 0 * 1000 ≤ s.now)
  if !s.gateway || !e.merged || e.proceed || e.held || e.asked != [] || !due then s
  else
    let s := s.judgeRoots round shard
    let e := s.exch round shard
    if e.proceed || e.asked != [] then s
    else (s.modExch round shard fun e => { e with held := true }).fxEvent 4

/-- The leaves of the anchor payload. -/
def State.anchorLeaves (s : State) (x : FxShard) : List Nat := leavesOf (s.anchorPayload x)

/-- DQUERY: the child digests of a node of this site's anchor go back. -/
def State.dqueryIn (s : State) : State :=
  match s.takeFar 6 fun _ => true with
  | none => s
  | some (m, s) =>
    match s.fxShard? m.shard with
    | none => s
    | some x =>
      let op := fld m.body 0 8
      let kids := childDigests (s.anchorLeaves x) (bitsOf op 23 16) (bitsOf op 63 24)
      s.tell 7 m.origin m.round m.shard (leBytes 8 op ++ kids.flatMap (leBytes 8))

/-- The repaired anchor: its root is taken anew and the gateway proceeds. -/
def State.settleRepair (round shard : Nat) (s : State) : State :=
  if (s.exch round shard).asked != [] then s
  else match s.fxShard? shard with
    | none => s
    | some x =>
      let root := BitVec.ofNat 64 (digestRoot (s.anchorPayload x))
      let s := s.modExch round shard fun e => { e with ownRoot := e.ownRoot.map fun r => (root, r.2) }
      (s.fxEvent 3).openStep8 round shard

/-- DNODES: the children that differ are asked for, down to blocks. -/
def State.dnodesIn (s : State) : State :=
  match s.takeFar 7 fun _ => true with
  | none => s
  | some (m, s) =>
    let op := fld m.body 0 8
    let level := bitsOf op 23 16
    let node := bitsOf op 63 24
    let round := m.round - 1
    match s.fxShard? m.shard with
    | none => s
    | some x =>
      if m.round = 0 ∨ level = 0 ∨ (m.origin, level, node) ∉ (s.exch round m.shard).asked then s
      else
        let own := childDigests (s.anchorLeaves x) level node
        let theirs := (List.range ((m.body.length - 8) / 8)).map fun i => fld m.body (8 + 8 * i) 8
        let bad := (List.range own.length).filter fun i => own.getD i 0 != theirs.getD i 0
        let s := s.modExch round m.shard fun e => { e with asked := e.asked.erase (m.origin, level, node) }
        (s.askNodes round m.shard (bad.map fun i => (m.origin, level - 1, 64 * node + i))).settleRepair round m.shard

/-! ### Snapshots (R280, R282) -/

/-- The shard image of an anchor or an outer momentum. -/
def State.shardImage (s : State) (x : FxShard) (item round : Nat) : List Byte :=
  let body := if item = 4 then s.anchorPayload x else padTo (to4k (4 * x.elems)) (s.readHbm x.mom (4 * x.elems))
  imageHeader item 0 x.tensor ⟨x.row0, x.rows, x.col0, x.cols⟩ (s.reg Reg.cobStep) round (s.reg Reg.hifEpoch) 0
    (digestRoot body) ++ body

/-- SNAP_REQ: the first request whose round has this site's root in a majority is answered; the others wait. -/
def State.snapReqIn (s : State) : State :=
  match s.takeFar 9 fun m => m.round != 0 && (s.exch (m.round - 1) m.shard).proceed with
  | none => s
  | some (m, s) =>
    let item := fld m.body 0 1
    let off := fld m.body 4 4
    let len := fld m.body 8 4
    match s.fxShard? m.shard with
    | none => s
    | some x =>
      if item ≠ 4 ∧ item ≠ 5 then s
      else
        let img := s.shardImage x item m.round
        let part := if len = 0 then img else (img.drop off).take len
        s.sendTo { s.ownMsg 10 m.origin m.round m.shard part with relay := true }

/-- The block of the anchor that is being fetched for a message's round and shard. -/
def State.blockAsked (s : State) (m : FarMsg) : Option Nat :=
  if m.round = 0 then none
  else ((s.exch (m.round - 1) m.shard).asked.find? fun q => q.1 == m.origin && q.2.1 == 0).map fun q => q.2.2

/-- The fetch item that a whole image answers. -/
def State.snapItem (s : State) (m : FarMsg) : Option Item :=
  s.items.find? fun i => dType i.desc == 0x0E && i.started && !i.done && fld i.desc 36 4 == m.round
    && fld i.desc 40 4 == m.shard && fld i.desc 32 1 == fld m.body 4 1
    && (s.fxPort (fld i.desc 33 1)).partner == m.origin

/-- A fetched block is written in place; the next one is asked for, or the repair is done. -/
def State.putBlock (m : FarMsg) (block : Nat) (s : State) : State :=
  match s.fxShard? m.shard with
  | none => s
  | some x =>
    let round := m.round - 1
    let s := s.writeHbm (x.anchor + 4096 * block) (m.body.take (x.anchorLen - 4096 * block))
    let s := s.endTransfer m.round m.shard (16 + block)
    let s := s.modExch round m.shard fun e => { e with asked := e.asked.erase (m.origin, 0, block) }
    match (s.exch round m.shard).asked.find? fun q => q.2.1 == 0 with
    | some q => s.askBlock round m.shard q.1 q.2.2
    | none => s.settleRepair round m.shard

/-- SNAPSHOT: bytes of a block go into the anchor, a whole image to the destination of its fetch; one beyond its capacity
is not written. -/
def State.snapshotIn (s : State) : State :=
  match s.takeFar 10 fun m => (s.snapItem m).all fun it => !s.exportHeld it.id (fld it.desc 44 6) m.body.length with
  | none => s
  | some (m, s) =>
    match s.snapItem m, s.blockAsked m with
    | some it, blk =>
      if fld m.body 0 4 = 0x4453554C ∨ blk.isNone then
        if fld it.desc 52 4 < m.body.length then s
        else ((s.writeHbm (fld it.desc 44 6) m.body).itemDone it.id Code.ok it.farDetail).reportTransfers it.id m.round m.shard
      else s.putBlock m (blk.getD 0)
    | none, some b => s.putBlock m b
    | none, none => s

/-- The checks of SNAP_FETCH. -/
def snapFetchCheck : ItemCheck := fun s d =>
  let item := fld d 32 1
  let k := fld d 33 1
  if (item ≠ 4 ∧ item ≠ 5) ∨ !zeroIn d 34 36 ∨ !zeroIn d 50 52 ∨ !zeroIn d 56 96 then .error { code := Code.malformed }
  else
    let n := fld d 52 4
    if 5 < k ∨ n = 0 ∨ 0x18000000000 < fld d 44 6 + n then .error { code := Code.lengthBound }
    else if !s.countersCover k (s.countedFrames k 12) then .error { code := Code.keyExhausted }
    else
      .ok { units := [.farShare k], hbm := true, gov := 56 + k
            domains := (hubsOf (fld d 44 6) n).flatMap fun j => [pdHub j, pdPhy j]
            fixedNs := 2000 + s.fetchNs k n }

/-- The request goes out on the named port. -/
def snapFetchStart : ItemStart := fun it s =>
  let k := fld it.desc 33 1
  let body := leBytes 1 (fld it.desc 32 1) ++ zeros 11
  let f := s.ownMsg 9 (s.fxPort k).partner (fld it.desc 36 4) (fld it.desc 40 4) body
  s.queueFar k (cutMessage { f with item := some it.id })

/-! ### Joining (R281) -/

/-- The checks of JOIN. -/
def joinCheck : ItemCheck := fun s d =>
  let ports := setBitsOf (fld d 32 1) 6
  if 64 ≤ fld d 32 1 ∨ !zeroIn d 33 96 then .error { code := Code.malformed }
  else if ports = [] then .error { code := Code.lengthBound }
  else if ports.any fun k => !s.countersCover k 1 then .error { code := Code.keyExhausted }
  else .ok { units := ports.map .farShare, fixedNs := 2000 + maxOf (ports.map fun k => s.sendNs k (s.countedFrames k 8)) }

/-- JOIN goes to the partners of the named ports; it is done once its frames are acknowledged. -/
def joinStart : ItemStart := fun it s =>
  let body := leBytes 1 s.site ++ zeros 7
  (setBitsOf (fld it.desc 32 1) 6).foldl (fun s k =>
    s.queueFar k (cutMessage { s.ownMsg 8 (s.fxPort k).partner 0 0 body with item := some it.id })) s

/-- JOIN_MSG: a request sets JOIN when it is the first of its site; one that comes from the joiner itself is answered with
the snapshot round and goes on over this site's relay tree. An answer tells a joiner its round. -/
def State.joinIn (s : State) : State :=
  match s.takeFar 8 fun _ => true with
  | none => s
  | some (m, s) =>
    let site := fld m.body 0 1
    let told := fld m.body 4 4
    if told ≠ 0 then { s with joining := assoc s.joining site told }.fxEvent 8
    else
      let first := (look s.joining site).isNone
      let round := (look s.joining site).getD (s.reg Reg.fxRound + 2)
      let s := if first then { s with joining := assoc s.joining site round }.fxEvent 8 else s
      if m.hop ≠ site then s
      else
        let answer := s.ownMsg 8 site 0 0 (leBytes 1 site ++ zeros 3 ++ leBytes 4 round)
        let s := s.queueFar m.port (cutMessage answer)
        s.cast 8 0 0 m.body

/-! ### MERGE_HOLD and MERGE_RELEASE (R280) -/

/-- The checks of MERGE_HOLD. -/
def mergeHoldCheck : ItemCheck := fun s d =>
  let w := fld d 41 1
  if !zeroIn d 42 96 then .error { code := Code.malformed }
  else if (s.fxShard? (fld d 36 4)).isNone ∨ (15 < w ∧ w ≠ 0xFF) then .error { code := Code.lengthBound }
  else .ok {}

/-- HOLD: step 8 is held for the round and shard. -/
def mergeHoldStart : ItemStart := fun it s =>
  (s.modExch (fld it.desc 32 4) (fld it.desc 36 4) fun e => { e with held := true }).itemDone it.id Code.ok []

/-- RELEASE: the named site's anchor wins, or the hold is released. -/
def mergeReleaseStart : ItemStart := fun it s =>
  let round := fld it.desc 32 4
  let shard := fld it.desc 36 4
  let w := fld it.desc 41 1
  let s := s.modExch round shard fun e => { e with held := false }
  let e := s.exch round shard
  let s := if !e.merged || e.proceed then s
    else if w = 0xFF ∨ w = s.site then s.openStep8 round shard
    else if e.asked != [] then s else s.bisect round shard w
  s.itemDone it.id Code.ok []

/-! ### Commands -/

/-- UPDATE_ROLLFWD (R192). -/
def execUpdateRollfwd (dt : Nat) (s : State) : Host.Outcome State Fault Refusal :=
  s.finish dt (State.decideRow (0x04, 5) updateRollfwdCheck updateRollfwdStart (s.advance dt))

/-- CONTRIB (R269). -/
def execContrib (dt : Nat) (s : State) : Host.Outcome State Fault Refusal :=
  s.finish dt (State.decideRow (0x0C, 0) contribCheck contribStart (s.advance dt))

/-- MERGE (R279). -/
def execMerge (dt : Nat) (s : State) : Host.Outcome State Fault Refusal :=
  s.finish dt (State.decideRow (0x0D, 0) mergeCheck mergeStart (s.advance dt))

/-- SNAP_FETCH (R282). -/
def execSnapFetch (dt : Nat) (s : State) : Host.Outcome State Fault Refusal :=
  s.finish dt (State.decideRow (0x0E, 0) snapFetchCheck snapFetchStart (s.advance dt))

/-- JOIN (R281). -/
def execJoin (dt : Nat) (s : State) : Host.Outcome State Fault Refusal :=
  s.finish dt (State.decideRow (0x0F, 0) joinCheck joinStart (s.advance dt))

/-- CONTRIB_MSG (R273). -/
def execContribMsg (dt : Nat) (s : State) : Host.Outcome State Fault Refusal := s.finish dt (s.advance dt).contribMsg

/-- HOLD (R275). -/
def execHold (dt : Nat) (s : State) : Host.Outcome State Fault Refusal := s.finish dt (s.advance dt).holdIn

/-- HOLD_SEND (R275). -/
def execHoldSend (dt round : Nat) (s : State) : Host.Outcome State Fault Refusal :=
  s.finish dt ((s.advance dt).holdSend round)

/-- MANIFEST_CUTOFF (R276). -/
def execManifestCutoff (dt round shard : Nat) (s : State) : Host.Outcome State Fault Refusal :=
  s.finish dt ((s.advance dt).manifestCutoff round shard)

/-- MANIFEST (R277). -/
def execManifest (dt : Nat) (s : State) : Host.Outcome State Fault Refusal := s.finish dt (s.advance dt).manifestIn

/-- MANIFEST_TAKEOVER (R277). -/
def execManifestTakeover (dt round shard : Nat) (s : State) : Host.Outcome State Fault Refusal :=
  s.finish dt ((s.advance dt).takeover round shard)

/-- FETCH (R278). -/
def execFetch (dt : Nat) (s : State) : Host.Outcome State Fault Refusal := s.finish dt (s.advance dt).fetchIn

/-- FETCH_RETRY (R278). -/
def execFetchRetry (dt round shard origin : Nat) (s : State) : Host.Outcome State Fault Refusal :=
  s.finish dt ((s.advance dt).fetchRetry round shard origin)

/-- DIGEST (R280). -/
def execDigest (dt : Nat) (s : State) : Host.Outcome State Fault Refusal := s.finish dt (s.advance dt).digestIn

/-- ANCHOR_DIGEST_WAIT (R280). -/
def execAnchorDigestWait (dt round shard : Nat) (s : State) : Host.Outcome State Fault Refusal :=
  s.finish dt ((s.advance dt).digestWait round shard)

/-- DQUERY (R280). -/
def execDquery (dt : Nat) (s : State) : Host.Outcome State Fault Refusal := s.finish dt (s.advance dt).dqueryIn

/-- DNODES (R280). -/
def execDnodes (dt : Nat) (s : State) : Host.Outcome State Fault Refusal := s.finish dt (s.advance dt).dnodesIn

/-- JOIN_MSG (R281). -/
def execJoinMsg (dt : Nat) (s : State) : Host.Outcome State Fault Refusal := s.finish dt (s.advance dt).joinIn

/-- SNAP_REQ (R282). -/
def execSnapReq (dt : Nat) (s : State) : Host.Outcome State Fault Refusal := s.finish dt (s.advance dt).snapReqIn

/-- SNAPSHOT (R280). -/
def execSnapshot (dt : Nat) (s : State) : Host.Outcome State Fault Refusal := s.finish dt (s.advance dt).snapshotIn

/-- MERGE_HOLD (R280). -/
def execMergeHold (dt : Nat) (s : State) : Host.Outcome State Fault Refusal :=
  s.finish dt (State.decideRow (0x47, 0) mergeHoldCheck mergeHoldStart (s.advance dt))

/-- MERGE_RELEASE (R280). -/
def execMergeRelease (dt : Nat) (s : State) : Host.Outcome State Fault Refusal :=
  s.finish dt (State.decideRow (0x47, 1) mergeHoldCheck mergeReleaseStart (s.advance dt))

end Sys2Proof.Machine
end

