-- ==== Sys2Proof/Machine/Keys.lean ====
section
/-! DEFINITION. The critical commands on keys, seal modes, firmware, fuses and the set-up lock (R288, R298, R305, R310,
R369, R429). -/

namespace Sys2Proof.Machine

/-! ### KEY_LOAD (R298, Table SEC-2) -/

/-- The port and the slot of a KEY_LOAD descriptor. -/
def keyPort (d : List Byte) : Nat := fld d 32 1
@[inherit_doc keyPort] def keySlotOf (d : List Byte) : Nat := fld d 33 1

/-- The traffic key of a LOAD, where its wrapping is good. -/
def State.loadedKey (s : State) (d : List Byte) : Option (BitVec 256) := Crypto.unwrap s.kek ((d.drop 44).take 40)

/-- What refuses a LOAD. -/
def State.loadRefusal (s : State) (d : List Byte) : Option Nat :=
  if s.slotState (keyPort d) (keySlotOf d) ≠ 0 then some Code.keySlotBusy
  else if (s.loadedKey d).isNone then some Code.keyWrap
  else if fld d 36 4 = fld d 40 4 then some Code.keySalt
  else none

/-- What refuses a SWITCH: the other slot is not STANDBY, nor made the receive slot out of STANDBY by a frame of the
partner, which R299 has transmit leave its old slot for later (log 42). -/
def State.switchRefusal (s : State) (d : List Byte) : Option Nat :=
  let k := keyPort d
  let other := 1 - s.txSlot k
  let taken := s.slotState k other == 2 && s.rxSlot k == other && !(s.keySlot k other).transmitted
  if s.slotState k other = 1 ∨ taken then none else some Code.keyEmpty

/-- What refuses an ERASE. -/
def State.eraseRefusal (s : State) (d : List Byte) : Option Nat :=
  let k := keyPort d
  let slot := keySlotOf d
  if s.txSlot k = slot ∨ s.rxSlot k = slot then some Code.keySlotBusy else none

/-- The checks that the three have in common. -/
def keyCheck (load : Bool) (refusal : State → List Byte → Option Nat) : ItemCheck := fun s d =>
  if !zeroIn d 35 36 || (!load && !zeroIn d 44 84) || !zeroIn d 84 96 then .error { code := Code.malformed }
  else if 5 < keyPort d ∨ 1 < keySlotOf d then .error { code := Code.lengthBound }
  else match refusal s d with
    | some c => .error { code := c }
    | none => .ok { domains := [pdLink (keyPort d)] }

/-- LOAD: the slot takes the key and its salts, its counter starts at 1. -/
def State.loadSlot (d : List Byte) (s : State) : State :=
  let k := keyPort d
  let slot := keySlotOf d
  let first := s.slotState k 0 == 0 && s.slotState k 1 == 0
  let key := (s.loadedKey d).getD 0
  let s := s.modKey k slot fun _ =>
    { key := key, txSalt := BitVec.ofNat 32 (fld d 36 4), rxSalt := BitVec.ofNat 32 (fld d 40 4), transmitted := first }
  let s := (s.setReg (txctr k slot) 1).setSlotState k slot (if first then 2 else 1)
  let s := if first then s.setField (Reg.secPortStatus k) 2 1 (3 * slot) else s
  let s := s.showNoKey k
  if s.fpState k = 0 then s.farStart k else s

/-- The key check value (R300). -/
def keyCheckValue (key : BitVec 256) : List Byte :=
  ((Crypto.cmac (Crypto.keyBytes key) [0x4B, 0x43, 0x48, 0x4B]).take 8).map (BitVec.ofNat 8)

/-- LOAD. What refuses it at its start, later than its decision, ends it with that code. -/
def keyLoadStart : ItemStart := fun it s =>
  match s.loadRefusal it.desc with
  | some c => s.itemDone it.id c []
  | none => (s.loadSlot it.desc).itemDone it.id Code.ok (keyCheckValue ((s.loadedKey it.desc).getD 0))

/-- SWITCH. -/
def switchStart : ItemStart := fun it s =>
  match s.switchRefusal it.desc with
  | some c => s.itemDone it.id c []
  | none => (s.switchTx (keyPort it.desc)).itemDone it.id Code.ok []

/-- ERASE. -/
def eraseStart : ItemStart := fun it s =>
  match s.eraseRefusal it.desc with
  | some c => s.itemDone it.id c []
  | none => (s.zeroise (keyPort it.desc) (keySlotOf it.desc)).itemDone it.id Code.ok []

/-! ### SEAL_MODE (R288) -/

/-- The port is neither OFF nor FAILED. -/
def State.sealBusy (s : State) (k : Nat) : Bool := s.fpState k != 0 && s.fpState k != 4

/-- The checks of SEAL_MODE. -/
def sealCheck : ItemCheck := fun s d =>
  if !zeroIn d 34 96 then .error { code := Code.malformed }
  else if 5 < keyPort d then .error { code := Code.lengthBound }
  else if s.sealBusy (keyPort d) then .error { code := Code.sealBusy }
  else .ok { domains := [pdLink (keyPort d)] }

/-- A port takes a seal mode. -/
def State.setSeal (k : Nat) (plain : Bool) (s : State) : State :=
  let s := s.setField (Reg.secPortStatus k) 0 0 (if plain then 1 else 0)
  let s := (s.setField (Reg.fpStatus k) 7 7 (if plain then 0 else 1)).showNoKey k
  if s.fpState k = 0 then s.farStart k else s

/-- SEALED. -/
def sealedStart : ItemStart := fun it s =>
  let k := keyPort it.desc
  if s.sealBusy k then s.itemDone it.id Code.sealBusy [] else (s.setSeal k false).itemDone it.id Code.ok []

/-- PLAIN. -/
def plainStart : ItemStart := fun it s =>
  let k := keyPort it.desc
  if s.sealBusy k then s.itemDone it.id Code.sealBusy [] else (s.setSeal k true).itemDone it.id Code.ok []

/-! ### FW_LOAD (R310, R345) -/

/-- The checks of FW_LOAD; the digest is checked once the image is read. -/
def fwCheck : ItemCheck := fun s d =>
  let a := fld d 32 8
  let n := fld d 40 4
  if !zeroIn d 76 96 then .error { code := Code.malformed }
  else if n < 4096 ∨ 4194304 < n then .error { code := Code.lengthBound }
  else if !s.hostRangeOk a n then .error { code := Code.lengthBound, hostwin := true }
  else if Crypto.sha256 (s.readHost a n) ≠ (d.drop 44).take 32 then .error { code := Code.fwDigest }
  else .ok { promised := false, domains := [93] }

/-- The management processor takes the image. -/
def fwStart : ItemStart := fun it s =>
  let d := it.desc
  ({ s with firmware := some (fld d 40 4, BitVec.ofNat 256 (leNat ((d.drop 44).take 32))) }).itemDone it.id Code.ok []

/-! ### FUSE_PROGRAM (R305, R369) -/

/-- The unwrapped value of a FUSE_PROGRAM. -/
def State.fuseValue (s : State) (d : List Byte) : Option (BitVec 256) := Crypto.unwrap s.kek ((d.drop 36).take 40)

/-- The bits of a fuse field of Table CLK-5. -/
def fuseBits (field : Nat) : Nat := if field = 0 then 256 else if field = 1 then 5 else if field = 2 then 4 else 3

/-- The checks of FUSE_PROGRAM with op 0. -/
def fuseCheck : ItemCheck := fun s d =>
  let f := fld d 32 1
  if 3 < f ∨ !zeroIn d 35 36 ∨ !zeroIn d 76 96 then .error { code := Code.malformed }
  else if f = 0 ∧ 3 < fld d 33 1 then .error { code := Code.lengthBound }
  else match s.fuseValue d with
    | none => .error { code := Code.keyWrap }
    | some v => if 2 ^ fuseBits f ≤ v.toNat then .error { code := Code.malformed } else .ok { domains := [94] }

/-- A fuse field takes a value, ORed in. -/
def Fuses.program (field slot : Nat) (v : BitVec 256) (f : Fuses) : Fuses :=
  if field = 0 then
    { f with orks := modAt f.orks slot (· ||| v), programmed := f.programmed ||| BitVec.ofNat 4 (2 ^ slot) }
  else if field = 1 then { f with pinDefault := f.pinDefault ||| v.setWidth 5 }
  else if field = 2 then { f with profileFuse := f.profileFuse ||| v.setWidth 4 }
  else { f with clockDeny := f.clockDeny ||| v.setWidth 3 }

/-- Programming. -/
def fuseStart : ItemStart := fun it s =>
  let d := it.desc
  match s.fuseValue d with
  | none => s.itemDone it.id Code.keyWrap []
  | some v => ({ s with fuses := s.fuses.program (fld d 32 1) (fld d 33 1) v }).itemDone it.id Code.ok []

/-- The ORK slots that are programmed and would not be revoked. -/
def Fuses.usable (f : Fuses) (slot : Nat) : Bool :=
  (List.range 4).any fun n => n != slot && bitOf f.programmed.toNat n && !bitOf f.revoked.toNat n

/-- The checks of FUSE_PROGRAM with op 1. -/
def revokeCheck : ItemCheck := fun s d =>
  if fld d 32 1 ≠ 0 ∨ !zeroIn d 35 36 ∨ !zeroIn d 76 96 then .error { code := Code.malformed }
  else if 3 < fld d 33 1 then .error { code := Code.lengthBound }
  else if !s.fuses.usable (fld d 33 1) then .error { code := Code.fuseLast }
  else .ok { domains := [94] }

/-- Revoking. -/
def revokeStart : ItemStart := fun it s =>
  let n := fld it.desc 33 1
  if !s.fuses.usable n then s.itemDone it.id Code.fuseLast []
  else ({ s with fuses := { s.fuses with revoked := s.fuses.revoked ||| BitVec.ofNat 4 (2 ^ n) } }).itemDone it.id Code.ok []

/-! ### SETUP_LOCK (R429) -/

/-- The checks of SETUP_LOCK. -/
def lockCheck : ItemCheck := fun _ d => if !zeroIn d 32 96 then .error { code := Code.malformed } else .ok {}

/-- The lock flags are set. -/
def lockStart : ItemStart := fun it s => s.lockAll.itemDone it.id Code.ok []

/-! ### Commands -/

/-- KEY_LOAD (R298). -/
def execKeyLoad (dt : Nat) (s : State) : Host.Outcome State Fault Refusal :=
  s.finish dt (State.decideRow (0x42, 0) (keyCheck true State.loadRefusal) keyLoadStart (s.advance dt))

/-- SWITCH (R298). -/
def execSwitch (dt : Nat) (s : State) : Host.Outcome State Fault Refusal :=
  s.finish dt (State.decideRow (0x42, 1) (keyCheck false State.switchRefusal) switchStart (s.advance dt))

/-- ERASE (R298). -/
def execErase (dt : Nat) (s : State) : Host.Outcome State Fault Refusal :=
  s.finish dt (State.decideRow (0x42, 2) (keyCheck false State.eraseRefusal) eraseStart (s.advance dt))

/-- SEAL_MODE_SEALED (R288). -/
def execSealModeSealed (dt : Nat) (s : State) : Host.Outcome State Fault Refusal :=
  s.finish dt (State.decideRow (0x43, 0) sealCheck sealedStart (s.advance dt))

/-- SEAL_MODE_PLAIN (R288). -/
def execSealModePlain (dt : Nat) (s : State) : Host.Outcome State Fault Refusal :=
  s.finish dt (State.decideRow (0x43, 1) sealCheck plainStart (s.advance dt))

/-- FW_LOAD (R310). -/
def execFwLoad (dt : Nat) (s : State) : Host.Outcome State Fault Refusal :=
  s.finish dt (State.decideRow (0x44, 0) fwCheck fwStart (s.advance dt))

/-- FUSE_PROGRAM (R369). -/
def execFuseProgram (dt : Nat) (s : State) : Host.Outcome State Fault Refusal :=
  s.finishFuses dt (State.decideRow (0x45, 0) fuseCheck fuseStart (s.advance dt))

/-- FUSE_REVOKE (R305). -/
def execFuseRevoke (dt : Nat) (s : State) : Host.Outcome State Fault Refusal :=
  s.finishFuses dt (State.decideRow (0x45, 1) revokeCheck revokeStart (s.advance dt))

/-- SETUP_LOCK (R429). -/
def execSetupLock (dt : Nat) (s : State) : Host.Outcome State Fault Refusal :=
  s.finish dt (State.decideRow (0x46, 0) lockCheck lockStart (s.advance dt))

end Sys2Proof.Machine
end

