-- ==== Sys2Proof/Machine/Rings.lean ====
section
/-! DEFINITION. The commands on the rings and the PCIe function (R337 to R341, R357, R428). -/

namespace Sys2Proof.Machine

/-! ### Doorbells -/

/-- A scan, after which leading descriptors of no row are refused at once (log 5). -/
def State.scanAll (s : State) : State :=
  let s := s.scan
  if s.admitting then s.flushBad s.taken.length else s

/-- The ring engine reads the doorbell records and takes new descriptors. -/
def State.doorbellPoll (s : State) : State := s.pollDoorbells.scanAll

/-- The fields of a doorbell record that a mirror write of a width at an offset within the ring's 16 bytes delivers:
sq_tail and cq_head. -/
def mirrorFields (r : Nat) (wide : Bool) (v : Nat) : Option Nat × Option Nat :=
  if wide then (if r = 0 then (some (bitsOf v 31 0), some (bitsOf v 63 32)) else (none, none))
  else if r = 0 then (some (bitsOf v 31 0), none)
  else if r = 4 then (none, some (bitsOf v 31 0))
  else (none, none)

/-- A write of the mirror window; one that delivers no field is discarded (R428). -/
def State.mirrorWrite (off : Nat) (wide : Bool) (v : Nat) (s : State) : State :=
  let n := off / 16
  let f := mirrorFields (off % 16) wide v
  if !s.admitting || !s.hostUp || 8 ≤ n then s
  else
    let s := s.modRing n fun r =>
      { r with mirrorTail := (f.1.map (BitVec.ofNat 32)).getD r.mirrorTail
               mirrorHead := (f.2.map (BitVec.ofNat 32)).getD r.mirrorHead }
    if s.ringState n ≠ 1 ∨ f = (none, none) then s
    else
      let s := match f.1 with
        | some t => s.seeTail n (BitVec.ofNat 32 t)
        | none => s
      let s := match f.2 with
        | some h => s.seeHead n (BitVec.ofNat 32 h)
        | none => s
      s.scanAll

/-- sq_head goes to the doorbell record of a ring that is ON, in D0. -/
def State.headWriteback (n : Nat) (s : State) : State :=
  if s.admitting && s.hostUp && decide (n < 8) && s.ringState n == 1 && s.regBits Reg.hifStatus 1 1 == 0 then s.writeSqHead n else s

/-- What a read of the mirror window gives (R336): bytes 0 to 7 of a ring's 16 as a doorbell record holds them, 0
elsewhere; all ones while the port's domain is off. -/
def State.mirrorRead (s : State) (off : Nat) (wide : Bool) : Nat :=
  let n := if wide then 8 else 4
  let r := s.ring (off / 16)
  if off % n ≠ 0 then 0
  else if !s.hostUp || !s.live 92 then (if wide then 0xFFFFFFFFFFFFFFFF else 0xFFFFFFFF)
  else if 8 ≤ off / 16 then 0
  else natAt (leBytes 4 r.mirrorTail.toNat ++ leBytes 4 r.mirrorHead.toNat ++ zeros 8) (off % 16) n

/-! ### The PCIe function (R333, R334) -/

/-- Identity of the function in its configuration space: vendor, device and class (log 149). -/
structure PciIdentity where
  vendor : BitVec 16
  device : BitVec 16
  cls : BitVec 24
  serial : BitVec 64
  deriving DecidableEq, Repr

/-- The FX6448's identity; the Device Serial Number capability reads the fuse map. -/
def pciIdentity : PciIdentity := ⟨Config.vendorId, 0x6448, 0x120000, Config.serial⟩

/-- The bytes of a 64-bit, non-prefetchable memory BAR pair, by its first BAR (Table HIF-1); `none`: no such BAR. -/
def barSize : Nat → Option Nat
  | 0 => some 0x4000000
  | 2 => some 0x10000
  | _ => none

/-- What a read through a BAR gives: BAR0/1, the mirror window of BAR2/3, 0 of BAR4 and BAR5. -/
def State.barSpaceRead (s : State) (bar off : Nat) (wide : Bool) : Nat :=
  match bar with
  | 0 => s.barRead off wide
  | 2 => s.mirrorRead off wide
  | _ => 0

/-- What a read through a BAR leaves: one of the wrong size or alignment counts (R423). -/
def State.afterBarRead (bar off : Nat) (wide : Bool) (s : State) : State :=
  let narrow := (blockAt off).any fun b => s.answers b && wide && (regRowAt off).all fun r => !r.wide
  if bar = 0 ∧ (off % (if wide then 8 else 4) ≠ 0 ∨ narrow) then s.badAccess else s

/-! ### Rings on and off -/

/-- A BAR0 write of a ring's RING_CTRL with EN as given. -/
def State.ringWrite (n : Nat) (on : Bool) (v : Nat) (s : State) : State :=
  if n < 8 then
    State.barWith (fun _ old new _ s => s.ringCtrl n old new) (Reg.ringCtrl n) false
      (putBits (v % 2 ^ 32) 0 0 (if on then 1 else 0)) s
  else s

/-- COAL_US after the first unsignalled record the ring's vector fires. -/
def State.coalTimer (n : Nat) (s : State) : State :=
  let us := s.regBits (Reg.ringCtrl n) 31 24
  if s.live 92 && decide (n < 8) && us != 0 && (s.ring n).firstUnsignalled.any fun t => decide (t + us * 1000 ≤ s.now) then
    let s := s.modRing n fun r => { r with unsignalled := 0, firstUnsignalled := none }
    let v := s.regBits (Reg.ringCtrl n) 4 1
    if v = 0 then s else s.fireVector v
  else s

/-! ### Function-level reset and D3hot (R341) -/

/-- The ring registers. -/
def isRingReg (off : Nat) : Bool := decide (0x10000 ≤ off) && decide (off < 0x10800)

/-- A function-level reset: every ring is OFF, the registers of Table HIF-9 are at their reset words and no longer locked
(Table SCO-4); the records of what has been taken are dropped, and its items get numbers that no new item has. -/
def State.functionReset (s : State) : State :=
  if !s.live 92 then s
  else
    let lost := s.heldRecords.length
    let s := { s with
      regs := s.regs.filter fun e => !isRingReg e.1
      locked := s.locked.filter (· != blkRings)
      rings := List.replicate 8 {}
      heldRecords := []
      taken := s.taken.map fun (t : Taken) => { t with ring := t.ring + 8 }
      decided := s.decided.map fun (x : Nat × Decision) => (x.1 + 2 ^ 48, x.2)
      items := s.items.map fun (i : Item) => { i with orphan := true } }
    iter State.orphanRecord lost (s.renumber (· + 2 ^ 48))

/-- The function enters D3hot. -/
def State.d3Entry (s : State) : State := if s.live 92 then s.setField Reg.hifStatus 1 1 1 else s

/-- The function is back in D0: the held records are written in order, and descriptors are taken again (R341). -/
def State.d0Back (s : State) : State :=
  if !s.live 92 then s
  else
    (s.setField Reg.hifStatus 1 1 0).releaseRecords.scanAll

/-! ### Commands -/

/-- DOORBELL_POLL (R337). -/
def execDoorbellPoll (dt : Nat) (s : State) : Host.Outcome State Fault Refusal := s.finish dt (s.advance dt).doorbellPoll

/-- MIRROR_WRITE (R428). -/
def execMirrorWrite (dt off : Nat) (wide : Bool) (v : DWord) (s : State) : Host.Outcome State Fault Refusal :=
  s.finish dt ((s.advance dt).mirrorWrite off wide v.toNat)

/-- RING_ENABLE (R340). -/
def execRingEnable (dt ring : Nat) (v : Word) (s : State) : Host.Outcome State Fault Refusal :=
  s.finish dt ((s.advance dt).ringWrite ring true v.toNat)

/-- RING_DISABLE (R340). -/
def execRingDisable (dt ring : Nat) (v : Word) (s : State) : Host.Outcome State Fault Refusal :=
  s.finish dt ((s.advance dt).ringWrite ring false v.toNat)

/-- FUNCTION_LEVEL_RESET (R341). -/
def execFunctionLevelReset (dt : Nat) (s : State) : Host.Outcome State Fault Refusal :=
  s.finish dt (s.advance dt).functionReset

/-- D3HOT_ENTRY (R341). -/
def execD3hotEntry (dt : Nat) (s : State) : Host.Outcome State Fault Refusal := s.finish dt (s.advance dt).d3Entry

/-- D0_RETURN (R341). -/
def execD0Return (dt : Nat) (s : State) : Host.Outcome State Fault Refusal := s.finish dt (s.advance dt).d0Back

/-- COAL_TIMER (R357). -/
def execCoalTimer (dt ring : Nat) (s : State) : Host.Outcome State Fault Refusal :=
  s.finish dt ((s.advance dt).coalTimer ring)

/-- SQ_HEAD_WRITEBACK (R338). -/
def execSqHeadWriteback (dt ring : Nat) (s : State) : Host.Outcome State Fault Refusal :=
  s.finish dt ((s.advance dt).headWriteback ring)

end Sys2Proof.Machine
end

