-- ==== Sys2Proof/Machine/Lifecycle.lean ====
section
/-! DEFINITION. The life of an accepted item after its decision: start, completion, breach (R315, R317, R330); and the
plain register write (R423). -/

namespace Sys2Proof.Machine

/-! ### Starts (R317) -/

/-- The start of a descriptor of the host's data, program, update, fabric and memory kinds. -/
def startOfData (t sub : Nat) : Option ItemStart :=
  match t, sub with
  | 0x01, _ => some hostCopyStart
  | 0x02, _ => some progLoadStart
  | 0x03, _ => some progStartStart
  | 0x04, 4 => some updateLazyStart
  | 0x04, 5 => some updateRollfwdStart
  | 0x04, k => some (updateStart k)
  | 0x05, _ => some reduceStart
  | 0x06, _ => some copyStart
  | 0x07, 0 => some flashReadStart
  | 0x07, _ => some flashWriteStart
  | 0x08, _ => some pageInStart
  | 0x09, _ => some unpinStart
  | 0x0A, _ => some exportStart
  | 0x0B, _ => some importStart
  | 0x0C, _ => some contribStart
  | 0x0D, _ => some mergeStart
  | 0x0E, _ => some snapFetchStart
  | 0x0F, _ => some joinStart
  | 0x10, 0 => some resolveClearStart
  | 0x10, _ => some resolveWinnerStart
  | 0x11, _ => some windowStart
  | 0x12, _ => some stageStart
  | _, _ => none

/-- The start of a critical command. -/
def startOfCritical (t sub : Nat) : Option ItemStart :=
  match t, sub with
  | 0x41, _ => some resetStart
  | 0x42, 0 => some keyLoadStart
  | 0x42, 1 => some switchStart
  | 0x42, _ => some eraseStart
  | 0x43, 0 => some sealedStart
  | 0x43, _ => some plainStart
  | 0x44, _ => some fwStart
  | 0x45, 0 => some fuseStart
  | 0x45, _ => some revokeStart
  | 0x46, _ => some lockStart
  | 0x47, 0 => some mergeHoldStart
  | 0x47, _ => some mergeReleaseStart
  | 0x48, _ => some recorderClearStart
  | 0x49, _ => some powerLimitStart
  | _, _ => none

/-- The start of a descriptor. -/
def startOf (d : List Byte) : Option ItemStart :=
  let k := rowKind d
  (startOfData k.1 k.2).or (startOfCritical k.1 k.2)

/-- ITEM_START: an accepted item whose T_s has come begins. -/
def State.itemStart (id : Nat) (s : State) : State :=
  match s.item? id with
  | none => s
  | some it =>
    match startOf it.desc with
    | none => s
    | some f => (s.startItem f id).reducesReady

/-- The same for an item of FUSE_PROGRAM, whose start alone may change the fuses (R369). -/
def State.fuseItemStart (id : Nat) (s : State) : State :=
  match s.item? id with
  | none => s
  | some it => s.startItem (if (rowKind it.desc).2 = 0 then fuseStart else revokeStart) id

/-- The item is one of FUSE_PROGRAM. -/
def State.isFuseItem (s : State) (id : Nat) : Bool := (s.item? id).any fun i => dType i.desc == 0x45

/-! ### Completion (R315) -/

/-- A window ends at its T_p; its record tells how many EVAL items it admitted (R355). -/
def State.windowEnd (it : Item) (s : State) : State :=
  if dType it.desc = 0x11 ∧ it.started ∧ it.tp ≤ s.time then s.itemDone it.id Code.ok (leBytes 4 it.evals) else s

/-- ITEM_COMPLETION: the record of an item whose last effect is done; what has waited for the item goes on. -/
def State.itemCompletion (id : Nat) (s : State) : State :=
  match s.item? id with
  | none => s
  | some it =>
    let s := s.windowEnd it
    if (s.item? id).any (·.done) then (s.completeItem id).settleOffs.checkBase.resumeRuns.reducesReady else s

/-! ### Breach (R330) -/

/-- The dies of a gang stop with PRG_DEADLINE. -/
def State.deadline (id : Nat) (s : State) : State :=
  (s.gangOf id).foldl (fun s n => s.faultDie n 0x14 3 (s.die n).fetchAt) s

/-- An item that a reset ended before its T_p is breached at it (R330). -/
def State.endedBreach (id : Nat) (s : State) : State :=
  match s.ended.find? fun x => x.1 == id && decide (x.2.1 ≤ s.time) with
  | none => s
  | some x => ({ s with ended := s.ended.erase x }).noteBreach x.1 x.2.2 x.2.1

/-- PROMISE_BREACH: at its T_p an item neither complete nor voided is breached; a program gang stops, every other item
runs on. An item is not complete before its record (R315). A fetch that has not come completes with FETCH_FAILED instead
(Table FEX-8). -/
def State.promiseBreach (id : Nat) (s : State) : State :=
  match s.item? id with
  | none => s.endedBreach id
  | some it =>
    if !it.promised || it.voided || it.breached || decide (s.time < it.tp) || dType it.desc == 0x11 || s.fatal.isSome then s
    else if dType it.desc = 0x0E ∧ !it.done then (s.itemDone id Code.fetchFailed it.farDetail).dropWork id
    else (s.breachItem it).deadline id

/-! ### REGISTER_WRITE (R422, R423) -/

/-- A BAR0 write: of the MSI-X table, or of a register. -/
def State.registerWrite (off : Nat) (wide : Bool) (v : Nat) (s : State) : State :=
  if 0xA0000 ≤ off ∧ off < 0xA0100 then
    if !s.hostUp || !s.blockLive 92 then s
    else if off % (if wide then 8 else 4) == 0 then s.msixWrite (off - 0xA0000) wide v else s.badAccess
  else s.barWith (fun _ old new raw s => s.regEffect false off old new raw) off wide (if wide then v else v % 2 ^ 32)

/-! ### Commands -/

/-- ITEM_START (R317). -/
def execItemStart (dt item : Nat) (s : State) : Host.Outcome State Fault Refusal :=
  let t := s.advance dt
  if t.isFuseItem item then s.finishFuses dt (t.fuseItemStart item) else s.finish dt (t.itemStart item)

/-- ITEM_COMPLETION (R315). -/
def execItemCompletion (dt item : Nat) (s : State) : Host.Outcome State Fault Refusal :=
  s.finish dt ((s.advance dt).itemCompletion item)

/-- PROMISE_BREACH (R330). -/
def execPromiseBreach (dt item : Nat) (s : State) : Host.Outcome State Fault Refusal :=
  s.finish dt ((s.advance dt).promiseBreach item)

/-- REGISTER_WRITE (R423). -/
def execRegisterWrite (dt off : Nat) (wide : Bool) (v : DWord) (s : State) : Host.Outcome State Fault Refusal :=
  s.finish dt ((s.advance dt).registerWrite off wide v.toNat)

end Sys2Proof.Machine
end

