-- ==== Sys2Proof/Machine/Dispatch.lean ====
section
/-! DEFINITION. The dispatch: one arm per command, each a direct call of the command's meaning. -/

namespace Sys2Proof.Machine

def exec (i : Instr) (s : State) : Host.Outcome State Fault Refusal :=
  match i with
  | .doorbellPoll dt => Sys2Proof.Machine.execDoorbellPoll dt s
  | .mirrorWrite dt off wide v => Sys2Proof.Machine.execMirrorWrite dt off wide v s
  | .ringEnable dt ring v => Sys2Proof.Machine.execRingEnable dt ring v s
  | .ringDisable dt ring v => Sys2Proof.Machine.execRingDisable dt ring v s
  | .functionLevelReset dt => Sys2Proof.Machine.execFunctionLevelReset dt s
  | .d3hotEntry dt => Sys2Proof.Machine.execD3hotEntry dt s
  | .d0Return dt => Sys2Proof.Machine.execD0Return dt s
  | .itemCompletion dt item => Sys2Proof.Machine.execItemCompletion dt item s
  | .promiseBreach dt item => Sys2Proof.Machine.execPromiseBreach dt item s
  | .coalTimer dt ring => Sys2Proof.Machine.execCoalTimer dt ring s
  | .hostCopyToModule dt => Sys2Proof.Machine.execHostCopyToModule dt s
  | .hostCopyToHost dt => Sys2Proof.Machine.execHostCopyToHost dt s
  | .progLoad dt => Sys2Proof.Machine.execProgLoad dt s
  | .progStart dt => Sys2Proof.Machine.execProgStart dt s
  | .updateStep dt => Sys2Proof.Machine.execUpdateStep dt s
  | .updateRebase dt => Sys2Proof.Machine.execUpdateRebase dt s
  | .updateDelta dt => Sys2Proof.Machine.execUpdateDelta dt s
  | .updateRebuild dt => Sys2Proof.Machine.execUpdateRebuild dt s
  | .updateLazy dt => Sys2Proof.Machine.execUpdateLazy dt s
  | .updateRollfwd dt => Sys2Proof.Machine.execUpdateRollfwd dt s
  | .reduce dt => Sys2Proof.Machine.execReduce dt s
  | .copy dt => Sys2Proof.Machine.execCopy dt s
  | .flashRead dt => Sys2Proof.Machine.execFlashRead dt s
  | .flashWrite dt => Sys2Proof.Machine.execFlashWrite dt s
  | .pageIn dt => Sys2Proof.Machine.execPageIn dt s
  | .unpin dt => Sys2Proof.Machine.execUnpin dt s
  | .exportItem dt => Sys2Proof.Machine.execExportItem dt s
  | .importItem dt => Sys2Proof.Machine.execImportItem dt s
  | .contrib dt => Sys2Proof.Machine.execContrib dt s
  | .merge dt => Sys2Proof.Machine.execMerge dt s
  | .snapFetch dt => Sys2Proof.Machine.execSnapFetch dt s
  | .join dt => Sys2Proof.Machine.execJoin dt s
  | .digestResolveClear dt => Sys2Proof.Machine.execDigestResolveClear dt s
  | .digestResolveWinner dt => Sys2Proof.Machine.execDigestResolveWinner dt s
  | .window dt => Sys2Proof.Machine.execWindow dt s
  | .stageQuiet dt => Sys2Proof.Machine.execStageQuiet dt s
  | .stageGap dt => Sys2Proof.Machine.execStageGap dt s
  | .stageEpoch dt => Sys2Proof.Machine.execStageEpoch dt s
  | .stageGapApply dt item => Sys2Proof.Machine.execStageGapApply dt item s
  | .resetCold dt => Sys2Proof.Machine.execResetCold dt s
  | .resetWarm dt => Sys2Proof.Machine.execResetWarm dt s
  | .resetFabric dt => Sys2Proof.Machine.execResetFabric dt s
  | .resetUnit dt => Sys2Proof.Machine.execResetUnit dt s
  | .resetPort dt => Sys2Proof.Machine.execResetPort dt s
  | .resetCommandRelease dt => Sys2Proof.Machine.execResetCommandRelease dt s
  | .keyLoad dt => Sys2Proof.Machine.execKeyLoad dt s
  | .switch dt => Sys2Proof.Machine.execSwitch dt s
  | .erase dt => Sys2Proof.Machine.execErase dt s
  | .sealModeSealed dt => Sys2Proof.Machine.execSealModeSealed dt s
  | .sealModePlain dt => Sys2Proof.Machine.execSealModePlain dt s
  | .fwLoad dt => Sys2Proof.Machine.execFwLoad dt s
  | .fuseProgram dt => Sys2Proof.Machine.execFuseProgram dt s
  | .fuseRevoke dt => Sys2Proof.Machine.execFuseRevoke dt s
  | .setupLock dt => Sys2Proof.Machine.execSetupLock dt s
  | .mergeHold dt => Sys2Proof.Machine.execMergeHold dt s
  | .mergeRelease dt => Sys2Proof.Machine.execMergeRelease dt s
  | .recorderClear dt => Sys2Proof.Machine.execRecorderClear dt s
  | .powerLimit dt => Sys2Proof.Machine.execPowerLimit dt s
  | .lockoutEnd dt => Sys2Proof.Machine.execLockoutEnd dt s
  | .registerWrite dt off wide v => Sys2Proof.Machine.execRegisterWrite dt off wide v s
  | .vtDrop dt die v => Sys2Proof.Machine.execVtDrop dt die v s
  | .cobJbase dt die v => Sys2Proof.Machine.execCobJbase dt die v s
  | .pwrEn dt hi v => Sys2Proof.Machine.execPwrEn dt hi v s
  | .dormantRequest dt pin => Sys2Proof.Machine.execDormantRequest dt pin s
  | .dormantRequestRelease dt pin => Sys2Proof.Machine.execDormantRequestRelease dt pin s
  | .dormantEntry dt => Sys2Proof.Machine.execDormantEntry dt s
  | .wakeComplete dt => Sys2Proof.Machine.execWakeComplete dt s
  | .sourceSelect dt v => Sys2Proof.Machine.execSourceSelect dt v s
  | .sourceCapture dt => Sys2Proof.Machine.execSourceCapture dt s
  | .rootRelock dt => Sys2Proof.Machine.execRootRelock dt s
  | .clockMonitorWindow dt loc host recov => Sys2Proof.Machine.execClockMonitorWindow dt loc host recov s
  | .missingEdge dt src => Sys2Proof.Machine.execMissingEdge dt src s
  | .islandClockLoss dt island => Sys2Proof.Machine.execIslandClockLoss dt island s
  | .islandClockStable dt island => Sys2Proof.Machine.execIslandClockStable dt island s
  | .clkCko dt v => Sys2Proof.Machine.execClkCko dt v s
  | .clkTimeSet dt v => Sys2Proof.Machine.execClkTimeSet dt v s
  | .inputEntersRating dt profileMv => Sys2Proof.Machine.execInputEntersRating dt profileMv s
  | .inputLeavesRating dt => Sys2Proof.Machine.execInputLeavesRating dt s
  | .pwrgoodDeassert dt => Sys2Proof.Machine.execPwrgoodDeassert dt s
  | .pwrgoodAssert dt => Sys2Proof.Machine.execPwrgoodAssert dt s
  | .perstAssert dt => Sys2Proof.Machine.execPerstAssert dt s
  | .perstDeassert dt => Sys2Proof.Machine.execPerstDeassert dt s
  | .thermalTrip dt die => Sys2Proof.Machine.execThermalTrip dt die s
  | .thermtripRelease dt => Sys2Proof.Machine.execThermtripRelease dt s
  | .blockRelease dt block => Sys2Proof.Machine.execBlockRelease dt block s
  | .hubInitialisationDone dt hub crcOk rawGB => Sys2Proof.Machine.execHubInitialisationDone dt hub crcOk rawGB s
  | .pair dt crossing side gen => Sys2Proof.Machine.execPair dt crossing side gen s
  | .pairAck dt crossing side gen => Sys2Proof.Machine.execPairAck dt crossing side gen s
  | .supplyGood dt pd => Sys2Proof.Machine.execSupplyGood dt pd s
  | .domFault dt pd => Sys2Proof.Machine.execDomFault dt pd s
  | .telemetrySample dt t => Sys2Proof.Machine.execTelemetrySample dt t s
  | .sentinelReading dt die idx ps => Sys2Proof.Machine.execSentinelReading dt die idx ps s
  | .sentinelMiss dt die idx => Sys2Proof.Machine.execSentinelMiss dt die idx s
  | .identityRead dt entry r => Sys2Proof.Machine.execIdentityRead dt entry r s
  | .cagePresence dt entry => Sys2Proof.Machine.execCagePresence dt entry s
  | .cageRemoval dt entry => Sys2Proof.Machine.execCageRemoval dt entry s
  | .mgmtPrivateRead dt off len => Sys2Proof.Machine.execMgmtPrivateRead dt off len s
  | .entropyHealthFailure dt lasting => Sys2Proof.Machine.execEntropyHealthFailure dt lasting s
  | .bundleFetch dt die => Sys2Proof.Machine.execBundleFetch dt die s
  | .load dt die => Sys2Proof.Machine.execLoad dt die s
  | .loadTurn dt die => Sys2Proof.Machine.execLoadTurn dt die s
  | .store dt die => Sys2Proof.Machine.execStore dt die s
  | .tileClear dt die => Sys2Proof.Machine.execTileClear dt die s
  | .tileContinue dt die => Sys2Proof.Machine.execTileContinue dt die s
  | .tileRestore dt die => Sys2Proof.Machine.execTileRestore dt die s
  | .passOp dt die => Sys2Proof.Machine.execPassOp dt die s
  | .spill dt die tile => Sys2Proof.Machine.execSpill dt die tile s
  | .overflowReplay dt die => Sys2Proof.Machine.execOverflowReplay dt die s
  | .drainRelease dt die => Sys2Proof.Machine.execDrainRelease dt die s
  | .drainKeep dt die => Sys2Proof.Machine.execDrainKeep dt die s
  | .issue dt die => Sys2Proof.Machine.execIssue dt die s
  | .awlElement dt die => Sys2Proof.Machine.execAwlElement dt die s
  | .combineAcc dt die => Sys2Proof.Machine.execCombineAcc dt die s
  | .combineXs dt die => Sys2Proof.Machine.execCombineXs dt die s
  | .combineXiMax dt die => Sys2Proof.Machine.execCombineXiMax dt die s
  | .combineXiMin dt die => Sys2Proof.Machine.execCombineXiMin dt die s
  | .loopOp dt die => Sys2Proof.Machine.execLoopOp dt die s
  | .signal dt die => Sys2Proof.Machine.execSignal dt die s
  | .fence dt die => Sys2Proof.Machine.execFence dt die s
  | .gate dt die => Sys2Proof.Machine.execGate dt die s
  | .quiet dt die => Sys2Proof.Machine.execQuiet dt die s
  | .endOp dt die => Sys2Proof.Machine.execEndOp dt die s
  | .remoteSignal dt src dst sem => Sys2Proof.Machine.execRemoteSignal dt src dst sem s
  | .faultNotice dt src dst => Sys2Proof.Machine.execFaultNotice dt src dst s
  | .prgOverrun dt die => Sys2Proof.Machine.execPrgOverrun dt die s
  | .gateLocalSend dt => Sys2Proof.Machine.execGateLocalSend dt s
  | .gateSelfVerdict dt => Sys2Proof.Machine.execGateSelfVerdict dt s
  | .gateLocal dt => Sys2Proof.Machine.execGateLocal dt s
  | .gateGroup dt => Sys2Proof.Machine.execGateGroup dt s
  | .gateLimit dt => Sys2Proof.Machine.execGateLimit dt s
  | .closedNoleader dt => Sys2Proof.Machine.execClosedNoleader dt s
  | .shardComplete dt die => Sys2Proof.Machine.execShardComplete dt die s
  | .entryCommit dt die entry => Sys2Proof.Machine.execEntryCommit dt die entry s
  | .flitData dt port flit => Sys2Proof.Machine.execFlitData dt port flit s
  | .flitNak dt port flit => Sys2Proof.Machine.execFlitNak dt port flit s
  | .flitHello dt port flit => Sys2Proof.Machine.execFlitHello dt port flit s
  | .flitCredit dt port flit => Sys2Proof.Machine.execFlitCredit dt port flit s
  | .flitIdle dt port flit => Sys2Proof.Machine.execFlitIdle dt port flit s
  | .nearTrainingDone dt port => Sys2Proof.Machine.execNearTrainingDone dt port s
  | .nearTrainingTimeout dt port => Sys2Proof.Machine.execNearTrainingTimeout dt port s
  | .helloSend dt port => Sys2Proof.Machine.execHelloSend dt port s
  | .fecAlignLoss dt port => Sys2Proof.Machine.execFecAlignLoss dt port s
  | .linkSilence dt port => Sys2Proof.Machine.execLinkSilence dt port s
  | .nearRetrainTimer dt port => Sys2Proof.Machine.execNearRetrainTimer dt port s
  | .npRetrain dt port => Sys2Proof.Machine.execNpRetrain dt port s
  | .reduceMsg dt => Sys2Proof.Machine.execReduceMsg dt s
  | .gather dt => Sys2Proof.Machine.execGather dt s
  | .copyMsg dt => Sys2Proof.Machine.execCopyMsg dt s
  | .digestRoots dt => Sys2Proof.Machine.execDigestRoots dt s
  | .digestQuery dt => Sys2Proof.Machine.execDigestQuery dt s
  | .digestNodes dt => Sys2Proof.Machine.execDigestNodes dt s
  | .e2eAck dt => Sys2Proof.Machine.execE2eAck dt s
  | .e2eResend dt peer stitch => Sys2Proof.Machine.execE2eResend dt peer stitch s
  | .reduceCutoff dt item => Sys2Proof.Machine.execReduceCutoff dt item s
  | .frameTransmit dt port mismatches => Sys2Proof.Machine.execFrameTransmit dt port mismatches s
  | .ngtDataFrame dt port frame mismatches => Sys2Proof.Machine.execNgtDataFrame dt port frame mismatches s
  | .ngtAck dt port frame mismatches => Sys2Proof.Machine.execNgtAck dt port frame mismatches s
  | .probe dt port frame mismatches => Sys2Proof.Machine.execProbe dt port frame mismatches s
  | .ackTimer dt port => Sys2Proof.Machine.execAckTimer dt port s
  | .resendTimer dt port stitch => Sys2Proof.Machine.execResendTimer dt port stitch s
  | .probeInterval dt port => Sys2Proof.Machine.execProbeInterval dt port s
  | .overlapWindowEnd dt port slot => Sys2Proof.Machine.execOverlapWindowEnd dt port slot s
  | .farPcsLock dt port => Sys2Proof.Machine.execFarPcsLock dt port s
  | .farTrainingTimeout dt port => Sys2Proof.Machine.execFarTrainingTimeout dt port s
  | .farPcsLoss dt port => Sys2Proof.Machine.execFarPcsLoss dt port s
  | .farFrameSilence dt port => Sys2Proof.Machine.execFarFrameSilence dt port s
  | .farRetryTimer dt port => Sys2Proof.Machine.execFarRetryTimer dt port s
  | .fpRetrain dt port => Sys2Proof.Machine.execFpRetrain dt port s
  | .contribMsg dt => Sys2Proof.Machine.execContribMsg dt s
  | .hold dt => Sys2Proof.Machine.execHold dt s
  | .holdSend dt round => Sys2Proof.Machine.execHoldSend dt round s
  | .manifestCutoff dt round shard => Sys2Proof.Machine.execManifestCutoff dt round shard s
  | .manifest dt => Sys2Proof.Machine.execManifest dt s
  | .manifestTakeover dt round shard => Sys2Proof.Machine.execManifestTakeover dt round shard s
  | .fetch dt => Sys2Proof.Machine.execFetch dt s
  | .fetchRetry dt round shard origin => Sys2Proof.Machine.execFetchRetry dt round shard origin s
  | .digest dt => Sys2Proof.Machine.execDigest dt s
  | .anchorDigestWait dt round shard => Sys2Proof.Machine.execAnchorDigestWait dt round shard s
  | .dquery dt => Sys2Proof.Machine.execDquery dt s
  | .dnodes dt => Sys2Proof.Machine.execDnodes dt s
  | .joinMsg dt => Sys2Proof.Machine.execJoinMsg dt s
  | .snapReq dt => Sys2Proof.Machine.execSnapReq dt s
  | .snapshot dt => Sys2Proof.Machine.execSnapshot dt s
  | .unitReadComplete dt unit => Sys2Proof.Machine.execUnitReadComplete dt unit s
  | .unitWriteComplete dt unit => Sys2Proof.Machine.execUnitWriteComplete dt unit s
  | .ftDayBucket dt hub => Sys2Proof.Machine.execFtDayBucket dt hub s
  | .parityError dt channel unit => Sys2Proof.Machine.execParityError dt channel unit s
  | .eccError dt store die addr corrected => Sys2Proof.Machine.execEccError dt store die addr corrected s
  | .controlAccessTimeout dt die answered => Sys2Proof.Machine.execControlAccessTimeout dt die answered s
  | .errRelease dt v => Sys2Proof.Machine.execErrRelease dt v s
  | .errReleasePort dt v => Sys2Proof.Machine.execErrReleasePort dt v s
  | .recordWrite dt => Sys2Proof.Machine.execRecordWrite dt s
  | .coalesceExpiry dt code die sub => Sys2Proof.Machine.execCoalesceExpiry dt code die sub s
  | .counterEntry dt => Sys2Proof.Machine.execCounterEntry dt s
  | .sectorEraseDone dt sector => Sys2Proof.Machine.execSectorEraseDone dt sector s
  | .freeze dt v => Sys2Proof.Machine.execFreeze dt v s
  | .unfreeze dt v => Sys2Proof.Machine.execUnfreeze dt v s
  | .freezeForced dt => Sys2Proof.Machine.execFreezeForced dt s
  | .recorderWindowRead dt off wide => Sys2Proof.Machine.execRecorderWindowRead dt off wide s
  | .itemStart dt item => Sys2Proof.Machine.execItemStart dt item s
  | .sqHeadWriteback dt ring => Sys2Proof.Machine.execSqHeadWriteback dt ring s
  | .digestReplyTimeout dt group member => Sys2Proof.Machine.execDigestReplyTimeout dt group member s
  | .rootPllLock dt => Sys2Proof.Machine.execRootPllLock dt s
  | .domainSwitchOn dt => Sys2Proof.Machine.execDomainSwitchOn dt s

end Sys2Proof.Machine
end

