-- ==== Sys2Proof/Safety.lean ====
section
/-! DEFINITION. The words the statements are said in: what a command's time is, what decides a descriptor and starts its
item, what a module in service is, and what the fuses of a safe module look like. -/

namespace Sys2Proof

/-- The nanoseconds that have passed since the command before (log 3). -/
def Instr.dt : Instr → Nat
  | .doorbellPoll dt => dt
  | .mirrorWrite dt _ _ _ => dt
  | .ringEnable dt _ _ => dt
  | .ringDisable dt _ _ => dt
  | .functionLevelReset dt => dt
  | .d3hotEntry dt => dt
  | .d0Return dt => dt
  | .itemCompletion dt _ => dt
  | .promiseBreach dt _ => dt
  | .coalTimer dt _ => dt
  | .hostCopyToModule dt => dt
  | .hostCopyToHost dt => dt
  | .progLoad dt => dt
  | .progStart dt => dt
  | .updateStep dt => dt
  | .updateRebase dt => dt
  | .updateDelta dt => dt
  | .updateRebuild dt => dt
  | .updateLazy dt => dt
  | .updateRollfwd dt => dt
  | .reduce dt => dt
  | .copy dt => dt
  | .flashRead dt => dt
  | .flashWrite dt => dt
  | .pageIn dt => dt
  | .unpin dt => dt
  | .exportItem dt => dt
  | .importItem dt => dt
  | .contrib dt => dt
  | .merge dt => dt
  | .snapFetch dt => dt
  | .join dt => dt
  | .digestResolveClear dt => dt
  | .digestResolveWinner dt => dt
  | .window dt => dt
  | .stageQuiet dt => dt
  | .stageGap dt => dt
  | .stageEpoch dt => dt
  | .stageGapApply dt _ => dt
  | .resetCold dt => dt
  | .resetWarm dt => dt
  | .resetFabric dt => dt
  | .resetUnit dt => dt
  | .resetPort dt => dt
  | .resetCommandRelease dt => dt
  | .keyLoad dt => dt
  | .switch dt => dt
  | .erase dt => dt
  | .sealModeSealed dt => dt
  | .sealModePlain dt => dt
  | .fwLoad dt => dt
  | .fuseProgram dt => dt
  | .fuseRevoke dt => dt
  | .setupLock dt => dt
  | .mergeHold dt => dt
  | .mergeRelease dt => dt
  | .recorderClear dt => dt
  | .powerLimit dt => dt
  | .lockoutEnd dt => dt
  | .registerWrite dt _ _ _ => dt
  | .vtDrop dt _ _ => dt
  | .cobJbase dt _ _ => dt
  | .pwrEn dt _ _ => dt
  | .dormantRequest dt _ => dt
  | .dormantRequestRelease dt _ => dt
  | .dormantEntry dt => dt
  | .wakeComplete dt => dt
  | .sourceSelect dt _ => dt
  | .sourceCapture dt => dt
  | .rootRelock dt => dt
  | .clockMonitorWindow dt _ _ _ => dt
  | .missingEdge dt _ => dt
  | .islandClockLoss dt _ => dt
  | .islandClockStable dt _ => dt
  | .clkCko dt _ => dt
  | .clkTimeSet dt _ => dt
  | .inputEntersRating dt _ => dt
  | .inputLeavesRating dt => dt
  | .pwrgoodDeassert dt => dt
  | .pwrgoodAssert dt => dt
  | .perstAssert dt => dt
  | .perstDeassert dt => dt
  | .thermalTrip dt _ => dt
  | .thermtripRelease dt => dt
  | .blockRelease dt _ => dt
  | .hubInitialisationDone dt _ _ _ => dt
  | .pair dt _ _ _ => dt
  | .pairAck dt _ _ _ => dt
  | .supplyGood dt _ => dt
  | .domFault dt _ => dt
  | .telemetrySample dt _ => dt
  | .sentinelReading dt _ _ _ => dt
  | .sentinelMiss dt _ _ => dt
  | .identityRead dt _ _ => dt
  | .cagePresence dt _ => dt
  | .cageRemoval dt _ => dt
  | .mgmtPrivateRead dt _ _ => dt
  | .entropyHealthFailure dt _ => dt
  | .bundleFetch dt _ => dt
  | .load dt _ => dt
  | .loadTurn dt _ => dt
  | .store dt _ => dt
  | .tileClear dt _ => dt
  | .tileContinue dt _ => dt
  | .tileRestore dt _ => dt
  | .passOp dt _ => dt
  | .spill dt _ _ => dt
  | .overflowReplay dt _ => dt
  | .drainRelease dt _ => dt
  | .drainKeep dt _ => dt
  | .issue dt _ => dt
  | .awlElement dt _ => dt
  | .combineAcc dt _ => dt
  | .combineXs dt _ => dt
  | .combineXiMax dt _ => dt
  | .combineXiMin dt _ => dt
  | .loopOp dt _ => dt
  | .signal dt _ => dt
  | .fence dt _ => dt
  | .gate dt _ => dt
  | .quiet dt _ => dt
  | .endOp dt _ => dt
  | .remoteSignal dt _ _ _ => dt
  | .faultNotice dt _ _ => dt
  | .prgOverrun dt _ => dt
  | .gateLocalSend dt => dt
  | .gateSelfVerdict dt => dt
  | .gateLocal dt => dt
  | .gateGroup dt => dt
  | .gateLimit dt => dt
  | .closedNoleader dt => dt
  | .shardComplete dt _ => dt
  | .entryCommit dt _ _ => dt
  | .flitData dt _ _ => dt
  | .flitNak dt _ _ => dt
  | .flitHello dt _ _ => dt
  | .flitCredit dt _ _ => dt
  | .flitIdle dt _ _ => dt
  | .nearTrainingDone dt _ => dt
  | .nearTrainingTimeout dt _ => dt
  | .helloSend dt _ => dt
  | .fecAlignLoss dt _ => dt
  | .linkSilence dt _ => dt
  | .nearRetrainTimer dt _ => dt
  | .npRetrain dt _ => dt
  | .reduceMsg dt => dt
  | .gather dt => dt
  | .copyMsg dt => dt
  | .digestRoots dt => dt
  | .digestQuery dt => dt
  | .digestNodes dt => dt
  | .e2eAck dt => dt
  | .e2eResend dt _ _ => dt
  | .reduceCutoff dt _ => dt
  | .frameTransmit dt _ _ => dt
  | .ngtDataFrame dt _ _ _ => dt
  | .ngtAck dt _ _ _ => dt
  | .probe dt _ _ _ => dt
  | .ackTimer dt _ => dt
  | .resendTimer dt _ _ => dt
  | .probeInterval dt _ => dt
  | .overlapWindowEnd dt _ _ => dt
  | .farPcsLock dt _ => dt
  | .farTrainingTimeout dt _ => dt
  | .farPcsLoss dt _ => dt
  | .farFrameSilence dt _ => dt
  | .farRetryTimer dt _ => dt
  | .fpRetrain dt _ => dt
  | .contribMsg dt => dt
  | .hold dt => dt
  | .holdSend dt _ => dt
  | .manifestCutoff dt _ _ => dt
  | .manifest dt => dt
  | .manifestTakeover dt _ _ => dt
  | .fetch dt => dt
  | .fetchRetry dt _ _ _ => dt
  | .digest dt => dt
  | .anchorDigestWait dt _ _ => dt
  | .dquery dt => dt
  | .dnodes dt => dt
  | .joinMsg dt => dt
  | .snapReq dt => dt
  | .snapshot dt => dt
  | .unitReadComplete dt _ => dt
  | .unitWriteComplete dt _ => dt
  | .ftDayBucket dt _ => dt
  | .parityError dt _ _ => dt
  | .eccError dt _ _ _ _ => dt
  | .controlAccessTimeout dt _ _ => dt
  | .errRelease dt _ => dt
  | .errReleasePort dt _ => dt
  | .recordWrite dt => dt
  | .coalesceExpiry dt _ _ _ => dt
  | .counterEntry dt => dt
  | .sectorEraseDone dt _ => dt
  | .freeze dt _ => dt
  | .unfreeze dt _ => dt
  | .freezeForced dt => dt
  | .recorderWindowRead dt _ _ => dt
  | .itemStart dt _ => dt
  | .sqHeadWriteback dt _ => dt
  | .digestReplyTimeout dt _ _ => dt
  | .rootPllLock dt => dt
  | .domainSwitchOn dt => dt

namespace Machine

/-! ### Rows that decide a descriptor -/

/-- A command that decides the descriptor at the head: the kind it decides, its unit's checks, the start of its item. -/
structure DecisionRow where
  cmd : Nat → Instr
  kind : Nat × Nat
  check : ItemCheck
  start : ItemStart

/-- The rows whose whole effect is a decision and, at the T_s of the item, its start. -/
def decisionRows : List DecisionRow :=
  [⟨.hostCopyToModule, (0x01, 0), hostCopyCheck, hostCopyStart⟩,
   ⟨.hostCopyToHost, (0x01, 1), hostCopyCheck, hostCopyStart⟩,
   ⟨.progLoad, (0x02, 0), progLoadCheck, progLoadStart⟩,
   ⟨.updateStep, (0x04, 0), (updateCheck 0), (updateStart 0)⟩,
   ⟨.updateRebase, (0x04, 1), (updateCheck 1), (updateStart 1)⟩,
   ⟨.updateDelta, (0x04, 2), (updateCheck 2), (updateStart 2)⟩,
   ⟨.updateRebuild, (0x04, 3), (updateCheck 3), (updateStart 3)⟩,
   ⟨.updateLazy, (0x04, 4), updateLazyCheck, updateLazyStart⟩,
   ⟨.updateRollfwd, (0x04, 5), updateRollfwdCheck, updateRollfwdStart⟩,
   ⟨.copy, (0x06, 0), copyCheck, copyStart⟩,
   ⟨.flashRead, (0x07, 0), (flashCheck false), flashReadStart⟩,
   ⟨.flashWrite, (0x07, 1), (flashCheck true), flashWriteStart⟩,
   ⟨.unpin, (0x09, 0), unpinCheck, unpinStart⟩,
   ⟨.exportItem, (0x0A, 0), exportCheck, exportStart⟩,
   ⟨.importItem, (0x0B, 0), importCheck, importStart⟩,
   ⟨.contrib, (0x0C, 0), contribCheck, contribStart⟩,
   ⟨.merge, (0x0D, 0), mergeCheck, mergeStart⟩,
   ⟨.snapFetch, (0x0E, 0), snapFetchCheck, snapFetchStart⟩,
   ⟨.join, (0x0F, 0), joinCheck, joinStart⟩,
   ⟨.digestResolveClear, (0x10, 0), (resolveCheck false), resolveClearStart⟩,
   ⟨.digestResolveWinner, (0x10, 1), (resolveCheck true), resolveWinnerStart⟩,
   ⟨.window, (0x11, 0), windowCheck, windowStart⟩,
   ⟨.resetCold, (0x41, 0), resetCheck, resetStart⟩,
   ⟨.resetWarm, (0x41, 1), resetCheck, resetStart⟩,
   ⟨.resetFabric, (0x41, 2), resetCheck, resetStart⟩,
   ⟨.resetUnit, (0x41, 4), resetCheck, resetStart⟩,
   ⟨.resetPort, (0x41, 3), resetCheck, resetStart⟩,
   ⟨.keyLoad, (0x42, 0), (keyCheck true State.loadRefusal), keyLoadStart⟩,
   ⟨.switch, (0x42, 1), (keyCheck false State.switchRefusal), switchStart⟩,
   ⟨.erase, (0x42, 2), (keyCheck false State.eraseRefusal), eraseStart⟩,
   ⟨.sealModeSealed, (0x43, 0), sealCheck, sealedStart⟩,
   ⟨.sealModePlain, (0x43, 1), sealCheck, plainStart⟩,
   ⟨.fwLoad, (0x44, 0), fwCheck, fwStart⟩,
   ⟨.setupLock, (0x46, 0), lockCheck, lockStart⟩,
   ⟨.mergeHold, (0x47, 0), mergeHoldCheck, mergeHoldStart⟩,
   ⟨.mergeRelease, (0x47, 1), mergeHoldCheck, mergeReleaseStart⟩,
   ⟨.recorderClear, (0x48, 0), recorderClearCheck, recorderClearStart⟩,
   ⟨.powerLimit, (0x49, 0), powerLimitCheck, powerLimitStart⟩]

/-- What follows the start of a row's item: an EXPORT that has yet to read holds back later writes (R221). -/
def DecisionRow.after (r : DecisionRow) (id : Nat) (s : State) : State :=
  if r.kind = (0x0A, 0) then s.noteExport id else s

/-- A row that refuses descriptors and does nothing else with them: its command, the kind it decides, its unit's checks. -/
abbrev RefusingRow := (Nat → Instr) × (Nat × Nat) × ItemCheck

/-- The rows that refuse descriptors. Those of STAGE, which also bring HIF_EPOCH_PEND up to date, are not among them. -/
def refusingRows : List RefusingRow :=
  decisionRows.map (fun r => (r.cmd, r.kind, r.check))
    ++ [(.fuseProgram, (0x45, 0), fuseCheck), (.fuseRevoke, (0x45, 1), revokeCheck), (.progStart, (0x03, 0), progStartCheck),
        (.reduce, (0x05, 0), reduceCheck), (.pageIn, (0x08, 0), pageInCheck)]

/-- The rows of `refusingRows` that look at their item after the decision. -/
def lookingKinds : List (Nat × Nat) := [(0x03, 0), (0x05, 0), (0x08, 0), (0x0A, 0)]

/-- What a row's decision leads to where the one waiting descriptor is of its kind, passes every check, is scheduled and
has nothing to wait for: the item, and the state in which its start takes effect (R312, R317, R344). -/
def State.starts (kind : Nat × Nat) (check : ItemCheck) (s : State) : Option (Item × State) :=
  match s.taken with
  | [t] =>
    if !s.decides kind || rowKind t.bytes ≠ kind then none
    else match (s.setTaken []).authed t.bytes with
      | (_, some _) => none
      | (u, none) =>
        match u.judge check t with
        | .error _ => none
        | .ok (p, ts, tp, dw) =>
          let v := u.accept t p ts tp dw
          match v.item? (itemId t.ring t.index) with
          | some it =>
            if v.startWaits it then none
            else some (it, v.modItem (itemId t.ring t.index) fun i => { i with started := true })
          | none => none
  | _ => none

/-- The refusal a row answers to the one waiting descriptor, of its kind and, if a critical command, authentic; and the
state in which it is refused. -/
def State.refusal (kind : Nat × Nat) (check : ItemCheck) (s : State) : Option (Taken × Refuse × State) :=
  match s.taken with
  | [t] =>
    if !s.decides kind || rowKind t.bytes ≠ kind then none
    else match (s.setTaken []).authed t.bytes with
      | (_, some _) => none
      | (u, none) =>
        match u.judge check t with
        | .error r => some (t, r, u)
        | .ok _ => none
  | _ => none

/-- The failure of the authentication of the one waiting descriptor, of a row's kind, and the state it leaves. -/
def State.unauthentic (kind : Nat × Nat) (s : State) : Option (Taken × Nat × State) :=
  match s.taken with
  | [t] =>
    if !s.decides kind || rowKind t.bytes ≠ kind then none
    else match (s.setTaken []).authed t.bytes with
      | (u, some c) => some (t, c, u)
      | (_, none) => none
  | _ => none

/-! ### BAR0 writes (R423 to R429) -/

/-- What a BAR0 write that is taken finds: its register's row, the word before and the word after. The access is aligned
and of the register's size, the register's block answers, every field it sets lies in its range, it sets no
reserved bit, and the block is not locked. -/
def State.barTakes (off : Nat) (wide : Bool) (v : Nat) (s : State) : Option (RegRow × Nat × Nat) :=
  match blockAt off, regRowAt off with
  | some b, some r =>
    if off % (if wide then 8 else 4) == 0 && s.answers b && r.wide == wide && r.inRange false v
        && (v &&& r.resv) == 0 && !decide (b.lock ∈ s.locked) then some (r, s.reg off, r.written false (s.reg off) v)
    else none
  | _, _ => none

/-- The registers a write of which does more than set their word, beside the ring, die and port registers. -/
def actingRegs : List Nat :=
  [Reg.clkCtrl, Reg.clkCko, Reg.clkTimeSet, Reg.pwrEn, Reg.pwrEnHi, Reg.pwrCtrl, Reg.recCtrl, Reg.errRelease,
   Reg.errReleasePort, Reg.neaCoord]

/-- A register of the module's own blocks that holds what is written and does nothing beside. -/
def plainReg (off : Nat) : Bool :=
  decide (off < 0x80000) && !decide (off ∈ actingRegs) && !(decide (Reg.prmHbm 0 ≤ off) && decide (off < Reg.prmHbm 48))
    && !(decide (0x10000 ≤ off) && decide (off < 0x10800))

/-! ### Frames -/

/-- `t` differs from `s` at most in what the raising of an event touches: registers, the recorder, the pending bits of
the vectors, and what has left the module. -/
def State.OnlyReports (s t : State) : Prop :=
  ∃ r c p e, t = { s with regs := r, recorder := c, pba := p, emitted := e }

/-- `t` differs from `s` at most in what the writing of a record touches: that of `OnlyReports`, host memory, the ring
pairs and the records held in D3hot. -/
def State.OnlyRecords (s t : State) : Prop :=
  ∃ r c p e m g h, t = { s with regs := r, recorder := c, pba := p, emitted := e, host := m, rings := g, heldRecords := h }

/-- `t` differs from `s` at most in what the refusal of a descriptor touches: that of `OnlyRecords`, the descriptors waiting
and the decisions. -/
def State.OnlyRefuses (s t : State) : Prop := ∃ k d, State.OnlyRecords { s with taken := k, decided := d } t

/-- The registers that a refusal may change: PRM_REFUSED, the events it may raise, what reports them, and the words of the
rings. -/
def refusalReg (a : Nat) : Bool :=
  decide (a ∈ [Reg.prmRefused, Reg.prmEvents, Reg.hifEvents, Reg.hifOrphans, Reg.errEvents, Reg.recEvents, Reg.recLost])
    || (decide (0x10000 ≤ a) && decide (a < 0x10800))

/-- The registers that the authentication of a critical command may change (R312, R313). -/
def authRegs : List Nat := [Reg.secCmdctr, Reg.secAuthfail, Reg.secEvents, Reg.secStatus]

/-- `t` is `s` with one descriptor refused, and that is all: the descriptor waits no more and is decided as refused,
PRM_REFUSED counts, and beside the record and the events that report it only what the authentication of a critical command
leaves has changed: its counter, or the count of failures and the lockout. -/
def State.LeavesRefusal (s : State) (d : Taken) (t : State) : Prop :=
  (∃ a l, State.OnlyRefuses { s with authFails := a, lockoutAt := l } t
      ∧ (isCritical d.bytes = false → a = s.authFails ∧ l = s.lockoutAt))
    ∧ t.taken = [] ∧ t.decided = (itemId d.ring d.index, Decision.refused) :: s.decided.take 65535
    ∧ t.reg Reg.prmRefused = min (s.reg Reg.prmRefused + 1) 0xFFFFFFFF
    ∧ ∀ a, refusalReg a = false → (isCritical d.bytes = true → a ∉ authRegs) → t.reg a = s.reg a

/-- A die with no owner of its program's run and of its Cobbler's: what a RESUBMIT leaves of it (R348). -/
def Die.unowned (d : Die) : Die := { d with run := d.run.map ({ · with item := 0 }), cob := d.cob.map ({ · with item := 0 }) }

/-- A staged set with no owner: what a RESUBMIT leaves of it. -/
def StagedSet.unowned (x : StagedSet) : StagedSet := { x with item := 0 }

/-- `t` differs from `s` at most in what the decision of a descriptor touches: that of `OnlyRecords`, the descriptors
waiting, the decisions, the items and their bookings, the failed authentications, and, for a RESUBMIT, the owner of frames,
reductions, runs, staged sets and exports. -/
def State.OnlyDecides (s t : State) : Prop :=
  ∃ r c p e m g h k d i b v a l f u y w x, t = { s with
    regs := r, recorder := c, pba := p, emitted := e, host := m, rings := g, heldRecords := h, taken := k, decided := d,
    items := i, bookings := b, reservations := v, authFails := a, lockoutAt := l, farPorts := f, reduces := u,
    staged := y, exportHolds := w, dies := x }
    ∧ x.map Die.unowned = s.dies.map Die.unowned ∧ y.map StagedSet.unowned = s.staged.map StagedSet.unowned
    ∧ w.map (·.2) = s.exportHolds.map (·.2)

/-! ### Containment (R417) -/

/-- The CONTAIN source of a compute die, hub or link die. -/
def containSource (die since : Nat) : ResetSource :=
  { cause := 0x41, reach := 4, kind := if die < 48 then 1 else if die < 56 then 2 else 3
    index := if die < 48 then die else if die < 56 then die - 48 else die - 56, since := since }

/-- The CONTAIN source of a die is asserted. -/
def State.contained (s : State) (die : Nat) : Bool :=
  s.sources.any fun x => x.cause == 0x41 && x.kind == (containSource die 0).kind && x.index == (containSource die 0).index

/-! ### Ops that can issue (R117, R130) -/

/-- An op stands at the head of a slot's queue and may issue: the die runs a program, the op is of the opcode, its
units are there. -/
def State.heads (s : State) (n slot opc : Nat) (o : SlotOp) (rest : List SlotOp) : Prop :=
  (s.die n).queue slot = o :: rest ∧ s.running n = true ∧ o.op = opc ∧ (s.die n).semReady o = true

/-- The state in which an op of a slot has its effect: it has left its queue, has taken its units and been charged. -/
def State.issued (s : State) (n slot cost : Nat) (o : SlotOp) (rest : List SlotOp) : State :=
  (s.modDie n fun d => (d.setQueue slot rest).takeUnits o).charge n slot cost

/-- The tokens a CTRL op is charged: QUIET 256, any other 1 (R132). -/
def ctrlCost (opc : Nat) : Nat := if opc = 5 then 256 else 1

/-- A CTRL op is in hand, and either it has issued or it may issue: the die runs, the op is of the opcode, its units are
there, its record field is 0 and its immediate fits, and its charge stays within the certified total. -/
def State.inHand (s : State) (n opc immBits : Nat) (o : SlotOp) : Prop :=
  (s.die n).ctrl = some o ∧ s.running n = true ∧ o.op = opc ∧ ((s.die n).ctrlIssued = false →
    (s.die n).semReady o = true ∧ o.recAddr = 0 ∧ o.imm < 2 ^ immBits ∧ (s.die n).overCharge 3 (ctrlCost opc) = false)

/-- The state in which a CTRL op has its effect: it has taken its units and been charged, once, and is in hand no more. -/
def State.ctrlIssued (s : State) (n opc : Nat) (o : SlotOp) : State :=
  let t := if (s.die n).ctrlIssued then s
    else (s.modDie n fun d => { d.takeUnits o with ctrlIssued := true }).charge n 3 (ctrlCost opc)
  t.modDie n fun d => { d with ctrl := none, ctrlIssued := false }

/-- What follows the effect of an op of a slot: its signal, and the fault of an undefined op that is exposed. -/
def State.opEnds (s : State) (n slot : Nat) (o : SlotOp) : State := (s.complete n slot o).badHeads n

/-! ### Fuses (R304, R305) -/

/-- A module is UNOWNED with nothing revoked, or OWNED with a usable ORK slot. -/
def Fuses.Sound (f : Fuses) : Prop := f.programmed = 0 ∧ f.revoked = 0 ∨ f.rootSlot.isSome = true

/-- Fuses are programmed once: no bit of `f` is missing in `g`. -/
def Fuses.Within (f g : Fuses) : Prop :=
  f.programmed &&& g.programmed = f.programmed ∧ f.revoked &&& g.revoked = f.revoked
    ∧ f.pinDefault &&& g.pinDefault = f.pinDefault ∧ f.profileFuse &&& g.profileFuse = f.profileFuse
    ∧ f.clockDeny &&& g.clockDeny = f.clockDeny
    ∧ ∀ n, f.orks.getD n 0 &&& g.orks.getD n 0 = f.orks.getD n 0

end Machine

end Sys2Proof
end

