-- ==== Sys2Proof/Certificates/Slice0/Obligations.lean ====
section
/-! DEFINITION. The statements about the model that the provers are asked to prove. -/

open Sys2Proof Sys2Proof.Machine

/-! ### The machine as a whole -/

/-- Log 4 and the block's own rule: a step runs the command at the front of the queue on the state with the rest of the
queue; on an empty queue it changes nothing. -/
def Obligations.StepRunsTheFrontCommand : Prop :=
  (∀ (c : Instr) (rest : List Instr) (s : State), s.pending = c :: rest → step s = exec c { s with pending := rest })
    ∧ ∀ s : State, s.pending = [] → step s = .next s

/-- Every command of the table, in every state, ends in a next state: none stops the module. The queue is untouched and
the model's clock has moved on by the command's time (log 3). -/
def Obligations.EveryCommandAnswers : Prop :=
  ∀ (c : Instr) (s : State), ∃ t, exec c s = .next t ∧ t.pending = s.pending ∧ t.now = s.now + c.dt

/-- The state after reset (log 2): the queue is empty, the 54 V input is off, every switched domain is off, every block is
held, every register holds its reset word, no byte of any store is listed, no descriptor waits, no item is admitted, no
key, no fuse is programmed. Its fuses are those of an UNOWNED module, which are sound (R304). -/
def Obligations.ResetLeavesNothingOn : Prop :=
  (let s := State.reset;
    s.pending = [] ∧ s.inputOk = false ∧ s.on = [] ∧ (∀ b, b < 97 → b ∈ s.held) ∧ (∀ a, s.reg a = (resetWord a).toNat)
      ∧ s.hbm = [] ∧ s.sram = [] ∧ s.isram = [] ∧ s.awlBuf = [] ∧ s.flash = [] ∧ s.nor = [] ∧ s.host = []
      ∧ s.taken = [] ∧ s.items = [] ∧ s.cak = 0 ∧ s.kek = 0 ∧ s.fuses.programmed = 0 ∧ s.fuses.revoked = 0
      ∧ (∀ n, n < 8 → s.ringState n = 0) ∧ (∀ p, p < 12 → s.npState p = 0) ∧ (∀ k, k < 6 → s.fpState k = 0)
      ∧ (∀ n, n < 48 → s.prgState n = 0))
  ∧ (State.reset.fuses.Sound ∧ State.reset.fuses.rootSlot = none)

/-- R304, R305, R369: fuses are programmed once and never cleared, and no command leaves an OWNED module without a usable
ORK slot: the invariant holds after every step from every state in which it holds. Only FUSE_PROGRAM and FUSE_REVOKE change
fuses, at once or, where their item waits for its T_s, at its ITEM_START; no other command does. -/
def Obligations.FusesStaySound : Prop :=
  ∀ s t : State, s.fuses.Sound → step s = .next t →
    t.fuses.Sound ∧ s.fuses.Within t.fuses
      ∧ ∀ c rest, s.pending = c :: rest → (∀ dt, c ≠ .fuseProgram dt ∧ c ≠ .fuseRevoke dt) →
        (∀ dt id, c = .itemStart dt id → ∀ it, s.item? id = some it → dType it.desc ≠ 0x45) → t.fuses = s.fuses

/-! ### Decisions (chapters 12 and 13) -/

/-- R312, R317, R344: a row whose one waiting descriptor is of its kind, authenticates, passes every check, is scheduled
and has its T_s come takes that descriptor, and its whole effect is the start of the item it accepted (R221: and, of an
EXPORT that waits, its hold). -/
def Obligations.DecisionRowsStartTheirItem : Prop :=
  ∀ r ∈ decisionRows, ∀ (dt : Nat) (s : State) (it : Item) (u : State),
    (s.advance dt).starts r.kind r.check = some (it, u) →
      exec (r.cmd dt) s = s.finish dt (r.after it.id (r.start it u))
        ∧ u.taken = [] ∧ (s.advance dt).OnlyDecides u

/-- R343, R344: a descriptor that is refused leaves nothing but its refusal: it is taken from the waiting ones and decided as
refused, PRM_REFUSED counts, and its record and the events that report it are all that changes beside: no item arises, no
other register, no key, no fuse, no lock, no reset source, no store changes. So it is with a critical command that is authentic
and that its own checks refuse, whose counter is then used, and (R312, R313) with one whose authentication fails, which may
count toward a lockout. The rows of STAGE are left out. -/
def Obligations.RefusedCommandsHaveNoEffect : Prop :=
  (∀ r ∈ refusingRows, ∀ (dt : Nat) (s : State) (d : Taken) (e : Refuse) (u : State),
      (s.advance dt).refusal r.2.1 r.2.2 = some (d, e, u) →
      (r.2.1 ∈ lookingKinds → s.item? (itemId d.ring d.index) = none) →
        ∃ t, exec (r.1 dt) s = s.finish dt t ∧ (s.advance dt).LeavesRefusal d t)
  ∧ (∀ r ∈ refusingRows, ∀ (dt : Nat) (s : State) (d : Taken) (c : Nat) (u : State),
      (s.advance dt).unauthentic r.2.1 = some (d, c, u) →
      (r.2.1 ∈ lookingKinds → s.item? (itemId d.ring d.index) = none) →
        ∃ t, exec (r.1 dt) s = s.finish dt t ∧ (s.advance dt).LeavesRefusal d t)

/-- R280, R288, R298, R310, R327, R371, R386, R412, R429: what the critical commands do once they start. SETUP_LOCK sets
the lock flag of every block that answers; a LOAD that is not refused puts the unwrapped key into its slot, with its
counter at 1, ACTIVE where it is the port's first key and STANDBY otherwise; an ERASE empties its slot and zeroises its
key; SEAL_MODE sets the mode of a port that is OFF or FAILED; FW_LOAD keeps its image's length and digest; POWER_LIMIT
sets PWR_LIMIT; RESET asserts its source. SWITCH makes the other slot the transmit slot, ACTIVE, and lets the old one
drain unless frames come in under it; MERGE_HOLD holds a round and shard, MERGE_RELEASE ends that and, where the own
anchor is to win, lets step 8 go on; RECORDER_CLEAR sets the thresholds of the areas it names above every record written
or waiting to be cleared. -/
def Obligations.CriticalCommandsTakeEffect : Prop :=
  ∀ (it : Item) (u : State),
    let d := it.desc
    let k := keyPort d
    let slot := keySlotOf d
    (∀ b ∈ lockBlocks, u.blockLive b = true → b ∈ (lockStart it u).locked)
    ∧ (∀ key, k < 6 → slot < 2 → k < u.farPorts.length → slot < (u.fport k).keys.length → u.loadRefusal d = none →
      u.loadedKey d = some key →
        ((keyLoadStart it u).keySlot k slot).key = key ∧ (keyLoadStart it u).reg (txctr k slot) = 1
          ∧ (keyLoadStart it u).slotState k slot = (if u.slotState k 0 = 0 ∧ u.slotState k 1 = 0 then 2 else 1)
          ∧ (keyLoadStart it u).slotState k (1 - slot) = u.slotState k (1 - slot))
    ∧ (k < 6 → slot < 2 → k < u.farPorts.length → slot < (u.fport k).keys.length → u.eraseRefusal d = none →
        (eraseStart it u).keySlot k slot = {} ∧ (eraseStart it u).slotState k slot = 0
          ∧ (eraseStart it u).slotState k (1 - slot) = u.slotState k (1 - slot))
    ∧ (k < 6 → u.fpState k = 0 ∨ u.fpState k = 4 →
        (sealedStart it u).sealed k = true ∧ (plainStart it u).sealed k = false
          ∧ (∀ j, j < 6 → j ≠ k → (sealedStart it u).sealed j = u.sealed j ∧ (plainStart it u).sealed j = u.sealed j))
    ∧ (fwStart it u).firmware = some (fld d 40 4, BitVec.ofNat 256 (leNat ((d.drop 44).take 32)))
    ∧ (powerLimitStart it u).reg Reg.pwrLimit = fld d 32 4
    ∧ { cause := resetCause (fld d 32 1), reach := fld d 32 1, kind := fld d 33 1, index := fld d 34 2, since := u.now }
        ∈ (resetStart it u).sources
    ∧ (k < 6 → k < u.farPorts.length → u.switchRefusal d = none →
        (switchStart it u).txSlot k = 1 - u.txSlot k ∧ (switchStart it u).slotState k (1 - u.txSlot k) = 2
          ∧ (switchStart it u).rxSlot k = u.rxSlot k
          ∧ (switchStart it u).slotState k (u.txSlot k)
            = (if u.rxSlot k = u.txSlot k then u.slotState k (u.txSlot k) else 3))
    ∧ ((mergeHoldStart it u).exch (fld d 32 4) (fld d 36 4)).held = true
    ∧ ((mergeReleaseStart it u).exch (fld d 32 4) (fld d 36 4)).held = false
    ∧ ((u.exch (fld d 32 4) (fld d 36 4)).merged = true → fld d 41 1 = 0xFF ∨ fld d 41 1 = u.site →
        ((mergeReleaseStart it u).exch (fld d 32 4) (fld d 36 4)).proceed = true)
    ∧ (∀ a ∈ areasOf (fld d 32 1), u.recorder.thresholds.length = 3 →
        let x := u.recorder.nextSeq + BitVec.ofNat 32 (u.recorder.queue.takeWhile EventRec.isClear).length
        (recorderClearStart it u).recorder.thresholds.getD a.clearIndex 0 = x.toNat
          ∧ (recorderClearStart it u).reg (Reg.recClear a.clearIndex) = x.toNat)

/-! ### Registers (chapter 17) -/

/-- R13, Table SCO-4: the word of a register after a write. A field takes the value written if the write may set it, a
W1C bit written 1 clears, and every other bit stays. The lock withholds RWL fields and no other. -/
def Obligations.WrittenWordFollowsAccessClasses : Prop :=
  ∀ (r : RegRow) (locked : Bool) (old v i : Nat), i < 64 →
    bitOf (r.written locked old v) i =
      ((if bitOf (r.rw ||| r.stk ||| (if locked then 0 else r.rwl)) i then bitOf v i else bitOf old i)
        && !(bitOf r.w1c i && bitOf v i))

/-- R423: a BAR0 write that is taken by a register that only holds what is written sets that register's word, and nothing
else changes. -/
def Obligations.RegisterWritesSetTheirRegister : Prop :=
  ∀ (dt off : Nat) (wide : Bool) (v : DWord) (s : State) (r : RegRow) (old new : Nat), plainReg off = true →
    s.barTakes off wide (if wide then v.toNat else v.toNat % 2 ^ 32) = some (r, old, new) →
      exec (.registerWrite dt off wide v) s = s.finish dt ((s.advance dt).setReg off new)
        ∧ new = r.written false (s.reg off) (if wide then v.toNat else v.toNat % 2 ^ 32)

/-- R423 to R426: the BAR0 writes that are discarded. One to an unreachable block, or while no traffic passes from the host,
changes nothing; of the others one that is not
aligned, that names no register, of the wrong size, or that would set a field outside its range only counts in MAP_BAD_ACCESS,
which takes no count while its own block is unreachable (log 92). -/
def Obligations.DiscardedWritesOnlyCount : Prop :=
  ∀ (dt off : Nat) (wide : Bool) (v : DWord) (s : State), ¬ (0xA0000 ≤ off ∧ off < 0xA0100) →
    let w := if wide then v.toNat else v.toNat % 2 ^ 32
    let same := exec (.registerWrite dt off wide v) s = s.finish dt (s.advance dt)
    let counts := exec (.registerWrite dt off wide v) s = s.finish dt (
      if s.live 92 then (s.advance dt).count Reg.mapBadAccess 1 else s.advance dt)
    let reached : Prop := s.hostUp = true ∧ ∀ b, blockAt off = some b → s.answers b = true
    (¬ reached → same)
      ∧ (reached → off % (if wide then 8 else 4) ≠ 0 ∨ blockAt off = none ∨ regRowAt off = none → counts)
      ∧ ∀ b r, reached → off % (if wide then 8 else 4) = 0 → blockAt off = some b → regRowAt off = some r →
        r.wide ≠ wide ∨ r.inRange (decide (b.lock ∈ s.locked)) w = false → counts

/-- R429: SETUP_LOCK sets the lock flag of every block that answers, and HIF_STATUS.LOCKED. While a block's flag is set, a
write to a register leaves every RWL field as it is, the other fields take the write as usual, and MAP_LOCKED_WRITES rises by
1 where the value written differs from the current value of an RWL field, while L0's block, which holds that counter, is
reachable (the model's deduction, log 92). -/
def Obligations.LockedWritesKeepRwlFields : Prop :=
  (∀ (it : Item) (u : State), (lockStart it u).regBits Reg.hifStatus 0 0 = 1
      ∧ ∀ b ∈ lockBlocks, b ∈ (lockStart it u).locked ↔ u.blockLive b = true ∨ b ∈ u.locked)
  ∧ (∀ (dt off : Nat) (wide : Bool) (v : DWord) (s : State) (b : BarBlock) (r : RegRow),
      let w := if wide then v.toNat else v.toNat % 2 ^ 32
      ¬ (0xA0000 ≤ off ∧ off < 0xA0100) → off % (if wide then 8 else 4) = 0 → blockAt off = some b →
      regRowAt off = some r → s.answers b = true → r.wide = wide → b.lock ∈ s.locked → r.inRange true w = true →
      (w &&& r.resv) = 0 →
        (∀ i, i < 64 → bitOf (r.written true (s.reg off) w) i =
            ((if bitOf (r.rw ||| r.stk) i then bitOf w i else bitOf (s.reg off) i) && !(bitOf r.w1c i && bitOf w i)))
        ∧ exec (.registerWrite dt off wide v) s = s.finish dt (
            let u := if ((w ^^^ s.reg off) &&& r.rwl) != 0 && s.live 92 then (s.advance dt).count Reg.mapLockedWrites 1
              else s.advance dt
            if r.rw ||| r.stk ||| r.w1c ||| r.wo = 0 then u
            else u.regEffect false off (s.reg off) (r.written true (s.reg off) w) w)
        ∧ (plainReg off = true → off ≠ Reg.mapLockedWrites → ∃ t, exec (.registerWrite dt off wide v) s = .next t
            ∧ ∀ i, i < 64 → bitOf r.rwl i = true → bitOf (r.rw ||| r.stk ||| r.w1c) i = false →
              bitOf (t.reg off) i = bitOf (s.reg off) i))

/-! ### Rings (R337 to R341, R357, R428) -/

/-- R340: a write of RING_CTRL with EN = 1 turns a ring that is OFF or in CFG_ERR on where its sizes are in range and its
SQ, CQ and doorbell record lie in enabled host windows: every count of the ring is 0. Otherwise it is in CFG_ERR. A write with
EN = 0 turns a ring that is ON off, or DRAINING while records are due. The memories of the module stay as they are. -/
def Obligations.RingsTurnOnAndOff : Prop :=
  ∀ (dt n : Nat) (v : Word) (s : State), n < 8 →
    (∀ r old new, s.barTakes (Reg.ringCtrl n) false (putBits v.toNat 0 0 1) = some (r, old, new) →
      (s.ringState n = 0 ∨ s.ringState n = 3) →
        ∃ t, exec (.ringEnable dt n v) s = .next t ∧ t.reg (Reg.ringCtrl n) = new
          ∧ (t.ringState n = 1 ∨ t.ringState n = 3)
          ∧ (t.ringState n = 1 ↔ (6 ≤ s.sqLog n ∧ s.sqLog n ≤ 16 ∧ 6 ≤ s.cqLog n ∧ s.cqLog n ≤ 17
              ∧ s.hostRangeOk (s.regBits (Reg.ringSqBase n) 63 12 * 4096) (128 * 2 ^ s.sqLog n) = true
              ∧ s.hostRangeOk (s.regBits (Reg.ringCqBase n) 63 12 * 4096) (64 * 2 ^ s.cqLog n) = true
              ∧ s.hostRangeOk (s.dbAddr n) 16 = true))
          ∧ (t.ringState n = 1 → t.reg (Reg.ringHead n) = 0 ∧ t.reg (Reg.ringWritten n) = 0 ∧ t.rings = s.rings.set n {})
          ∧ t.hbm = s.hbm ∧ t.host = s.host ∧ t.dies = s.dies ∧ t.items = s.items)
    ∧ ∀ r old new, s.barTakes (Reg.ringCtrl n) false (putBits v.toNat 0 0 0) = some (r, old, new) → s.ringState n = 1 →
        ∃ t, exec (.ringDisable dt n v) s = .next t ∧ bitOf (t.reg (Reg.ringCtrl n)) 0 = false
          ∧ t.ringState n = (if (s.ring n).reservedRecords = 0 then 0 else 2)
          ∧ t.rings = s.rings ∧ t.hbm = s.hbm ∧ t.host = s.host ∧ t.dies = s.dies ∧ t.items = s.items

/-- R337, R338, R428: while the admission logic runs and host memory is in reach, in D0, a tail one beyond the head of the
one ring that is ON, seen in its doorbell record by DOORBELL_POLL or delivered by MIRROR_WRITE, makes the ring engine take
the descriptor: its 128 bytes, as host memory holds them in the SQ slot of the head, wait for their decision, the head
counts on, HIF_TAKEN counts, and the CQ keeps room for its two records. -/
def Obligations.DoorbellsTakeADescriptor : Prop :=
  ∀ (dt n : Nat) (s : State), n < 8 → s.rings.length = 8 → s.admitting = true → s.regBits Reg.hifStatus 1 1 = 0 →
    s.hostUp = true → (∀ m, m < 8 → (s.ringState m = 1 ↔ m = n)) → s.taken = [] → 1 ≤ s.regBits (Reg.ringCtrl n) 8 5 →
    (s.ring n).sinceWriteback + 1 < 16 → (s.ring n).tail = BitVec.ofNat 32 (s.reg (Reg.ringHead n)) → s.cqRoom n = true →
    let h := s.reg (Reg.ringHead n)
    let d := s.readHost (s.regBits (Reg.ringSqBase n) 63 12 * 4096 + h % 2 ^ s.sqLog n * 128) 128
    let took (t : State) : Prop :=
      t.taken = [{ ring := n, index := (s.ring n).count, bytes := d }] ∧ t.reg (Reg.ringHead n) = (h + 1) % 2 ^ 32
        ∧ t.reg Reg.hifTaken = min (s.reg Reg.hifTaken + 1) 0xFFFFFFFFFFFFFFFF
        ∧ (t.ring n).count = (s.ring n).count + 1 ∧ (t.ring n).reservedRecords = (s.ring n).reservedRecords + 2
        ∧ t.host = s.host ∧ t.hbm = s.hbm ∧ t.items = s.items ∧ t.dies = s.dies
    rowKind d ∈ knownKinds →
      (fld (s.readHost (s.dbAddr n) 8) 0 4 = (h + 1) % 2 ^ 32 → fld (s.readHost (s.dbAddr n) 8) 4 4 = (s.ring n).head.toNat →
        ∃ t, exec (.doorbellPoll dt) s = .next t ∧ took t)
      ∧ ∀ v : DWord, v.toNat % 2 ^ 32 = (h + 1) % 2 ^ 32 → ∃ t, exec (.mirrorWrite dt (n * 16) false v) s = .next t ∧ took t

/-- R341: a function-level reset turns every ring OFF with its registers at their reset words and drops what was held or due;
the items run on without records, under numbers that no new item takes (log 178). D3HOT_ENTRY stops the taking of descriptors,
D0_RETURN ends that and, while host memory is in reach, lets the held records out in order. R338, R341, R377: in D3hot, while
the admission logic does not run and while host memory is out of reach, no descriptor is taken. R338, R357:
SQ_HEAD_WRITEBACK writes sq_head to the doorbell record of a ring that is ON; COAL_TIMER, COAL_US after the first unsignalled
record, fires the ring's vector and counts from 0 again. -/
def Obligations.FunctionStatesAndTimers : Prop :=
  (∀ (dt : Nat) (s : State), s.live 92 = true →
      (∃ t, exec (.functionLevelReset dt) s = .next t ∧ t.rings = List.replicate 8 {} ∧ t.heldRecords = []
        ∧ (∀ i ∈ t.items, i.orphan = true) ∧ t.items.map (·.id) = s.items.map (fun (i : Item) => i.id + 2 ^ 48)
        ∧ (∀ n a, n < 8 → 0x10000 + n * 0x100 ≤ a → a < 0x10000 + n * 0x100 + 0x100 → t.reg a = (resetWord a).toNat)
        ∧ t.hbm = s.hbm ∧ t.host = s.host ∧ t.dies.map Die.unowned = s.dies.map Die.unowned)
      ∧ (∃ t, exec (.d3hotEntry dt) s = .next t ∧ t.regBits Reg.hifStatus 1 1 = 1 ∧ t.rings = s.rings ∧ t.items = s.items
        ∧ t.heldRecords = s.heldRecords ∧ t.host = s.host)
      ∧ (let u := (s.advance dt).setField Reg.hifStatus 1 1 0
        (s.hostUp = true → exec (.d0Return dt) s = s.finish dt
          (s.heldRecords.foldl (fun (v : State) r => v.putRecord r.1 r.2.1 r.2.2) { u with heldRecords := [] }).scanAll)
        ∧ (s.hostUp = false → exec (.d0Return dt) s = s.finish dt u.scanAll)))
  ∧ (∀ (dt : Nat) (s : State), s.regBits Reg.hifStatus 1 1 = 1 ∨ s.admitting = false ∨ s.hostUp = false → (∀ t ∈ s.taken, rowKind t.bytes ∈ knownKinds) →
      (∃ t, exec (.doorbellPoll dt) s = .next t ∧ t.taken = s.taken ∧ t.items = s.items)
        ∧ ∀ off wide v, ∃ t, exec (.mirrorWrite dt off wide v) s = .next t ∧ t.taken = s.taken ∧ t.items = s.items)
  ∧ (∀ (dt n : Nat) (s : State), n < 8 →
      (s.admitting = true → s.hostUp = true → s.ringState n = 1 → s.regBits Reg.hifStatus 1 1 = 0 →
        ∃ t, exec (.sqHeadWriteback dt n) s = .next t
          ∧ t.host = Memory.writeN blank s.host (s.dbAddr n + 8) (leBytes 4 (s.reg (Reg.ringHead n)))
          ∧ t.regs = s.regs ∧ t.hbm = s.hbm ∧ t.taken = s.taken ∧ t.items = s.items)
      ∧ ∀ first, s.live 92 = true → s.regBits (Reg.ringCtrl n) 31 24 ≠ 0 → (s.ring n).firstUnsignalled = some first →
        first + s.regBits (Reg.ringCtrl n) 31 24 * 1000 ≤ s.now + dt → n < s.rings.length →
          let v := s.regBits (Reg.ringCtrl n) 4 1
          ∃ t, exec (.coalTimer dt n) s = .next t ∧ (t.ring n).unsignalled = 0 ∧ (t.ring n).firstUnsignalled = none
            ∧ t.pba = (if v = 0 then s else s.fireVector v).pba ∧ t.emitted = (if v = 0 then s else s.fireVector v).emitted
            ∧ t.regs = s.regs ∧ t.host = s.host ∧ t.items = s.items)

/-! ### Resets and pins (R371 to R376, R380, R381, R389, R395) -/

/-- R371, R375: a reset source that asserts holds every block of its reach in reset, and is among the asserted sources. -/
def Obligations.AssertedSourcesHoldTheirReach : Prop :=
  ∀ (r : ResetSource) (s : State),
    (∀ b, b ∈ r.cover → b ∈ (s.assertSource r).held ∧ b ∈ (s.assertSource r).covered) ∧ r ∈ (s.assertSource r).sources
      ∧ (∀ b, b ∈ s.held → b ∈ (s.assertSource r).held)

/-- R372, R395: a pin that goes low while the input is in its rating asserts its source: PWRGOOD a COLD one over all blocks,
PERST_N a WARM one. A pin that goes high releases the sources of its cause and no other. R372, R376, R389:
RESET_COMMAND_RELEASE releases the sources of RESET commands 10 µs old, THERMTRIP_RELEASE the thermal trip's once every
junction has read cool for 1 s, ROOT_PLL_LOCK that of the power-on, as site time begins to count (that POWER_ON releases there
is the model's deduction, log 19). The other sources stay, and what is held stays held. -/
def Obligations.SourcesAssertAndRelease : Prop :=
  (∀ (dt : Nat) (s : State),
      (s.pwrgood = true → s.inputOk = true → ∃ t, exec (.pwrgoodDeassert dt) s = .next t ∧ t.pwrgood = false
        ∧ t.perstN = s.perstN ∧ srcPwrgood (s.now + dt) ∈ t.sources ∧ ∀ b, b < 97 → b ∈ t.held)
      ∧ (s.perstN = true → s.inputOk = true → ∃ t, exec (.perstAssert dt) s = .next t ∧ t.perstN = false
        ∧ srcPerst (s.now + dt) ∈ t.sources ∧ (∀ b ∈ (srcPerst 0).cover, b ∈ t.held) ∧ (∀ b ∈ s.held, b ∈ t.held))
      ∧ (∃ t, exec (.pwrgoodAssert dt) s = .next t ∧ t.pwrgood = true ∧ t.sources = s.sources.filter (·.cause != 0x02)
        ∧ t.held = s.held ∧ t.perstN = s.perstN ∧ t.hbm = s.hbm)
      ∧ ∃ t, exec (.perstDeassert dt) s = .next t ∧ t.perstN = true ∧ t.sources = s.sources.filter (·.cause != 0x10)
        ∧ t.held = s.held ∧ t.pwrgood = s.pwrgood ∧ t.hbm = s.hbm)
  ∧ (∀ (dt : Nat) (s : State),
      ((∃ r ∈ s.sources, r.isCommand = true ∧ r.since + 10000 ≤ s.now + dt) →
        ∃ t, exec (.resetCommandRelease dt) s = .next t
          ∧ t.sources = s.sources.filter (fun r => !(r.isCommand && decide (r.since + 10000 ≤ s.now + dt))) ∧ t.held = s.held)
      ∧ (∀ c, s.coolSince = some c → s.tripped = true → c + 1000000000 ≤ s.now + dt →
        ∃ t, exec (.thermtripRelease dt) s = .next t ∧ t.tripped = false ∧ t.sources = s.sources.filter (·.cause != 0x03)
          ∧ t.held = s.held)
      ∧ (s.inputOk = true → s.pllLocked = false → s.srcReady 0 = true →
        ∃ t, exec (.rootPllLock dt) s = .next t ∧ t.pllLocked = true ∧ t.timeRuns = true
          ∧ t.sources = s.sources.filter (·.cause != 0x01) ∧ t.held = s.held))

/-- R376: when the last source of an episode releases and no covered block that can be released is held, the episode ends:
RST_CAUSE tells the source of the widest reach, RST_COUNT rises by 1 and nothing is covered any more. -/
def Obligations.EpisodesEndWithTheirCause : Prop :=
  ∀ (dt : Nat) (s : State) (b : ResetSource), s.inputOk = true → s.covered ≠ [] → s.best = some b →
    (∀ r ∈ s.sources, r.cause = 0x10) → (∀ x ∈ s.covered, x ∉ s.held) →
      ∃ t, exec (.perstDeassert dt) s = .next t ∧ t.sources = [] ∧ t.covered = [] ∧ t.best = none
        ∧ t.reg Reg.rstCause = (b.reach + b.cause * 2 ^ 8 + b.kind * 2 ^ 16 + b.index * 2 ^ 32) % 2 ^ 64
        ∧ t.reg Reg.rstCount = min (s.reg Reg.rstCount + 1) 0xFFFFFFFF

/-- R373: a block leaves reset when every condition holds, and not before; no other block does. -/
def Obligations.BlocksLeaveResetOnCondition : Prop :=
  ∀ (dt b : Nat) (s : State),
    (s.canRelease b = true → ∃ t, exec (.blockRelease dt b) s = .next t ∧ t.held = dropFrom s.held b ∧ b ∉ t.held)
    ∧ (s.canRelease b = false → exec (.blockRelease dt b) s = s.finish dt (s.advance dt))

/-- R380, R381, R410: the input entering its rating asserts POWER_ON over every block, with the sources of the pins that are
low; leaving it stops site time, unlocks the root PLL and holds every block. -/
def Obligations.TheInputStartsAndStopsTheModule : Prop :=
  ∀ (dt mv : Nat) (s : State),
    (s.inputOk = false → ∃ t, exec (.inputEntersRating dt mv) s = .next t ∧ t.inputOk = true
      ∧ { cause := 0x01, reach := 0, kind := 0, index := 0, since := s.now + dt } ∈ t.sources
      ∧ (s.pwrgood = false → srcPwrgood (s.now + dt) ∈ t.sources) ∧ (s.perstN = false → srcPerst (s.now + dt) ∈ t.sources)
      ∧ ∀ b, b < 97 → b ∈ t.held)
    ∧ (s.inputOk = true → ∃ t, exec (.inputLeavesRating dt) s = .next t ∧ t.inputOk = false ∧ t.timeRuns = false
      ∧ t.siteTime = 0 ∧ t.pllLocked = false ∧ t.held = List.range 97)

/-- R389, R410: a junction at its trip temperature asserts THERMTRIP over every block, and every switched domain goes
off. -/
def Obligations.ThermalTripHoldsEverything : Prop :=
  ∀ (dt die : Nat) (s : State), s.inputOk = true → s.tripped = false → die < 64 →
    ∃ t, exec (.thermalTrip dt die) s = .next t ∧ t.tripped = true ∧ (∀ b, b < 97 → b ∈ t.held)
      ∧ ∀ b, b < 96 → b ∉ t.on

/-! ### Crossings (R377, R378) -/

/-- R378, Sequence CLK-2: with both sides of a crossing begun, a PAIR of the other side's present generation is answered with
a PAIR_ACK, and one's own PAIR_ACK counts; a side opens once it has seen both, and what waited at a crossing that is then open
goes on (of the PCIe port and of a near port, log 16; at any other crossing nothing waits). Those of another generation, and
those at a side that has not begun, do nothing. -/
def Obligations.CrossingsPairByGeneration : Prop :=
  ∀ (dt c : Nat) (side : Side) (gen : Bool) (s : State) (x : Crossing), look s.crossings c = some x →
    let quiet : Prop := c ≠ pcieCrossing ∧ ¬ (56 ≤ dieOfCrossing c ∧ dieOfCrossing c < 62 ∧ (c % 16 = 1 ∨ c % 16 = 2))
    let saw := x.mod side fun e => { e with pairSeen := true, opened := e.opened || e.ackSeen }
    let acked := x.mod side fun e => { e with ackSeen := true, opened := e.opened || e.pairSeen }
    ((x.side side).begun = true → (x.side (otherSide side)).begun = true → (x.side (otherSide side)).gen = gen →
        exec (.pair dt c side gen) s = s.finish dt
          (({ s.advance dt with crossings := assoc s.crossings c saw }.emit (.pair c side gen true)).resumeCrossing c)
        ∧ (quiet → ∃ t, exec (.pair dt c side gen) s = .next t ∧ t.emitted = .pair c side gen true :: s.emitted
          ∧ look t.crossings c = some saw ∧ (∀ d, d ≠ c → look t.crossings d = look s.crossings d) ∧ t.regs = s.regs))
      ∧ ((x.side side).begun = true → (x.side side).gen = gen →
        exec (.pairAck dt c side gen) s
          = s.finish dt ({ s.advance dt with crossings := assoc s.crossings c acked }.resumeCrossing c)
        ∧ (quiet → ∃ t, exec (.pairAck dt c side gen) s = .next t
          ∧ look t.crossings c = some acked
          ∧ (∀ d, d ≠ c → look t.crossings d = look s.crossings d) ∧ t.regs = s.regs ∧ t.emitted = s.emitted))
      ∧ ((x.side side).begun = false ∨ (x.side (otherSide side)).begun = false ∨ (x.side (otherSide side)).gen ≠ gen →
        exec (.pair dt c side gen) s = s.finish dt (s.advance dt))
      ∧ ((x.side side).begun = false ∨ (x.side side).gen ≠ gen →
        exec (.pairAck dt c side gen) s = s.finish dt (s.advance dt))

/-! ### Clock sources (R359 to R367) -/

/-- R363, Sequence CLK-1: SOURCE_SELECT of another source that may be selected, or of the selected one written again in
holdover, lets go of the old one, in holdover; a source that may not be selected sets CLK_EVENTS bit 0 and changes neither the
selection nor the switch. SOURCE_CAPTURE then follows the new
source and ROOT_RELOCK ends the holdover, shows the new source and sets CLK_EVENTS bit 1. -/
def Obligations.SourceSwitchesGoThroughHoldover : Prop :=
  ∀ (dt : Nat) (v : Word) (s : State),
    (∀ r old new, s.barTakes Reg.clkCtrl false v.toNat = some (r, old, new) →
      (s.selectable (bitsOf new 1 0) = true →
        bitsOf new 1 0 ≠ bitsOf old 1 0 ∨ (s.switchStep = .idle ∧ bitOf (s.reg Reg.clkStatus) 8 = true) →
        ∃ t, exec (.sourceSelect dt v) s = .next t ∧ t.switchStep = .released (bitsOf new 1 0)
          ∧ t.regBits Reg.clkCtrl 1 0 = bitsOf new 1 0 ∧ t.regBits Reg.clkStatus 8 8 = 1
          ∧ t.regBits Reg.clkStatus 7 6 = s.regBits Reg.clkStatus 7 6 ∧ t.monitors = s.monitors)
      ∧ (s.selectable (bitsOf new 1 0) = false →
        ∃ t, exec (.sourceSelect dt v) s = .next t ∧ t.switchStep = s.switchStep
          ∧ t.regBits Reg.clkCtrl 1 0 = bitsOf old 1 0 ∧ bitOf (t.reg Reg.clkEvents) 0 = true))
    ∧ (∀ d, s.switchStep = .released d → s.inputOk = true → s.srcReady d = true →
      exec (.sourceCapture dt) s = s.finish dt { s.advance dt with switchStep := .captured d })
    ∧ (∀ d, d < 4 → s.switchStep = .captured d → s.inputOk = true → s.srcReady d = true →
      ∃ t, exec (.rootRelock dt) s = .next t ∧ t.switchStep = .idle ∧ t.regBits Reg.clkStatus 7 6 = d
        ∧ t.regBits Reg.clkStatus 8 8 = 0 ∧ bitOf (t.reg Reg.clkEvents) 1 = true)

/-- R359: after a 10 µs window each monitor counts good and bad windows: 64 good ones in a row make its source stable, 2 bad
ones in a row unstable. A missing edge makes a source DEAD and unstable at once. -/
def Obligations.MonitorsJudgeTheirWindows : Prop :=
  ∀ (dt : Nat) (s : State), s.inputOk = true → s.monitors.length = 3 →
    (∀ loc host recov, ∃ t, exec (.clockMonitorWindow dt loc host recov) s = .next t
      ∧ t.monitor 0 = Monitor.window (loc.any fun ppm => decide (-30000 ≤ ppm) && decide (ppm ≤ 30000)) loc.isSome (s.monitor 0)
      ∧ t.monitor 1 = Monitor.window (host.any (windowGood 1 (!(t.monitor 0).stable) s.aligned)) host.isSome (s.monitor 1)
      ∧ (s.recovPresent = false → t.monitor 2 = Monitor.window false false (s.monitor 2)))
    ∧ ∀ src, ∃ t, exec (.missingEdge dt src) s = .next t ∧ (t.monitor (srcIndex src)).dead = true
        ∧ t.srcReady (srcIndex src) = false ∧ ∀ i, i ≠ srcIndex src → t.monitor i = s.monitor i

/-- R365: an island that loses its clock clears its clock-stable wire, its die's bit of CLK_ISLAND and sets CLK_EVENTS bit 4;
one whose clock returns, the root PLL having locked, sets it. The other wires stay. That the loss of one island clears the bit
of a die with several is the model's choice (log 136). R361, R367: CLK_TIME_SET sets site time to
the value written, CLK_CKO sets the reference outputs where no output asks for spread at another frequency than 100 MHz. -/
def Obligations.IslandClocksTimeAndOutputs : Prop :=
  (∀ (dt die : Nat) (i : Island) (s : State), s.inputOk = true → i ∈ islandsOf die →
      (s.wire die i = true → ∃ t, exec (.islandClockLoss dt (die, i)) s = .next t ∧ t.wire die i = false
        ∧ bitOf (t.reg Reg.clkIsland) die = false ∧ bitOf (t.reg Reg.clkEvents) 4 = true
        ∧ ∀ d j, (d, j) ≠ (die, i) → t.wire d j = s.wire d j)
      ∧ (s.wire die i = false → s.pllLocked = true → ∃ t, exec (.islandClockStable dt (die, i)) s = .next t
        ∧ t.wire die i = true ∧ ∀ d j, (d, j) ≠ (die, i) → t.wire d j = s.wire d j))
  ∧ (∀ (dt : Nat) (s : State),
      (∀ (v : DWord) r old new, s.barTakes Reg.clkTimeSet true v.toNat = some (r, old, new) →
        ∃ t, exec (.clkTimeSet dt v) s = .next t ∧ t.siteTime = v ∧ t.reg Reg.clkTimeSet = v.toNat ∧ t.timeRuns = s.timeRuns
          ∧ t.items = s.items ∧ t.hbm = s.hbm)
      ∧ ∀ (v : Word) r old new, s.barTakes Reg.clkCko false v.toNat = some (r, old, new) →
        (∀ n, n < 4 → bitOf new (8 + n) = true → bitsOf new (2 * n + 1) (2 * n) = 1) →
          exec (.clkCko dt v) s = s.finish dt ((s.advance dt).setReg Reg.clkCko new))

/-! ### Power and surroundings (chapter 15, R318) -/

/-- R383, R385, R393: DOMAIN_SWITCH_ON begins to switch on the domains whose turn it is, in their order, at most 6 in any
100 µs: a port waits for its core, what follows it waits too, and the two domains of a hub go together. In a wake a group of
flash pairs or of six compute dies takes 100 µs of its own. SUPPLY_GOOD powers a domain whose supply has come, and no other; in
a wake a compute die then stands at 750 mV. A domain without supply-good 1 ms after its start is switched off again, a hub's two
together, and sets PWR_EVENTS bit 7; that it is not tried again by itself is the model's deduction (log 108). -/
def Obligations.DomainsSwitchOnInTurnOrFault : Prop :=
  (∀ (dt : Nat) (s : State), s.inputOk = true → blkK1 ∉ s.held → s.tripped = false →
      let recent := s.switchedAt.filter fun x => decide (s.now + dt < x + 100000)
      let room := 6 - recent.length
      let ready := (s.switchOns.filter fun b => !s.skipped b).takeWhile s.turnComes
      ∃ t turn, exec (.domainSwitchOn dt) s = .next t ∧ turn <+: ready ∧ turn.length ≤ room
        ∧ t.rising = s.rising ++ turn.map (fun b => (b, s.now + dt))
        ∧ t.switchOns = s.switchOns.filter (fun b => !decide (b ∈ turn))
        ∧ t.switchedAt = recent ++ turn.map (fun _ => s.now + dt) ∧ (recent.length ≤ 6 → t.switchedAt.length ≤ 6)
        ∧ (∀ b ∈ turn, ∀ c, coreOf b = some c → c ∈ s.on) ∧ t.on = s.on ∧ t.held = s.held ∧ t.regs = s.regs
        ∧ (s.sleepState ≠ 3 → ready.Nodup →
          ((∀ b ∈ ready, b < 48 ∨ 64 ≤ b) → turn = ready.take room)
          ∧ ∀ j rest, j < 8 → ready = (48 + j) :: (56 + j) :: rest →
            (48 + j ∈ turn ↔ 2 ≤ room) ∧ (56 + j ∈ turn ↔ 2 ≤ room))
        ∧ (s.sleepState = 3 → ∀ b rest, ready = b :: rest → b < 48 ∨ (88 ≤ b ∧ b < 92) →
          turn = if recent = [] then takeGroups true 1 6 ready else []))
  ∧ (∀ (dt pd : Nat) (s : State), s.rising.any (·.1 == pd) = true →
      ∃ t, exec (.supplyGood dt pd) s = .next t ∧ (∀ b, b ∈ t.on ↔ b = pd ∨ b ∈ s.on)
        ∧ t.rising = s.rising.filter (·.1 != pd) ∧ t.held = s.held ∧ t.hbm = s.hbm ∧ t.items = s.items
        ∧ (s.sleepState = 3 → pd < 48 → t.reg (Reg.vcore pd) = 750))
  ∧ (∀ (dt pd : Nat) (s : State) (x : Nat × Nat), x ∈ s.rising → x.1 = pd → pd < 96 → x.2 + 1000000 ≤ s.now + dt →
      ∃ t, exec (.domFault dt pd) s = .next t
        ∧ (∀ b, b = pd ∨ (48 ≤ pd ∧ pd < 56 ∧ b = pd + 8) ∨ (56 ≤ pd ∧ pd < 64 ∧ b + 8 = pd) →
            b ∈ t.domFaults ∧ b ∉ t.on ∧ t.rising.any (·.1 == b) = false ∧ b ∉ t.switchOns ∧ b ∉ t.queueOns.switchOns)
        ∧ bitOf (t.reg Reg.pwrEvents) 7 = true)

/-- R383, R384, R385: a write of PWR_EN or PWR_EN_HI that is taken completes the requests by the dependencies: a hub's PHY
follows its logic, a port needs its link-die core, bits 31 to 28 of PWR_EN_HI are set. With no item admitted every switched
domain that is not requested is off at once; outside an episode, a requested one that is off waits to be switched on, unless
it has faulted, PROFILE is bad or Dormant keeps it off. -/
def Obligations.PowerRequestsAreCompleted : Prop :=
  ∀ (dt : Nat) (hi : Bool) (v : DWord) (s : State) (r : RegRow) (old new : Nat),
    s.barTakes (if hi then Reg.pwrEnHi else Reg.pwrEn) (!hi) (if hi then v.toNat % 2 ^ 32 else v.toNat) = some (r, old, new) →
      let lo := if hi then s.reg Reg.pwrEn else new
      let hiw := if hi then new else s.reg Reg.pwrEnHi
      ∃ t, exec (.pwrEn dt hi v) s = .next t
        ∧ exec (.pwrEn dt hi v) s = s.finish dt (((s.advance dt).setReg Reg.pwrEn (completeEn lo hiw).1).setReg Reg.pwrEnHi
            (completeEn lo hiw).2).applyEn
        ∧ t.reg Reg.pwrEn = (completeEn lo hiw).1 % 2 ^ 64 ∧ t.reg Reg.pwrEnHi = (completeEn lo hiw).2 % 2 ^ 64
        ∧ (∀ b, b < 56 → bitOf (t.reg Reg.pwrEn) b = bitOf lo b)
        ∧ (∀ j, j < 8 → bitOf (t.reg Reg.pwrEn) (56 + j) = bitOf lo (48 + j))
        ∧ (∀ i c, i < 18 → coreOf (64 + i) = some c → bitOf (t.reg Reg.pwrEnHi) i = (bitOf hiw i && bitOf hiw (c - 64)))
        ∧ (∀ i, 18 ≤ i → i < 28 → bitOf (t.reg Reg.pwrEnHi) i = bitOf hiw i)
        ∧ (∀ i, 28 ≤ i → i < 32 → bitOf (t.reg Reg.pwrEnHi) i = true)
        ∧ (s.items = [] → ∀ b, b < 92 → t.requested b = false → b ∉ t.on ∧ t.rising.any (·.1 == b) = false)
        ∧ (s.covered = [] → blkK1 ∉ s.held → bitOf (s.reg Reg.clkProfile) 4 = false → s.sleepState = 0 →
            ∀ b, b < 92 → t.requested b = true → b ∉ s.on → s.rising.any (·.1 == b) = false → b ∉ s.domFaults → b ∈ t.switchOns)

/-- R390 to R393: a request for Dormant, by pin or by PWR_CTRL, begins entry from ON; its end begins the wake from ENTERING
or DORMANT; WAKE_COMPLETE, every domain having done its part of the wake, brings ON back and sets PWR_EVENTS bit 6, and before
that does nothing; DORMANT_ENTRY, with the admitted work done, retains the
fields and shows DORMANT. -/
def Obligations.DormantGoesThroughItsStates : Prop :=
  ∀ (dt : Nat) (s : State), blkK1 ∉ s.held →
    (s.sleepState = 0 → ∃ t, exec (.dormantRequest dt true) s = .next t ∧ t.dormantPin = true ∧ t.sleepState = 1)
    ∧ (∀ r old new, s.barTakes Reg.pwrCtrl false (s.reg Reg.pwrCtrl ||| 1) = some (r, old, new) → bitOf new 0 = true →
        s.sleepState = 0 → ∃ t, exec (.dormantRequest dt false) s = .next t ∧ bitOf (t.reg Reg.pwrCtrl) 0 = true
          ∧ t.sleepState = 1)
    ∧ (s.sleepState = 1 ∨ s.sleepState = 2 → bitOf (s.reg Reg.pwrCtrl) 0 = false →
        ∃ t, exec (.dormantRequestRelease dt true) s = .next t ∧ t.dormantPin = false ∧ t.sleepState = 3
          ∧ t.wakeAt = some (s.now + dt))
    ∧ (s.sleepState = 3 → (∀ b, b < 92 → s.woken b = true) → s.dormantPin = false → bitOf (s.reg Reg.pwrCtrl) 0 = false →
        ∃ t, exec (.wakeComplete dt) s = .next t ∧ t.sleepState = 0 ∧ t.wakeAt = none
          ∧ bitOf (t.reg Reg.pwrEvents) 6 = true)
    ∧ (s.sleepState = 3 → (∃ b, b < 92 ∧ s.woken b = false) → exec (.wakeComplete dt) s = s.finish dt (s.advance dt))
    ∧ (s.sleepState = 1 → s.items.any Item.holdsDormant = false →
        ∃ t, exec (.dormantEntry dt) s = .next t ∧ t.sleepState = 2 ∧ t.retained = (s.advance dt).retain
          ∧ ∀ b, dormantOff b = true → b ∉ t.on)

/-- R387: a telemetry sample stores every junction temperature, the input, the coolant and the averages, and the peak. R382:
a core voltage stays at 600 mV or more, and at 900 mV or less where no admitted item's promise holds the die's (log 137). -/
def Obligations.TelemetryIsStored : Prop :=
  ∀ (dt : Nat) (m : Telemetry) (s : State), s.inputOk = true → blkK1 ∉ s.held → s.switchOffs = [] →
    ∃ t, exec (.telemetrySample dt m) s = .next t
      ∧ (∀ n x, n < 64 → m.temps[n]? = some x → t.reg (Reg.tempDie n) = twos 16 x)
      ∧ t.reg Reg.pwrInput = m.milliVolts % 2 ^ 16 + m.centiAmps % 2 ^ 16 * 2 ^ 16
      ∧ t.reg Reg.pwrAvg = min m.msDw 0xFFFF + min m.secDw 0xFFFF * 2 ^ 16
      ∧ t.reg Reg.pwrPeak = max (s.reg Reg.pwrPeak) (min m.msDw 0xFFFF) % 2 ^ 64
      ∧ t.reg Reg.coolant = twos 16 m.inlet + twos 16 m.outlet * 2 ^ 16
      ∧ (∀ n v, n < 48 → m.vcores[n]? = some v → 600 ≤ t.reg (Reg.vcore n)
          ∧ (s.tauFloor n = none → t.reg (Reg.vcore n) = min 900 (max 600 v)))
      ∧ t.hbm = s.hbm ∧ t.items = s.items ∧ t.on = s.on ∧ t.held = s.held

/-- R318, R365: a sentinel's reading, which the control network carries, is stored with its instant; one outside 500 to
3,000 ps faults the sentinel, and so do two intervals missed in a row. The other sentinels stay. R320: a reading above
K1's hold raises the compute die's core voltage, up to 900 mV; by how much is a free value (log 137). -/
def Obligations.SentinelsReadAndFault : Prop :=
  ∀ (dt die i : Nat) (s : State), die < 62 → s.sentinels.length = 62 → i < (s.sentinels.getD die []).length →
    s.live (sentinelPd die) = true → s.controlOk die = true →
      (∀ ps, 500 ≤ ps → ps ≤ 3000 → ∃ t, exec (.sentinelReading dt die i ps) s = .next t
        ∧ t.sentinel die i = { s.sentinel die i with ps := ps, takenAt := some (s.now + dt), misses := 0 }
        ∧ (∀ d k, (d, k) ≠ (die, i) → t.sentinel d k = s.sentinel d k)
        ∧ (∀ a, a ≠ Reg.vcore die → t.reg a = s.reg a) ∧ (48 ≤ die ∨ t.aboveHold die = false → t.regs = s.regs)
        ∧ (die < 48 → blkK1 ∉ s.held → t.aboveHold die = true → t.reg (Reg.vcore die) ≤ 900
          ∧ (s.reg (Reg.vcore die) < 900 → s.reg (Reg.vcore die) < t.reg (Reg.vcore die))))
      ∧ (∀ ps, ps < 500 ∨ 3000 < ps → ∃ t, exec (.sentinelReading dt die i ps) s = .next t
        ∧ (t.sentinel die i).faulted = true ∧ ∀ d k, (d, k) ≠ (die, i) → t.sentinel d k = s.sentinel d k)
      ∧ ∃ t, exec (.sentinelMiss dt die i) s = .next t ∧ (t.sentinel die i).misses = (s.sentinel die i).misses + 1
        ∧ (1 ≤ (s.sentinel die i).misses → (t.sentinel die i).faulted = true)
        ∧ ∀ d k, (d, k) ≠ (die, i) → t.sentinel d k = s.sentinel d k

/-- R397 to R400, R435: a read identity memory fills its entry of the surroundings table, a third failed read makes it
UNREADABLE, a cage that is left empty ABSENT; each change of an entry raises SUR_GEN by 2, and nothing else does. A read before
a cage's presence has lasted 2 s, or within 10 ms of a failed one, is none. MGMT_PRIVATE_READ sends the bytes asked for. -/
def Obligations.SurroundingsFollowTheCages : Prop :=
  ∀ (dt e : Nat) (s : State), e < 60 → s.surroundings.length = 60 → s.readerReady e = true →
    let settled := (look s.presentAt e).all (fun t => decide (t + 2000000000 ≤ s.now + dt))
      && (look s.triedAt e).all (fun t => decide (t + 10000000 ≤ s.now + dt))
    let took (t : State) (entry : List Byte) : Prop :=
      t.sur e = entry ∧ t.reg Reg.surGen = (if s.sur e = entry then s.reg Reg.surGen else (s.reg Reg.surGen + 2) % 2 ^ 32)
        ∧ ∀ f, f ≠ e → t.sur f = s.sur f
    (settled = true →
      (∀ media len app vendor part serial extra,
        ∃ t, exec (.identityRead dt e (.data media len app vendor part serial extra)) s = .next t
          ∧ took t (surEntry e media len app vendor part serial extra))
      ∧ ((look s.cageTries e).getD 0 = 2 → ∃ t, exec (.identityRead dt e .fail) s = .next t ∧ took t (surStatus e 2))
      ∧ ∃ t, exec (.identityRead dt e .bad) s = .next t ∧ took t (surStatus e 3))
    ∧ (settled = false → ∀ r, exec (.identityRead dt e r) s = s.finish dt (s.advance dt))
    ∧ (e < 18 → ∃ t, exec (.cagePresence dt e) s = .next t ∧ look t.presentAt e = some (s.now + dt)
        ∧ t.surroundings = s.surroundings ∧ t.regs = s.regs)
    ∧ (e < 18 → fld (s.sur e) 2 1 ≠ 0 → ∃ t, exec (.cageRemoval dt e) s = .next t ∧ took t (surBlank e)
        ∧ look t.presentAt e = none)
    ∧ ∀ off len, s.inputOk = true → blkK1 ∉ s.held → s.wire 63 .k1 = true →
        ∃ t, exec (.mgmtPrivateRead dt off len) s = .next t
          ∧ t.emitted = .i3c ((List.range len).map fun i => (s.advance dt).mgmtByte (off + i)) :: s.emitted ∧ t.regs = s.regs

/-! ### Security (R308, R313) -/

/-- R308, R313: a lockout ends 1 s after it began and not before; a failed health test shows FAILED and sets SEC_EVENTS
bit 2. -/
def Obligations.LockoutsEndAndNoiseFails : Prop :=
  ∀ (dt : Nat) (s : State),
    (∀ t0, s.lockoutAt = some t0 → t0 + 1000000000 ≤ s.now + dt →
      ∃ t, exec (.lockoutEnd dt) s = .next t ∧ t.lockoutAt = none ∧ t.regBits Reg.secStatus 13 13 = 0
        ∧ t.reg Reg.secSession = s.reg Reg.secSession ∧ t.reg Reg.secCmdctr = s.reg Reg.secCmdctr ∧ t.cak = s.cak)
    ∧ (∀ t0, s.lockoutAt = some t0 → s.now + dt < t0 + 1000000000 → exec (.lockoutEnd dt) s = s.finish dt (s.advance dt))
    ∧ ∀ lasting, s.live 94 = true → ∃ t, exec (.entropyHealthFailure dt lasting) s = .next t
        ∧ t.regBits Reg.secStatus 1 1 = 1 ∧ bitOf (t.reg Reg.secEvents) 2 = true ∧ t.noiseFault = lasting ∧ t.cak = s.cak

/-! ### Errors and the recorder (chapter 16) -/

/-- R28, R415 to R417: a refused unit is replayed: the replay counts and sets its bit of ERR_EVENTS; the refusal that is
the seventh failed replay of one unit fails the channel instead, a home channel with its compute die, which is contained
(which refusals are failed replays of one unit is a free value, log 160). A corrected word counts in ERR_CORRECTED, an
uncorrectable one in ERR_UNCORR, each with its bit of ERR_EVENTS; an uncorrectable word of an instruction SRAM contains
its compute die, one of the module's own state makes the module fatal; a program that runs on a die, and alone can be
reading its accumulators or Awl buffers, faults with PRG_MEM at one of these. An unanswered access counts toward the four
in a row that contain its die, an answered one ends the run. The fourth in a row contains the die: its bit of ERR_CONTAIN
is set and the blocks of its UNIT reset are held; a die that is contained already stays so. A write of ERR_RELEASE or
ERR_RELEASE_PORT with a unit's bit clears that bit and releases its source. -/
def Obligations.ErrorsCountAndAreContained : Prop :=
  (∀ (dt : Nat) (s : State), s.inputOk = true →
      (∀ c u, c ∉ s.failedChannels → s.channelReplays.find? (·.1 == c) = none →
        ∃ t, exec (.parityError dt c u) s = .next t
          ∧ t.reg Reg.errParReplays = min (s.reg Reg.errParReplays + 1) 0xFFFFFFFFFFFFFFFF
          ∧ t.channelReplays.find? (·.1 == c) = some (c, u, 1, [s.now + dt]) ∧ bitOf (t.reg Reg.errEvents) 0 = true
          ∧ t.failedChannels = s.failedChannels ∧ t.items = s.items)
      ∧ (∀ c u times, c ∉ s.failedChannels → s.channelReplays.find? (·.1 == c) = some (c, u, 7, times) →
        ∃ t, exec (.parityError dt c u) s = .next t
          ∧ (Config.goodReplay s.drawCount = false → bitOf (t.reg Reg.errEvents) 1 = true
            ∧ ((∀ n, channelOf c ≠ .home n) → c ∈ t.failedChannels ∧ t.reg Reg.errParReplays = s.reg Reg.errParReplays)
            ∧ ∀ n, channelOf c = .home n → bitOf (t.reg Reg.errContain) n = true ∨ s.contained n = true)
          ∧ (Config.goodReplay s.drawCount = true → bitOf (t.reg Reg.errEvents) 0 = true
            ∧ (t.channelReplays.find? (·.1 == c)).map (·.2.2.1) = some 1))
      ∧ (∀ st die a, ∃ t, exec (.eccError dt st die a true) s = .next t
          ∧ t.reg Reg.errCorrected = min (s.reg Reg.errCorrected + 1) 0xFFFFFFFFFFFFFFFF ∧ bitOf (t.reg Reg.errEvents) 2 = true
          ∧ t.items = s.items ∧ t.hbm = s.hbm ∧ t.dies = s.dies ∧ t.held = s.held)
      ∧ (∀ st die a, ∃ t, exec (.eccError dt st die a false) s = .next t
          ∧ t.reg Reg.errUncorr = min (s.reg Reg.errUncorr + 1) 0xFFFFFFFF ∧ bitOf (t.reg Reg.errEvents) 3 = true
          ∧ (st = .instrSram → die < 48 → bitOf (t.reg Reg.errContain) die = true ∨ s.contained die = true)
          ∧ (st = .moduleState → t.fatal.isSome = true)
          ∧ (st = .accumulator ∨ st = .awlBuffer → die < 48 → s.dies.length = 48 → s.running die = true →
            (∀ i ∈ s.items, i.reads die = false) → t.prgState die = 3 ∧ t.regBits (Reg.prgFault die) 7 0 = 0x16))
      ∧ (∀ die, die < 62 → (look s.accessMisses die).getD 0 < 3 →
          ∃ t, exec (.controlAccessTimeout dt die false) s = .next t
            ∧ look t.accessMisses die = some ((look s.accessMisses die).getD 0 + 1) ∧ t.held = s.held ∧ t.regs = s.regs)
      ∧ ∀ die, die < 62 → ∃ t, exec (.controlAccessTimeout dt die true) s = .next t ∧ look t.accessMisses die = none
          ∧ t.held = s.held ∧ t.regs = s.regs)
  ∧ (∀ (dt : Nat) (s : State),
      (∀ die, s.inputOk = true → die < 62 → (look s.accessMisses die).getD 0 = 3 →
        (s.contained die = false → ∃ t, exec (.controlAccessTimeout dt die false) s = .next t
          ∧ bitOf (t.reg Reg.errContain) die = true ∧ (containSource die (s.now + dt)) ∈ t.sources
          ∧ ∀ b ∈ (containSource die 0).cover, b ∈ t.held)
        ∧ (s.contained die = true → ∃ t, exec (.controlAccessTimeout dt die false) s = .next t
          ∧ look t.accessMisses die = none ∧ t.sources = s.sources ∧ t.held = s.held ∧ t.regs = s.regs))
      ∧ (∀ (v : DWord) r old new, s.barTakes Reg.errRelease true v.toNat = some (r, old, new) →
          ∃ t, exec (.errRelease dt v) s = .next t
            ∧ t.sources = s.sources.filter (fun x => !(x.cause == 0x41 && bitOf v.toNat x.containedDie))
            ∧ (∀ d, d < 64 → bitOf (t.reg Reg.errContain) d = (bitOf (s.reg Reg.errContain) d && !bitOf v.toNat d))
            ∧ t.held = s.held)
      ∧ ∀ (v : Word) r old new, s.barTakes Reg.errReleasePort false v.toNat = some (r, old, new) →
          ∃ t, exec (.errReleasePort dt v) s = .next t
            ∧ t.sources = s.sources.filter
                (fun x => !(x.cause == 0x31 && bitOf v.toNat (if x.kind = 4 then x.index else 12 + x.index)))
            ∧ (∀ d, d < 18 → bitOf (t.reg Reg.errContainPort) d = (bitOf (s.reg Reg.errContainPort) d && !bitOf v.toNat d))
            ∧ t.held = s.held)

/-- R406, R407: the record at the head of the recorder's queue is programmed at the writer position of its area, its valid byte
last, with the next sequence number, and leaves the queue. -/
def Obligations.RecordsAreWrittenInOrder : Prop :=
  ∀ (dt : Nat) (s : State) (r : EventRec) (rest : List EventRec), s.writerRuns = true → s.recorder.lostPending = 0 →
    s.recorder.queue = r :: rest →
      let p := s.nextUnit r.area (2 * r.area.per) (s.recorder.pos r.area)
      p % r.area.per ≠ 0 →
        ∃ t, exec (.recordWrite dt) s = .next t ∧ t.recorder.queue = rest ∧ t.recorder.nextSeq = s.recorder.nextSeq + 1
          ∧ t.nor = Memory.writeN erased (Memory.writeN erased s.nor (r.area.addr p + 1) (r.bytes (s.advance dt).recorder))
              (r.area.addr p) [0xA5]
          ∧ t.hbm = s.hbm ∧ t.regs = s.regs

/-- R404, R408, R409: 1 s after its first occurrence a held record joins the queue; every 60 s of operating time a counter
entry is written into the next erased unit of COUNTERS, its valid byte last; where the ring has come to a sector that is yet
to be erased, that is erased first, and the entry is its first. An erased sector carries its header, the erase mark, the number
of its area and its pass count, one more than before, with every other byte 0xFF, and no record. -/
def Obligations.TheRecorderKeepsTime : Prop :=
  ∀ (dt : Nat) (s : State),
    (∀ r ∈ s.recorder.waiting, (∀ x ∈ s.recorder.waiting, x.same r = true → x = r) → r.firstAt + 1000000000 ≤ s.now + dt →
      s.recorder.queue.length < 4096 →
        ∃ t, exec (.coalesceExpiry dt r.code r.die r.sub) s = .next t ∧ t.recorder.queue = s.recorder.queue ++ [r]
          ∧ t.recorder.waiting = s.recorder.waiting.filter (fun x => !x.same r) ∧ t.nor = s.nor ∧ t.regs = s.regs)
    ∧ ((s.advance dt).writerRuns = true → (s.advance dt).recorder.lastCounterMs + 60000 ≤ (s.advance dt).recorder.opMs →
        let w := s.advance dt
        let p := w.nextUnit areaCounters (2 * areaCounters.per) w.recorder.posCounter
        let v := if p % areaCounters.per = 0 then w.eraseNow (p / areaCounters.per) else w
        let q := if p % areaCounters.per = 0 then p + 1 else p
        ∃ t, exec (.counterEntry dt) s = .next t ∧ t.recorder.lastCounterMs = w.recorder.opMs
          ∧ t.nor = Memory.writeN erased (Memory.writeN erased v.nor (areaCounters.addr q + 1) (w.counterBytes false))
              (areaCounters.addr q) [0xA5]
          ∧ t.recorder.posCounter = (q + 1) % (2 * areaCounters.per)
          ∧ t.recorder.queue = s.recorder.queue ∧ t.regs = s.regs ∧ t.hbm = s.hbm)
    ∧ ∀ n, n < 512 → s.live 95 = true → s.regBits Reg.recStatus 2 2 = 0 → n ∈ s.recorder.erasing →
        ∃ t, exec (.sectorEraseDone dt n) s = .next t ∧ n ∉ t.recorder.erasing ∧ t.marked n = true
          ∧ (∀ a, a < n * 65536 ∨ (n + 1) * 65536 ≤ a → Memory.get erased t.nor a = Memory.get erased s.nor a)
          ∧ Memory.get erased t.nor (n * 65536 + 1) = BitVec.ofNat 8 (areaOfSector n).number
          ∧ leNat (t.norBytes (n * 65536 + 4) 4)
            = (if s.marked n then (leNat (s.norBytes (n * 65536 + 4) 4) + 1) % 2 ^ 32 else 0)
          ∧ ∀ a, n * 65536 + 2 ≤ a → a < (n + 1) * 65536 → a < n * 65536 + 4 ∨ n * 65536 + 8 ≤ a →
            Memory.get erased t.nor a = 0xFF

/-- R411: FREEZE stops the writer, UNFREEZE ends that; FREEZE_FORCED ends a freeze whose time is over and sets REC_EVENTS bit
0. While FROZEN a window read gives the NOR's bytes; otherwise it gives all ones and sets REC_EVENTS bit 1. -/
def Obligations.FreezingOpensTheWindow : Prop :=
  ∀ (dt : Nat) (s : State),
    (∀ (v : Word) r old new, s.barTakes Reg.recCtrl false v.toNat = some (r, old, new) → bitOf new 0 = true →
      s.regBits Reg.recStatus 2 2 = 0 → ∃ t, exec (.freeze dt v) s = .next t ∧ t.regBits Reg.recStatus 2 2 = 1
        ∧ t.recorder.frozenAt = some (s.now + dt) ∧ t.writerRuns = false ∧ t.nor = s.nor)
    ∧ (∀ (v : Word) r old new, s.barTakes Reg.recCtrl false v.toNat = some (r, old, new) → bitOf new 0 = false →
        ∃ t, exec (.unfreeze dt v) s = .next t ∧ t.regBits Reg.recStatus 2 2 = 0 ∧ t.recorder.frozenAt = none ∧ t.nor = s.nor)
    ∧ (∀ f, s.recorder.frozenAt = some f → f + s.regBits Reg.recFreeze 23 0 * 1000000 ≤ s.now + dt →
        ∃ t, exec (.freezeForced dt) s = .next t ∧ t.regBits Reg.recStatus 2 2 = 0 ∧ t.recorder.frozenAt = none
          ∧ bitOf (t.reg Reg.recEvents) 0 = true ∧ t.nor = s.nor)
    ∧ ∀ off wide, off % (if wide then 8 else 4) = 0 → off < 65536 → s.live 95 = true →
        (s.regBits Reg.recStatus 2 2 = 1 → ∃ t, exec (.recorderWindowRead dt off wide) s = .next t
          ∧ t.emitted = .windowRead (BitVec.ofNat 64 (leNat
              (s.norBytes (s.regBits Reg.recWindow 8 0 * 65536 + off) (if wide then 8 else 4)))) :: s.emitted
          ∧ t.regs = s.regs ∧ t.nor = s.nor)
        ∧ (s.regBits Reg.recStatus 2 2 ≠ 1 → ∃ t, exec (.recorderWindowRead dt off wide) s = .next t
          ∧ t.emitted.head? = some (.windowRead (if wide then 0xFFFFFFFFFFFFFFFF else 0xFFFFFFFF))
          ∧ bitOf (t.reg Reg.recEvents) 1 = true ∧ t.nor = s.nor)

/-! ### Items that have rows of their own for their start (R137, R211, R238, R353) -/

/-- R304, R305, R369: FUSE_PROGRAM programs the field of its descriptor with the value unwrapped from it, FUSE_REVOKE
revokes its slot while another usable one remains; nothing else of the fuses changes. -/
def Obligations.FuseRowsProgramFuses : Prop :=
  ∀ (dt : Nat) (s : State) (it : Item) (u : State),
    ((s.advance dt).starts (0x45, 0) fuseCheck = some (it, u) →
      ∃ v t, exec (.fuseProgram dt) s = .next t ∧ s.fuseValue it.desc = some v ∧ v.toNat < 2 ^ fuseBits (fld it.desc 32 1)
        ∧ t.fuses = s.fuses.program (fld it.desc 32 1) (fld it.desc 33 1) v ∧ t.dies.map Die.unowned = s.dies.map Die.unowned
        ∧ t.hbm = s.hbm ∧ t.sources = s.sources ∧ t.cak = s.cak ∧ t.locked = s.locked)
    ∧ ((s.advance dt).starts (0x45, 1) revokeCheck = some (it, u) →
      ∃ t, exec (.fuseRevoke dt) s = .next t ∧ s.fuses.usable (fld it.desc 33 1) = true
        ∧ t.fuses = { s.fuses with revoked := s.fuses.revoked ||| BitVec.ofNat 4 (2 ^ fld it.desc 33 1) }
        ∧ t.dies.map Die.unowned = s.dies.map Die.unowned ∧ t.hbm = s.hbm ∧ t.sources = s.sources ∧ t.cak = s.cak
        ∧ t.locked = s.locked)

/-- R352, R353: a STAGE row keeps the set of the item it accepts; a GAP set applies at the start of its item, whichever
row starts it. R354: a staged set that cannot take effect whole is dropped: none of its entries changes anything,
HIF_EVENTS bit 3 is set and its item is done with BUSY_ATOMIC, and beside what reports the event nothing else changes; a
QUIET set of one REG32 entry of a plain register that can take effect sets that register and nothing else. -/
def Obligations.StagedSetsAreKeptAndApplied : Prop :=
  (∀ (dt : Nat) (s : State) (it : Item) (u : State),
      ((s.advance dt).starts (0x12, 0) (stageCheck 0) = some (it, u) →
        exec (.stageQuiet dt) s = s.finish dt (u.noteSet it).noteSets)
      ∧ ((s.advance dt).starts (0x12, 1) (stageCheck 1) = some (it, u) →
        exec (.stageGap dt) s = s.finish dt (stageStart it u).noteSets)
      ∧ ((s.advance dt).starts (0x12, 2) (stageCheck 2) = some (it, u) →
        exec (.stageEpoch dt) s = s.finish dt (u.noteSet it).noteSets)
      ∧ ∀ x, s.item? it.id = some it → dType it.desc = 0x12 → fld it.desc 32 1 = 1 →
        (s.advance dt).startWaits it = false → (s.staged.find? fun y => y.item == it.id) = some x →
          exec (.stageGapApply dt it.id) s
            = s.finish dt (((s.advance dt).modItem it.id fun i => { i with started := true }).applySet x 0))
  ∧ (∀ (s : State) (x : StagedSet) (q : Nat), x.cls = 0 →
      (s.canApply x = false →
        (∀ a, a ≠ Reg.hifEvents → a ∉ [Reg.errEvents, Reg.recEvents, Reg.recLost] → (s.applySet x q).reg a = s.reg a)
          ∧ bitOf ((s.applySet x q).reg Reg.hifEvents) 3 = true
          ∧ State.OnlyReports { s with staged := s.staged.filter (fun y => y.item != x.item), items := (s.applySet x q).items }
              (s.applySet x q)
          ∧ (s.applySet x q).items = s.items.map (fun i => if i.id = x.item ∧ i.done = false
              then { i with done := true, code := Code.busyAtomic
                            detail := leBytes 4 (s.reg Reg.hifEpoch) ++ leBytes 2 q } else i))
      ∧ ∀ off v r, s.canApply x = true → x.entries = [(1, off, v)] → plainReg off = true → regRowAt off = some r →
        (s.applySet x q).reg off = r.stagedWord (s.reg off) v % 2 ^ 64
          ∧ (∀ a, a ≠ off → (s.applySet x q).reg a = s.reg a)
          ∧ (s.applySet x q).staged = s.staged.filter (fun y => y.item != x.item)
          ∧ ∀ i ∈ (s.applySet x q).items, i.id = x.item → i.done = true)

/-- R137, R156, R161: a PROG_START whose item starts sets every die of its gang RUNNING at its program's entry bundle, with
its queues empty and its sums 0. R211, R238: PAGE_IN takes the lines and pins of the units its item lists and REDUCE opens
its reduction, when their descriptor is accepted; the page-in ends at once where every unit is resident. -/
def Obligations.GangsPagesAndReductionsBegin : Prop :=
  (∀ (dt : Nat) (s : State) (it : Item) (u : State), (s.advance dt).starts (0x03, 0) progStartCheck = some (it, u) →
      s.item? it.id = none →
        exec (.progStart dt) s = s.finish dt ((progStartStart it u).noteEval it.id)
          ∧ ∀ n ∈ setBitsOf (fld it.desc 32 8) 48, s.dies.length = 48 →
            (progStartStart it u).prgState n = 2 ∧ ((progStartStart it u).die n).fetchAt = (s.die n).entry
              ∧ ((progStartStart it u).die n).fetching = true ∧ ((progStartStart it u).die n).ctrl = none
              ∧ (∀ k, ((progStartStart it u).die n).queue k = []) ∧ ((progStartStart it u).die n).sums = [0, 0, 0, 0]
              ∧ (((progStartStart it u).die n).run.map (·.item)) = some it.id)
  ∧ (∀ (dt : Nat) (s : State) (it : Item) (u : State),
      ((s.advance dt).starts (0x08, 0) pageInCheck = some (it, u) → s.item? it.id = none → dResubmit it.desc = false →
        let v := u.settlePage it
        ∃ j, v.item? it.id = some j ∧ j.started = true ∧ j.unitList = it.unitList
          ∧ exec (.pageIn dt) s
            = s.finish dt (State.settlePage j (((State.pageAll it.unitList it.unitList v).map (·.1)).getD v)))
      ∧ ((s.advance dt).starts (0x05, 0) reduceCheck = some (it, u) → s.item? it.id = none → dResubmit it.desc = false →
        exec (.reduce dt) s = s.finish dt ((u.admitReduce { it with started := true }).reduceReady it.id)))

/-! ### The life of an item (R315, R317, R329, R330) -/

/-- R317, R315, R330: ITEM_START starts an accepted item whose T_s has come and that has nothing to wait for;
ITEM_COMPLETION writes the record of an item that is done, which then is gone, and of a WINDOW whose T_p has come;
PROMISE_BREACH marks an item past its T_p whose record is not yet written, counts PRM_BREACHES and sets PRM_EVENTS bit 2.
Before its instant an item is not touched: ITEM_START then only lets the reductions go on whose buckets are complete, and the
other two do nothing. For no such item none of the three does anything; PROMISE_BREACH then counts one that a reset has
ended. -/
def Obligations.ItemsStartEndAndBreach : Prop :=
  (∀ (dt id : Nat) (s : State), s.item? id = none →
    exec (.itemStart dt id) s = s.finish dt (s.advance dt) ∧ exec (.itemCompletion dt id) s = s.finish dt (s.advance dt)
      ∧ ((∀ x ∈ s.ended, x.1 ≠ id) → exec (.promiseBreach dt id) s = s.finish dt (s.advance dt)))
  ∧ ∀ (dt : Nat) (s : State) (it : Item), s.item? it.id = some it →
    (∀ f, startOf it.desc = some f → dType it.desc ≠ 0x45 →
      ((s.advance dt).startWaits it = false →
        exec (.itemStart dt it.id) s
          = s.finish dt (f it ((s.advance dt).modItem it.id fun i => { i with started := true })).reducesReady)
      ∧ ((s.advance dt).startWaits it = true →
        exec (.itemStart dt it.id) s = s.finish dt (s.advance dt).reducesReady)
      ∧ (it.started = true ∨ it.done = true ∨ (s.advance dt).time < it.ts → (s.advance dt).startWaits it = true))
    ∧ (it.done = true → dType it.desc ≠ 0x11 →
      exec (.itemCompletion dt it.id) s
        = s.finish dt (((s.advance dt).completeItem it.id).settleOffs.checkBase.resumeRuns).reducesReady
      ∧ ((s.advance dt).completeItem it.id).item? it.id = none)
    ∧ (it.done = false → dType it.desc ≠ 0x11 ∨ it.started = false ∨ (s.advance dt).time < it.tp →
      exec (.itemCompletion dt it.id) s = s.finish dt (s.advance dt))
    ∧ (it.done = false → dType it.desc = 0x11 → it.started = true → it.tp ≤ (s.advance dt).time →
      exec (.itemCompletion dt it.id) s = s.finish dt
        ((((s.advance dt).itemDone it.id Code.ok (leBytes 4 it.evals)).completeItem it.id).settleOffs.checkBase.resumeRuns).reducesReady)
    ∧ (it.promised = true → it.voided = false → it.breached = false → dType it.desc ∉ [0x03, 0x11] →
      (dType it.desc = 0x0E → it.done = true) → s.gangOf it.id = [] → s.fatal = none →
        (it.tp ≤ (s.advance dt).time →
          ∃ t, exec (.promiseBreach dt it.id) s = .next t
            ∧ t.items = s.items.map (fun i => if i.id == it.id then { i with breached := true } else i)
            ∧ t.reg Reg.prmBreaches = min (s.reg Reg.prmBreaches + 1) 0xFFFFFFFF ∧ bitOf (t.reg Reg.prmEvents) 2 = true
            ∧ t.dies = s.dies ∧ t.hbm = s.hbm ∧ t.bookings = s.bookings)
        ∧ ((s.advance dt).time < it.tp → exec (.promiseBreach dt it.id) s = s.finish dt (s.advance dt)))

/-! ### Register writes that have rows of their own (R165, R190, R250, R285) -/

/-- R165, R190, R250, R285: VT_DROP releases the holds of the tags written in every entry of a die; COB_JBASE takes the
journal's new place and examines what lies there; NP_RETRAIN and FP_RETRAIN make their port train anew. -/
def Obligations.ActingRegisterWrites : Prop :=
  ∀ (dt : Nat) (s : State),
    (∀ n (v : DWord) r old new, n < 48 → s.barTakes (Reg.vtDrop n) true v.toNat = some (r, old, new) →
      ∃ t, exec (.vtDrop dt n v) s = .next t
        ∧ (∀ e k, e < 64 → k < 2 → t.reg (vtHold n e k) = s.reg (vtHold n e k) &&& (2 ^ 64 - 1 - v.toNat))
        ∧ t.dies = s.dies ∧ t.hbm = s.hbm ∧ t.sram = s.sram ∧ t.items = s.items)
    ∧ (∀ n (v : DWord) r old new, n < 48 → s.barTakes (Reg.cobJbase n) true v.toNat = some (r, old, new) →
      exec (.cobJbase dt n v) s = s.finish dt ((s.advance dt).jbaseWrite n new))
    ∧ (∀ p r old new, p < 12 → s.barTakes (Reg.npCtrl p) false (s.reg (Reg.npCtrl p) % 2 + 2) = some (r, old, new) →
      exec (.npRetrain dt p) s = s.finish dt (((s.advance dt).setReg (Reg.npCtrl p) new).nearRetrain p))
    ∧ ∀ k r old new, k < 6 →
      s.barTakes (Reg.fpCtrl k) false (s.reg (Reg.fpCtrl k) % 2 ^ 15 + 2 ^ 15) = some (r, old, new) →
        exec (.fpRetrain dt k) s = s.finish dt (((s.advance dt).setReg (Reg.fpCtrl k) new).farRetrain k)

/-! ### Hubs, flash and the row pager (R202, R206, R211, R374) -/

/-- R374, R202: a hub with both domains live that ends its initialisation serves; its flash channel, if its pair is live and
the channel is OFF, is READY, READ_ONLY by its wear, or FAILED by a bad parameter page, with FT_EVENTS bit 4. R206: an
operating hour opens a new bucket of the trailing day. R211, R205: the read of a unit of a page-in under way fills its line
with the flash's bytes and makes it RESIDENT; where its correction fails, what the READ delivers is open, and the unit is ABSENT
again and the page-ins that list it end with FLASH_READ (the model's choice, log 37). Its write-back, complete, puts the image
it took on flash at the locator it was issued for and makes a unit WRITING RESIDENT. -/
def Obligations.FlashAndPagerServe : Prop :=
  (∀ (dt j : Nat) (s : State), j < 8 → s.live (pdHub j) = true → s.live (pdPhy j) = true →
      (∀ crcOk gb, s.live (pdFlash j) = true → s.ftState j = 0 →
        (crcOk = false ∨ gb < 4000 →
          ∃ t, exec (.hubInitialisationDone dt j crcOk gb) s = .next t ∧ j ∈ t.initialised ∧ t.ftState j = 3
            ∧ bitOf (t.reg (Reg.ftEvents j)) 4 = true ∧ t.hbm = s.hbm ∧ t.flash = s.flash)
        ∧ (crcOk = true → 4000 ≤ gb →
          ∃ t, exec (.hubInitialisationDone dt j crcOk gb) s = .next t ∧ j ∈ t.initialised
            ∧ t.ftState j = (if 1000 ≤ s.nandLife.getD j 0 then 2 else 1) ∧ t.reg (Reg.ftCapacity j) = flashBlocks
            ∧ t.hbm = s.hbm ∧ t.flash = s.flash))
      ∧ (∀ crcOk gb, s.live (pdFlash j) = false →
          exec (.hubInitialisationDone dt j crcOk gb) s
            = s.finish dt { s.advance dt with initialised := addTo s.initialised j })
      ∧ (j ∈ s.initialised → s.ftState j = 1 ∨ s.ftState j = 2 →
          ∃ t, exec (.ftDayBucket dt j) s = .next t
            ∧ t.dayBuckets = modAt s.dayBuckets j (fun l => (0 :: l).take 24) ∧ t.hbm = s.hbm ∧ t.flash = s.flash
            ∧ t.items = s.items))
  ∧ (∀ (dt u : Nat) (s : State), s.hubLive (s.unitHub u) = true →
      (u < s.regBits Reg.rtCount 24 0 → s.unitState u = 1 → s.readIssued u = true →
        let l := s.unitLoc u
        let r := s.flashDeliver l (s.unitBlocks u)
        let v := { s.advance dt with drawCount := s.drawCount + 1 }
        let w := (State.writeHbm (s.unitLine u) r.1 (v.flashReadError l (s.unitBlocks u))).setLine u 0 0
        exec (.unitReadComplete dt u) s = s.finish dt
          (if r.2 then ((s.pagesOf u).foldl (fun (s : State) i => s.itemDone i.id Code.flashRead [])
              { w with pinOrder := w.pinOrder.filter (· != u) }).resumeRuns
            else ((s.pagesOf u).foldl (fun s i => s.settlePage i)
              ((State.writeHbm (s.unitLine u) r.1 v).setUnitState u 2)).resumeRuns))
      ∧ ∀ x, (s.unitWrites.find? fun y => y.unit == u) = some x → s.hubLive x.hub = true →
          s.hubLive (bitsOf x.locator 32 30) = true →
          exec (.unitWriteComplete dt u) s = s.finish dt (
            let v := State.writeFlash (Locator.parse x.locator) x.image
              { s.advance dt with unitWrites := s.unitWrites.filter fun y => y.unit != u }
            if u < s.regBits Reg.rtCount 24 0 ∧ v.unitState u = 4 then v.setUnitState u 2 else v))

/-! ### Programs (chapter 5) -/

/-- R117: BUNDLE_FETCH takes the bundle at the fetch address: the ops of slots 0 to 2 that are not NOP join their queues, a
CTRL op is taken in hand, else fetch goes on at the next bundle; with a queue full it waits, and past the code it faults with
PRG_OPCODE. -/
def Obligations.BundlesAreFetchedWhole : Prop :=
  ∀ (dt n : Nat) (s : State), s.running n = true → (s.die n).fetching = true → (s.die n).ctrl = none →
    let d := s.die n
    let raw := s.readIsram n (d.fetchAt * 32) 32
    let mk (k : Nat) : SlotOp :=
      { bits := BitVec.ofNat 64 (fld raw (8 * k) 8), bundle := d.fetchAt, i0 := (d.loops[0]?).elim 0 (·.index),
        i1 := (d.loops[1]?).elim 0 (·.index) }
    let need := [0, 1, 2].filter fun k => (mk k).op != 0
    (d.codeBytes / 32 ≤ d.fetchAt →
      exec (.bundleFetch dt n) s = s.finish dt ((s.advance dt).faultDie n 0x01 3 (d.codeBytes / 32 - 1)))
    ∧ (d.fetchAt < d.codeBytes / 32 →
      ((∃ k ∈ need, 8 ≤ (d.queue k).length) → exec (.bundleFetch dt n) s = s.finish dt (s.advance dt))
      ∧ ((∀ k ∈ need, (d.queue k).length < 8) →
        exec (.bundleFetch dt n) s = s.finish dt (((s.advance dt).modDie n fun _ =>
          let d := need.foldl (fun d k => d.setQueue k (d.queue k ++ [mk k])) d
          if (mk 3).op = 0 then d.advanceTo (d.fetchAt + 1) else { d with ctrl := some (mk 3) }).badHeads n)))

/-- R120, R130, R131, R156: what the CTRL ops do. LOOP opens a loop over the bundles behind it, SIGNAL adds units to a
semaphore of a die, FENCE lets fetch go on once all is complete, GATE does so with the verdict of the run's sequence, QUIET
with the sets staged for it, END ends the run. -/
def Obligations.ControlOpsTakeEffect : Prop :=
  ∀ (dt n : Nat) (s : State) (o : SlotOp),
    let w := s.advance dt
    (w.inHand n 1 26 o → bitsOf o.imm 15 0 ≠ 0 → bitsOf o.imm 25 16 ≠ 0 → (s.die n).loops.length < 4 →
      (∀ l, (s.die n).loops.head? = some l → o.bundle + 1 + bitsOf o.imm 25 16 ≤ l.start + l.len) →
        exec (.loopOp dt n) s = s.finish dt (((w.ctrlIssued n 1 o).modDie n fun d =>
          { d with
            loops := { start := o.bundle + 1, len := bitsOf o.imm 25 16, count := bitsOf o.imm 15 0, index := 0 } :: d.loops
            fetchAt := o.bundle + 1 }).opEnds n 3 o))
    ∧ (w.inHand n 2 16 o → bitsOf o.imm 5 0 ≤ 47 → bitsOf o.imm 15 12 ≠ 0 →
        exec (.signal dt n) s = s.finish dt ((((w.ctrlIssued n 2 o).modDie n (Die.advanceTo (o.bundle + 1))).sendSignal n
          (bitsOf o.imm 5 0) (bitsOf o.imm 11 6) (bitsOf o.imm 15 12) 3 o.bundle).opEnds n 3 o))
    ∧ (w.inHand n 3 0 o → s.settled n = true →
        exec (.fence dt n) s
          = s.finish dt (((w.ctrlIssued n 3 o).modDie n (Die.advanceTo (o.bundle + 1))).opEnds n 3 o))
    ∧ (∀ opened, w.inHand n 4 16 o → s.settled n = true → s.boundVerdict n = some opened →
        o.bundle + bitsOf o.imm 15 0 + 1 < (s.die n).codeBytes / 32 → (s.die n).loops = [] →
          exec (.gate dt n) s = s.finish dt ((((w.ctrlIssued n 4 o).setField (Reg.prgStatus n) 2 2
            (if opened then 0 else 1)).modDie n
              (Die.advanceTo (if opened then o.bundle + 1 else o.bundle + bitsOf o.imm 15 0 + 1))).opEnds n 3 o))
    ∧ (w.inHand n 5 16 o → s.settled n = true →
        exec (.quiet dt n) s = s.finish dt (((((w.ctrlIssued n 5 o).quietPoint n (bitsOf o.imm 15 0)).setField
          (Reg.prgStatus n) 23 8 (bitsOf o.imm 15 0)).modDie n (Die.advanceTo (o.bundle + 1))).opEnds n 3 o))
    ∧ (w.inHand n 6 0 o → s.settled n = true →
        exec (.endOp dt n) s = s.finish dt ((((((w.ctrlIssued n 6 o).modDie n fun d =>
          { d with tiles := d.tiles.map Tile.park, fetching := false, loops := [] }).setField (Reg.prgStatus n) 1 0
            1).releaseRun n).settleGang ((s.die n).run.elim 0 (·.item))).opEnds n 3 o))

/-- R27, R120, R134, R138: the signals of one die to another arrive in the order they were sent, none before the one ahead
of it; a signal that arrives at a die LOADED or RUNNING adds its units; past 65,535 it faults its sender, as it does at a
die that is neither. A fault notice faults a running die with PRG_PEER; past its certified tokens a run faults with
PRG_OVERRUN; the bundle that PRG_FAULT then shows, that of fetch, is the model's choice (log 74). R138, R139: a program
fault puts a running die in FAULTED with its cause in PRG_FAULT, stops its fetch and empties its queues. Memories and
other dies' queues stay. -/
def Obligations.SignalsArriveAndFaultsStop : Prop :=
  (∀ (dt src dst : Nat) (s : State),
      (∀ sem x, (s.signals.find? fun y => y.src == src && y.dst == dst) = some x → x.sem ≠ sem →
        exec (.remoteSignal dt src dst sem) s = s.finish dt (s.advance dt))
      ∧ (∀ sem x, (s.signals.find? fun y => y.src == src && y.dst == dst) = some x → x.sem = sem →
        let u := { s.advance dt with signals := s.signals.erase x }
        (s.live dst = true → s.prgState dst = 1 ∨ s.prgState dst = 2 → (s.die dst).sem sem + x.units ≤ 65535 →
          exec (.remoteSignal dt src dst sem) s = s.finish dt ((u.modDie dst fun d =>
            { d with sems := modAt d.sems sem fun v => v + BitVec.ofNat 16 x.units }).badHeads dst))
        ∧ (s.live dst = true → s.prgState dst = 1 ∨ s.prgState dst = 2 → 65535 < (s.die dst).sem sem + x.units →
          exec (.remoteSignal dt src dst sem) s = s.finish dt (u.faultDie src 0x11 x.slot x.bundle))
        ∧ (s.live dst = false ∨ (s.prgState dst ≠ 1 ∧ s.prgState dst ≠ 2) →
          exec (.remoteSignal dt src dst sem) s = s.finish dt (u.faultDie src 0x12 x.slot x.bundle)))
      ∧ ((src, dst) ∈ s.notices → s.running dst = true →
        exec (.faultNotice dt src dst) s = s.finish dt
          ({ s.advance dt with notices := s.notices.erase (src, dst) }.faultDie dst 0x15 3 (s.die dst).fetchAt))
      ∧ (s.running src = true → (s.die src).cert.path + (s.die src).cert.allowance < s.reg (Reg.prgMeter src) →
        exec (.prgOverrun dt src) s = s.finish dt ((s.advance dt).faultDie src 0x13 3 (s.die src).fetchAt)))
  ∧ (∀ (s : State) (n cause slot bundle : Nat), n < 48 → s.dies.length = 48 → s.running n = true → cause < 256 →
      let t := s.faultDie n cause slot bundle
      t.prgState n = 3 ∧ t.regBits (Reg.prgFault n) 7 0 = cause ∧ (t.die n).fetching = false ∧ (t.die n).ctrl = none
        ∧ (∀ k, (t.die n).queue k = []) ∧ t.hbm = s.hbm ∧ t.sram = s.sram ∧ t.isram = s.isram
        ∧ ∀ m, m ≠ n → t.die m = s.die m)

/-- R123: a length field of 0 or beyond its range in Table PRG-5 faults with PRG_LENGTH, an element kind of 5 to 15 with
PRG_OPCODE, and nothing moves. R113, R121, R122: a move that issues reads its source ranges and writes its destination, then
signals; one whose record is bad or whose ranges may not be used faults with the cause and moves nothing. -/
def Obligations.MovesIssue : Prop :=
  (∀ (store : Bool) (o : SlotOp) (r : List Byte),
    (5 ≤ fld r 0 1 % 16 → movePlan store o r = .error 0x01)
    ∧ (o.imm < 112 → fld r 0 1 < (if store then 16 else 32) → fld r 0 1 % 16 < 5 → fld r 1 1 = 0 → zeroIn r 40 48 = true →
        fld r 2 2 = 0 ∨ fld r 4 4 = 0 ∨ 16777216 < fld r 4 4
          ∨ (16 ≤ fld r 0 1 ∧ (4096 < fld r 2 2 ∨ 4096 < elemsOf (fld r 0 1 % 16) (fld r 4 4))) →
          movePlan store o r = .error 0x04))
  ∧ ∀ (dt n : Nat) (s : State) (o : SlotOp) (rest : List SlotOp),
    let w := s.advance dt
    let go (c : Instr) (store : Bool) : Prop :=
      w.moveReady n store o = true →
        (∀ p a b, movePlan store o (s.record n o) = .ok p → w.moveRanges n store p = .ok (a, b) →
          ((s.die n).overCharge 0 p.cost = false →
            exec c s = s.finish dt (((w.issued n 0 p.cost o rest).moveData n p a b).opEnds n 0 o))
          ∧ ((s.die n).overCharge 0 p.cost = true → exec c s = s.finish dt (w.faultDie n 0x08 0 o.bundle)))
        ∧ (∀ e, movePlan store o (s.record n o) = .error e → exec c s = s.finish dt (w.faultDie n e 0 o.bundle))
        ∧ ∀ p e, movePlan store o (s.record n o) = .ok p → w.moveRanges n store p = .error e →
          exec c s = s.finish dt (w.faultDie n e 0 o.bundle)
    (w.heads n 0 1 o rest → bitOf (fld (s.record n o) 0 1) 4 = false → go (.load dt n) false)
      ∧ (w.heads n 0 1 o rest → bitOf (fld (s.record n o) 0 1) 4 = true → go (.loadTurn dt n) false)
      ∧ (w.heads n 0 2 o rest → go (.store dt n) true)

/-- R128: a spill that falls due on a tile without a deep-sum buffer stops the program with PRG_NO_DEEP, and the tile keeps
its lanes, tags and status word, so that no product of the chunk is lost. R64 to R72, R124, R125: a TILE op that issues
starts its tile by its mode, a PASS adds its products to its tile; one whose checks fail faults with the cause, a PASS by its
record, its tile (PRG_TILE) and its operands in this order. A spill that is due folds the lanes into the deep-sum buffer. -/
def Obligations.TileOpsIssue : Prop :=
  ∀ (dt n : Nat) (s : State) (o : SlotOp) (rest : List SlotOp),
    let w := s.advance dt
    let k := o.imm % 32
    let r := s.record n o
    (∀ mode c, (mode, c) ∈ [(0, Instr.tileClear dt n), (1, .tileContinue dt n), (2, .tileRestore dt n)] →
      w.heads n 1 1 o rest → o.imm < 128 → bitsOf o.imm 6 5 = mode → ((s.die n).tile k).marked = [] →
      ((s.die n).tile k).spillDue = false →
        (∀ p, w.tileCheck n mode k r = .ok p →
          let cost := if mode = 0 then 0 else fld r 2 2 * (if bitOf (fld r 1 1) 1 then 2 else 1)
          (s.die n).overCharge 1 cost = false →
            exec c s = s.finish dt (((w.issued n 1 cost o rest).tileStart mode n k r p).opEnds n 1 o))
        ∧ ∀ e, w.tileCheck n mode k r = .error e → exec c s = s.finish dt (w.faultDie n e 1 o.bundle))
    ∧ (w.heads n 1 2 o rest → (∀ t ∈ (s.die n).tiles, t.marked = []) → ((s.die n).tile k).spillDue = false →
        (s.die n).awl = none →
          (∀ e, passRec o r = .error e → exec (.passOp dt n) s = s.finish dt (w.faultDie n e 1 o.bundle))
          ∧ ∀ p, passRec o r = .ok p →
            (p.badFor ((s.die n).tile k) = true → exec (.passOp dt n) s = s.finish dt (w.faultDie n 0x05 1 o.bundle))
            ∧ (p.badFor ((s.die n).tile k) = false →
              (∀ e, w.operands n p = .error e → exec (.passOp dt n) s = s.finish dt (w.faultDie n e 1 o.bundle))
              ∧ ∀ ops, w.operands n p = .ok ops →
                let c := if p.pair = 6 then 8 else 1
                let cost := if (s.die n).lastWasPass ∧ o.wcnt = 0 then max (c * p.ms) 128 else 128 + c * p.ms + 24
                (s.die n).overCharge 1 cost = false →
                  exec (.passOp dt n) s = s.finish dt (((w.issued n 1 cost o rest).passInto n k p ops).opEnds n 1 o)))
    ∧ (s.live n = true → ((s.die n).tile k).spillDue = true → ((s.die n).tile k).marked = [] →
        ((s.die n).tile k).deep ≠ 0 → w.deepOver n ((s.die n).tile k) = [] → s.prgState n = 2 →
          exec (.spill dt n k) s = s.finish dt
            ((State.charge n 1 (((s.die n).tile k).rows * ((s.die n).tile k).nl)
              ((w.foldDeep n ((s.die n).tile k)).modDie n fun d => d.modTile k fun t =>
                { t.setChunk 0 with lanes := [], ckTags := t.tags, passes := [], spillDue := false, spilled := t.kcount })).badHeads
              n))
    ∧ (n < 48 → s.dies.length = 48 → s.live n = true → s.prgState n = 2 → k < (s.die n).tiles.length →
        ((s.die n).tile k).spillDue = true → ((s.die n).tile k).marked = [] → ((s.die n).tile k).deep = 0 →
          ∃ t, exec (.spill dt n k) s = .next t ∧ t.prgState n = 3 ∧ t.regBits (Reg.prgFault n) 7 0 = 0x10
            ∧ ((t.die n).tile k).lanes = ((s.die n).tile k).lanes ∧ ((t.die n).tile k).tags = ((s.die n).tile k).tags
            ∧ ((t.die n).tile k).word = ((s.die n).tile k).word ∧ t.sram = s.sram ∧ t.hbm = s.hbm)

/-- R75 to R80, R127: an overflow is replayed over the passes since the checkpoint; a drain that issues writes its rows or
its image out, and with RELEASE frees its tile. R65, R67, R70: a CLEAR without a deep-sum buffer leaves an empty tile in
progress of the shape its record names; a drain with RELEASE of a tile without one leaves it free. -/
def Obligations.ReplaysAndDrains : Prop :=
  (∀ (dt n : Nat) (s : State),
      let w := s.advance dt
      (∀ k, s.live n = true → (List.range 32).find? (fun k => ((s.die n).tile k).marked != []) = some k →
        s.prgState n = 2 →
          let l := ((s.die n).tile k).passes.map fun p => (p, (w.operands n p).toOption.getD ⟨[], [], [], []⟩)
          let t := w.replayGo n k l ((l.length + 2) * 6) l.length
          exec (.overflowReplay dt n) s
            = s.finish dt ((if t.prgState n = 2 then t else t.settleGang ((s.die n).run.elim 0 (·.item))).badHeads n))
      ∧ ∀ rel c o rest places, (rel, c) ∈ [(true, Instr.drainRelease dt n), (false, .drainKeep dt n)] →
        w.heads n 1 3 o rest → bitOf o.imm 5 = rel →
          let k := o.imm % 32
          let t := (s.die n).tile k
          t.marked = [] → t.spillDue = false → (t.deep = 0 ∨ w.deepOver n t = []) →
            w.drainCheck n o (s.record n o) t = .ok places → (s.die n).overCharge 1 t.rows = false →
              exec c s = s.finish dt (((w.issued n 1 t.rows o rest).drainInto n rel k o (s.record n o) t places).opEnds n 1 o))
  ∧ (∀ (s : State) (n k : Nat) (r : List Byte), n < s.dies.length → k < (s.die n).tiles.length →
      (fld r 4 6 = 0 →
        ((s.tileClear n k r).die n).tile k
          = { status := .inProgress, a48 := bitOf (fld r 1 1) 0, twoLane := bitOf (fld r 1 1) 1, pelun := bitOf (fld r 1 1) 3,
              rows := fld r 2 2, deep := 0, e := signed 8 (fld r 0 1) }
        ∧ (s.tileClear n k r).sram = s.sram ∧ (s.tileClear n k r).regs = s.regs
        ∧ ∀ j, j ≠ k → ((s.tileClear n k r).die n).tile j = (s.die n).tile j)
      ∧ ∀ o t pl, ((s.drainInto n true k o r t pl).die n).tile k = {})

/-! ### The Awl (chapter 4) -/

/-- R101: FMIN and FMAX order −0 below +0; FCMPLT, FCMPLE and FCMPEQ are false when either operand is NaN, and FCMPEQ
treats +0 and −0 as equal. R94, R96, R129: ISSUE hands a checked record to the Awl, which claims its ranges; a record that
fails its checks faults and, where the Awl finds it, shows in AWL_FAULT. The operation then runs to its end by its kind,
on the record, the partials and the result's place that its checks found (R110), counts in AWL_OPS, gives up its claims
and signals. -/
def Obligations.AwlOperationsRun : Prop :=
  ((∀ a b : Word, (ofBits a).isNan = true ∨ (ofBits b).isNan = true →
      (alu 0x1A a b 0).1 = 0 ∧ (alu 0x1B a b 0).1 = 0 ∧ (alu 0x1C a b 0).1 = 0)
    ∧ (alu 0x1C 0 0x80000000 0).1 = truth true ∧ (alu 0x1C 0x80000000 0 0).1 = truth true
    ∧ (alu 0x16 0 0x80000000 0).1 = 0x80000000 ∧ (alu 0x16 0x80000000 0 0).1 = 0x80000000
    ∧ (alu 0x17 0 0x80000000 0).1 = 0 ∧ (alu 0x17 0x80000000 0 0).1 = 0)
  ∧ ∀ (dt n : Nat) (s : State),
    let w := s.advance dt
    (∀ o rest, w.heads n 2 1 o rest → (s.die n).awl = none → w.readsUnsettled n o = false →
      (∀ cost a, w.awlCheck n o = .ok (cost, a) → a.record = s.record n o ∧ a.op = o
        ∧ ((s.die n).overCharge 2 cost = false →
          exec (.issue dt n) s = s.finish dt (((w.issued n 2 cost o rest).modDie n fun d => { d with awl := some a }).badHeads n)))
      ∧ (∀ c, w.awlCheck n o = .error c → c < 0x100 → exec (.issue dt n) s = s.finish dt (w.faultDie n c 2 o.bundle))
      ∧ ∀ c, w.awlCheck n o = .error c → 0x100 ≤ c →
        exec (.issue dt n) s = s.finish dt
          ((w.setReg (Reg.awlFault n) (c % 256 + o.recAddr * 2 ^ 16)).faultDie n 0x09 2 o.bundle))
    ∧ ∀ a c kind sub, (c, kind, sub) ∈
        [(Instr.awlElement dt n, 0, 0), (.combineAcc dt n, 1, 0), (.combineXs dt n, 1, 1), (.combineXiMax dt n, 1, 2),
         (.combineXiMin dt n, 1, 3)] →
      (s.die n).awl = some a → s.live n = true →
        awlKind a.record = kind → (kind = 1 → (combRec a.record).kind = sub) →
          let u := if kind = 0 then w.elemRun n a.record
            else a.result.elim w fun q => w.combRun n (combRec a.record) a.parts q
          let v := ((u.count (Reg.awlOps n) 1).modDie n fun d => { d with awl := none }).complete n 2 a.op
          exec c s = s.finish dt ((if v.prgState n = 2 then v else v.settleGang ((v.die n).run.elim 0 (·.item))).badHeads n)

/-! ### The gate and the commits (R152 to R154, R188, R242, R247) -/

/-- R152, R153, R178, R191: a gate group of one whose local verdict is formed, with no update run in progress, takes it as
its verdict with c_k from its own partial: OPEN advances COB_STEP, CLOSED counts in GATE_CLOSED_COUNT and sets GATE_EVENTS
bit 0. In a larger group the local verdict goes to the leader once, with the norm partial. R153, R154: the leader takes a
member's report of the armed sequence, a member the group's verdict; one of another sequence is dropped and counted (R247
says so of the group's verdict; of a report it is the model's choice, log 24).
GATE_LIMIT after the arm a leader whose verdict is PENDING closes it; two bounds later a member without one closes its own and
sets GATE_EVENTS bit 4. -/
def Obligations.VerdictsAreFormedAndTaken : Prop :=
  (∀ (dt : Nat) (s : State) (opened : Bool),
      let u := (s.advance dt).formLocal
      u.localVerdict = some opened → u.verdict = 1 → u.updating = false → s.live 92 = true →
        (u.gateGroup = none →
          ∃ t, exec (.gateSelfVerdict dt) s = .next t ∧ t.verdict = (if opened then 2 else 3)
            ∧ t.reg Reg.cobClip = (u.clipOf u.normPartial.2).toNat
            ∧ t.reg Reg.cobStep = (if opened then (s.reg Reg.cobStep + 1) % 2 ^ 48 else s.reg Reg.cobStep)
            ∧ (opened = false → t.reg Reg.gateClosedCount = min (s.reg Reg.gateClosedCount + 1) 0xFFFFFFFF
                ∧ bitOf (t.reg Reg.gateEvents) 0 = true)
            ∧ t.hbm = s.hbm ∧ t.sram = s.sram ∧ t.dies = s.dies ∧ t.items = s.items)
        ∧ ∀ g, u.gateGroup = some g → u.localSent = false →
          exec (.gateLocalSend dt) s = s.finish dt (
            let v := { u with localSent := true }
            if g.self = 0 then v.takeReport g 0 opened u.normPartial.1 u.normPartial.2
            else v.sendNear 4 0 (g.member 0) g.id 0 0 (leBytes 2 (u.regBits Reg.gateStatus 31 16)
              ++ [if opened then 2 else 3, 0] ++ leBytes 6 u.normPartial.1 ++ zeros 6
              ++ leBytes 80 (twos 640 u.normPartial.2))))
  ∧ (∀ (dt : Nat) (s : State),
      (∀ m u g i, (s.advance dt).takeMsg 4 = some (m, u) → u.gateGroup = some g → g.self = 0 →
        g.members.idxOf? m.src = some i →
          exec (.gateLocal dt) s = s.finish dt (
            if fld m.body 0 2 = s.regBits Reg.gateStatus 31 16
            then u.takeReport g i (fld m.body 2 1 == 2) (fld m.body 4 6) (signed 640 (fld m.body 16 80))
            else u.count Reg.neaEpochDrops 1))
      ∧ (∀ m u, (s.advance dt).takeMsg 5 = some (m, u) →
        (fld m.body 0 2 ≠ s.regBits Reg.gateStatus 31 16 →
          exec (.gateGroup dt) s = s.finish dt (u.count Reg.neaEpochDrops 1))
        ∧ (fld m.body 0 2 = s.regBits Reg.gateStatus 31 16 → s.verdict = 1 →
          ∃ t, exec (.gateGroup dt) s = .next t ∧ t.verdict = (if fld m.body 2 1 = 2 then 2 else 3)
            ∧ t.reg Reg.cobClip = fld m.body 4 4 ∧ t.inbox = s.inbox.erase m ∧ t.dies = s.dies ∧ t.hbm = s.hbm))
      ∧ (s.verdict = 1 → s.live 92 = true → s.armedAt + s.gateLimit ≤ s.now + dt →
        ((s.advance dt).gateGroup = none →
          exec (.gateLimit dt) s = s.finish dt ((s.advance dt).selfVerdict false 1))
        ∧ ∀ g, (s.advance dt).gateGroup = some g → g.self = 0 →
          exec (.gateLimit dt) s = s.finish dt ((s.advance dt).groupVerdict g false 1))
      ∧ (s.verdict = 1 → s.live 92 = true → (s.advance dt).leads = false →
        s.armedAt + s.gateLimit + 2 * (s.advance dt).gateBound ≤ s.now + dt →
          ∃ t, exec (.closedNoleader dt) s = .next t ∧ t.verdict = 3 ∧ bitOf (t.reg Reg.gateEvents) 4 = true
            ∧ t.reg Reg.gateClosedCount = min (s.reg Reg.gateClosedCount + 1) 0xFFFFFFFF
            ∧ t.reg Reg.cobClip = s.reg Reg.cobClip ∧ t.reg Reg.cobStep = s.reg Reg.cobStep ∧ t.dies = s.dies
            ∧ t.hbm = s.hbm))

/-- R188, R242: SHARD_COMPLETE lets the Cobbler of a live die work on its plans from the next one on; ENTRY_COMMIT makes
the target slot of a valid entry, FILLING, with no run of the die left, its own shards updated and its gathers in, the
CURRENT one with the next version; once no entry of the die is FILLING, the step ends there, on a die without a run too
(the model's deduction, log 88). -/
def Obligations.UpdatesGoOnAndCommit : Prop :=
  ∀ (dt n : Nat) (s : State), n < 48 → s.live n = true →
    (∀ c, (s.die n).cob = some c →
      exec (.shardComplete dt n) s
        = s.finish dt ((iter (State.cobStep n) (c.plans.length - c.next) (s.advance dt)).cobEnd n))
    ∧ ∀ e, s.entryValid n e = true → s.vtSt n e (s.targetSlot n e) = 3 → (s.die n).cob = none →
        (∀ r ∈ (s.advance dt).gathersOf n e, (s.advance dt).gatheredAll r = true ∧ (s.advance dt).ownLeft r = false) →
          let u := (s.advance dt).makeCurrent n e (s.targetSlot n e) (s.currentVersion n e + 1)
          let v := { u with reduces := u.reduces.map fun (r : Reduce) =>
            if r ∈ (s.advance dt).gathersOf n e then { r with committed := true, gathered := [], lost := [] } else r }
          exec (.entryCommit dt n e) s = s.finish dt
            (if (List.range 64).any fun x => v.vtSt n x 0 == 3 || v.vtSt n x 1 == 3 then v else v.stepEnd n)

/-! ### Near ports (R227 to R229) -/

/-- R229, Sequence NEA-1: a port in training whose FEC locks in 500 ms sends HELLOs; one that does not lock, or that has
heard no HELLO in the 10 ms after, is FAILED with cause 2. An UP port that loses FEC alignment, or hears no flit for 100 µs,
goes DOWN with cause 5 or 6; a DOWN one trains anew after 1 s. -/
def Obligations.NearPortsTrainAndGoDown : Prop :=
  ∀ (dt p : Nat) (s : State), p < 12 → s.live (pdNear p) = true → s.live (pdLink (p / 2)) = true →
    (s.npState p = 1 → s.fecLock p = false →
      (s.now + dt ≤ (s.nport p).since + 500000000 →
        s.linkClock p = true → ∃ t, exec (.nearTrainingDone dt p) s = .next t ∧ t.fecLock p = true ∧ t.npState p = 1
          ∧ (p < s.nearPorts.length → t.nport p = { s.nport p with since := s.now + dt }) ∧ t.emitted = s.emitted)
      ∧ ((s.nport p).since + 500000000 ≤ s.now + dt →
        ∃ t, exec (.nearTrainingTimeout dt p) s = .next t ∧ t.npState p = 4 ∧ t.regBits (Reg.npStatus p) 5 3 = 2
          ∧ t.emitted = s.emitted))
    ∧ (s.npState p = 1 → s.fecLock p = true →
      (s.linkClock p = true → ∃ t, exec (.helloSend dt p) s = .next t
        ∧ t.emitted = .flit p (flitBytes 3 0 0 0 (s.helloBytes p)) :: s.emitted ∧ t.regs = s.regs)
      ∧ ((s.nport p).wired = false → (s.nport p).since + 10000000 ≤ s.now + dt →
        ∃ t, exec (.nearTrainingTimeout dt p) s = .next t ∧ t.npState p = 4 ∧ t.regBits (Reg.npStatus p) 5 3 = 2))
    ∧ (s.nearUp p = true →
      exec (.fecAlignLoss dt p) s = s.finish dt ((s.advance dt).nearDown p 5)
      ∧ ((s.nport p).since + 100000 ≤ s.now + dt →
        exec (.linkSilence dt p) s = s.finish dt ((s.advance dt).nearDown p 6)))
    ∧ (s.npState p = 3 → (s.nport p).since + 1000000000 ≤ s.now + dt →
        exec (.nearRetrainTimer dt p) s = s.finish dt ((s.advance dt).nearStart p))

/-- R227, R228, R365: at a port with its clock a flit whose CRC is good is taken by its kind, its acknowledgement and its
credits first; one whose CRC is bad counts in NP_CRC_ERR, is answered by an UP port with a NAK, and has no other effect.
-/
def Obligations.FlitsAreTakenByKind : Prop :=
  ∀ (dt p : Nat) (f : List Byte) (s : State), p < 12 → s.live (pdNear p) = true → s.live (pdLink (p / 2)) = true →
    s.linkClock p = true → f.length = 256 → s.npState p = 1 ∨ s.npState p = 2 →
      let w := s.advance dt
      (Crypto.crc32 (f.take 252) = fld f 252 4 →
        (fld f 4 1 % 8 = 0 → exec (.flitIdle dt p f) s = s.finish dt (w.flitHead p f))
        ∧ (fld f 4 1 % 8 = 1 → exec (.flitData dt p f) s = s.finish dt (State.dataIn p f (w.flitHead p f)))
        ∧ (fld f 4 1 % 8 = 2 → exec (.flitNak dt p f) s = s.finish dt (State.nakIn p f (w.flitHead p f)))
        ∧ (fld f 4 1 % 8 = 3 → exec (.flitHello dt p f) s = s.finish dt (State.helloIn p (f.drop 8) (w.flitHead p f)))
        ∧ (fld f 4 1 % 8 = 4 → exec (.flitCredit dt p f) s = s.finish dt (w.flitHead p f)))
      ∧ (Crypto.crc32 (f.take 252) ≠ fld f 252 4 →
        ∀ c ∈ [Instr.flitIdle dt p f, .flitData dt p f, .flitNak dt p f, .flitHello dt p f, .flitCredit dt p f],
          exec c s = s.finish dt (
            let v := w.count (Reg.npCrcErr p) 1
            if s.npState p = 2 then v.sendNak p else v))

/-! ### Messages of the near fabric (R234, R238 to R248) -/

/-- R234: E2E_ACK ends the keeping of the message it names; a message not acknowledged 50 µs after its last sending is
sent again, four times at most. R194, R195, R248: member 0 holds the roots of a member and compares them; a member answers
a query with the child digests of its node, or, at level 0, sends its block to the member named (the model's deduction,
log 25); the answers to a node are compared; a block without majority is suspect. A member that does not answer by the
cutoff counts as holding no value. -/
def Obligations.MessagesAreKeptAndReplicasCompared : Prop :=
  (∀ (dt : Nat) (s : State),
      (∀ a u k, (s.advance dt).takeMsg 9 = some (a, u) →
        ((s.flow a.src).kept.find? fun (x : Kept) => x.msg.stitch == bitsOf a.operand.toNat 47 0) = some k →
          exec (.e2eAck dt) s = s.finish dt ((u.modFlow a.src fun f =>
            { f with kept := f.kept.filter fun (x : Kept) => x.msg.stitch != bitsOf a.operand.toNat 47 0 }).settleCopy k.msg))
      ∧ ∀ peer stitch k, ((s.flow peer).kept.find? fun (x : Kept) => x.msg.stitch == stitch) = some k →
        (s.now + dt < k.sentAt + 50000 → exec (.e2eResend dt peer stitch) s = s.finish dt (s.advance dt))
        ∧ (k.sentAt + 50000 ≤ s.now + dt → k.resends < 4 →
          exec (.e2eResend dt peer stitch) s = s.finish dt ((s.advance dt).resendNear peer stitch))
        ∧ (k.sentAt + 50000 ≤ s.now + dt → 4 ≤ k.resends →
          exec (.e2eResend dt peer stitch) s = s.finish dt (((s.advance dt).modFlow peer fun f =>
            { f with kept := f.kept.filter fun (x : Kept) => x.msg.stitch != stitch }).unreachable k.msg)))
  ∧ (∀ (dt : Nat) (s : State),
      (∀ m u g i, (s.advance dt).takeMsg 6 = some (m, u) → u.msgGroup m = some (g, i) → g.self = 0 →
        exec (.digestRoots dt) s = s.finish dt (u.holdRoots g i ((List.range (m.body.length / 16)).map fun k =>
          (fld m.body (16 * k) 2, fld m.body (16 * k + 4) 4, BitVec.ofNat 64 (fld m.body (16 * k + 8) 8)))))
      ∧ (∀ m u g i, (s.advance dt).takeMsg 7 = some (m, u) → u.msgGroup m = some (g, i) →
        exec (.digestQuery dt) s = s.finish dt (
          if m.node.2.1 = 0 then u.sendRepair g m.node.1 m.node.2.2 [m.position]
          else u.sendNear 8 0 m.src g.id 0 (nodeOperand m.node.1 m.node.2.1 m.node.2.2)
            ((u.ownNodes g m.node.1 m.node.2.1 m.node.2.2).flatMap fun v => leBytes 8 v.toNat)))
      ∧ (∀ m u g i n e, (s.advance dt).takeMsg 8 = some (m, u) → u.msgGroup m = some (g, i) → m.node.2.1 = 0 →
        g.entry? m.node.1 = some (e, n) →
          exec (.digestNodes dt) s = s.finish dt (u.markSuspect n e m.node.2.2))
      ∧ ∀ g member, (s.advance dt).group? g.id = some g → g.self = 0 → 0 < member → member < g.size →
        (∀ r ∈ s.reduces, r.group = g.id → r.cutoff ≤ (s.advance dt).time) →
        (∃ r ∈ s.digestRoots, r.group = g.id) → (∀ r ∈ s.digestRoots, r.group = g.id → r.member ≠ member) →
          let u := { s.advance dt with
            digestSilent := (g.id, member) :: s.digestSilent.filter (· != (g.id, member)) }
          exec (.digestReplyTimeout dt g.id member) s = s.finish dt
            ((((u.digestRoots.filter (·.group == g.id)).map (·.entry)).dedup.foldl (fun s e => s.compareRoots g e)
              u).settleNodes g))

/-- R238 to R241, R244, R246: a REDUCE or GATHER of a bucket that is not admitted here sets NEA_EVENTS bit 3; a late REDUCE
counts its blocks in NEA_LATE; one in time adds its blocks and sends on what comes of them. A GATHER's bytes go into the
target slot. A COPY writes its bytes where it says. A late part of a version already committed is
left alone. R157, R241, R245: from its cutoff on, a reduction stops, and the parts of its all-gather that have not come are
lost: at once where its item is done, else from a second REDUCE_CUTOFF on (the model's deduction, log 39); one whose bucket is
not complete and whose sequence is CLOSED has no bucket to reduce. -/
def Obligations.MessagesReduceGatherAndCopy : Prop :=
  ∀ (dt : Nat) (s : State),
    (∀ m v, (s.advance dt).takeMsgIf 1 (s.advance dt).canReduce = some (m, v) →
      let u := v.payCredit m
      (u.reduceOf m.group m.bucket = none → exec (.reduceMsg dt) s = s.finish dt (u.raise .nea 3))
      ∧ ∀ r g, u.reduceOf m.group m.bucket = some r → u.group? m.group = some g →
        (r.stopped = true → exec (.reduceMsg dt) s = s.finish dt (u.count Reg.neaLate (m.body.length / 132)))
        ∧ (r.stopped = false → m.position < g.size →
          let b := u.bucketAt r.record
          let a := (List.range (m.body.length / 132)).foldl (fun (a : State × List (Nat × Bs16)) i =>
            let t := a.1.blockIn g r.item b m.position (bitsOf m.operand.toNat 63 32 + i)
              (Bs16.parse ((m.body.drop (132 * i)).take 132))
            (t.1, a.2 ++ t.2)) (u, [])
          exec (.reduceMsg dt) s = s.finish dt
            ((a.1.sendBlocks g b m.position (g.after b (g.myPos b)) a.2.length a.2).settleReduce r.item)))
    ∧ (∀ m u, (s.advance dt).takeMsgIf 2 (s.advance dt).canGather = some (m, u) →
      (u.reduceOf m.group m.bucket = none → exec (.gather dt) s = s.finish dt (u.raise .nea 3))
      ∧ ∀ r g n e, u.reduceOf m.group m.bucket = some r → u.group? m.group = some g →
        u.gatherEntry (u.bucketAt r.record) = some (n, e) → m.position < g.size → m.position ∉ r.lost →
        u.live n = true → u.entryValid n e = true →
        ¬(r.committed = true ∧ bitsOf m.operand.toNat 63 32 = u.currentVersion n e) →
          let skip := (if r.committed then none else r.part m.position).elim 0 (·.2.2)
          let v := (scatter ((u.bucketAt r.record).geom.segments ((u.bucketAt r.record).rect g.size m.position)) skip
            m.body).foldl (fun s x => s.writeSlot n e x.1 x.2) ((u.openGathers n e).claimSlot n e)
          exec (.gather dt) s = s.finish dt (v.modReduce r.item fun r =>
            { r with gathered := (m.position, bitsOf m.operand.toNat 63 32, skip + m.body.length)
                :: r.gathered.filter (·.1 != m.position) }))
    ∧ (∀ m u pl, (s.advance dt).takeMsg 3 = some (m, u) → bitOf m.flags 2 = false →
      moduleRange m.operand.toNat m.body.length = some pl → u.placePowered 0xFF pl m.body.length = true →
        exec (.copyMsg dt) s = s.finish dt ((u.writeAt 0xFF pl m.body).notePlace pl m.body.length))
    ∧ ∀ item r g, s.reduce? item = some r → (s.advance dt).group? r.group = some g → r.cutoff ≤ (s.advance dt).time →
        let v := (s.advance dt).stopReduce r g ((s.advance dt).bucketAt r.record)
        (r.ready = false → r.stopped = false → s.verdict = 3 →
          exec (.reduceCutoff dt item) s = s.finish dt ((s.advance dt).noBucket item))
        ∧ (r.ready = true ∨ s.verdict ≠ 3 → r.stopped = false → (∃ it, s.item? item = some it ∧ it.done = false) →
          exec (.reduceCutoff dt item) s = s.finish dt v)
        ∧ (r.ready = true ∨ s.verdict ≠ 3 → r.stopped = false → (∀ it, s.item? item = some it → it.done = true) →
          exec (.reduceCutoff dt item) s = s.finish dt (v.loseGathers r g ((s.advance dt).bucketAt r.record)))
        ∧ (r.stopped = true → exec (.reduceCutoff dt item) s
          = s.finish dt ((s.advance dt).loseGathers r g ((s.advance dt).bucketAt r.record)))

/-! ### Far ports (R251 to R267, R287 to R301) -/

/-- R253, Sequence FEX-1: a far port in training that locks within 2 s sends a PROBE; one that does not lock, or hears no
PROBE within 1 s of it, is FAILED with cause 2. An UP port that loses its lock, or hears no frame for 5 ms, goes DOWN, with cause
2 (the model's deduction, log 81); a DOWN one whose EN is set looks at its module and starts anew after 100 ms: it trains, or is
FAILED without a usable module (R252), or OFF where it is SEALED with an EMPTY transmit slot (R289). R365: the timeouts run while
the port's island has no clock. -/
def Obligations.FarPortsTrainAndGoDown : Prop :=
  ∀ (dt k : Nat) (s : State), s.farOn k = true →
    (s.fpState k = 1 → (s.fport k).lock = false →
      (s.farLive k = true → s.now + dt ≤ (s.fport k).since + 2000000000 →
        exec (.farPcsLock dt k) s
          = s.finish dt (((s.advance dt).modFport k fun q => { q with lock := true, since := s.now + dt }).sendProbe k))
      ∧ ((s.fport k).since + 2000000000 ≤ s.now + dt →
        ∃ t, exec (.farTrainingTimeout dt k) s = .next t ∧ t.fpState k = 4 ∧ t.regBits (Reg.fpStatus k) 5 3 = 2
          ∧ t.farPorts = s.farPorts ∧ t.emitted = s.emitted))
    ∧ (s.fpState k = 1 → (s.fport k).lock = true → (s.fport k).since + 1000000000 ≤ s.now + dt →
        ∃ t, exec (.farTrainingTimeout dt k) s = .next t ∧ t.fpState k = 4 ∧ t.regBits (Reg.fpStatus k) 5 3 = 2)
    ∧ (s.fpState k = 2 →
      exec (.farPcsLoss dt k) s = s.finish dt ((s.advance dt).farDown k 2)
      ∧ ((s.fport k).since + 5000000 ≤ s.now + dt →
        exec (.farFrameSilence dt k) s = s.finish dt ((s.advance dt).farDown k 2)))
    ∧ (s.farLive k = true → s.fpState k = 3 → bitOf (s.reg (Reg.fpCtrl k)) 0 = true → (s.fport k).since + 100000000 ≤ s.now + dt →
        ∃ t, exec (.farRetryTimer dt k) s = .next t
          ∧ t.fpState k = (if s.sealed k = true ∧ s.slotState k (s.txSlot k) = 0 then 0
              else if (s.moduleSpeed k).isSome then 1 else 4)
          ∧ (t.fpState k = 1 → (t.fport k).lock = false) ∧ t.emitted = s.emitted ∧ t.items = s.items)

/-- R260, R261, R263, R299: an UP far port that may send, to which frames pass and whose wire is free sends first a frame that
is due again, marked RETX, else the next frame of its queue within its window, with the next stitch; of each the first whose
bytes can be read and that is within its share. ACK_TIMER sends an ACK 50 µs after the
last one, or after 64 DATA frames; RESEND_TIMER marks a frame whose timer has run out; an interval without a DATA frame sends
a PROBE; a DRAINING key slot is zeroised at the end of its window. -/
def Obligations.FarFramesGoOut : Prop :=
  ∀ (dt k : Nat) (s : State), s.farOn k = true →
    (s.farLive k = true → s.fpState k = 2 → s.canSeal k = true → (s.fport k).freeAt ≤ s.now + dt →
      (∀ miss f, (s.advance dt).pickDue k = some f →
        exec (.frameTransmit dt k miss) s = s.finish dt (((s.advance dt).modFport k fun q =>
          { q with unacked := q.unacked.map fun (x : FarFrame) => if x.stitch = f.stitch
              then { f with due := false, resent := true, sentAt := s.now + dt, resends := f.resends + 1 } else x }).sendData k
            { f with due := false, resent := true, sentAt := s.now + dt, resends := f.resends + 1 } true miss))
      ∧ ∀ miss f, (s.advance dt).pickDue k = none → (s.advance dt).pick k = some f →
        (s.fport k).unacked.length < s.regBits (Reg.fpWindow k) 20 0 → (s.fport k).nextStitch < 2 ^ 48 - 1 →
          exec (.frameTransmit dt k miss) s = s.finish dt (((s.advance dt).modFport k fun q =>
            { q with sendQueue := q.sendQueue.erase f
                     unacked := q.unacked ++ [{ f with stitch := q.nextStitch, sentAt := s.now + dt }]
                     nextStitch := q.nextStitch + 1 }).sendData k
              { f with stitch := (s.fport k).nextStitch, sentAt := s.now + dt } false miss))
    ∧ (s.farLive k = true → s.fpState k = 2 → 0 < (s.fport k).dataSinceAck →
        64 ≤ (s.fport k).dataSinceAck ∨ (s.fport k).ackedAt + 50000 ≤ s.now + dt →
          exec (.ackTimer dt k) s = s.finish dt ((s.advance dt).sendFarAck k))
    ∧ (s.fpState k = 2 → ∀ stitch,
        exec (.resendTimer dt k stitch) s = s.finish dt ((s.advance dt).modFport k fun q =>
          { q with unacked := q.unacked.map fun (f : FarFrame) =>
              if f.stitch = stitch ∧ f.sentAt + s.rto k ≤ s.now + dt then { f with due := true } else f }))
    ∧ (s.farLive k = true → s.fpState k = 2 → (s.fport k).sentDataAt ≠ some ((s.now + dt) / 125000) →
        exec (.probeInterval dt k) s = s.finish dt ((s.advance dt).sendProbe k))
    ∧ ∀ slot e, slot < 2 → s.slotState k slot = 3 → (s.keySlot k slot).windowEnd = some e → e ≤ s.now + dt →
        exec (.overlapWindowEnd dt k slot) s = s.finish dt ((s.advance dt).zeroise k slot)

/-- R256 to R258: a frame that arrives at a port UP, unsealed, whose header, lengths, CRC, plane and epoch are good acts by
its type; a frame that cannot be unwrapped, or whose CRC is bad, counts in FP_BAD and does nothing else but end the
silence (that each such frame counts and that it ends the silence are the model's deductions, logs 44 and 46). Of SEALED ports
this says nothing. -/
def Obligations.FarFramesAreCheckedAndTaken : Prop :=
  ∀ (dt k : Nat) (f b : List Byte) (miss : Nat) (s : State), s.farLive k = true → s.fpState k = 2 → s.sealed k = false →
    let w := (s.advance dt).modFport k fun q => { q with since := s.now + dt }
    let h := NgtHead.parse (b.take 64)
    let p := (b.drop 64).take h.paylen
    let g := w.delaySample k h.txtime
    (s.unwrapFrame k f = none → ∀ c ∈ [Instr.ngtDataFrame dt k f miss, .ngtAck dt k f miss, .probe dt k f miss],
      exec c s = s.finish dt (w.farBad k))
    ∧ (s.unwrapFrame k f = some (some b) → b.length = 80 + h.paylen → payloadOk h.typ h.paylen = true →
      ngtReserved (b.take 64) = false → bitOf h.flags 0 = false →
        (fld b (64 + h.paylen) 4 ≠ Crypto.crc32 (b.take 64 ++ p) →
          ∀ c ∈ [Instr.ngtDataFrame dt k f miss, .ngtAck dt k f miss, .probe dt k f miss],
            exec c s = s.finish dt (w.farBad k))
        ∧ (fld b (64 + h.paylen) 4 = Crypto.crc32 (b.take 64 ++ p) → zeroIn (b.drop (64 + h.paylen)) 4 16 = true →
          w.frameOk k h p = true →
            (h.typ = 1 → exec (.ngtDataFrame dt k f miss) s = s.finish dt (g.farData k h p))
            ∧ (h.typ = 2 → exec (.ngtAck dt k f miss) s = s.finish dt (g.farAck k h p))
            ∧ (h.typ = 3 → exec (.probe dt k f miss) s = s.finish dt g)))

/-! ### The outer exchange (R269 to R282) -/

/-- R262, R273, R275 to R278: what a gateway does with a message of the exchange: a complete contribution of an accepted
round is held, and sets FX_EVENTS bit 6 where the manifests of its round and of the next have come and neither takes it
(R276, as the model reads it: log 58); a malformed one is cleared out of its slot (R262); a HOLD's records are noted; the
first MANIFEST record of a round and shard is applied; a FETCH of a contribution held here is answered to the one who
asks. -/
def Obligations.ContributionsAreHeldAndFetched : Prop :=
  ∀ (dt : Nat) (s : State),
    (∀ m u x, (s.advance dt).takeFar 1 (fun _ => true) = some (m, u) → u.fxShard? m.shard = some x →
      (u.recvSlot m.round m.origin m.shard).complete = true → u.roundOk m.round = true →
        (x.malformed (u.readHbm (x.slot m.round m.origin) x.size) = false →
          ∃ t, exec (.contribMsg dt) s = .next t ∧ (t.recvSlot m.round m.origin m.shard).held = true
            ∧ t.hbm = s.hbm ∧ t.items = s.items
            ∧ (∀ a ∉ [Reg.fxEvents, Reg.errEvents, Reg.recEvents, Reg.recLost], t.reg a = s.reg a)
            ∧ (∀ a b p q, (s.exch m.round m.shard).manifest = some (a, p) → (s.exch (m.round + 1) m.shard).manifest = some (b, q) →
                bitOf a m.origin = false → bitOf q.1 m.origin = false → bitOf (t.reg Reg.fxEvents) 6 = true))
        ∧ (x.malformed (u.readHbm (x.slot m.round m.origin) x.size) = true →
          ∃ t, exec (.contribMsg dt) s = .next t ∧ (t.recvSlot m.round m.origin m.shard).complete = false
            ∧ (t.recvSlot m.round m.origin m.shard).ranges = [] ∧ t.hbm = s.hbm ∧ t.regs = s.regs))
    ∧ (∀ m u, (s.advance dt).takeFar 2 (fun _ => true) = some (m, u) → u.notPast m.round = true →
      exec (.hold dt) s = s.finish dt ((List.range (m.body.length / 8)).foldl (fun s i =>
        let r := (m.body.drop (8 * i)).take 8
        if (s.fxShard? (fld r 0 4)).isNone then s
        else s.modExch m.round (fld r 0 4) fun e =>
          { e with holds := (m.origin, fld r 4 2, fld r 6 2) :: e.holds.filter (·.1 != m.origin) }) u))
    ∧ (∀ m u, (s.advance dt).takeFar 3 (fun _ => true) = some (m, u) →
      exec (.manifest dt) s = s.finish dt ((List.range ((m.body.length - 8) / 16)).foldl (fun s i =>
        s.manifestRecord m.round (fld m.body 0 1) ((m.body.drop (8 + 16 * i)).take 16)) u))
    ∧ ∀ m u x, (s.advance dt).takeFar 4 (fun _ => true) = some (m, u) → u.fxShard? m.shard = some x →
      u.memberHeld m.round (fld m.body 0 1) m.shard = true →
        exec (.fetch dt) s = s.finish dt (u.sendTo
          { kind := 1, mirror := false, dst := m.origin, origin := fld m.body 0 1, round := m.round, shard := m.shard
            offset := 0, msglen := 0, payload := .hbm (u.memberAt x m.round (fld m.body 0 1)) x.size, item := none
            relay := true })

/-- R275 to R278, R280: the coordinating gateway forms the manifest at its cutoff; without one the next sites of the
rotation form it, of rank 1 or 2, and set FX_EVENTS bit 0; a FETCH not answered goes to the next site of its cycle, and after
eight FX_EVENTS bit 2 is set; a root without majority is held at the end of its wait. -/
def Obligations.ManifestsComeInTime : Prop :=
  ∀ (dt round shard : Nat) (s : State), s.gateway = true →
    let w := s.advance dt
    let e := s.exch round shard
    ((s.fxShard? shard).isSome = true → s.notPast round = true → e.manifest = none →
      (s.rotation round = s.site → e.past (s.now + dt) (s.regBits Reg.fxCutoff 23 0) = true →
        exec (.manifestCutoff dt round shard) s = s.finish dt (w.makeManifest e 0))
      ∧ (s.rotation (round + 1) = s.site →
        e.past (s.now + dt) (s.regBits Reg.fxCutoff 23 0 + s.regBits Reg.fxMwait 23 0) = true →
          exec (.manifestTakeover dt round shard) s
            = s.finish dt ((w.makeManifest { e with holds := [] } 1).fxEvent 0))
      ∧ (s.rotation (round + 1) ≠ s.site → s.rotation (round + 2) = s.site →
        e.past (s.now + dt) (s.regBits Reg.fxCutoff 23 0 + 2 * s.regBits Reg.fxMwait 23 0) = true →
          exec (.manifestTakeover dt round shard) s
            = s.finish dt ((w.makeManifest { e with holds := [] } 2).fxEvent 0)))
    ∧ (s.notPast round = true → s.rotation round ≠ s.site → s.holdRecords round ≠ [] →
      s.lastHold.find? (·.1 == round) = none → ((s.holdRecords round).any fun r => !zeroIn r 4 8) = true →
        ∃ u, u = { w with lastHold := (round, s.now + dt, (s.holdRecords round).flatten)
                     :: s.lastHold.filter fun x => x.1 != round && s.notPast x.1 }
          ∧ exec (.holdSend dt round) s = s.finish dt
            ((bodiesOf (s.holdRecords round).length (s.holdRecords round)).foldl
              (fun v b => v.tell 2 (s.rotation round) round 0 b) u))
    ∧ (∀ origin n t, e.fetches.find? (·.1 == origin) = some (origin, n, t) → s.memberHeld round origin shard = false →
      t + 2 * s.rttEnv (min (s.portTo ((s.fetchCycle (s.namedHolder round shard origin) origin).getD
        ((n - 1) % max 1 (s.fetchCycle (s.namedHolder round shard origin) origin).length) 0)) 5) ≤ s.now + dt →
        exec (.fetchRetry dt round shard origin) s = s.finish dt
          ((if n = 8 then w.fxEvent 2 else w).sendFetch (s.namedHolder round shard origin) round shard origin))
    ∧ (e.merged = true → e.proceed = false → e.held = false → e.asked = [] →
      (e.ownRoot.any fun x => decide (x.2 + s.regBits Reg.fxMwait 23 0 * 1000 ≤ s.now + dt)) = true →
        exec (.anchorDigestWait dt round shard) s = s.finish dt (
          let v := w.judgeRoots round shard
          if (v.exch round shard).proceed || (v.exch round shard).asked != [] then v
          else (v.modExch round shard fun e => { e with held := true }).fxEvent 4))

/-- R280 to R282: roots that arrive are counted and judged; a query of a node of this site's anchor is answered with its
child digests, whose receiver asks for those that differ; a snapshot request whose round has its majority is answered with
the image or the part of it asked for, which goes to the destination of its fetch or into the anchor. A JOIN from the joiner
itself, which alone its direct partner gets, is answered with the snapshot round FX_ROUND + 2 and passed on (the model's
deduction, log 61); the item that a SNAPSHOT belongs to is the one of log 63. -/
def Obligations.AnchorsAreComparedAndServed : Prop :=
  ∀ (dt : Nat) (s : State),
    (∀ m u, (s.advance dt).takeFar 5 (fun _ => true) = some (m, u) → m.body.length = 16 → m.round ≠ 0 →
      (u.fxShard? (fld m.body 0 4)).isSome = true →
        exec (.digest dt) s = s.finish dt ((u.modExch (m.round - 1) (fld m.body 0 4) fun e =>
          { e with roots := (m.origin, BitVec.ofNat 64 (fld m.body 8 8)) :: e.roots.filter (·.1 != m.origin) }).judgeRoots
            (m.round - 1) (fld m.body 0 4)))
    ∧ (∀ m u x, (s.advance dt).takeFar 6 (fun _ => true) = some (m, u) → u.fxShard? m.shard = some x →
      exec (.dquery dt) s = s.finish dt (u.tell 7 m.origin m.round m.shard (leBytes 8 (fld m.body 0 8)
        ++ (childDigests (u.anchorLeaves x) (bitsOf (fld m.body 0 8) 23 16) (bitsOf (fld m.body 0 8) 63 24)).flatMap
          (leBytes 8))))
    ∧ (∀ m u x, (s.advance dt).takeFar 7 (fun _ => true) = some (m, u) → u.fxShard? m.shard = some x → m.round ≠ 0 →
      let level := bitsOf (fld m.body 0 8) 23 16
      let node := bitsOf (fld m.body 0 8) 63 24
      level ≠ 0 → (m.origin, level, node) ∈ (u.exch (m.round - 1) m.shard).asked →
        let own := childDigests (u.anchorLeaves x) level node
        let theirs := (List.range ((m.body.length - 8) / 8)).map fun i => fld m.body (8 + 8 * i) 8
        exec (.dnodes dt) s = s.finish dt
          ((State.askNodes (m.round - 1) m.shard
            (((List.range own.length).filter fun i => own.getD i 0 != theirs.getD i 0).map fun i =>
              (m.origin, level - 1, 64 * node + i))
            (u.modExch (m.round - 1) m.shard fun e => { e with asked := e.asked.erase (m.origin, level, node) })).settleRepair
              (m.round - 1) m.shard))
    ∧ (∀ m u x, (s.advance dt).takeFar 9 (fun m => m.round != 0 && ((s.advance dt).exch (m.round - 1) m.shard).proceed)
        = some (m, u) → u.fxShard? m.shard = some x → fld m.body 0 1 = 4 ∨ fld m.body 0 1 = 5 →
      let img := u.shardImage x (fld m.body 0 1) m.round
      exec (.snapReq dt) s = s.finish dt (u.sendTo { u.ownMsg 10 m.origin m.round m.shard
        (if fld m.body 8 4 = 0 then img else (img.drop (fld m.body 4 4)).take (fld m.body 8 4)) with relay := true }))
    ∧ (∀ m u, ((s.advance dt).takeFar 10 fun m => ((s.advance dt).snapItem m).all fun it =>
        !(s.advance dt).exportHeld it.id (fld it.desc 44 6) m.body.length) = some (m, u) →
      (∀ it, u.snapItem m = some it → u.blockAsked m = none → m.body.length ≤ fld it.desc 52 4 →
        exec (.snapshot dt) s
          = s.finish dt (((u.writeHbm (fld it.desc 44 6) m.body).itemDone it.id Code.ok it.farDetail).reportTransfers it.id
              m.round m.shard))
      ∧ ∀ b, u.snapItem m = none → u.blockAsked m = some b → exec (.snapshot dt) s = s.finish dt (u.putBlock m b))
    ∧ ∀ m u, (s.advance dt).takeFar 8 (fun _ => true) = some (m, u) →
      let site := fld m.body 0 1
      (fld m.body 4 4 ≠ 0 → exec (.joinMsg dt) s
        = s.finish dt ({ u with joining := assoc u.joining site (fld m.body 4 4) }.fxEvent 8))
      ∧ (fld m.body 4 4 = 0 → look s.joining site = none → m.hop = site →
        let round := s.reg Reg.fxRound + 2
        let v := { u with joining := assoc u.joining site round }.fxEvent 8
        exec (.joinMsg dt) s = s.finish dt (State.cast 8 0 0 m.body (v.queueFar m.port
          (cutMessage (v.ownMsg 8 site 0 0 (leBytes 1 site ++ zeros 3 ++ leBytes 4 round))))))
end

