-- ==== Sys2Proof/Laws/Memory.lean ====
section
/-! SUPPORT. Laws of the sparse maps, of the stores and of the register file: a read after a write, and the canonical
form that every operation keeps. -/

namespace Sys2Proof.Machine

/-! ### Reads after writes -/

section
variable {α : Type} (dflt : Nat → α)

theorem sparseGet_filter_ne (m : List (Nat × α)) (a b : Nat) :
    sparseGet dflt (m.filter (·.1 ≠ a)) b = if b = a then dflt b else sparseGet dflt m b := by
  induction m with
  | nil => simp [sparseGet]
  | cons e t ih =>
    obtain ⟨k, w⟩ := e
    by_cases h : k = a
    · rw [List.filter_cons_of_neg (by simp [h]), ih]
      by_cases g : b = a
      · simp [g]
      · have : k ≠ b := fun q => g (q.symm.trans h)
        simp [g, sparseGet, this]
    · rw [List.filter_cons_of_pos (by simp [h])]
      by_cases g : b = a
      · have : k ≠ b := fun q => h (q.trans g)
        simp only [sparseGet, this, if_false, ih]
      · by_cases q : k = b
        · simp [sparseGet, q, g]
        · simp only [sparseGet, q, if_false]; exact ih

theorem sparseGet_ins (m : List (Nat × α)) (a b : Nat) (v : α) :
    sparseGet dflt (sparseIns m a v) b = if b = a then v else sparseGet dflt m b := by
  induction m with
  | nil =>
    by_cases h : b = a
    · simp [sparseIns, sparseGet, h]
    · have : a ≠ b := fun q => h q.symm
      simp [sparseIns, sparseGet, h, this]
  | cons e t ih =>
    obtain ⟨k, w⟩ := e
    unfold sparseIns
    by_cases h1 : k < a
    · simp only [h1, if_true, sparseGet, ih]
      by_cases g : k = b
      · have : b ≠ a := by omega
        simp [g, this]
      · simp [g]
    · by_cases h2 : k = a
      · subst h2
        by_cases g : b = k
        · simp [sparseGet, g]
        · have : k ≠ b := fun q => g q.symm
          simp [sparseGet, g, this]
      · by_cases g : b = a
        · simp [h1, h2, sparseGet, g]
        · have : a ≠ b := fun q => g q.symm
          simp [h1, h2, sparseGet, g, this]

/-- The value at an address is the one written there; elsewhere it is as before. -/
theorem sparseGet_set [DecidableEq α] (m : List (Nat × α)) (a b : Nat) (v : α) :
    sparseGet dflt (sparseSet dflt m a v) b = if b = a then v else sparseGet dflt m b := by
  unfold sparseSet
  by_cases h : v = dflt a
  · rw [if_pos h, sparseGet_filter_ne]
    by_cases g : b = a <;> simp [g, h]
  · rw [if_neg h, sparseGet_ins]

end

/-- A byte written reads back; every other byte reads as before. -/
theorem Memory.get_set (dflt : Nat → Byte) (m : Memory) (a b : Nat) (v : Byte) :
    (m.set dflt a v).get dflt b = if b = a then v else m.get dflt b := sparseGet_set dflt m a b v

/-- The bytes a write covers read as written, every other byte as before. -/
theorem Memory.get_writeN (dflt : Nat → Byte) (bs : List Byte) (m : Memory) (a b : Nat) :
    (m.writeN dflt a bs).get dflt b = if a ≤ b ∧ b < a + bs.length then bs.getD (b - a) 0 else m.get dflt b := by
  induction bs generalizing m a with
  | nil =>
    have : ¬ (a ≤ b ∧ b < a + ([] : List Byte).length) := by simp
    rw [if_neg this]; rfl
  | cons x t ih =>
    rw [Memory.writeN, ih, Memory.get_set]
    simp only [List.length_cons]
    by_cases h : b = a
    · subst h
      have n : ¬ (b + 1 ≤ b ∧ b < b + 1 + t.length) := by omega
      have p : b ≤ b ∧ b < b + (t.length + 1) := by omega
      rw [if_neg n, if_pos p]; simp
    · by_cases g : a + 1 ≤ b ∧ b < a + 1 + t.length
      · have p : a ≤ b ∧ b < a + (t.length + 1) := by omega
        obtain ⟨c, rfl⟩ : ∃ c, b = a + 1 + c := ⟨b - (a + 1), by omega⟩
        rw [if_pos g, if_pos p]
        have e1 : a + 1 + c - (a + 1) = c := by omega
        have e2 : a + 1 + c - a = c + 1 := by omega
        rw [e1, e2, List.getD_cons_succ]
      · have p : ¬ (a ≤ b ∧ b < a + (t.length + 1)) := by omega
        rw [if_neg g, if_neg p, if_neg h]

theorem Memory.readN_getElem (dflt : Nat → Byte) (m : Memory) (a n i : Nat) (h : i < n) :
    (m.readN dflt a n).getD i 0 = m.get dflt (a + i) := by
  simp [Memory.readN, List.getD, h]

@[simp] theorem Memory.readN_length (dflt : Nat → Byte) (m : Memory) (a n : Nat) : (m.readN dflt a n).length = n := by
  simp [Memory.readN]

/-- The bytes written read back as a whole. -/
theorem Memory.readN_writeN (dflt : Nat → Byte) (m : Memory) (a : Nat) (bs : List Byte) :
    (m.writeN dflt a bs).readN dflt a bs.length = bs := by
  apply List.ext_getElem
  · simp
  · intro i h1 h2
    simp only [Memory.readN, List.getElem_map, List.getElem_range]
    rw [Memory.get_writeN, if_pos (by constructor <;> omega)]
    have e : a + i - a = i := by omega
    rw [e, List.getD_eq_getElem _ _ h2]

/-- A range a write does not meet reads as before. -/
theorem Memory.readN_writeN_other (dflt : Nat → Byte) (m : Memory) (a b n : Nat) (bs : List Byte)
    (h : b + n ≤ a ∨ a + bs.length ≤ b) : (m.writeN dflt a bs).readN dflt b n = m.readN dflt b n := by
  unfold Memory.readN
  apply List.map_congr_left
  intro i hi
  rw [List.mem_range] at hi
  rw [Memory.get_writeN, if_neg (by omega)]

/-- A store after a clear: the range reads as nothing written. -/
theorem Memory.get_clear (dflt : Nat → Byte) (m : Memory) (lo hi b : Nat) :
    (m.clear lo hi).get dflt b = if lo ≤ b ∧ b < hi then dflt b else m.get dflt b := by
  unfold Memory.clear Memory.get
  induction m with
  | nil => simp [sparseGet]
  | cons e t ih =>
    obtain ⟨k, w⟩ := e
    by_cases h : lo ≤ k ∧ k < hi
    · rw [List.filter_cons_of_neg (by simp; omega), ih]
      by_cases g : lo ≤ b ∧ b < hi
      · simp [g]
      · have : k ≠ b := by rintro rfl; exact g h
        simp [g, sparseGet, this]
    · rw [List.filter_cons_of_pos (by simp; omega)]
      by_cases q : k = b
      · subst q; simp [sparseGet, h]
      · simp only [sparseGet, q, if_false, ih]

/-! ### The canonical form -/

section
variable {α : Type} [DecidableEq α] (dflt : Nat → α)

theorem sparseWfFrom_mono (m : List (Nat × α)) (lo lo' : Nat) (h : lo' ≤ lo) (w : sparseWfFrom dflt lo m = true) :
    sparseWfFrom dflt lo' m = true := by
  cases m with
  | nil => rfl
  | cons e t => simp only [sparseWfFrom, Bool.and_eq_true, decide_eq_true_eq] at w ⊢; exact ⟨⟨by omega, w.1.2⟩, w.2⟩

theorem sparseWfFrom_filter (p : Nat × α → Bool) (m : List (Nat × α)) (lo : Nat) (w : sparseWfFrom dflt lo m = true) :
    sparseWfFrom dflt lo (m.filter p) = true := by
  induction m generalizing lo with
  | nil => rfl
  | cons e t ih =>
    simp only [sparseWfFrom, Bool.and_eq_true, decide_eq_true_eq] at w
    rw [List.filter_cons]
    split
    · simp only [sparseWfFrom, Bool.and_eq_true, decide_eq_true_eq]
      exact ⟨w.1, ih _ w.2⟩
    · exact sparseWfFrom_mono dflt _ _ _ (by omega) (ih _ w.2)

theorem sparseWfFrom_ins (m : List (Nat × α)) (lo a : Nat) (v : α) (hv : v ≠ dflt a) (ha : lo ≤ a)
    (w : sparseWfFrom dflt lo m = true) : sparseWfFrom dflt lo (sparseIns m a v) = true := by
  induction m generalizing lo with
  | nil => simp [sparseIns, sparseWfFrom, hv, ha]
  | cons e t ih =>
    obtain ⟨k, x⟩ := e
    simp only [sparseWfFrom, Bool.and_eq_true, decide_eq_true_eq] at w
    unfold sparseIns
    split
    · simp only [sparseWfFrom, Bool.and_eq_true, decide_eq_true_eq]
      exact ⟨w.1, ih _ (by omega) w.2⟩
    · split
      · next h => subst h; simp only [sparseWfFrom, Bool.and_eq_true, decide_eq_true_eq]; exact ⟨⟨ha, hv⟩, w.2⟩
      · simp only [sparseWfFrom, Bool.and_eq_true, decide_eq_true_eq]
        exact ⟨⟨ha, hv⟩, ⟨by omega, w.1.2⟩, w.2⟩

/-- A write keeps the canonical form. -/
theorem sparseWf_set (m : List (Nat × α)) (a : Nat) (v : α) (w : sparseWf dflt m = true) :
    sparseWf dflt (sparseSet dflt m a v) = true := by
  unfold sparseSet
  split
  · exact sparseWfFrom_filter dflt _ _ _ w
  · next h => exact sparseWfFrom_ins dflt _ _ _ _ h (Nat.zero_le _) w

end

theorem Memory.wf_set (dflt : Nat → Byte) (m : Memory) (a : Nat) (b : Byte) (w : m.wf dflt = true) :
    (m.set dflt a b).wf dflt = true := sparseWf_set dflt m a b w

theorem Memory.wf_writeN (dflt : Nat → Byte) (bs : List Byte) (m : Memory) (a : Nat) (w : m.wf dflt = true) :
    (m.writeN dflt a bs).wf dflt = true := by
  induction bs generalizing m a with
  | nil => exact w
  | cons x t ih => exact ih _ _ (Memory.wf_set _ _ _ _ w)

theorem Memory.wf_clear (dflt : Nat → Byte) (m : Memory) (lo hi : Nat) (w : m.wf dflt = true) :
    (m.clear lo hi).wf dflt = true := sparseWfFrom_filter dflt _ _ _ w

/-- Two stores in canonical form that read alike are equal. -/
theorem sparse_ext {α : Type} [DecidableEq α] (dflt : Nat → α) (m n : List (Nat × α)) (lo : Nat)
    (hm : sparseWfFrom dflt lo m = true) (hn : sparseWfFrom dflt lo n = true)
    (h : ∀ a, sparseGet dflt m a = sparseGet dflt n a) : m = n := by
  have low : ∀ (l : List (Nat × α)) (lo a : Nat), sparseWfFrom dflt lo l = true → a < lo → sparseGet dflt l a = dflt a := by
    intro l
    induction l with
    | nil => intros; rfl
    | cons e t ih =>
      intro lo a w ha
      simp only [sparseWfFrom, Bool.and_eq_true, decide_eq_true_eq] at w
      have : e.1 ≠ a := by omega
      simp only [sparseGet, this, if_false]
      exact ih _ _ w.2 (by omega)
  induction m generalizing n lo with
  | nil =>
    cases n with
    | nil => rfl
    | cons e t =>
      simp only [sparseWfFrom, Bool.and_eq_true, decide_eq_true_eq] at hn
      have := h e.1
      simp [sparseGet] at this
      exact absurd this.symm hn.1.2
  | cons e t ih =>
    simp only [sparseWfFrom, Bool.and_eq_true, decide_eq_true_eq] at hm
    cases n with
    | nil => have := h e.1; simp [sparseGet] at this; exact absurd this hm.1.2
    | cons f u =>
      simp only [sparseWfFrom, Bool.and_eq_true, decide_eq_true_eq] at hn
      have key : e.1 = f.1 := by
        rcases Nat.lt_trichotomy e.1 f.1 with q | q | q
        · have := h e.1
          have g := low (f :: u) f.1 e.1 (by simp [sparseWfFrom, hn.1.2, hn.2]) q
          rw [g] at this; simp [sparseGet] at this; exact absurd this hm.1.2
        · exact q
        · have := h f.1
          have g := low (e :: t) e.1 f.1 (by simp [sparseWfFrom, hm.1.2, hm.2]) q
          rw [g] at this; simp [sparseGet] at this; exact absurd this.symm hn.1.2
      have val : e.2 = f.2 := by have := h e.1; simpa [sparseGet, key] using this
      have rest : t = u := by
        apply ih u (e.1 + 1) hm.2 (key ▸ hn.2)
        intro a
        by_cases q : a = e.1
        · subst q
          rw [low t _ _ hm.2 (by omega), low u _ _ hn.2 (by omega)]
        · have := h a
          have q1 : e.1 ≠ a := fun x => q x.symm
          have q2 : f.1 ≠ a := fun x => q1 (key.trans x)
          simpa [sparseGet, q1, q2] using this
      rw [rest, show e = f from Prod.ext key val]

/-- Equal reads of two canonical stores make them equal data. -/
theorem Memory.ext_of_wf (dflt : Nat → Byte) (m n : Memory) (hm : m.wf dflt = true) (hn : n.wf dflt = true)
    (h : ∀ a, m.get dflt a = n.get dflt a) : m = n := sparse_ext dflt m n 0 hm hn h

/-- The stores and the register file of the reset state have the canonical form. -/
theorem reset_memories_wf :
    State.reset.hbm.wf blank = true ∧ State.reset.sram.wf blank = true ∧ State.reset.isram.wf blank = true
      ∧ State.reset.awlBuf.wf blank = true ∧ State.reset.flash.wf blank = true ∧ State.reset.nor.wf erased = true
      ∧ State.reset.host.wf blank = true ∧ sparseWf resetWord State.reset.regs = true := by
  exact ⟨rfl, rfl, rfl, rfl, rfl, rfl, rfl, rfl⟩

/-! ### The register file -/

/-- A register holds what was written to it; every other register is as before. -/
theorem State.reg_setReg (s : State) (a b v : Nat) :
    (s.setReg a v).reg b = if b = a then v % 2 ^ 64 else s.reg b := by
  unfold State.reg State.setReg
  simp only [sparseGet_set]
  split <;> simp

@[simp] theorem State.reg_setReg_same (s : State) (a v : Nat) : (s.setReg a v).reg a = v % 2 ^ 64 := by
  simp [State.reg_setReg]

theorem State.reg_setReg_ne (s : State) (a b v : Nat) (h : b ≠ a) : (s.setReg a v).reg b = s.reg b := by
  simp [State.reg_setReg, h]

theorem State.reg_lt (s : State) (a : Nat) : s.reg a < 2 ^ 64 := BitVec.isLt _

end Sys2Proof.Machine
end

