-- ==== Sys2Proof/Laws/State.lean ====
section
/-! SUPPORT. What each update of the state leaves as it was: one lemma per field and update, so that no proof unfolds a
record update; and what `finish` answers. -/

namespace Sys2Proof.Machine

section
variable (s : State) (a v : Nat)
@[simp] theorem State.setReg_pending : (s.setReg a v).pending = s.pending := rfl
@[simp] theorem State.setReg_now : (s.setReg a v).now = s.now := rfl
@[simp] theorem State.setReg_siteTime : (s.setReg a v).siteTime = s.siteTime := rfl
@[simp] theorem State.setReg_timeRuns : (s.setReg a v).timeRuns = s.timeRuns := rfl
@[simp] theorem State.setReg_inputOk : (s.setReg a v).inputOk = s.inputOk := rfl
@[simp] theorem State.setReg_pwrgood : (s.setReg a v).pwrgood = s.pwrgood := rfl
@[simp] theorem State.setReg_perstN : (s.setReg a v).perstN = s.perstN := rfl
@[simp] theorem State.setReg_dormantPin : (s.setReg a v).dormantPin = s.dormantPin := rfl
@[simp] theorem State.setReg_profilePin : (s.setReg a v).profilePin = s.profilePin := rfl
@[simp] theorem State.setReg_locked : (s.setReg a v).locked = s.locked := rfl
@[simp] theorem State.setReg_hbm : (s.setReg a v).hbm = s.hbm := rfl
@[simp] theorem State.setReg_sram : (s.setReg a v).sram = s.sram := rfl
@[simp] theorem State.setReg_isram : (s.setReg a v).isram = s.isram := rfl
@[simp] theorem State.setReg_awlBuf : (s.setReg a v).awlBuf = s.awlBuf := rfl
@[simp] theorem State.setReg_flash : (s.setReg a v).flash = s.flash := rfl
@[simp] theorem State.setReg_nor : (s.setReg a v).nor = s.nor := rfl
@[simp] theorem State.setReg_norPart : (s.setReg a v).norPart = s.norPart := rfl
@[simp] theorem State.setReg_host : (s.setReg a v).host = s.host := rfl
@[simp] theorem State.setReg_dies : (s.setReg a v).dies = s.dies := rfl
@[simp] theorem State.setReg_sentinels : (s.setReg a v).sentinels = s.sentinels := rfl
@[simp] theorem State.setReg_cornerAt : (s.setReg a v).cornerAt = s.cornerAt := rfl
@[simp] theorem State.setReg_signals : (s.setReg a v).signals = s.signals := rfl
@[simp] theorem State.setReg_notices : (s.setReg a v).notices = s.notices := rfl
@[simp] theorem State.setReg_initialised : (s.setReg a v).initialised = s.initialised := rfl
@[simp] theorem State.setReg_journalValid : (s.setReg a v).journalValid = s.journalValid := rfl
@[simp] theorem State.setReg_journalOpen : (s.setReg a v).journalOpen = s.journalOpen := rfl
@[simp] theorem State.setReg_sources : (s.setReg a v).sources = s.sources := rfl
@[simp] theorem State.setReg_held : (s.setReg a v).held = s.held := rfl
@[simp] theorem State.setReg_covered : (s.setReg a v).covered = s.covered := rfl
@[simp] theorem State.setReg_best : (s.setReg a v).best = s.best := rfl
@[simp] theorem State.setReg_on : (s.setReg a v).on = s.on := rfl
@[simp] theorem State.setReg_rising : (s.setReg a v).rising = s.rising := rfl
@[simp] theorem State.setReg_switchOns : (s.setReg a v).switchOns = s.switchOns := rfl
@[simp] theorem State.setReg_switchedAt : (s.setReg a v).switchedAt = s.switchedAt := rfl
@[simp] theorem State.setReg_domFaults : (s.setReg a v).domFaults = s.domFaults := rfl
@[simp] theorem State.setReg_switchOffs : (s.setReg a v).switchOffs = s.switchOffs := rfl
@[simp] theorem State.setReg_tripped : (s.setReg a v).tripped = s.tripped := rfl
@[simp] theorem State.setReg_coolSince : (s.setReg a v).coolSince = s.coolSince := rfl
@[simp] theorem State.setReg_hotInletSince : (s.setReg a v).hotInletSince = s.hotInletSince := rfl
@[simp] theorem State.setReg_overSince : (s.setReg a v).overSince = s.overSince := rfl
@[simp] theorem State.setReg_coolantTold : (s.setReg a v).coolantTold = s.coolantTold := rfl
@[simp] theorem State.setReg_overTold : (s.setReg a v).overTold = s.overTold := rfl
@[simp] theorem State.setReg_excessDw : (s.setReg a v).excessDw = s.excessDw := rfl
@[simp] theorem State.setReg_retained : (s.setReg a v).retained = s.retained := rfl
@[simp] theorem State.setReg_wakeAt : (s.setReg a v).wakeAt = s.wakeAt := rfl
@[simp] theorem State.setReg_sensed : (s.setReg a v).sensed = s.sensed := rfl
@[simp] theorem State.setReg_failedChannels : (s.setReg a v).failedChannels = s.failedChannels := rfl
@[simp] theorem State.setReg_channelReplays : (s.setReg a v).channelReplays = s.channelReplays := rfl
@[simp] theorem State.setReg_accessMisses : (s.setReg a v).accessMisses = s.accessMisses := rfl
@[simp] theorem State.setReg_fatal : (s.setReg a v).fatal = s.fatal := rfl
@[simp] theorem State.setReg_monitors : (s.setReg a v).monitors = s.monitors := rfl
@[simp] theorem State.setReg_switchStep : (s.setReg a v).switchStep = s.switchStep := rfl
@[simp] theorem State.setReg_pllLocked : (s.setReg a v).pllLocked = s.pllLocked := rfl
@[simp] theorem State.setReg_wires : (s.setReg a v).wires = s.wires := rfl
@[simp] theorem State.setReg_heldPins : (s.setReg a v).heldPins = s.heldPins := rfl
@[simp] theorem State.setReg_crossings : (s.setReg a v).crossings = s.crossings := rfl
@[simp] theorem State.setReg_fuses : (s.setReg a v).fuses = s.fuses := rfl
@[simp] theorem State.setReg_cak : (s.setReg a v).cak = s.cak := rfl
@[simp] theorem State.setReg_kek : (s.setReg a v).kek = s.kek := rfl
@[simp] theorem State.setReg_authFails : (s.setReg a v).authFails = s.authFails := rfl
@[simp] theorem State.setReg_lockoutAt : (s.setReg a v).lockoutAt = s.lockoutAt := rfl
@[simp] theorem State.setReg_noiseFault : (s.setReg a v).noiseFault = s.noiseFault := rfl
@[simp] theorem State.setReg_drbgRequests : (s.setReg a v).drbgRequests = s.drbgRequests := rfl
@[simp] theorem State.setReg_drawCount : (s.setReg a v).drawCount = s.drawCount := rfl
@[simp] theorem State.setReg_firmware : (s.setReg a v).firmware = s.firmware := rfl
@[simp] theorem State.setReg_rings : (s.setReg a v).rings = s.rings := rfl
@[simp] theorem State.setReg_taken : (s.setReg a v).taken = s.taken := rfl
@[simp] theorem State.setReg_items : (s.setReg a v).items = s.items := rfl
@[simp] theorem State.setReg_decided : (s.setReg a v).decided = s.decided := rfl
@[simp] theorem State.setReg_ended : (s.setReg a v).ended = s.ended := rfl
@[simp] theorem State.setReg_bookings : (s.setReg a v).bookings = s.bookings := rfl
@[simp] theorem State.setReg_reservations : (s.setReg a v).reservations = s.reservations := rfl
@[simp] theorem State.setReg_heldRecords : (s.setReg a v).heldRecords = s.heldRecords := rfl
@[simp] theorem State.setReg_staged : (s.setReg a v).staged = s.staged := rfl
@[simp] theorem State.setReg_plans : (s.setReg a v).plans = s.plans := rfl
@[simp] theorem State.setReg_msixTable : (s.setReg a v).msixTable = s.msixTable := rfl
@[simp] theorem State.setReg_pba : (s.setReg a v).pba = s.pba := rfl
@[simp] theorem State.setReg_localVerdict : (s.setReg a v).localVerdict = s.localVerdict := rfl
@[simp] theorem State.setReg_localSent : (s.setReg a v).localSent = s.localSent := rfl
@[simp] theorem State.setReg_pastVerdicts : (s.setReg a v).pastVerdicts = s.pastVerdicts := rfl
@[simp] theorem State.setReg_armedAt : (s.setReg a v).armedAt = s.armedAt := rfl
@[simp] theorem State.setReg_reports : (s.setReg a v).reports = s.reports := rfl
@[simp] theorem State.setReg_norms : (s.setReg a v).norms = s.norms := rfl
@[simp] theorem State.setReg_pinOrder : (s.setReg a v).pinOrder = s.pinOrder := rfl
@[simp] theorem State.setReg_dayBuckets : (s.setReg a v).dayBuckets = s.dayBuckets := rfl
@[simp] theorem State.setReg_nandWritten : (s.setReg a v).nandWritten = s.nandWritten := rfl
@[simp] theorem State.setReg_nandLife : (s.setReg a v).nandLife = s.nandLife := rfl
@[simp] theorem State.setReg_unitWrites : (s.setReg a v).unitWrites = s.unitWrites := rfl
@[simp] theorem State.setReg_exportHolds : (s.setReg a v).exportHolds = s.exportHolds := rfl
@[simp] theorem State.setReg_shardsReady : (s.setReg a v).shardsReady = s.shardsReady := rfl
@[simp] theorem State.setReg_buckets : (s.setReg a v).buckets = s.buckets := rfl
@[simp] theorem State.setReg_rebased : (s.setReg a v).rebased = s.rebased := rfl
@[simp] theorem State.setReg_deltas : (s.setReg a v).deltas = s.deltas := rfl
@[simp] theorem State.setReg_nearPorts : (s.setReg a v).nearPorts = s.nearPorts := rfl
@[simp] theorem State.setReg_flows : (s.setReg a v).flows = s.flows := rfl
@[simp] theorem State.setReg_inbox : (s.setReg a v).inbox = s.inbox := rfl
@[simp] theorem State.setReg_owed : (s.setReg a v).owed = s.owed := rfl
@[simp] theorem State.setReg_reduces : (s.setReg a v).reduces = s.reduces := rfl
@[simp] theorem State.setReg_digestRoots : (s.setReg a v).digestRoots = s.digestRoots := rfl
@[simp] theorem State.setReg_digestNodes : (s.setReg a v).digestNodes = s.digestNodes := rfl
@[simp] theorem State.setReg_digestSilent : (s.setReg a v).digestSilent = s.digestSilent := rfl
@[simp] theorem State.setReg_farPorts : (s.setReg a v).farPorts = s.farPorts := rfl
@[simp] theorem State.setReg_recvSlots : (s.setReg a v).recvSlots = s.recvSlots := rfl
@[simp] theorem State.setReg_exchanges : (s.setReg a v).exchanges = s.exchanges := rfl
@[simp] theorem State.setReg_farInbox : (s.setReg a v).farInbox = s.farInbox := rfl
@[simp] theorem State.setReg_joining : (s.setReg a v).joining = s.joining := rfl
@[simp] theorem State.setReg_lastHold : (s.setReg a v).lastHold = s.lastHold := rfl
@[simp] theorem State.setReg_gathers : (s.setReg a v).gathers = s.gathers := rfl
@[simp] theorem State.setReg_feedbacks : (s.setReg a v).feedbacks = s.feedbacks := rfl
@[simp] theorem State.setReg_farTransfers : (s.setReg a v).farTransfers = s.farTransfers := rfl
@[simp] theorem State.setReg_surroundings : (s.setReg a v).surroundings = s.surroundings := rfl
@[simp] theorem State.setReg_cageTries : (s.setReg a v).cageTries = s.cageTries := rfl
@[simp] theorem State.setReg_triedAt : (s.setReg a v).triedAt = s.triedAt := rfl
@[simp] theorem State.setReg_presentAt : (s.setReg a v).presentAt = s.presentAt := rfl
@[simp] theorem State.setReg_recorder : (s.setReg a v).recorder = s.recorder := rfl
@[simp] theorem State.setReg_emitted : (s.setReg a v).emitted = s.emitted := rfl
end

section
variable (s : State) (a h l v : Nat)
@[simp] theorem State.setField_pending : (s.setField a h l v).pending = s.pending := rfl
@[simp] theorem State.setField_now : (s.setField a h l v).now = s.now := rfl
@[simp] theorem State.setField_siteTime : (s.setField a h l v).siteTime = s.siteTime := rfl
@[simp] theorem State.setField_timeRuns : (s.setField a h l v).timeRuns = s.timeRuns := rfl
@[simp] theorem State.setField_inputOk : (s.setField a h l v).inputOk = s.inputOk := rfl
@[simp] theorem State.setField_pwrgood : (s.setField a h l v).pwrgood = s.pwrgood := rfl
@[simp] theorem State.setField_perstN : (s.setField a h l v).perstN = s.perstN := rfl
@[simp] theorem State.setField_dormantPin : (s.setField a h l v).dormantPin = s.dormantPin := rfl
@[simp] theorem State.setField_profilePin : (s.setField a h l v).profilePin = s.profilePin := rfl
@[simp] theorem State.setField_locked : (s.setField a h l v).locked = s.locked := rfl
@[simp] theorem State.setField_hbm : (s.setField a h l v).hbm = s.hbm := rfl
@[simp] theorem State.setField_sram : (s.setField a h l v).sram = s.sram := rfl
@[simp] theorem State.setField_isram : (s.setField a h l v).isram = s.isram := rfl
@[simp] theorem State.setField_awlBuf : (s.setField a h l v).awlBuf = s.awlBuf := rfl
@[simp] theorem State.setField_flash : (s.setField a h l v).flash = s.flash := rfl
@[simp] theorem State.setField_nor : (s.setField a h l v).nor = s.nor := rfl
@[simp] theorem State.setField_norPart : (s.setField a h l v).norPart = s.norPart := rfl
@[simp] theorem State.setField_host : (s.setField a h l v).host = s.host := rfl
@[simp] theorem State.setField_dies : (s.setField a h l v).dies = s.dies := rfl
@[simp] theorem State.setField_sentinels : (s.setField a h l v).sentinels = s.sentinels := rfl
@[simp] theorem State.setField_cornerAt : (s.setField a h l v).cornerAt = s.cornerAt := rfl
@[simp] theorem State.setField_signals : (s.setField a h l v).signals = s.signals := rfl
@[simp] theorem State.setField_notices : (s.setField a h l v).notices = s.notices := rfl
@[simp] theorem State.setField_initialised : (s.setField a h l v).initialised = s.initialised := rfl
@[simp] theorem State.setField_journalValid : (s.setField a h l v).journalValid = s.journalValid := rfl
@[simp] theorem State.setField_journalOpen : (s.setField a h l v).journalOpen = s.journalOpen := rfl
@[simp] theorem State.setField_sources : (s.setField a h l v).sources = s.sources := rfl
@[simp] theorem State.setField_held : (s.setField a h l v).held = s.held := rfl
@[simp] theorem State.setField_covered : (s.setField a h l v).covered = s.covered := rfl
@[simp] theorem State.setField_best : (s.setField a h l v).best = s.best := rfl
@[simp] theorem State.setField_on : (s.setField a h l v).on = s.on := rfl
@[simp] theorem State.setField_rising : (s.setField a h l v).rising = s.rising := rfl
@[simp] theorem State.setField_switchOns : (s.setField a h l v).switchOns = s.switchOns := rfl
@[simp] theorem State.setField_switchedAt : (s.setField a h l v).switchedAt = s.switchedAt := rfl
@[simp] theorem State.setField_domFaults : (s.setField a h l v).domFaults = s.domFaults := rfl
@[simp] theorem State.setField_switchOffs : (s.setField a h l v).switchOffs = s.switchOffs := rfl
@[simp] theorem State.setField_tripped : (s.setField a h l v).tripped = s.tripped := rfl
@[simp] theorem State.setField_coolSince : (s.setField a h l v).coolSince = s.coolSince := rfl
@[simp] theorem State.setField_hotInletSince : (s.setField a h l v).hotInletSince = s.hotInletSince := rfl
@[simp] theorem State.setField_overSince : (s.setField a h l v).overSince = s.overSince := rfl
@[simp] theorem State.setField_coolantTold : (s.setField a h l v).coolantTold = s.coolantTold := rfl
@[simp] theorem State.setField_overTold : (s.setField a h l v).overTold = s.overTold := rfl
@[simp] theorem State.setField_excessDw : (s.setField a h l v).excessDw = s.excessDw := rfl
@[simp] theorem State.setField_retained : (s.setField a h l v).retained = s.retained := rfl
@[simp] theorem State.setField_wakeAt : (s.setField a h l v).wakeAt = s.wakeAt := rfl
@[simp] theorem State.setField_sensed : (s.setField a h l v).sensed = s.sensed := rfl
@[simp] theorem State.setField_failedChannels : (s.setField a h l v).failedChannels = s.failedChannels := rfl
@[simp] theorem State.setField_channelReplays : (s.setField a h l v).channelReplays = s.channelReplays := rfl
@[simp] theorem State.setField_accessMisses : (s.setField a h l v).accessMisses = s.accessMisses := rfl
@[simp] theorem State.setField_fatal : (s.setField a h l v).fatal = s.fatal := rfl
@[simp] theorem State.setField_monitors : (s.setField a h l v).monitors = s.monitors := rfl
@[simp] theorem State.setField_switchStep : (s.setField a h l v).switchStep = s.switchStep := rfl
@[simp] theorem State.setField_pllLocked : (s.setField a h l v).pllLocked = s.pllLocked := rfl
@[simp] theorem State.setField_wires : (s.setField a h l v).wires = s.wires := rfl
@[simp] theorem State.setField_heldPins : (s.setField a h l v).heldPins = s.heldPins := rfl
@[simp] theorem State.setField_crossings : (s.setField a h l v).crossings = s.crossings := rfl
@[simp] theorem State.setField_fuses : (s.setField a h l v).fuses = s.fuses := rfl
@[simp] theorem State.setField_cak : (s.setField a h l v).cak = s.cak := rfl
@[simp] theorem State.setField_kek : (s.setField a h l v).kek = s.kek := rfl
@[simp] theorem State.setField_authFails : (s.setField a h l v).authFails = s.authFails := rfl
@[simp] theorem State.setField_lockoutAt : (s.setField a h l v).lockoutAt = s.lockoutAt := rfl
@[simp] theorem State.setField_noiseFault : (s.setField a h l v).noiseFault = s.noiseFault := rfl
@[simp] theorem State.setField_drbgRequests : (s.setField a h l v).drbgRequests = s.drbgRequests := rfl
@[simp] theorem State.setField_drawCount : (s.setField a h l v).drawCount = s.drawCount := rfl
@[simp] theorem State.setField_firmware : (s.setField a h l v).firmware = s.firmware := rfl
@[simp] theorem State.setField_rings : (s.setField a h l v).rings = s.rings := rfl
@[simp] theorem State.setField_taken : (s.setField a h l v).taken = s.taken := rfl
@[simp] theorem State.setField_items : (s.setField a h l v).items = s.items := rfl
@[simp] theorem State.setField_decided : (s.setField a h l v).decided = s.decided := rfl
@[simp] theorem State.setField_ended : (s.setField a h l v).ended = s.ended := rfl
@[simp] theorem State.setField_bookings : (s.setField a h l v).bookings = s.bookings := rfl
@[simp] theorem State.setField_reservations : (s.setField a h l v).reservations = s.reservations := rfl
@[simp] theorem State.setField_heldRecords : (s.setField a h l v).heldRecords = s.heldRecords := rfl
@[simp] theorem State.setField_staged : (s.setField a h l v).staged = s.staged := rfl
@[simp] theorem State.setField_plans : (s.setField a h l v).plans = s.plans := rfl
@[simp] theorem State.setField_msixTable : (s.setField a h l v).msixTable = s.msixTable := rfl
@[simp] theorem State.setField_pba : (s.setField a h l v).pba = s.pba := rfl
@[simp] theorem State.setField_localVerdict : (s.setField a h l v).localVerdict = s.localVerdict := rfl
@[simp] theorem State.setField_localSent : (s.setField a h l v).localSent = s.localSent := rfl
@[simp] theorem State.setField_pastVerdicts : (s.setField a h l v).pastVerdicts = s.pastVerdicts := rfl
@[simp] theorem State.setField_armedAt : (s.setField a h l v).armedAt = s.armedAt := rfl
@[simp] theorem State.setField_reports : (s.setField a h l v).reports = s.reports := rfl
@[simp] theorem State.setField_norms : (s.setField a h l v).norms = s.norms := rfl
@[simp] theorem State.setField_pinOrder : (s.setField a h l v).pinOrder = s.pinOrder := rfl
@[simp] theorem State.setField_dayBuckets : (s.setField a h l v).dayBuckets = s.dayBuckets := rfl
@[simp] theorem State.setField_nandWritten : (s.setField a h l v).nandWritten = s.nandWritten := rfl
@[simp] theorem State.setField_nandLife : (s.setField a h l v).nandLife = s.nandLife := rfl
@[simp] theorem State.setField_unitWrites : (s.setField a h l v).unitWrites = s.unitWrites := rfl
@[simp] theorem State.setField_exportHolds : (s.setField a h l v).exportHolds = s.exportHolds := rfl
@[simp] theorem State.setField_shardsReady : (s.setField a h l v).shardsReady = s.shardsReady := rfl
@[simp] theorem State.setField_buckets : (s.setField a h l v).buckets = s.buckets := rfl
@[simp] theorem State.setField_rebased : (s.setField a h l v).rebased = s.rebased := rfl
@[simp] theorem State.setField_deltas : (s.setField a h l v).deltas = s.deltas := rfl
@[simp] theorem State.setField_nearPorts : (s.setField a h l v).nearPorts = s.nearPorts := rfl
@[simp] theorem State.setField_flows : (s.setField a h l v).flows = s.flows := rfl
@[simp] theorem State.setField_inbox : (s.setField a h l v).inbox = s.inbox := rfl
@[simp] theorem State.setField_owed : (s.setField a h l v).owed = s.owed := rfl
@[simp] theorem State.setField_reduces : (s.setField a h l v).reduces = s.reduces := rfl
@[simp] theorem State.setField_digestRoots : (s.setField a h l v).digestRoots = s.digestRoots := rfl
@[simp] theorem State.setField_digestNodes : (s.setField a h l v).digestNodes = s.digestNodes := rfl
@[simp] theorem State.setField_digestSilent : (s.setField a h l v).digestSilent = s.digestSilent := rfl
@[simp] theorem State.setField_farPorts : (s.setField a h l v).farPorts = s.farPorts := rfl
@[simp] theorem State.setField_recvSlots : (s.setField a h l v).recvSlots = s.recvSlots := rfl
@[simp] theorem State.setField_exchanges : (s.setField a h l v).exchanges = s.exchanges := rfl
@[simp] theorem State.setField_farInbox : (s.setField a h l v).farInbox = s.farInbox := rfl
@[simp] theorem State.setField_joining : (s.setField a h l v).joining = s.joining := rfl
@[simp] theorem State.setField_lastHold : (s.setField a h l v).lastHold = s.lastHold := rfl
@[simp] theorem State.setField_gathers : (s.setField a h l v).gathers = s.gathers := rfl
@[simp] theorem State.setField_feedbacks : (s.setField a h l v).feedbacks = s.feedbacks := rfl
@[simp] theorem State.setField_farTransfers : (s.setField a h l v).farTransfers = s.farTransfers := rfl
@[simp] theorem State.setField_surroundings : (s.setField a h l v).surroundings = s.surroundings := rfl
@[simp] theorem State.setField_cageTries : (s.setField a h l v).cageTries = s.cageTries := rfl
@[simp] theorem State.setField_triedAt : (s.setField a h l v).triedAt = s.triedAt := rfl
@[simp] theorem State.setField_presentAt : (s.setField a h l v).presentAt = s.presentAt := rfl
@[simp] theorem State.setField_recorder : (s.setField a h l v).recorder = s.recorder := rfl
@[simp] theorem State.setField_emitted : (s.setField a h l v).emitted = s.emitted := rfl
end

section
variable (s : State) (a n : Nat)
@[simp] theorem State.count_pending : (s.count a n).pending = s.pending := rfl
@[simp] theorem State.count_now : (s.count a n).now = s.now := rfl
@[simp] theorem State.count_siteTime : (s.count a n).siteTime = s.siteTime := rfl
@[simp] theorem State.count_timeRuns : (s.count a n).timeRuns = s.timeRuns := rfl
@[simp] theorem State.count_inputOk : (s.count a n).inputOk = s.inputOk := rfl
@[simp] theorem State.count_pwrgood : (s.count a n).pwrgood = s.pwrgood := rfl
@[simp] theorem State.count_perstN : (s.count a n).perstN = s.perstN := rfl
@[simp] theorem State.count_dormantPin : (s.count a n).dormantPin = s.dormantPin := rfl
@[simp] theorem State.count_profilePin : (s.count a n).profilePin = s.profilePin := rfl
@[simp] theorem State.count_locked : (s.count a n).locked = s.locked := rfl
@[simp] theorem State.count_hbm : (s.count a n).hbm = s.hbm := rfl
@[simp] theorem State.count_sram : (s.count a n).sram = s.sram := rfl
@[simp] theorem State.count_isram : (s.count a n).isram = s.isram := rfl
@[simp] theorem State.count_awlBuf : (s.count a n).awlBuf = s.awlBuf := rfl
@[simp] theorem State.count_flash : (s.count a n).flash = s.flash := rfl
@[simp] theorem State.count_nor : (s.count a n).nor = s.nor := rfl
@[simp] theorem State.count_norPart : (s.count a n).norPart = s.norPart := rfl
@[simp] theorem State.count_host : (s.count a n).host = s.host := rfl
@[simp] theorem State.count_dies : (s.count a n).dies = s.dies := rfl
@[simp] theorem State.count_sentinels : (s.count a n).sentinels = s.sentinels := rfl
@[simp] theorem State.count_cornerAt : (s.count a n).cornerAt = s.cornerAt := rfl
@[simp] theorem State.count_signals : (s.count a n).signals = s.signals := rfl
@[simp] theorem State.count_notices : (s.count a n).notices = s.notices := rfl
@[simp] theorem State.count_initialised : (s.count a n).initialised = s.initialised := rfl
@[simp] theorem State.count_journalValid : (s.count a n).journalValid = s.journalValid := rfl
@[simp] theorem State.count_journalOpen : (s.count a n).journalOpen = s.journalOpen := rfl
@[simp] theorem State.count_sources : (s.count a n).sources = s.sources := rfl
@[simp] theorem State.count_held : (s.count a n).held = s.held := rfl
@[simp] theorem State.count_covered : (s.count a n).covered = s.covered := rfl
@[simp] theorem State.count_best : (s.count a n).best = s.best := rfl
@[simp] theorem State.count_on : (s.count a n).on = s.on := rfl
@[simp] theorem State.count_rising : (s.count a n).rising = s.rising := rfl
@[simp] theorem State.count_switchOns : (s.count a n).switchOns = s.switchOns := rfl
@[simp] theorem State.count_switchedAt : (s.count a n).switchedAt = s.switchedAt := rfl
@[simp] theorem State.count_domFaults : (s.count a n).domFaults = s.domFaults := rfl
@[simp] theorem State.count_switchOffs : (s.count a n).switchOffs = s.switchOffs := rfl
@[simp] theorem State.count_tripped : (s.count a n).tripped = s.tripped := rfl
@[simp] theorem State.count_coolSince : (s.count a n).coolSince = s.coolSince := rfl
@[simp] theorem State.count_hotInletSince : (s.count a n).hotInletSince = s.hotInletSince := rfl
@[simp] theorem State.count_overSince : (s.count a n).overSince = s.overSince := rfl
@[simp] theorem State.count_coolantTold : (s.count a n).coolantTold = s.coolantTold := rfl
@[simp] theorem State.count_overTold : (s.count a n).overTold = s.overTold := rfl
@[simp] theorem State.count_excessDw : (s.count a n).excessDw = s.excessDw := rfl
@[simp] theorem State.count_retained : (s.count a n).retained = s.retained := rfl
@[simp] theorem State.count_wakeAt : (s.count a n).wakeAt = s.wakeAt := rfl
@[simp] theorem State.count_sensed : (s.count a n).sensed = s.sensed := rfl
@[simp] theorem State.count_failedChannels : (s.count a n).failedChannels = s.failedChannels := rfl
@[simp] theorem State.count_channelReplays : (s.count a n).channelReplays = s.channelReplays := rfl
@[simp] theorem State.count_accessMisses : (s.count a n).accessMisses = s.accessMisses := rfl
@[simp] theorem State.count_fatal : (s.count a n).fatal = s.fatal := rfl
@[simp] theorem State.count_monitors : (s.count a n).monitors = s.monitors := rfl
@[simp] theorem State.count_switchStep : (s.count a n).switchStep = s.switchStep := rfl
@[simp] theorem State.count_pllLocked : (s.count a n).pllLocked = s.pllLocked := rfl
@[simp] theorem State.count_wires : (s.count a n).wires = s.wires := rfl
@[simp] theorem State.count_heldPins : (s.count a n).heldPins = s.heldPins := rfl
@[simp] theorem State.count_crossings : (s.count a n).crossings = s.crossings := rfl
@[simp] theorem State.count_fuses : (s.count a n).fuses = s.fuses := rfl
@[simp] theorem State.count_cak : (s.count a n).cak = s.cak := rfl
@[simp] theorem State.count_kek : (s.count a n).kek = s.kek := rfl
@[simp] theorem State.count_authFails : (s.count a n).authFails = s.authFails := rfl
@[simp] theorem State.count_lockoutAt : (s.count a n).lockoutAt = s.lockoutAt := rfl
@[simp] theorem State.count_noiseFault : (s.count a n).noiseFault = s.noiseFault := rfl
@[simp] theorem State.count_drbgRequests : (s.count a n).drbgRequests = s.drbgRequests := rfl
@[simp] theorem State.count_drawCount : (s.count a n).drawCount = s.drawCount := rfl
@[simp] theorem State.count_firmware : (s.count a n).firmware = s.firmware := rfl
@[simp] theorem State.count_rings : (s.count a n).rings = s.rings := rfl
@[simp] theorem State.count_taken : (s.count a n).taken = s.taken := rfl
@[simp] theorem State.count_items : (s.count a n).items = s.items := rfl
@[simp] theorem State.count_decided : (s.count a n).decided = s.decided := rfl
@[simp] theorem State.count_ended : (s.count a n).ended = s.ended := rfl
@[simp] theorem State.count_bookings : (s.count a n).bookings = s.bookings := rfl
@[simp] theorem State.count_reservations : (s.count a n).reservations = s.reservations := rfl
@[simp] theorem State.count_heldRecords : (s.count a n).heldRecords = s.heldRecords := rfl
@[simp] theorem State.count_staged : (s.count a n).staged = s.staged := rfl
@[simp] theorem State.count_plans : (s.count a n).plans = s.plans := rfl
@[simp] theorem State.count_msixTable : (s.count a n).msixTable = s.msixTable := rfl
@[simp] theorem State.count_pba : (s.count a n).pba = s.pba := rfl
@[simp] theorem State.count_localVerdict : (s.count a n).localVerdict = s.localVerdict := rfl
@[simp] theorem State.count_localSent : (s.count a n).localSent = s.localSent := rfl
@[simp] theorem State.count_pastVerdicts : (s.count a n).pastVerdicts = s.pastVerdicts := rfl
@[simp] theorem State.count_armedAt : (s.count a n).armedAt = s.armedAt := rfl
@[simp] theorem State.count_reports : (s.count a n).reports = s.reports := rfl
@[simp] theorem State.count_norms : (s.count a n).norms = s.norms := rfl
@[simp] theorem State.count_pinOrder : (s.count a n).pinOrder = s.pinOrder := rfl
@[simp] theorem State.count_dayBuckets : (s.count a n).dayBuckets = s.dayBuckets := rfl
@[simp] theorem State.count_nandWritten : (s.count a n).nandWritten = s.nandWritten := rfl
@[simp] theorem State.count_nandLife : (s.count a n).nandLife = s.nandLife := rfl
@[simp] theorem State.count_unitWrites : (s.count a n).unitWrites = s.unitWrites := rfl
@[simp] theorem State.count_exportHolds : (s.count a n).exportHolds = s.exportHolds := rfl
@[simp] theorem State.count_shardsReady : (s.count a n).shardsReady = s.shardsReady := rfl
@[simp] theorem State.count_buckets : (s.count a n).buckets = s.buckets := rfl
@[simp] theorem State.count_rebased : (s.count a n).rebased = s.rebased := rfl
@[simp] theorem State.count_deltas : (s.count a n).deltas = s.deltas := rfl
@[simp] theorem State.count_nearPorts : (s.count a n).nearPorts = s.nearPorts := rfl
@[simp] theorem State.count_flows : (s.count a n).flows = s.flows := rfl
@[simp] theorem State.count_inbox : (s.count a n).inbox = s.inbox := rfl
@[simp] theorem State.count_owed : (s.count a n).owed = s.owed := rfl
@[simp] theorem State.count_reduces : (s.count a n).reduces = s.reduces := rfl
@[simp] theorem State.count_digestRoots : (s.count a n).digestRoots = s.digestRoots := rfl
@[simp] theorem State.count_digestNodes : (s.count a n).digestNodes = s.digestNodes := rfl
@[simp] theorem State.count_digestSilent : (s.count a n).digestSilent = s.digestSilent := rfl
@[simp] theorem State.count_farPorts : (s.count a n).farPorts = s.farPorts := rfl
@[simp] theorem State.count_recvSlots : (s.count a n).recvSlots = s.recvSlots := rfl
@[simp] theorem State.count_exchanges : (s.count a n).exchanges = s.exchanges := rfl
@[simp] theorem State.count_farInbox : (s.count a n).farInbox = s.farInbox := rfl
@[simp] theorem State.count_joining : (s.count a n).joining = s.joining := rfl
@[simp] theorem State.count_lastHold : (s.count a n).lastHold = s.lastHold := rfl
@[simp] theorem State.count_gathers : (s.count a n).gathers = s.gathers := rfl
@[simp] theorem State.count_feedbacks : (s.count a n).feedbacks = s.feedbacks := rfl
@[simp] theorem State.count_farTransfers : (s.count a n).farTransfers = s.farTransfers := rfl
@[simp] theorem State.count_surroundings : (s.count a n).surroundings = s.surroundings := rfl
@[simp] theorem State.count_cageTries : (s.count a n).cageTries = s.cageTries := rfl
@[simp] theorem State.count_triedAt : (s.count a n).triedAt = s.triedAt := rfl
@[simp] theorem State.count_presentAt : (s.count a n).presentAt = s.presentAt := rfl
@[simp] theorem State.count_recorder : (s.count a n).recorder = s.recorder := rfl
@[simp] theorem State.count_emitted : (s.count a n).emitted = s.emitted := rfl
end

section
variable (s : State) (a n : Nat)
@[simp] theorem State.count64_pending : (s.count64 a n).pending = s.pending := rfl
@[simp] theorem State.count64_now : (s.count64 a n).now = s.now := rfl
@[simp] theorem State.count64_siteTime : (s.count64 a n).siteTime = s.siteTime := rfl
@[simp] theorem State.count64_timeRuns : (s.count64 a n).timeRuns = s.timeRuns := rfl
@[simp] theorem State.count64_inputOk : (s.count64 a n).inputOk = s.inputOk := rfl
@[simp] theorem State.count64_pwrgood : (s.count64 a n).pwrgood = s.pwrgood := rfl
@[simp] theorem State.count64_perstN : (s.count64 a n).perstN = s.perstN := rfl
@[simp] theorem State.count64_dormantPin : (s.count64 a n).dormantPin = s.dormantPin := rfl
@[simp] theorem State.count64_profilePin : (s.count64 a n).profilePin = s.profilePin := rfl
@[simp] theorem State.count64_locked : (s.count64 a n).locked = s.locked := rfl
@[simp] theorem State.count64_hbm : (s.count64 a n).hbm = s.hbm := rfl
@[simp] theorem State.count64_sram : (s.count64 a n).sram = s.sram := rfl
@[simp] theorem State.count64_isram : (s.count64 a n).isram = s.isram := rfl
@[simp] theorem State.count64_awlBuf : (s.count64 a n).awlBuf = s.awlBuf := rfl
@[simp] theorem State.count64_flash : (s.count64 a n).flash = s.flash := rfl
@[simp] theorem State.count64_nor : (s.count64 a n).nor = s.nor := rfl
@[simp] theorem State.count64_norPart : (s.count64 a n).norPart = s.norPart := rfl
@[simp] theorem State.count64_host : (s.count64 a n).host = s.host := rfl
@[simp] theorem State.count64_dies : (s.count64 a n).dies = s.dies := rfl
@[simp] theorem State.count64_sentinels : (s.count64 a n).sentinels = s.sentinels := rfl
@[simp] theorem State.count64_cornerAt : (s.count64 a n).cornerAt = s.cornerAt := rfl
@[simp] theorem State.count64_signals : (s.count64 a n).signals = s.signals := rfl
@[simp] theorem State.count64_notices : (s.count64 a n).notices = s.notices := rfl
@[simp] theorem State.count64_initialised : (s.count64 a n).initialised = s.initialised := rfl
@[simp] theorem State.count64_journalValid : (s.count64 a n).journalValid = s.journalValid := rfl
@[simp] theorem State.count64_journalOpen : (s.count64 a n).journalOpen = s.journalOpen := rfl
@[simp] theorem State.count64_sources : (s.count64 a n).sources = s.sources := rfl
@[simp] theorem State.count64_held : (s.count64 a n).held = s.held := rfl
@[simp] theorem State.count64_covered : (s.count64 a n).covered = s.covered := rfl
@[simp] theorem State.count64_best : (s.count64 a n).best = s.best := rfl
@[simp] theorem State.count64_on : (s.count64 a n).on = s.on := rfl
@[simp] theorem State.count64_rising : (s.count64 a n).rising = s.rising := rfl
@[simp] theorem State.count64_switchOns : (s.count64 a n).switchOns = s.switchOns := rfl
@[simp] theorem State.count64_switchedAt : (s.count64 a n).switchedAt = s.switchedAt := rfl
@[simp] theorem State.count64_domFaults : (s.count64 a n).domFaults = s.domFaults := rfl
@[simp] theorem State.count64_switchOffs : (s.count64 a n).switchOffs = s.switchOffs := rfl
@[simp] theorem State.count64_tripped : (s.count64 a n).tripped = s.tripped := rfl
@[simp] theorem State.count64_coolSince : (s.count64 a n).coolSince = s.coolSince := rfl
@[simp] theorem State.count64_hotInletSince : (s.count64 a n).hotInletSince = s.hotInletSince := rfl
@[simp] theorem State.count64_overSince : (s.count64 a n).overSince = s.overSince := rfl
@[simp] theorem State.count64_coolantTold : (s.count64 a n).coolantTold = s.coolantTold := rfl
@[simp] theorem State.count64_overTold : (s.count64 a n).overTold = s.overTold := rfl
@[simp] theorem State.count64_excessDw : (s.count64 a n).excessDw = s.excessDw := rfl
@[simp] theorem State.count64_retained : (s.count64 a n).retained = s.retained := rfl
@[simp] theorem State.count64_wakeAt : (s.count64 a n).wakeAt = s.wakeAt := rfl
@[simp] theorem State.count64_sensed : (s.count64 a n).sensed = s.sensed := rfl
@[simp] theorem State.count64_failedChannels : (s.count64 a n).failedChannels = s.failedChannels := rfl
@[simp] theorem State.count64_channelReplays : (s.count64 a n).channelReplays = s.channelReplays := rfl
@[simp] theorem State.count64_accessMisses : (s.count64 a n).accessMisses = s.accessMisses := rfl
@[simp] theorem State.count64_fatal : (s.count64 a n).fatal = s.fatal := rfl
@[simp] theorem State.count64_monitors : (s.count64 a n).monitors = s.monitors := rfl
@[simp] theorem State.count64_switchStep : (s.count64 a n).switchStep = s.switchStep := rfl
@[simp] theorem State.count64_pllLocked : (s.count64 a n).pllLocked = s.pllLocked := rfl
@[simp] theorem State.count64_wires : (s.count64 a n).wires = s.wires := rfl
@[simp] theorem State.count64_heldPins : (s.count64 a n).heldPins = s.heldPins := rfl
@[simp] theorem State.count64_crossings : (s.count64 a n).crossings = s.crossings := rfl
@[simp] theorem State.count64_fuses : (s.count64 a n).fuses = s.fuses := rfl
@[simp] theorem State.count64_cak : (s.count64 a n).cak = s.cak := rfl
@[simp] theorem State.count64_kek : (s.count64 a n).kek = s.kek := rfl
@[simp] theorem State.count64_authFails : (s.count64 a n).authFails = s.authFails := rfl
@[simp] theorem State.count64_lockoutAt : (s.count64 a n).lockoutAt = s.lockoutAt := rfl
@[simp] theorem State.count64_noiseFault : (s.count64 a n).noiseFault = s.noiseFault := rfl
@[simp] theorem State.count64_drbgRequests : (s.count64 a n).drbgRequests = s.drbgRequests := rfl
@[simp] theorem State.count64_drawCount : (s.count64 a n).drawCount = s.drawCount := rfl
@[simp] theorem State.count64_firmware : (s.count64 a n).firmware = s.firmware := rfl
@[simp] theorem State.count64_rings : (s.count64 a n).rings = s.rings := rfl
@[simp] theorem State.count64_taken : (s.count64 a n).taken = s.taken := rfl
@[simp] theorem State.count64_items : (s.count64 a n).items = s.items := rfl
@[simp] theorem State.count64_decided : (s.count64 a n).decided = s.decided := rfl
@[simp] theorem State.count64_ended : (s.count64 a n).ended = s.ended := rfl
@[simp] theorem State.count64_bookings : (s.count64 a n).bookings = s.bookings := rfl
@[simp] theorem State.count64_reservations : (s.count64 a n).reservations = s.reservations := rfl
@[simp] theorem State.count64_heldRecords : (s.count64 a n).heldRecords = s.heldRecords := rfl
@[simp] theorem State.count64_staged : (s.count64 a n).staged = s.staged := rfl
@[simp] theorem State.count64_plans : (s.count64 a n).plans = s.plans := rfl
@[simp] theorem State.count64_msixTable : (s.count64 a n).msixTable = s.msixTable := rfl
@[simp] theorem State.count64_pba : (s.count64 a n).pba = s.pba := rfl
@[simp] theorem State.count64_localVerdict : (s.count64 a n).localVerdict = s.localVerdict := rfl
@[simp] theorem State.count64_localSent : (s.count64 a n).localSent = s.localSent := rfl
@[simp] theorem State.count64_pastVerdicts : (s.count64 a n).pastVerdicts = s.pastVerdicts := rfl
@[simp] theorem State.count64_armedAt : (s.count64 a n).armedAt = s.armedAt := rfl
@[simp] theorem State.count64_reports : (s.count64 a n).reports = s.reports := rfl
@[simp] theorem State.count64_norms : (s.count64 a n).norms = s.norms := rfl
@[simp] theorem State.count64_pinOrder : (s.count64 a n).pinOrder = s.pinOrder := rfl
@[simp] theorem State.count64_dayBuckets : (s.count64 a n).dayBuckets = s.dayBuckets := rfl
@[simp] theorem State.count64_nandWritten : (s.count64 a n).nandWritten = s.nandWritten := rfl
@[simp] theorem State.count64_nandLife : (s.count64 a n).nandLife = s.nandLife := rfl
@[simp] theorem State.count64_unitWrites : (s.count64 a n).unitWrites = s.unitWrites := rfl
@[simp] theorem State.count64_exportHolds : (s.count64 a n).exportHolds = s.exportHolds := rfl
@[simp] theorem State.count64_shardsReady : (s.count64 a n).shardsReady = s.shardsReady := rfl
@[simp] theorem State.count64_buckets : (s.count64 a n).buckets = s.buckets := rfl
@[simp] theorem State.count64_rebased : (s.count64 a n).rebased = s.rebased := rfl
@[simp] theorem State.count64_deltas : (s.count64 a n).deltas = s.deltas := rfl
@[simp] theorem State.count64_nearPorts : (s.count64 a n).nearPorts = s.nearPorts := rfl
@[simp] theorem State.count64_flows : (s.count64 a n).flows = s.flows := rfl
@[simp] theorem State.count64_inbox : (s.count64 a n).inbox = s.inbox := rfl
@[simp] theorem State.count64_owed : (s.count64 a n).owed = s.owed := rfl
@[simp] theorem State.count64_reduces : (s.count64 a n).reduces = s.reduces := rfl
@[simp] theorem State.count64_digestRoots : (s.count64 a n).digestRoots = s.digestRoots := rfl
@[simp] theorem State.count64_digestNodes : (s.count64 a n).digestNodes = s.digestNodes := rfl
@[simp] theorem State.count64_digestSilent : (s.count64 a n).digestSilent = s.digestSilent := rfl
@[simp] theorem State.count64_farPorts : (s.count64 a n).farPorts = s.farPorts := rfl
@[simp] theorem State.count64_recvSlots : (s.count64 a n).recvSlots = s.recvSlots := rfl
@[simp] theorem State.count64_exchanges : (s.count64 a n).exchanges = s.exchanges := rfl
@[simp] theorem State.count64_farInbox : (s.count64 a n).farInbox = s.farInbox := rfl
@[simp] theorem State.count64_joining : (s.count64 a n).joining = s.joining := rfl
@[simp] theorem State.count64_lastHold : (s.count64 a n).lastHold = s.lastHold := rfl
@[simp] theorem State.count64_gathers : (s.count64 a n).gathers = s.gathers := rfl
@[simp] theorem State.count64_feedbacks : (s.count64 a n).feedbacks = s.feedbacks := rfl
@[simp] theorem State.count64_farTransfers : (s.count64 a n).farTransfers = s.farTransfers := rfl
@[simp] theorem State.count64_surroundings : (s.count64 a n).surroundings = s.surroundings := rfl
@[simp] theorem State.count64_cageTries : (s.count64 a n).cageTries = s.cageTries := rfl
@[simp] theorem State.count64_triedAt : (s.count64 a n).triedAt = s.triedAt := rfl
@[simp] theorem State.count64_presentAt : (s.count64 a n).presentAt = s.presentAt := rfl
@[simp] theorem State.count64_recorder : (s.count64 a n).recorder = s.recorder := rfl
@[simp] theorem State.count64_emitted : (s.count64 a n).emitted = s.emitted := rfl
end

section
variable (s : State) (e : Emitted)
@[simp] theorem State.emit_pending : (s.emit e).pending = s.pending := rfl
@[simp] theorem State.emit_now : (s.emit e).now = s.now := rfl
@[simp] theorem State.emit_siteTime : (s.emit e).siteTime = s.siteTime := rfl
@[simp] theorem State.emit_timeRuns : (s.emit e).timeRuns = s.timeRuns := rfl
@[simp] theorem State.emit_inputOk : (s.emit e).inputOk = s.inputOk := rfl
@[simp] theorem State.emit_pwrgood : (s.emit e).pwrgood = s.pwrgood := rfl
@[simp] theorem State.emit_perstN : (s.emit e).perstN = s.perstN := rfl
@[simp] theorem State.emit_dormantPin : (s.emit e).dormantPin = s.dormantPin := rfl
@[simp] theorem State.emit_profilePin : (s.emit e).profilePin = s.profilePin := rfl
@[simp] theorem State.emit_regs : (s.emit e).regs = s.regs := rfl
@[simp] theorem State.emit_locked : (s.emit e).locked = s.locked := rfl
@[simp] theorem State.emit_hbm : (s.emit e).hbm = s.hbm := rfl
@[simp] theorem State.emit_sram : (s.emit e).sram = s.sram := rfl
@[simp] theorem State.emit_isram : (s.emit e).isram = s.isram := rfl
@[simp] theorem State.emit_awlBuf : (s.emit e).awlBuf = s.awlBuf := rfl
@[simp] theorem State.emit_flash : (s.emit e).flash = s.flash := rfl
@[simp] theorem State.emit_nor : (s.emit e).nor = s.nor := rfl
@[simp] theorem State.emit_norPart : (s.emit e).norPart = s.norPart := rfl
@[simp] theorem State.emit_host : (s.emit e).host = s.host := rfl
@[simp] theorem State.emit_dies : (s.emit e).dies = s.dies := rfl
@[simp] theorem State.emit_sentinels : (s.emit e).sentinels = s.sentinels := rfl
@[simp] theorem State.emit_cornerAt : (s.emit e).cornerAt = s.cornerAt := rfl
@[simp] theorem State.emit_signals : (s.emit e).signals = s.signals := rfl
@[simp] theorem State.emit_notices : (s.emit e).notices = s.notices := rfl
@[simp] theorem State.emit_initialised : (s.emit e).initialised = s.initialised := rfl
@[simp] theorem State.emit_journalValid : (s.emit e).journalValid = s.journalValid := rfl
@[simp] theorem State.emit_journalOpen : (s.emit e).journalOpen = s.journalOpen := rfl
@[simp] theorem State.emit_sources : (s.emit e).sources = s.sources := rfl
@[simp] theorem State.emit_held : (s.emit e).held = s.held := rfl
@[simp] theorem State.emit_covered : (s.emit e).covered = s.covered := rfl
@[simp] theorem State.emit_best : (s.emit e).best = s.best := rfl
@[simp] theorem State.emit_on : (s.emit e).on = s.on := rfl
@[simp] theorem State.emit_rising : (s.emit e).rising = s.rising := rfl
@[simp] theorem State.emit_switchOns : (s.emit e).switchOns = s.switchOns := rfl
@[simp] theorem State.emit_switchedAt : (s.emit e).switchedAt = s.switchedAt := rfl
@[simp] theorem State.emit_domFaults : (s.emit e).domFaults = s.domFaults := rfl
@[simp] theorem State.emit_switchOffs : (s.emit e).switchOffs = s.switchOffs := rfl
@[simp] theorem State.emit_tripped : (s.emit e).tripped = s.tripped := rfl
@[simp] theorem State.emit_coolSince : (s.emit e).coolSince = s.coolSince := rfl
@[simp] theorem State.emit_hotInletSince : (s.emit e).hotInletSince = s.hotInletSince := rfl
@[simp] theorem State.emit_overSince : (s.emit e).overSince = s.overSince := rfl
@[simp] theorem State.emit_coolantTold : (s.emit e).coolantTold = s.coolantTold := rfl
@[simp] theorem State.emit_overTold : (s.emit e).overTold = s.overTold := rfl
@[simp] theorem State.emit_excessDw : (s.emit e).excessDw = s.excessDw := rfl
@[simp] theorem State.emit_retained : (s.emit e).retained = s.retained := rfl
@[simp] theorem State.emit_wakeAt : (s.emit e).wakeAt = s.wakeAt := rfl
@[simp] theorem State.emit_sensed : (s.emit e).sensed = s.sensed := rfl
@[simp] theorem State.emit_failedChannels : (s.emit e).failedChannels = s.failedChannels := rfl
@[simp] theorem State.emit_channelReplays : (s.emit e).channelReplays = s.channelReplays := rfl
@[simp] theorem State.emit_accessMisses : (s.emit e).accessMisses = s.accessMisses := rfl
@[simp] theorem State.emit_fatal : (s.emit e).fatal = s.fatal := rfl
@[simp] theorem State.emit_monitors : (s.emit e).monitors = s.monitors := rfl
@[simp] theorem State.emit_switchStep : (s.emit e).switchStep = s.switchStep := rfl
@[simp] theorem State.emit_pllLocked : (s.emit e).pllLocked = s.pllLocked := rfl
@[simp] theorem State.emit_wires : (s.emit e).wires = s.wires := rfl
@[simp] theorem State.emit_heldPins : (s.emit e).heldPins = s.heldPins := rfl
@[simp] theorem State.emit_crossings : (s.emit e).crossings = s.crossings := rfl
@[simp] theorem State.emit_fuses : (s.emit e).fuses = s.fuses := rfl
@[simp] theorem State.emit_cak : (s.emit e).cak = s.cak := rfl
@[simp] theorem State.emit_kek : (s.emit e).kek = s.kek := rfl
@[simp] theorem State.emit_authFails : (s.emit e).authFails = s.authFails := rfl
@[simp] theorem State.emit_lockoutAt : (s.emit e).lockoutAt = s.lockoutAt := rfl
@[simp] theorem State.emit_noiseFault : (s.emit e).noiseFault = s.noiseFault := rfl
@[simp] theorem State.emit_drbgRequests : (s.emit e).drbgRequests = s.drbgRequests := rfl
@[simp] theorem State.emit_drawCount : (s.emit e).drawCount = s.drawCount := rfl
@[simp] theorem State.emit_firmware : (s.emit e).firmware = s.firmware := rfl
@[simp] theorem State.emit_rings : (s.emit e).rings = s.rings := rfl
@[simp] theorem State.emit_taken : (s.emit e).taken = s.taken := rfl
@[simp] theorem State.emit_items : (s.emit e).items = s.items := rfl
@[simp] theorem State.emit_decided : (s.emit e).decided = s.decided := rfl
@[simp] theorem State.emit_ended : (s.emit e).ended = s.ended := rfl
@[simp] theorem State.emit_bookings : (s.emit e).bookings = s.bookings := rfl
@[simp] theorem State.emit_reservations : (s.emit e).reservations = s.reservations := rfl
@[simp] theorem State.emit_heldRecords : (s.emit e).heldRecords = s.heldRecords := rfl
@[simp] theorem State.emit_staged : (s.emit e).staged = s.staged := rfl
@[simp] theorem State.emit_plans : (s.emit e).plans = s.plans := rfl
@[simp] theorem State.emit_msixTable : (s.emit e).msixTable = s.msixTable := rfl
@[simp] theorem State.emit_pba : (s.emit e).pba = s.pba := rfl
@[simp] theorem State.emit_localVerdict : (s.emit e).localVerdict = s.localVerdict := rfl
@[simp] theorem State.emit_localSent : (s.emit e).localSent = s.localSent := rfl
@[simp] theorem State.emit_pastVerdicts : (s.emit e).pastVerdicts = s.pastVerdicts := rfl
@[simp] theorem State.emit_armedAt : (s.emit e).armedAt = s.armedAt := rfl
@[simp] theorem State.emit_reports : (s.emit e).reports = s.reports := rfl
@[simp] theorem State.emit_norms : (s.emit e).norms = s.norms := rfl
@[simp] theorem State.emit_pinOrder : (s.emit e).pinOrder = s.pinOrder := rfl
@[simp] theorem State.emit_dayBuckets : (s.emit e).dayBuckets = s.dayBuckets := rfl
@[simp] theorem State.emit_nandWritten : (s.emit e).nandWritten = s.nandWritten := rfl
@[simp] theorem State.emit_nandLife : (s.emit e).nandLife = s.nandLife := rfl
@[simp] theorem State.emit_unitWrites : (s.emit e).unitWrites = s.unitWrites := rfl
@[simp] theorem State.emit_exportHolds : (s.emit e).exportHolds = s.exportHolds := rfl
@[simp] theorem State.emit_shardsReady : (s.emit e).shardsReady = s.shardsReady := rfl
@[simp] theorem State.emit_buckets : (s.emit e).buckets = s.buckets := rfl
@[simp] theorem State.emit_rebased : (s.emit e).rebased = s.rebased := rfl
@[simp] theorem State.emit_deltas : (s.emit e).deltas = s.deltas := rfl
@[simp] theorem State.emit_nearPorts : (s.emit e).nearPorts = s.nearPorts := rfl
@[simp] theorem State.emit_flows : (s.emit e).flows = s.flows := rfl
@[simp] theorem State.emit_inbox : (s.emit e).inbox = s.inbox := rfl
@[simp] theorem State.emit_owed : (s.emit e).owed = s.owed := rfl
@[simp] theorem State.emit_reduces : (s.emit e).reduces = s.reduces := rfl
@[simp] theorem State.emit_digestRoots : (s.emit e).digestRoots = s.digestRoots := rfl
@[simp] theorem State.emit_digestNodes : (s.emit e).digestNodes = s.digestNodes := rfl
@[simp] theorem State.emit_digestSilent : (s.emit e).digestSilent = s.digestSilent := rfl
@[simp] theorem State.emit_farPorts : (s.emit e).farPorts = s.farPorts := rfl
@[simp] theorem State.emit_recvSlots : (s.emit e).recvSlots = s.recvSlots := rfl
@[simp] theorem State.emit_exchanges : (s.emit e).exchanges = s.exchanges := rfl
@[simp] theorem State.emit_farInbox : (s.emit e).farInbox = s.farInbox := rfl
@[simp] theorem State.emit_joining : (s.emit e).joining = s.joining := rfl
@[simp] theorem State.emit_lastHold : (s.emit e).lastHold = s.lastHold := rfl
@[simp] theorem State.emit_gathers : (s.emit e).gathers = s.gathers := rfl
@[simp] theorem State.emit_feedbacks : (s.emit e).feedbacks = s.feedbacks := rfl
@[simp] theorem State.emit_farTransfers : (s.emit e).farTransfers = s.farTransfers := rfl
@[simp] theorem State.emit_surroundings : (s.emit e).surroundings = s.surroundings := rfl
@[simp] theorem State.emit_cageTries : (s.emit e).cageTries = s.cageTries := rfl
@[simp] theorem State.emit_triedAt : (s.emit e).triedAt = s.triedAt := rfl
@[simp] theorem State.emit_presentAt : (s.emit e).presentAt = s.presentAt := rfl
@[simp] theorem State.emit_recorder : (s.emit e).recorder = s.recorder := rfl
end

section
variable (s : State) (n : Nat) (f : Die → Die)
@[simp] theorem State.modDie_pending : (s.modDie n f).pending = s.pending := rfl
@[simp] theorem State.modDie_now : (s.modDie n f).now = s.now := rfl
@[simp] theorem State.modDie_siteTime : (s.modDie n f).siteTime = s.siteTime := rfl
@[simp] theorem State.modDie_timeRuns : (s.modDie n f).timeRuns = s.timeRuns := rfl
@[simp] theorem State.modDie_inputOk : (s.modDie n f).inputOk = s.inputOk := rfl
@[simp] theorem State.modDie_pwrgood : (s.modDie n f).pwrgood = s.pwrgood := rfl
@[simp] theorem State.modDie_perstN : (s.modDie n f).perstN = s.perstN := rfl
@[simp] theorem State.modDie_dormantPin : (s.modDie n f).dormantPin = s.dormantPin := rfl
@[simp] theorem State.modDie_profilePin : (s.modDie n f).profilePin = s.profilePin := rfl
@[simp] theorem State.modDie_regs : (s.modDie n f).regs = s.regs := rfl
@[simp] theorem State.modDie_locked : (s.modDie n f).locked = s.locked := rfl
@[simp] theorem State.modDie_hbm : (s.modDie n f).hbm = s.hbm := rfl
@[simp] theorem State.modDie_sram : (s.modDie n f).sram = s.sram := rfl
@[simp] theorem State.modDie_isram : (s.modDie n f).isram = s.isram := rfl
@[simp] theorem State.modDie_awlBuf : (s.modDie n f).awlBuf = s.awlBuf := rfl
@[simp] theorem State.modDie_flash : (s.modDie n f).flash = s.flash := rfl
@[simp] theorem State.modDie_nor : (s.modDie n f).nor = s.nor := rfl
@[simp] theorem State.modDie_norPart : (s.modDie n f).norPart = s.norPart := rfl
@[simp] theorem State.modDie_host : (s.modDie n f).host = s.host := rfl
@[simp] theorem State.modDie_sentinels : (s.modDie n f).sentinels = s.sentinels := rfl
@[simp] theorem State.modDie_cornerAt : (s.modDie n f).cornerAt = s.cornerAt := rfl
@[simp] theorem State.modDie_signals : (s.modDie n f).signals = s.signals := rfl
@[simp] theorem State.modDie_notices : (s.modDie n f).notices = s.notices := rfl
@[simp] theorem State.modDie_initialised : (s.modDie n f).initialised = s.initialised := rfl
@[simp] theorem State.modDie_journalValid : (s.modDie n f).journalValid = s.journalValid := rfl
@[simp] theorem State.modDie_journalOpen : (s.modDie n f).journalOpen = s.journalOpen := rfl
@[simp] theorem State.modDie_sources : (s.modDie n f).sources = s.sources := rfl
@[simp] theorem State.modDie_held : (s.modDie n f).held = s.held := rfl
@[simp] theorem State.modDie_covered : (s.modDie n f).covered = s.covered := rfl
@[simp] theorem State.modDie_best : (s.modDie n f).best = s.best := rfl
@[simp] theorem State.modDie_on : (s.modDie n f).on = s.on := rfl
@[simp] theorem State.modDie_rising : (s.modDie n f).rising = s.rising := rfl
@[simp] theorem State.modDie_switchOns : (s.modDie n f).switchOns = s.switchOns := rfl
@[simp] theorem State.modDie_switchedAt : (s.modDie n f).switchedAt = s.switchedAt := rfl
@[simp] theorem State.modDie_domFaults : (s.modDie n f).domFaults = s.domFaults := rfl
@[simp] theorem State.modDie_switchOffs : (s.modDie n f).switchOffs = s.switchOffs := rfl
@[simp] theorem State.modDie_tripped : (s.modDie n f).tripped = s.tripped := rfl
@[simp] theorem State.modDie_coolSince : (s.modDie n f).coolSince = s.coolSince := rfl
@[simp] theorem State.modDie_hotInletSince : (s.modDie n f).hotInletSince = s.hotInletSince := rfl
@[simp] theorem State.modDie_overSince : (s.modDie n f).overSince = s.overSince := rfl
@[simp] theorem State.modDie_coolantTold : (s.modDie n f).coolantTold = s.coolantTold := rfl
@[simp] theorem State.modDie_overTold : (s.modDie n f).overTold = s.overTold := rfl
@[simp] theorem State.modDie_excessDw : (s.modDie n f).excessDw = s.excessDw := rfl
@[simp] theorem State.modDie_retained : (s.modDie n f).retained = s.retained := rfl
@[simp] theorem State.modDie_wakeAt : (s.modDie n f).wakeAt = s.wakeAt := rfl
@[simp] theorem State.modDie_sensed : (s.modDie n f).sensed = s.sensed := rfl
@[simp] theorem State.modDie_failedChannels : (s.modDie n f).failedChannels = s.failedChannels := rfl
@[simp] theorem State.modDie_channelReplays : (s.modDie n f).channelReplays = s.channelReplays := rfl
@[simp] theorem State.modDie_accessMisses : (s.modDie n f).accessMisses = s.accessMisses := rfl
@[simp] theorem State.modDie_fatal : (s.modDie n f).fatal = s.fatal := rfl
@[simp] theorem State.modDie_monitors : (s.modDie n f).monitors = s.monitors := rfl
@[simp] theorem State.modDie_switchStep : (s.modDie n f).switchStep = s.switchStep := rfl
@[simp] theorem State.modDie_pllLocked : (s.modDie n f).pllLocked = s.pllLocked := rfl
@[simp] theorem State.modDie_wires : (s.modDie n f).wires = s.wires := rfl
@[simp] theorem State.modDie_heldPins : (s.modDie n f).heldPins = s.heldPins := rfl
@[simp] theorem State.modDie_crossings : (s.modDie n f).crossings = s.crossings := rfl
@[simp] theorem State.modDie_fuses : (s.modDie n f).fuses = s.fuses := rfl
@[simp] theorem State.modDie_cak : (s.modDie n f).cak = s.cak := rfl
@[simp] theorem State.modDie_kek : (s.modDie n f).kek = s.kek := rfl
@[simp] theorem State.modDie_authFails : (s.modDie n f).authFails = s.authFails := rfl
@[simp] theorem State.modDie_lockoutAt : (s.modDie n f).lockoutAt = s.lockoutAt := rfl
@[simp] theorem State.modDie_noiseFault : (s.modDie n f).noiseFault = s.noiseFault := rfl
@[simp] theorem State.modDie_drbgRequests : (s.modDie n f).drbgRequests = s.drbgRequests := rfl
@[simp] theorem State.modDie_drawCount : (s.modDie n f).drawCount = s.drawCount := rfl
@[simp] theorem State.modDie_firmware : (s.modDie n f).firmware = s.firmware := rfl
@[simp] theorem State.modDie_rings : (s.modDie n f).rings = s.rings := rfl
@[simp] theorem State.modDie_taken : (s.modDie n f).taken = s.taken := rfl
@[simp] theorem State.modDie_items : (s.modDie n f).items = s.items := rfl
@[simp] theorem State.modDie_decided : (s.modDie n f).decided = s.decided := rfl
@[simp] theorem State.modDie_ended : (s.modDie n f).ended = s.ended := rfl
@[simp] theorem State.modDie_bookings : (s.modDie n f).bookings = s.bookings := rfl
@[simp] theorem State.modDie_reservations : (s.modDie n f).reservations = s.reservations := rfl
@[simp] theorem State.modDie_heldRecords : (s.modDie n f).heldRecords = s.heldRecords := rfl
@[simp] theorem State.modDie_staged : (s.modDie n f).staged = s.staged := rfl
@[simp] theorem State.modDie_plans : (s.modDie n f).plans = s.plans := rfl
@[simp] theorem State.modDie_msixTable : (s.modDie n f).msixTable = s.msixTable := rfl
@[simp] theorem State.modDie_pba : (s.modDie n f).pba = s.pba := rfl
@[simp] theorem State.modDie_localVerdict : (s.modDie n f).localVerdict = s.localVerdict := rfl
@[simp] theorem State.modDie_localSent : (s.modDie n f).localSent = s.localSent := rfl
@[simp] theorem State.modDie_pastVerdicts : (s.modDie n f).pastVerdicts = s.pastVerdicts := rfl
@[simp] theorem State.modDie_armedAt : (s.modDie n f).armedAt = s.armedAt := rfl
@[simp] theorem State.modDie_reports : (s.modDie n f).reports = s.reports := rfl
@[simp] theorem State.modDie_norms : (s.modDie n f).norms = s.norms := rfl
@[simp] theorem State.modDie_pinOrder : (s.modDie n f).pinOrder = s.pinOrder := rfl
@[simp] theorem State.modDie_dayBuckets : (s.modDie n f).dayBuckets = s.dayBuckets := rfl
@[simp] theorem State.modDie_nandWritten : (s.modDie n f).nandWritten = s.nandWritten := rfl
@[simp] theorem State.modDie_nandLife : (s.modDie n f).nandLife = s.nandLife := rfl
@[simp] theorem State.modDie_unitWrites : (s.modDie n f).unitWrites = s.unitWrites := rfl
@[simp] theorem State.modDie_exportHolds : (s.modDie n f).exportHolds = s.exportHolds := rfl
@[simp] theorem State.modDie_shardsReady : (s.modDie n f).shardsReady = s.shardsReady := rfl
@[simp] theorem State.modDie_buckets : (s.modDie n f).buckets = s.buckets := rfl
@[simp] theorem State.modDie_rebased : (s.modDie n f).rebased = s.rebased := rfl
@[simp] theorem State.modDie_deltas : (s.modDie n f).deltas = s.deltas := rfl
@[simp] theorem State.modDie_nearPorts : (s.modDie n f).nearPorts = s.nearPorts := rfl
@[simp] theorem State.modDie_flows : (s.modDie n f).flows = s.flows := rfl
@[simp] theorem State.modDie_inbox : (s.modDie n f).inbox = s.inbox := rfl
@[simp] theorem State.modDie_owed : (s.modDie n f).owed = s.owed := rfl
@[simp] theorem State.modDie_reduces : (s.modDie n f).reduces = s.reduces := rfl
@[simp] theorem State.modDie_digestRoots : (s.modDie n f).digestRoots = s.digestRoots := rfl
@[simp] theorem State.modDie_digestNodes : (s.modDie n f).digestNodes = s.digestNodes := rfl
@[simp] theorem State.modDie_digestSilent : (s.modDie n f).digestSilent = s.digestSilent := rfl
@[simp] theorem State.modDie_farPorts : (s.modDie n f).farPorts = s.farPorts := rfl
@[simp] theorem State.modDie_recvSlots : (s.modDie n f).recvSlots = s.recvSlots := rfl
@[simp] theorem State.modDie_exchanges : (s.modDie n f).exchanges = s.exchanges := rfl
@[simp] theorem State.modDie_farInbox : (s.modDie n f).farInbox = s.farInbox := rfl
@[simp] theorem State.modDie_joining : (s.modDie n f).joining = s.joining := rfl
@[simp] theorem State.modDie_lastHold : (s.modDie n f).lastHold = s.lastHold := rfl
@[simp] theorem State.modDie_gathers : (s.modDie n f).gathers = s.gathers := rfl
@[simp] theorem State.modDie_feedbacks : (s.modDie n f).feedbacks = s.feedbacks := rfl
@[simp] theorem State.modDie_farTransfers : (s.modDie n f).farTransfers = s.farTransfers := rfl
@[simp] theorem State.modDie_surroundings : (s.modDie n f).surroundings = s.surroundings := rfl
@[simp] theorem State.modDie_cageTries : (s.modDie n f).cageTries = s.cageTries := rfl
@[simp] theorem State.modDie_triedAt : (s.modDie n f).triedAt = s.triedAt := rfl
@[simp] theorem State.modDie_presentAt : (s.modDie n f).presentAt = s.presentAt := rfl
@[simp] theorem State.modDie_recorder : (s.modDie n f).recorder = s.recorder := rfl
@[simp] theorem State.modDie_emitted : (s.modDie n f).emitted = s.emitted := rfl
end

section
variable (s : State) (n : Nat) (f : Ring → Ring)
@[simp] theorem State.modRing_pending : (s.modRing n f).pending = s.pending := rfl
@[simp] theorem State.modRing_now : (s.modRing n f).now = s.now := rfl
@[simp] theorem State.modRing_siteTime : (s.modRing n f).siteTime = s.siteTime := rfl
@[simp] theorem State.modRing_timeRuns : (s.modRing n f).timeRuns = s.timeRuns := rfl
@[simp] theorem State.modRing_inputOk : (s.modRing n f).inputOk = s.inputOk := rfl
@[simp] theorem State.modRing_pwrgood : (s.modRing n f).pwrgood = s.pwrgood := rfl
@[simp] theorem State.modRing_perstN : (s.modRing n f).perstN = s.perstN := rfl
@[simp] theorem State.modRing_dormantPin : (s.modRing n f).dormantPin = s.dormantPin := rfl
@[simp] theorem State.modRing_profilePin : (s.modRing n f).profilePin = s.profilePin := rfl
@[simp] theorem State.modRing_regs : (s.modRing n f).regs = s.regs := rfl
@[simp] theorem State.modRing_locked : (s.modRing n f).locked = s.locked := rfl
@[simp] theorem State.modRing_hbm : (s.modRing n f).hbm = s.hbm := rfl
@[simp] theorem State.modRing_sram : (s.modRing n f).sram = s.sram := rfl
@[simp] theorem State.modRing_isram : (s.modRing n f).isram = s.isram := rfl
@[simp] theorem State.modRing_awlBuf : (s.modRing n f).awlBuf = s.awlBuf := rfl
@[simp] theorem State.modRing_flash : (s.modRing n f).flash = s.flash := rfl
@[simp] theorem State.modRing_nor : (s.modRing n f).nor = s.nor := rfl
@[simp] theorem State.modRing_norPart : (s.modRing n f).norPart = s.norPart := rfl
@[simp] theorem State.modRing_host : (s.modRing n f).host = s.host := rfl
@[simp] theorem State.modRing_dies : (s.modRing n f).dies = s.dies := rfl
@[simp] theorem State.modRing_sentinels : (s.modRing n f).sentinels = s.sentinels := rfl
@[simp] theorem State.modRing_cornerAt : (s.modRing n f).cornerAt = s.cornerAt := rfl
@[simp] theorem State.modRing_signals : (s.modRing n f).signals = s.signals := rfl
@[simp] theorem State.modRing_notices : (s.modRing n f).notices = s.notices := rfl
@[simp] theorem State.modRing_initialised : (s.modRing n f).initialised = s.initialised := rfl
@[simp] theorem State.modRing_journalValid : (s.modRing n f).journalValid = s.journalValid := rfl
@[simp] theorem State.modRing_journalOpen : (s.modRing n f).journalOpen = s.journalOpen := rfl
@[simp] theorem State.modRing_sources : (s.modRing n f).sources = s.sources := rfl
@[simp] theorem State.modRing_held : (s.modRing n f).held = s.held := rfl
@[simp] theorem State.modRing_covered : (s.modRing n f).covered = s.covered := rfl
@[simp] theorem State.modRing_best : (s.modRing n f).best = s.best := rfl
@[simp] theorem State.modRing_on : (s.modRing n f).on = s.on := rfl
@[simp] theorem State.modRing_rising : (s.modRing n f).rising = s.rising := rfl
@[simp] theorem State.modRing_switchOns : (s.modRing n f).switchOns = s.switchOns := rfl
@[simp] theorem State.modRing_switchedAt : (s.modRing n f).switchedAt = s.switchedAt := rfl
@[simp] theorem State.modRing_domFaults : (s.modRing n f).domFaults = s.domFaults := rfl
@[simp] theorem State.modRing_switchOffs : (s.modRing n f).switchOffs = s.switchOffs := rfl
@[simp] theorem State.modRing_tripped : (s.modRing n f).tripped = s.tripped := rfl
@[simp] theorem State.modRing_coolSince : (s.modRing n f).coolSince = s.coolSince := rfl
@[simp] theorem State.modRing_hotInletSince : (s.modRing n f).hotInletSince = s.hotInletSince := rfl
@[simp] theorem State.modRing_overSince : (s.modRing n f).overSince = s.overSince := rfl
@[simp] theorem State.modRing_coolantTold : (s.modRing n f).coolantTold = s.coolantTold := rfl
@[simp] theorem State.modRing_overTold : (s.modRing n f).overTold = s.overTold := rfl
@[simp] theorem State.modRing_excessDw : (s.modRing n f).excessDw = s.excessDw := rfl
@[simp] theorem State.modRing_retained : (s.modRing n f).retained = s.retained := rfl
@[simp] theorem State.modRing_wakeAt : (s.modRing n f).wakeAt = s.wakeAt := rfl
@[simp] theorem State.modRing_sensed : (s.modRing n f).sensed = s.sensed := rfl
@[simp] theorem State.modRing_failedChannels : (s.modRing n f).failedChannels = s.failedChannels := rfl
@[simp] theorem State.modRing_channelReplays : (s.modRing n f).channelReplays = s.channelReplays := rfl
@[simp] theorem State.modRing_accessMisses : (s.modRing n f).accessMisses = s.accessMisses := rfl
@[simp] theorem State.modRing_fatal : (s.modRing n f).fatal = s.fatal := rfl
@[simp] theorem State.modRing_monitors : (s.modRing n f).monitors = s.monitors := rfl
@[simp] theorem State.modRing_switchStep : (s.modRing n f).switchStep = s.switchStep := rfl
@[simp] theorem State.modRing_pllLocked : (s.modRing n f).pllLocked = s.pllLocked := rfl
@[simp] theorem State.modRing_wires : (s.modRing n f).wires = s.wires := rfl
@[simp] theorem State.modRing_heldPins : (s.modRing n f).heldPins = s.heldPins := rfl
@[simp] theorem State.modRing_crossings : (s.modRing n f).crossings = s.crossings := rfl
@[simp] theorem State.modRing_fuses : (s.modRing n f).fuses = s.fuses := rfl
@[simp] theorem State.modRing_cak : (s.modRing n f).cak = s.cak := rfl
@[simp] theorem State.modRing_kek : (s.modRing n f).kek = s.kek := rfl
@[simp] theorem State.modRing_authFails : (s.modRing n f).authFails = s.authFails := rfl
@[simp] theorem State.modRing_lockoutAt : (s.modRing n f).lockoutAt = s.lockoutAt := rfl
@[simp] theorem State.modRing_noiseFault : (s.modRing n f).noiseFault = s.noiseFault := rfl
@[simp] theorem State.modRing_drbgRequests : (s.modRing n f).drbgRequests = s.drbgRequests := rfl
@[simp] theorem State.modRing_drawCount : (s.modRing n f).drawCount = s.drawCount := rfl
@[simp] theorem State.modRing_firmware : (s.modRing n f).firmware = s.firmware := rfl
@[simp] theorem State.modRing_taken : (s.modRing n f).taken = s.taken := rfl
@[simp] theorem State.modRing_items : (s.modRing n f).items = s.items := rfl
@[simp] theorem State.modRing_decided : (s.modRing n f).decided = s.decided := rfl
@[simp] theorem State.modRing_ended : (s.modRing n f).ended = s.ended := rfl
@[simp] theorem State.modRing_bookings : (s.modRing n f).bookings = s.bookings := rfl
@[simp] theorem State.modRing_reservations : (s.modRing n f).reservations = s.reservations := rfl
@[simp] theorem State.modRing_heldRecords : (s.modRing n f).heldRecords = s.heldRecords := rfl
@[simp] theorem State.modRing_staged : (s.modRing n f).staged = s.staged := rfl
@[simp] theorem State.modRing_plans : (s.modRing n f).plans = s.plans := rfl
@[simp] theorem State.modRing_msixTable : (s.modRing n f).msixTable = s.msixTable := rfl
@[simp] theorem State.modRing_pba : (s.modRing n f).pba = s.pba := rfl
@[simp] theorem State.modRing_localVerdict : (s.modRing n f).localVerdict = s.localVerdict := rfl
@[simp] theorem State.modRing_localSent : (s.modRing n f).localSent = s.localSent := rfl
@[simp] theorem State.modRing_pastVerdicts : (s.modRing n f).pastVerdicts = s.pastVerdicts := rfl
@[simp] theorem State.modRing_armedAt : (s.modRing n f).armedAt = s.armedAt := rfl
@[simp] theorem State.modRing_reports : (s.modRing n f).reports = s.reports := rfl
@[simp] theorem State.modRing_norms : (s.modRing n f).norms = s.norms := rfl
@[simp] theorem State.modRing_pinOrder : (s.modRing n f).pinOrder = s.pinOrder := rfl
@[simp] theorem State.modRing_dayBuckets : (s.modRing n f).dayBuckets = s.dayBuckets := rfl
@[simp] theorem State.modRing_nandWritten : (s.modRing n f).nandWritten = s.nandWritten := rfl
@[simp] theorem State.modRing_nandLife : (s.modRing n f).nandLife = s.nandLife := rfl
@[simp] theorem State.modRing_unitWrites : (s.modRing n f).unitWrites = s.unitWrites := rfl
@[simp] theorem State.modRing_exportHolds : (s.modRing n f).exportHolds = s.exportHolds := rfl
@[simp] theorem State.modRing_shardsReady : (s.modRing n f).shardsReady = s.shardsReady := rfl
@[simp] theorem State.modRing_buckets : (s.modRing n f).buckets = s.buckets := rfl
@[simp] theorem State.modRing_rebased : (s.modRing n f).rebased = s.rebased := rfl
@[simp] theorem State.modRing_deltas : (s.modRing n f).deltas = s.deltas := rfl
@[simp] theorem State.modRing_nearPorts : (s.modRing n f).nearPorts = s.nearPorts := rfl
@[simp] theorem State.modRing_flows : (s.modRing n f).flows = s.flows := rfl
@[simp] theorem State.modRing_inbox : (s.modRing n f).inbox = s.inbox := rfl
@[simp] theorem State.modRing_owed : (s.modRing n f).owed = s.owed := rfl
@[simp] theorem State.modRing_reduces : (s.modRing n f).reduces = s.reduces := rfl
@[simp] theorem State.modRing_digestRoots : (s.modRing n f).digestRoots = s.digestRoots := rfl
@[simp] theorem State.modRing_digestNodes : (s.modRing n f).digestNodes = s.digestNodes := rfl
@[simp] theorem State.modRing_digestSilent : (s.modRing n f).digestSilent = s.digestSilent := rfl
@[simp] theorem State.modRing_farPorts : (s.modRing n f).farPorts = s.farPorts := rfl
@[simp] theorem State.modRing_recvSlots : (s.modRing n f).recvSlots = s.recvSlots := rfl
@[simp] theorem State.modRing_exchanges : (s.modRing n f).exchanges = s.exchanges := rfl
@[simp] theorem State.modRing_farInbox : (s.modRing n f).farInbox = s.farInbox := rfl
@[simp] theorem State.modRing_joining : (s.modRing n f).joining = s.joining := rfl
@[simp] theorem State.modRing_lastHold : (s.modRing n f).lastHold = s.lastHold := rfl
@[simp] theorem State.modRing_gathers : (s.modRing n f).gathers = s.gathers := rfl
@[simp] theorem State.modRing_feedbacks : (s.modRing n f).feedbacks = s.feedbacks := rfl
@[simp] theorem State.modRing_farTransfers : (s.modRing n f).farTransfers = s.farTransfers := rfl
@[simp] theorem State.modRing_surroundings : (s.modRing n f).surroundings = s.surroundings := rfl
@[simp] theorem State.modRing_cageTries : (s.modRing n f).cageTries = s.cageTries := rfl
@[simp] theorem State.modRing_triedAt : (s.modRing n f).triedAt = s.triedAt := rfl
@[simp] theorem State.modRing_presentAt : (s.modRing n f).presentAt = s.presentAt := rfl
@[simp] theorem State.modRing_recorder : (s.modRing n f).recorder = s.recorder := rfl
@[simp] theorem State.modRing_emitted : (s.modRing n f).emitted = s.emitted := rfl
end

section
variable (s : State) (n : Nat) (f : NearPort → NearPort)
@[simp] theorem State.modNport_pending : (s.modNport n f).pending = s.pending := rfl
@[simp] theorem State.modNport_now : (s.modNport n f).now = s.now := rfl
@[simp] theorem State.modNport_siteTime : (s.modNport n f).siteTime = s.siteTime := rfl
@[simp] theorem State.modNport_timeRuns : (s.modNport n f).timeRuns = s.timeRuns := rfl
@[simp] theorem State.modNport_inputOk : (s.modNport n f).inputOk = s.inputOk := rfl
@[simp] theorem State.modNport_pwrgood : (s.modNport n f).pwrgood = s.pwrgood := rfl
@[simp] theorem State.modNport_perstN : (s.modNport n f).perstN = s.perstN := rfl
@[simp] theorem State.modNport_dormantPin : (s.modNport n f).dormantPin = s.dormantPin := rfl
@[simp] theorem State.modNport_profilePin : (s.modNport n f).profilePin = s.profilePin := rfl
@[simp] theorem State.modNport_regs : (s.modNport n f).regs = s.regs := rfl
@[simp] theorem State.modNport_locked : (s.modNport n f).locked = s.locked := rfl
@[simp] theorem State.modNport_hbm : (s.modNport n f).hbm = s.hbm := rfl
@[simp] theorem State.modNport_sram : (s.modNport n f).sram = s.sram := rfl
@[simp] theorem State.modNport_isram : (s.modNport n f).isram = s.isram := rfl
@[simp] theorem State.modNport_awlBuf : (s.modNport n f).awlBuf = s.awlBuf := rfl
@[simp] theorem State.modNport_flash : (s.modNport n f).flash = s.flash := rfl
@[simp] theorem State.modNport_nor : (s.modNport n f).nor = s.nor := rfl
@[simp] theorem State.modNport_norPart : (s.modNport n f).norPart = s.norPart := rfl
@[simp] theorem State.modNport_host : (s.modNport n f).host = s.host := rfl
@[simp] theorem State.modNport_dies : (s.modNport n f).dies = s.dies := rfl
@[simp] theorem State.modNport_sentinels : (s.modNport n f).sentinels = s.sentinels := rfl
@[simp] theorem State.modNport_cornerAt : (s.modNport n f).cornerAt = s.cornerAt := rfl
@[simp] theorem State.modNport_signals : (s.modNport n f).signals = s.signals := rfl
@[simp] theorem State.modNport_notices : (s.modNport n f).notices = s.notices := rfl
@[simp] theorem State.modNport_initialised : (s.modNport n f).initialised = s.initialised := rfl
@[simp] theorem State.modNport_journalValid : (s.modNport n f).journalValid = s.journalValid := rfl
@[simp] theorem State.modNport_journalOpen : (s.modNport n f).journalOpen = s.journalOpen := rfl
@[simp] theorem State.modNport_sources : (s.modNport n f).sources = s.sources := rfl
@[simp] theorem State.modNport_held : (s.modNport n f).held = s.held := rfl
@[simp] theorem State.modNport_covered : (s.modNport n f).covered = s.covered := rfl
@[simp] theorem State.modNport_best : (s.modNport n f).best = s.best := rfl
@[simp] theorem State.modNport_on : (s.modNport n f).on = s.on := rfl
@[simp] theorem State.modNport_rising : (s.modNport n f).rising = s.rising := rfl
@[simp] theorem State.modNport_switchOns : (s.modNport n f).switchOns = s.switchOns := rfl
@[simp] theorem State.modNport_switchedAt : (s.modNport n f).switchedAt = s.switchedAt := rfl
@[simp] theorem State.modNport_domFaults : (s.modNport n f).domFaults = s.domFaults := rfl
@[simp] theorem State.modNport_switchOffs : (s.modNport n f).switchOffs = s.switchOffs := rfl
@[simp] theorem State.modNport_tripped : (s.modNport n f).tripped = s.tripped := rfl
@[simp] theorem State.modNport_coolSince : (s.modNport n f).coolSince = s.coolSince := rfl
@[simp] theorem State.modNport_hotInletSince : (s.modNport n f).hotInletSince = s.hotInletSince := rfl
@[simp] theorem State.modNport_overSince : (s.modNport n f).overSince = s.overSince := rfl
@[simp] theorem State.modNport_coolantTold : (s.modNport n f).coolantTold = s.coolantTold := rfl
@[simp] theorem State.modNport_overTold : (s.modNport n f).overTold = s.overTold := rfl
@[simp] theorem State.modNport_excessDw : (s.modNport n f).excessDw = s.excessDw := rfl
@[simp] theorem State.modNport_retained : (s.modNport n f).retained = s.retained := rfl
@[simp] theorem State.modNport_wakeAt : (s.modNport n f).wakeAt = s.wakeAt := rfl
@[simp] theorem State.modNport_sensed : (s.modNport n f).sensed = s.sensed := rfl
@[simp] theorem State.modNport_failedChannels : (s.modNport n f).failedChannels = s.failedChannels := rfl
@[simp] theorem State.modNport_channelReplays : (s.modNport n f).channelReplays = s.channelReplays := rfl
@[simp] theorem State.modNport_accessMisses : (s.modNport n f).accessMisses = s.accessMisses := rfl
@[simp] theorem State.modNport_fatal : (s.modNport n f).fatal = s.fatal := rfl
@[simp] theorem State.modNport_monitors : (s.modNport n f).monitors = s.monitors := rfl
@[simp] theorem State.modNport_switchStep : (s.modNport n f).switchStep = s.switchStep := rfl
@[simp] theorem State.modNport_pllLocked : (s.modNport n f).pllLocked = s.pllLocked := rfl
@[simp] theorem State.modNport_wires : (s.modNport n f).wires = s.wires := rfl
@[simp] theorem State.modNport_heldPins : (s.modNport n f).heldPins = s.heldPins := rfl
@[simp] theorem State.modNport_crossings : (s.modNport n f).crossings = s.crossings := rfl
@[simp] theorem State.modNport_fuses : (s.modNport n f).fuses = s.fuses := rfl
@[simp] theorem State.modNport_cak : (s.modNport n f).cak = s.cak := rfl
@[simp] theorem State.modNport_kek : (s.modNport n f).kek = s.kek := rfl
@[simp] theorem State.modNport_authFails : (s.modNport n f).authFails = s.authFails := rfl
@[simp] theorem State.modNport_lockoutAt : (s.modNport n f).lockoutAt = s.lockoutAt := rfl
@[simp] theorem State.modNport_noiseFault : (s.modNport n f).noiseFault = s.noiseFault := rfl
@[simp] theorem State.modNport_drbgRequests : (s.modNport n f).drbgRequests = s.drbgRequests := rfl
@[simp] theorem State.modNport_drawCount : (s.modNport n f).drawCount = s.drawCount := rfl
@[simp] theorem State.modNport_firmware : (s.modNport n f).firmware = s.firmware := rfl
@[simp] theorem State.modNport_rings : (s.modNport n f).rings = s.rings := rfl
@[simp] theorem State.modNport_taken : (s.modNport n f).taken = s.taken := rfl
@[simp] theorem State.modNport_items : (s.modNport n f).items = s.items := rfl
@[simp] theorem State.modNport_decided : (s.modNport n f).decided = s.decided := rfl
@[simp] theorem State.modNport_ended : (s.modNport n f).ended = s.ended := rfl
@[simp] theorem State.modNport_bookings : (s.modNport n f).bookings = s.bookings := rfl
@[simp] theorem State.modNport_reservations : (s.modNport n f).reservations = s.reservations := rfl
@[simp] theorem State.modNport_heldRecords : (s.modNport n f).heldRecords = s.heldRecords := rfl
@[simp] theorem State.modNport_staged : (s.modNport n f).staged = s.staged := rfl
@[simp] theorem State.modNport_plans : (s.modNport n f).plans = s.plans := rfl
@[simp] theorem State.modNport_msixTable : (s.modNport n f).msixTable = s.msixTable := rfl
@[simp] theorem State.modNport_pba : (s.modNport n f).pba = s.pba := rfl
@[simp] theorem State.modNport_localVerdict : (s.modNport n f).localVerdict = s.localVerdict := rfl
@[simp] theorem State.modNport_localSent : (s.modNport n f).localSent = s.localSent := rfl
@[simp] theorem State.modNport_pastVerdicts : (s.modNport n f).pastVerdicts = s.pastVerdicts := rfl
@[simp] theorem State.modNport_armedAt : (s.modNport n f).armedAt = s.armedAt := rfl
@[simp] theorem State.modNport_reports : (s.modNport n f).reports = s.reports := rfl
@[simp] theorem State.modNport_norms : (s.modNport n f).norms = s.norms := rfl
@[simp] theorem State.modNport_pinOrder : (s.modNport n f).pinOrder = s.pinOrder := rfl
@[simp] theorem State.modNport_dayBuckets : (s.modNport n f).dayBuckets = s.dayBuckets := rfl
@[simp] theorem State.modNport_nandWritten : (s.modNport n f).nandWritten = s.nandWritten := rfl
@[simp] theorem State.modNport_nandLife : (s.modNport n f).nandLife = s.nandLife := rfl
@[simp] theorem State.modNport_unitWrites : (s.modNport n f).unitWrites = s.unitWrites := rfl
@[simp] theorem State.modNport_exportHolds : (s.modNport n f).exportHolds = s.exportHolds := rfl
@[simp] theorem State.modNport_shardsReady : (s.modNport n f).shardsReady = s.shardsReady := rfl
@[simp] theorem State.modNport_buckets : (s.modNport n f).buckets = s.buckets := rfl
@[simp] theorem State.modNport_rebased : (s.modNport n f).rebased = s.rebased := rfl
@[simp] theorem State.modNport_deltas : (s.modNport n f).deltas = s.deltas := rfl
@[simp] theorem State.modNport_flows : (s.modNport n f).flows = s.flows := rfl
@[simp] theorem State.modNport_inbox : (s.modNport n f).inbox = s.inbox := rfl
@[simp] theorem State.modNport_owed : (s.modNport n f).owed = s.owed := rfl
@[simp] theorem State.modNport_reduces : (s.modNport n f).reduces = s.reduces := rfl
@[simp] theorem State.modNport_digestRoots : (s.modNport n f).digestRoots = s.digestRoots := rfl
@[simp] theorem State.modNport_digestNodes : (s.modNport n f).digestNodes = s.digestNodes := rfl
@[simp] theorem State.modNport_digestSilent : (s.modNport n f).digestSilent = s.digestSilent := rfl
@[simp] theorem State.modNport_farPorts : (s.modNport n f).farPorts = s.farPorts := rfl
@[simp] theorem State.modNport_recvSlots : (s.modNport n f).recvSlots = s.recvSlots := rfl
@[simp] theorem State.modNport_exchanges : (s.modNport n f).exchanges = s.exchanges := rfl
@[simp] theorem State.modNport_farInbox : (s.modNport n f).farInbox = s.farInbox := rfl
@[simp] theorem State.modNport_joining : (s.modNport n f).joining = s.joining := rfl
@[simp] theorem State.modNport_lastHold : (s.modNport n f).lastHold = s.lastHold := rfl
@[simp] theorem State.modNport_gathers : (s.modNport n f).gathers = s.gathers := rfl
@[simp] theorem State.modNport_feedbacks : (s.modNport n f).feedbacks = s.feedbacks := rfl
@[simp] theorem State.modNport_farTransfers : (s.modNport n f).farTransfers = s.farTransfers := rfl
@[simp] theorem State.modNport_surroundings : (s.modNport n f).surroundings = s.surroundings := rfl
@[simp] theorem State.modNport_cageTries : (s.modNport n f).cageTries = s.cageTries := rfl
@[simp] theorem State.modNport_triedAt : (s.modNport n f).triedAt = s.triedAt := rfl
@[simp] theorem State.modNport_presentAt : (s.modNport n f).presentAt = s.presentAt := rfl
@[simp] theorem State.modNport_recorder : (s.modNport n f).recorder = s.recorder := rfl
@[simp] theorem State.modNport_emitted : (s.modNport n f).emitted = s.emitted := rfl
end

section
variable (s : State) (n : Nat) (f : FarPort → FarPort)
@[simp] theorem State.modFport_pending : (s.modFport n f).pending = s.pending := rfl
@[simp] theorem State.modFport_now : (s.modFport n f).now = s.now := rfl
@[simp] theorem State.modFport_siteTime : (s.modFport n f).siteTime = s.siteTime := rfl
@[simp] theorem State.modFport_timeRuns : (s.modFport n f).timeRuns = s.timeRuns := rfl
@[simp] theorem State.modFport_inputOk : (s.modFport n f).inputOk = s.inputOk := rfl
@[simp] theorem State.modFport_pwrgood : (s.modFport n f).pwrgood = s.pwrgood := rfl
@[simp] theorem State.modFport_perstN : (s.modFport n f).perstN = s.perstN := rfl
@[simp] theorem State.modFport_dormantPin : (s.modFport n f).dormantPin = s.dormantPin := rfl
@[simp] theorem State.modFport_profilePin : (s.modFport n f).profilePin = s.profilePin := rfl
@[simp] theorem State.modFport_regs : (s.modFport n f).regs = s.regs := rfl
@[simp] theorem State.modFport_locked : (s.modFport n f).locked = s.locked := rfl
@[simp] theorem State.modFport_hbm : (s.modFport n f).hbm = s.hbm := rfl
@[simp] theorem State.modFport_sram : (s.modFport n f).sram = s.sram := rfl
@[simp] theorem State.modFport_isram : (s.modFport n f).isram = s.isram := rfl
@[simp] theorem State.modFport_awlBuf : (s.modFport n f).awlBuf = s.awlBuf := rfl
@[simp] theorem State.modFport_flash : (s.modFport n f).flash = s.flash := rfl
@[simp] theorem State.modFport_nor : (s.modFport n f).nor = s.nor := rfl
@[simp] theorem State.modFport_norPart : (s.modFport n f).norPart = s.norPart := rfl
@[simp] theorem State.modFport_host : (s.modFport n f).host = s.host := rfl
@[simp] theorem State.modFport_dies : (s.modFport n f).dies = s.dies := rfl
@[simp] theorem State.modFport_sentinels : (s.modFport n f).sentinels = s.sentinels := rfl
@[simp] theorem State.modFport_cornerAt : (s.modFport n f).cornerAt = s.cornerAt := rfl
@[simp] theorem State.modFport_signals : (s.modFport n f).signals = s.signals := rfl
@[simp] theorem State.modFport_notices : (s.modFport n f).notices = s.notices := rfl
@[simp] theorem State.modFport_initialised : (s.modFport n f).initialised = s.initialised := rfl
@[simp] theorem State.modFport_journalValid : (s.modFport n f).journalValid = s.journalValid := rfl
@[simp] theorem State.modFport_journalOpen : (s.modFport n f).journalOpen = s.journalOpen := rfl
@[simp] theorem State.modFport_sources : (s.modFport n f).sources = s.sources := rfl
@[simp] theorem State.modFport_held : (s.modFport n f).held = s.held := rfl
@[simp] theorem State.modFport_covered : (s.modFport n f).covered = s.covered := rfl
@[simp] theorem State.modFport_best : (s.modFport n f).best = s.best := rfl
@[simp] theorem State.modFport_on : (s.modFport n f).on = s.on := rfl
@[simp] theorem State.modFport_rising : (s.modFport n f).rising = s.rising := rfl
@[simp] theorem State.modFport_switchOns : (s.modFport n f).switchOns = s.switchOns := rfl
@[simp] theorem State.modFport_switchedAt : (s.modFport n f).switchedAt = s.switchedAt := rfl
@[simp] theorem State.modFport_domFaults : (s.modFport n f).domFaults = s.domFaults := rfl
@[simp] theorem State.modFport_switchOffs : (s.modFport n f).switchOffs = s.switchOffs := rfl
@[simp] theorem State.modFport_tripped : (s.modFport n f).tripped = s.tripped := rfl
@[simp] theorem State.modFport_coolSince : (s.modFport n f).coolSince = s.coolSince := rfl
@[simp] theorem State.modFport_hotInletSince : (s.modFport n f).hotInletSince = s.hotInletSince := rfl
@[simp] theorem State.modFport_overSince : (s.modFport n f).overSince = s.overSince := rfl
@[simp] theorem State.modFport_coolantTold : (s.modFport n f).coolantTold = s.coolantTold := rfl
@[simp] theorem State.modFport_overTold : (s.modFport n f).overTold = s.overTold := rfl
@[simp] theorem State.modFport_excessDw : (s.modFport n f).excessDw = s.excessDw := rfl
@[simp] theorem State.modFport_retained : (s.modFport n f).retained = s.retained := rfl
@[simp] theorem State.modFport_wakeAt : (s.modFport n f).wakeAt = s.wakeAt := rfl
@[simp] theorem State.modFport_sensed : (s.modFport n f).sensed = s.sensed := rfl
@[simp] theorem State.modFport_failedChannels : (s.modFport n f).failedChannels = s.failedChannels := rfl
@[simp] theorem State.modFport_channelReplays : (s.modFport n f).channelReplays = s.channelReplays := rfl
@[simp] theorem State.modFport_accessMisses : (s.modFport n f).accessMisses = s.accessMisses := rfl
@[simp] theorem State.modFport_fatal : (s.modFport n f).fatal = s.fatal := rfl
@[simp] theorem State.modFport_monitors : (s.modFport n f).monitors = s.monitors := rfl
@[simp] theorem State.modFport_switchStep : (s.modFport n f).switchStep = s.switchStep := rfl
@[simp] theorem State.modFport_pllLocked : (s.modFport n f).pllLocked = s.pllLocked := rfl
@[simp] theorem State.modFport_wires : (s.modFport n f).wires = s.wires := rfl
@[simp] theorem State.modFport_heldPins : (s.modFport n f).heldPins = s.heldPins := rfl
@[simp] theorem State.modFport_crossings : (s.modFport n f).crossings = s.crossings := rfl
@[simp] theorem State.modFport_fuses : (s.modFport n f).fuses = s.fuses := rfl
@[simp] theorem State.modFport_cak : (s.modFport n f).cak = s.cak := rfl
@[simp] theorem State.modFport_kek : (s.modFport n f).kek = s.kek := rfl
@[simp] theorem State.modFport_authFails : (s.modFport n f).authFails = s.authFails := rfl
@[simp] theorem State.modFport_lockoutAt : (s.modFport n f).lockoutAt = s.lockoutAt := rfl
@[simp] theorem State.modFport_noiseFault : (s.modFport n f).noiseFault = s.noiseFault := rfl
@[simp] theorem State.modFport_drbgRequests : (s.modFport n f).drbgRequests = s.drbgRequests := rfl
@[simp] theorem State.modFport_drawCount : (s.modFport n f).drawCount = s.drawCount := rfl
@[simp] theorem State.modFport_firmware : (s.modFport n f).firmware = s.firmware := rfl
@[simp] theorem State.modFport_rings : (s.modFport n f).rings = s.rings := rfl
@[simp] theorem State.modFport_taken : (s.modFport n f).taken = s.taken := rfl
@[simp] theorem State.modFport_items : (s.modFport n f).items = s.items := rfl
@[simp] theorem State.modFport_decided : (s.modFport n f).decided = s.decided := rfl
@[simp] theorem State.modFport_ended : (s.modFport n f).ended = s.ended := rfl
@[simp] theorem State.modFport_bookings : (s.modFport n f).bookings = s.bookings := rfl
@[simp] theorem State.modFport_reservations : (s.modFport n f).reservations = s.reservations := rfl
@[simp] theorem State.modFport_heldRecords : (s.modFport n f).heldRecords = s.heldRecords := rfl
@[simp] theorem State.modFport_staged : (s.modFport n f).staged = s.staged := rfl
@[simp] theorem State.modFport_plans : (s.modFport n f).plans = s.plans := rfl
@[simp] theorem State.modFport_msixTable : (s.modFport n f).msixTable = s.msixTable := rfl
@[simp] theorem State.modFport_pba : (s.modFport n f).pba = s.pba := rfl
@[simp] theorem State.modFport_localVerdict : (s.modFport n f).localVerdict = s.localVerdict := rfl
@[simp] theorem State.modFport_localSent : (s.modFport n f).localSent = s.localSent := rfl
@[simp] theorem State.modFport_pastVerdicts : (s.modFport n f).pastVerdicts = s.pastVerdicts := rfl
@[simp] theorem State.modFport_armedAt : (s.modFport n f).armedAt = s.armedAt := rfl
@[simp] theorem State.modFport_reports : (s.modFport n f).reports = s.reports := rfl
@[simp] theorem State.modFport_norms : (s.modFport n f).norms = s.norms := rfl
@[simp] theorem State.modFport_pinOrder : (s.modFport n f).pinOrder = s.pinOrder := rfl
@[simp] theorem State.modFport_dayBuckets : (s.modFport n f).dayBuckets = s.dayBuckets := rfl
@[simp] theorem State.modFport_nandWritten : (s.modFport n f).nandWritten = s.nandWritten := rfl
@[simp] theorem State.modFport_nandLife : (s.modFport n f).nandLife = s.nandLife := rfl
@[simp] theorem State.modFport_unitWrites : (s.modFport n f).unitWrites = s.unitWrites := rfl
@[simp] theorem State.modFport_exportHolds : (s.modFport n f).exportHolds = s.exportHolds := rfl
@[simp] theorem State.modFport_shardsReady : (s.modFport n f).shardsReady = s.shardsReady := rfl
@[simp] theorem State.modFport_buckets : (s.modFport n f).buckets = s.buckets := rfl
@[simp] theorem State.modFport_rebased : (s.modFport n f).rebased = s.rebased := rfl
@[simp] theorem State.modFport_deltas : (s.modFport n f).deltas = s.deltas := rfl
@[simp] theorem State.modFport_nearPorts : (s.modFport n f).nearPorts = s.nearPorts := rfl
@[simp] theorem State.modFport_flows : (s.modFport n f).flows = s.flows := rfl
@[simp] theorem State.modFport_inbox : (s.modFport n f).inbox = s.inbox := rfl
@[simp] theorem State.modFport_owed : (s.modFport n f).owed = s.owed := rfl
@[simp] theorem State.modFport_reduces : (s.modFport n f).reduces = s.reduces := rfl
@[simp] theorem State.modFport_digestRoots : (s.modFport n f).digestRoots = s.digestRoots := rfl
@[simp] theorem State.modFport_digestNodes : (s.modFport n f).digestNodes = s.digestNodes := rfl
@[simp] theorem State.modFport_digestSilent : (s.modFport n f).digestSilent = s.digestSilent := rfl
@[simp] theorem State.modFport_recvSlots : (s.modFport n f).recvSlots = s.recvSlots := rfl
@[simp] theorem State.modFport_exchanges : (s.modFport n f).exchanges = s.exchanges := rfl
@[simp] theorem State.modFport_farInbox : (s.modFport n f).farInbox = s.farInbox := rfl
@[simp] theorem State.modFport_joining : (s.modFport n f).joining = s.joining := rfl
@[simp] theorem State.modFport_lastHold : (s.modFport n f).lastHold = s.lastHold := rfl
@[simp] theorem State.modFport_gathers : (s.modFport n f).gathers = s.gathers := rfl
@[simp] theorem State.modFport_feedbacks : (s.modFport n f).feedbacks = s.feedbacks := rfl
@[simp] theorem State.modFport_farTransfers : (s.modFport n f).farTransfers = s.farTransfers := rfl
@[simp] theorem State.modFport_surroundings : (s.modFport n f).surroundings = s.surroundings := rfl
@[simp] theorem State.modFport_cageTries : (s.modFport n f).cageTries = s.cageTries := rfl
@[simp] theorem State.modFport_triedAt : (s.modFport n f).triedAt = s.triedAt := rfl
@[simp] theorem State.modFport_presentAt : (s.modFport n f).presentAt = s.presentAt := rfl
@[simp] theorem State.modFport_recorder : (s.modFport n f).recorder = s.recorder := rfl
@[simp] theorem State.modFport_emitted : (s.modFport n f).emitted = s.emitted := rfl
end

section
variable (s : State) (n : Nat) (f : Item → Item)
@[simp] theorem State.modItem_pending : (s.modItem n f).pending = s.pending := rfl
@[simp] theorem State.modItem_now : (s.modItem n f).now = s.now := rfl
@[simp] theorem State.modItem_siteTime : (s.modItem n f).siteTime = s.siteTime := rfl
@[simp] theorem State.modItem_timeRuns : (s.modItem n f).timeRuns = s.timeRuns := rfl
@[simp] theorem State.modItem_inputOk : (s.modItem n f).inputOk = s.inputOk := rfl
@[simp] theorem State.modItem_pwrgood : (s.modItem n f).pwrgood = s.pwrgood := rfl
@[simp] theorem State.modItem_perstN : (s.modItem n f).perstN = s.perstN := rfl
@[simp] theorem State.modItem_dormantPin : (s.modItem n f).dormantPin = s.dormantPin := rfl
@[simp] theorem State.modItem_profilePin : (s.modItem n f).profilePin = s.profilePin := rfl
@[simp] theorem State.modItem_regs : (s.modItem n f).regs = s.regs := rfl
@[simp] theorem State.modItem_locked : (s.modItem n f).locked = s.locked := rfl
@[simp] theorem State.modItem_hbm : (s.modItem n f).hbm = s.hbm := rfl
@[simp] theorem State.modItem_sram : (s.modItem n f).sram = s.sram := rfl
@[simp] theorem State.modItem_isram : (s.modItem n f).isram = s.isram := rfl
@[simp] theorem State.modItem_awlBuf : (s.modItem n f).awlBuf = s.awlBuf := rfl
@[simp] theorem State.modItem_flash : (s.modItem n f).flash = s.flash := rfl
@[simp] theorem State.modItem_nor : (s.modItem n f).nor = s.nor := rfl
@[simp] theorem State.modItem_norPart : (s.modItem n f).norPart = s.norPart := rfl
@[simp] theorem State.modItem_host : (s.modItem n f).host = s.host := rfl
@[simp] theorem State.modItem_dies : (s.modItem n f).dies = s.dies := rfl
@[simp] theorem State.modItem_sentinels : (s.modItem n f).sentinels = s.sentinels := rfl
@[simp] theorem State.modItem_cornerAt : (s.modItem n f).cornerAt = s.cornerAt := rfl
@[simp] theorem State.modItem_signals : (s.modItem n f).signals = s.signals := rfl
@[simp] theorem State.modItem_notices : (s.modItem n f).notices = s.notices := rfl
@[simp] theorem State.modItem_initialised : (s.modItem n f).initialised = s.initialised := rfl
@[simp] theorem State.modItem_journalValid : (s.modItem n f).journalValid = s.journalValid := rfl
@[simp] theorem State.modItem_journalOpen : (s.modItem n f).journalOpen = s.journalOpen := rfl
@[simp] theorem State.modItem_sources : (s.modItem n f).sources = s.sources := rfl
@[simp] theorem State.modItem_held : (s.modItem n f).held = s.held := rfl
@[simp] theorem State.modItem_covered : (s.modItem n f).covered = s.covered := rfl
@[simp] theorem State.modItem_best : (s.modItem n f).best = s.best := rfl
@[simp] theorem State.modItem_on : (s.modItem n f).on = s.on := rfl
@[simp] theorem State.modItem_rising : (s.modItem n f).rising = s.rising := rfl
@[simp] theorem State.modItem_switchOns : (s.modItem n f).switchOns = s.switchOns := rfl
@[simp] theorem State.modItem_switchedAt : (s.modItem n f).switchedAt = s.switchedAt := rfl
@[simp] theorem State.modItem_domFaults : (s.modItem n f).domFaults = s.domFaults := rfl
@[simp] theorem State.modItem_switchOffs : (s.modItem n f).switchOffs = s.switchOffs := rfl
@[simp] theorem State.modItem_tripped : (s.modItem n f).tripped = s.tripped := rfl
@[simp] theorem State.modItem_coolSince : (s.modItem n f).coolSince = s.coolSince := rfl
@[simp] theorem State.modItem_hotInletSince : (s.modItem n f).hotInletSince = s.hotInletSince := rfl
@[simp] theorem State.modItem_overSince : (s.modItem n f).overSince = s.overSince := rfl
@[simp] theorem State.modItem_coolantTold : (s.modItem n f).coolantTold = s.coolantTold := rfl
@[simp] theorem State.modItem_overTold : (s.modItem n f).overTold = s.overTold := rfl
@[simp] theorem State.modItem_excessDw : (s.modItem n f).excessDw = s.excessDw := rfl
@[simp] theorem State.modItem_retained : (s.modItem n f).retained = s.retained := rfl
@[simp] theorem State.modItem_wakeAt : (s.modItem n f).wakeAt = s.wakeAt := rfl
@[simp] theorem State.modItem_sensed : (s.modItem n f).sensed = s.sensed := rfl
@[simp] theorem State.modItem_failedChannels : (s.modItem n f).failedChannels = s.failedChannels := rfl
@[simp] theorem State.modItem_channelReplays : (s.modItem n f).channelReplays = s.channelReplays := rfl
@[simp] theorem State.modItem_accessMisses : (s.modItem n f).accessMisses = s.accessMisses := rfl
@[simp] theorem State.modItem_fatal : (s.modItem n f).fatal = s.fatal := rfl
@[simp] theorem State.modItem_monitors : (s.modItem n f).monitors = s.monitors := rfl
@[simp] theorem State.modItem_switchStep : (s.modItem n f).switchStep = s.switchStep := rfl
@[simp] theorem State.modItem_pllLocked : (s.modItem n f).pllLocked = s.pllLocked := rfl
@[simp] theorem State.modItem_wires : (s.modItem n f).wires = s.wires := rfl
@[simp] theorem State.modItem_heldPins : (s.modItem n f).heldPins = s.heldPins := rfl
@[simp] theorem State.modItem_crossings : (s.modItem n f).crossings = s.crossings := rfl
@[simp] theorem State.modItem_fuses : (s.modItem n f).fuses = s.fuses := rfl
@[simp] theorem State.modItem_cak : (s.modItem n f).cak = s.cak := rfl
@[simp] theorem State.modItem_kek : (s.modItem n f).kek = s.kek := rfl
@[simp] theorem State.modItem_authFails : (s.modItem n f).authFails = s.authFails := rfl
@[simp] theorem State.modItem_lockoutAt : (s.modItem n f).lockoutAt = s.lockoutAt := rfl
@[simp] theorem State.modItem_noiseFault : (s.modItem n f).noiseFault = s.noiseFault := rfl
@[simp] theorem State.modItem_drbgRequests : (s.modItem n f).drbgRequests = s.drbgRequests := rfl
@[simp] theorem State.modItem_drawCount : (s.modItem n f).drawCount = s.drawCount := rfl
@[simp] theorem State.modItem_firmware : (s.modItem n f).firmware = s.firmware := rfl
@[simp] theorem State.modItem_rings : (s.modItem n f).rings = s.rings := rfl
@[simp] theorem State.modItem_taken : (s.modItem n f).taken = s.taken := rfl
@[simp] theorem State.modItem_decided : (s.modItem n f).decided = s.decided := rfl
@[simp] theorem State.modItem_ended : (s.modItem n f).ended = s.ended := rfl
@[simp] theorem State.modItem_bookings : (s.modItem n f).bookings = s.bookings := rfl
@[simp] theorem State.modItem_reservations : (s.modItem n f).reservations = s.reservations := rfl
@[simp] theorem State.modItem_heldRecords : (s.modItem n f).heldRecords = s.heldRecords := rfl
@[simp] theorem State.modItem_staged : (s.modItem n f).staged = s.staged := rfl
@[simp] theorem State.modItem_plans : (s.modItem n f).plans = s.plans := rfl
@[simp] theorem State.modItem_msixTable : (s.modItem n f).msixTable = s.msixTable := rfl
@[simp] theorem State.modItem_pba : (s.modItem n f).pba = s.pba := rfl
@[simp] theorem State.modItem_localVerdict : (s.modItem n f).localVerdict = s.localVerdict := rfl
@[simp] theorem State.modItem_localSent : (s.modItem n f).localSent = s.localSent := rfl
@[simp] theorem State.modItem_pastVerdicts : (s.modItem n f).pastVerdicts = s.pastVerdicts := rfl
@[simp] theorem State.modItem_armedAt : (s.modItem n f).armedAt = s.armedAt := rfl
@[simp] theorem State.modItem_reports : (s.modItem n f).reports = s.reports := rfl
@[simp] theorem State.modItem_norms : (s.modItem n f).norms = s.norms := rfl
@[simp] theorem State.modItem_pinOrder : (s.modItem n f).pinOrder = s.pinOrder := rfl
@[simp] theorem State.modItem_dayBuckets : (s.modItem n f).dayBuckets = s.dayBuckets := rfl
@[simp] theorem State.modItem_nandWritten : (s.modItem n f).nandWritten = s.nandWritten := rfl
@[simp] theorem State.modItem_nandLife : (s.modItem n f).nandLife = s.nandLife := rfl
@[simp] theorem State.modItem_unitWrites : (s.modItem n f).unitWrites = s.unitWrites := rfl
@[simp] theorem State.modItem_exportHolds : (s.modItem n f).exportHolds = s.exportHolds := rfl
@[simp] theorem State.modItem_shardsReady : (s.modItem n f).shardsReady = s.shardsReady := rfl
@[simp] theorem State.modItem_buckets : (s.modItem n f).buckets = s.buckets := rfl
@[simp] theorem State.modItem_rebased : (s.modItem n f).rebased = s.rebased := rfl
@[simp] theorem State.modItem_deltas : (s.modItem n f).deltas = s.deltas := rfl
@[simp] theorem State.modItem_nearPorts : (s.modItem n f).nearPorts = s.nearPorts := rfl
@[simp] theorem State.modItem_flows : (s.modItem n f).flows = s.flows := rfl
@[simp] theorem State.modItem_inbox : (s.modItem n f).inbox = s.inbox := rfl
@[simp] theorem State.modItem_owed : (s.modItem n f).owed = s.owed := rfl
@[simp] theorem State.modItem_reduces : (s.modItem n f).reduces = s.reduces := rfl
@[simp] theorem State.modItem_digestRoots : (s.modItem n f).digestRoots = s.digestRoots := rfl
@[simp] theorem State.modItem_digestNodes : (s.modItem n f).digestNodes = s.digestNodes := rfl
@[simp] theorem State.modItem_digestSilent : (s.modItem n f).digestSilent = s.digestSilent := rfl
@[simp] theorem State.modItem_farPorts : (s.modItem n f).farPorts = s.farPorts := rfl
@[simp] theorem State.modItem_recvSlots : (s.modItem n f).recvSlots = s.recvSlots := rfl
@[simp] theorem State.modItem_exchanges : (s.modItem n f).exchanges = s.exchanges := rfl
@[simp] theorem State.modItem_farInbox : (s.modItem n f).farInbox = s.farInbox := rfl
@[simp] theorem State.modItem_joining : (s.modItem n f).joining = s.joining := rfl
@[simp] theorem State.modItem_lastHold : (s.modItem n f).lastHold = s.lastHold := rfl
@[simp] theorem State.modItem_gathers : (s.modItem n f).gathers = s.gathers := rfl
@[simp] theorem State.modItem_feedbacks : (s.modItem n f).feedbacks = s.feedbacks := rfl
@[simp] theorem State.modItem_farTransfers : (s.modItem n f).farTransfers = s.farTransfers := rfl
@[simp] theorem State.modItem_surroundings : (s.modItem n f).surroundings = s.surroundings := rfl
@[simp] theorem State.modItem_cageTries : (s.modItem n f).cageTries = s.cageTries := rfl
@[simp] theorem State.modItem_triedAt : (s.modItem n f).triedAt = s.triedAt := rfl
@[simp] theorem State.modItem_presentAt : (s.modItem n f).presentAt = s.presentAt := rfl
@[simp] theorem State.modItem_recorder : (s.modItem n f).recorder = s.recorder := rfl
@[simp] theorem State.modItem_emitted : (s.modItem n f).emitted = s.emitted := rfl
end

section
variable (s : State) (f : Recorder → Recorder)
@[simp] theorem State.modRec_pending : (s.modRec f).pending = s.pending := rfl
@[simp] theorem State.modRec_now : (s.modRec f).now = s.now := rfl
@[simp] theorem State.modRec_siteTime : (s.modRec f).siteTime = s.siteTime := rfl
@[simp] theorem State.modRec_timeRuns : (s.modRec f).timeRuns = s.timeRuns := rfl
@[simp] theorem State.modRec_inputOk : (s.modRec f).inputOk = s.inputOk := rfl
@[simp] theorem State.modRec_pwrgood : (s.modRec f).pwrgood = s.pwrgood := rfl
@[simp] theorem State.modRec_perstN : (s.modRec f).perstN = s.perstN := rfl
@[simp] theorem State.modRec_dormantPin : (s.modRec f).dormantPin = s.dormantPin := rfl
@[simp] theorem State.modRec_profilePin : (s.modRec f).profilePin = s.profilePin := rfl
@[simp] theorem State.modRec_regs : (s.modRec f).regs = s.regs := rfl
@[simp] theorem State.modRec_locked : (s.modRec f).locked = s.locked := rfl
@[simp] theorem State.modRec_hbm : (s.modRec f).hbm = s.hbm := rfl
@[simp] theorem State.modRec_sram : (s.modRec f).sram = s.sram := rfl
@[simp] theorem State.modRec_isram : (s.modRec f).isram = s.isram := rfl
@[simp] theorem State.modRec_awlBuf : (s.modRec f).awlBuf = s.awlBuf := rfl
@[simp] theorem State.modRec_flash : (s.modRec f).flash = s.flash := rfl
@[simp] theorem State.modRec_nor : (s.modRec f).nor = s.nor := rfl
@[simp] theorem State.modRec_norPart : (s.modRec f).norPart = s.norPart := rfl
@[simp] theorem State.modRec_host : (s.modRec f).host = s.host := rfl
@[simp] theorem State.modRec_dies : (s.modRec f).dies = s.dies := rfl
@[simp] theorem State.modRec_sentinels : (s.modRec f).sentinels = s.sentinels := rfl
@[simp] theorem State.modRec_cornerAt : (s.modRec f).cornerAt = s.cornerAt := rfl
@[simp] theorem State.modRec_signals : (s.modRec f).signals = s.signals := rfl
@[simp] theorem State.modRec_notices : (s.modRec f).notices = s.notices := rfl
@[simp] theorem State.modRec_initialised : (s.modRec f).initialised = s.initialised := rfl
@[simp] theorem State.modRec_journalValid : (s.modRec f).journalValid = s.journalValid := rfl
@[simp] theorem State.modRec_journalOpen : (s.modRec f).journalOpen = s.journalOpen := rfl
@[simp] theorem State.modRec_sources : (s.modRec f).sources = s.sources := rfl
@[simp] theorem State.modRec_held : (s.modRec f).held = s.held := rfl
@[simp] theorem State.modRec_covered : (s.modRec f).covered = s.covered := rfl
@[simp] theorem State.modRec_best : (s.modRec f).best = s.best := rfl
@[simp] theorem State.modRec_on : (s.modRec f).on = s.on := rfl
@[simp] theorem State.modRec_rising : (s.modRec f).rising = s.rising := rfl
@[simp] theorem State.modRec_switchOns : (s.modRec f).switchOns = s.switchOns := rfl
@[simp] theorem State.modRec_switchedAt : (s.modRec f).switchedAt = s.switchedAt := rfl
@[simp] theorem State.modRec_domFaults : (s.modRec f).domFaults = s.domFaults := rfl
@[simp] theorem State.modRec_switchOffs : (s.modRec f).switchOffs = s.switchOffs := rfl
@[simp] theorem State.modRec_tripped : (s.modRec f).tripped = s.tripped := rfl
@[simp] theorem State.modRec_coolSince : (s.modRec f).coolSince = s.coolSince := rfl
@[simp] theorem State.modRec_hotInletSince : (s.modRec f).hotInletSince = s.hotInletSince := rfl
@[simp] theorem State.modRec_overSince : (s.modRec f).overSince = s.overSince := rfl
@[simp] theorem State.modRec_coolantTold : (s.modRec f).coolantTold = s.coolantTold := rfl
@[simp] theorem State.modRec_overTold : (s.modRec f).overTold = s.overTold := rfl
@[simp] theorem State.modRec_excessDw : (s.modRec f).excessDw = s.excessDw := rfl
@[simp] theorem State.modRec_retained : (s.modRec f).retained = s.retained := rfl
@[simp] theorem State.modRec_wakeAt : (s.modRec f).wakeAt = s.wakeAt := rfl
@[simp] theorem State.modRec_sensed : (s.modRec f).sensed = s.sensed := rfl
@[simp] theorem State.modRec_failedChannels : (s.modRec f).failedChannels = s.failedChannels := rfl
@[simp] theorem State.modRec_channelReplays : (s.modRec f).channelReplays = s.channelReplays := rfl
@[simp] theorem State.modRec_accessMisses : (s.modRec f).accessMisses = s.accessMisses := rfl
@[simp] theorem State.modRec_fatal : (s.modRec f).fatal = s.fatal := rfl
@[simp] theorem State.modRec_monitors : (s.modRec f).monitors = s.monitors := rfl
@[simp] theorem State.modRec_switchStep : (s.modRec f).switchStep = s.switchStep := rfl
@[simp] theorem State.modRec_pllLocked : (s.modRec f).pllLocked = s.pllLocked := rfl
@[simp] theorem State.modRec_wires : (s.modRec f).wires = s.wires := rfl
@[simp] theorem State.modRec_heldPins : (s.modRec f).heldPins = s.heldPins := rfl
@[simp] theorem State.modRec_crossings : (s.modRec f).crossings = s.crossings := rfl
@[simp] theorem State.modRec_fuses : (s.modRec f).fuses = s.fuses := rfl
@[simp] theorem State.modRec_cak : (s.modRec f).cak = s.cak := rfl
@[simp] theorem State.modRec_kek : (s.modRec f).kek = s.kek := rfl
@[simp] theorem State.modRec_authFails : (s.modRec f).authFails = s.authFails := rfl
@[simp] theorem State.modRec_lockoutAt : (s.modRec f).lockoutAt = s.lockoutAt := rfl
@[simp] theorem State.modRec_noiseFault : (s.modRec f).noiseFault = s.noiseFault := rfl
@[simp] theorem State.modRec_drbgRequests : (s.modRec f).drbgRequests = s.drbgRequests := rfl
@[simp] theorem State.modRec_drawCount : (s.modRec f).drawCount = s.drawCount := rfl
@[simp] theorem State.modRec_firmware : (s.modRec f).firmware = s.firmware := rfl
@[simp] theorem State.modRec_rings : (s.modRec f).rings = s.rings := rfl
@[simp] theorem State.modRec_taken : (s.modRec f).taken = s.taken := rfl
@[simp] theorem State.modRec_items : (s.modRec f).items = s.items := rfl
@[simp] theorem State.modRec_decided : (s.modRec f).decided = s.decided := rfl
@[simp] theorem State.modRec_ended : (s.modRec f).ended = s.ended := rfl
@[simp] theorem State.modRec_bookings : (s.modRec f).bookings = s.bookings := rfl
@[simp] theorem State.modRec_reservations : (s.modRec f).reservations = s.reservations := rfl
@[simp] theorem State.modRec_heldRecords : (s.modRec f).heldRecords = s.heldRecords := rfl
@[simp] theorem State.modRec_staged : (s.modRec f).staged = s.staged := rfl
@[simp] theorem State.modRec_plans : (s.modRec f).plans = s.plans := rfl
@[simp] theorem State.modRec_msixTable : (s.modRec f).msixTable = s.msixTable := rfl
@[simp] theorem State.modRec_pba : (s.modRec f).pba = s.pba := rfl
@[simp] theorem State.modRec_localVerdict : (s.modRec f).localVerdict = s.localVerdict := rfl
@[simp] theorem State.modRec_localSent : (s.modRec f).localSent = s.localSent := rfl
@[simp] theorem State.modRec_pastVerdicts : (s.modRec f).pastVerdicts = s.pastVerdicts := rfl
@[simp] theorem State.modRec_armedAt : (s.modRec f).armedAt = s.armedAt := rfl
@[simp] theorem State.modRec_reports : (s.modRec f).reports = s.reports := rfl
@[simp] theorem State.modRec_norms : (s.modRec f).norms = s.norms := rfl
@[simp] theorem State.modRec_pinOrder : (s.modRec f).pinOrder = s.pinOrder := rfl
@[simp] theorem State.modRec_dayBuckets : (s.modRec f).dayBuckets = s.dayBuckets := rfl
@[simp] theorem State.modRec_nandWritten : (s.modRec f).nandWritten = s.nandWritten := rfl
@[simp] theorem State.modRec_nandLife : (s.modRec f).nandLife = s.nandLife := rfl
@[simp] theorem State.modRec_unitWrites : (s.modRec f).unitWrites = s.unitWrites := rfl
@[simp] theorem State.modRec_exportHolds : (s.modRec f).exportHolds = s.exportHolds := rfl
@[simp] theorem State.modRec_shardsReady : (s.modRec f).shardsReady = s.shardsReady := rfl
@[simp] theorem State.modRec_buckets : (s.modRec f).buckets = s.buckets := rfl
@[simp] theorem State.modRec_rebased : (s.modRec f).rebased = s.rebased := rfl
@[simp] theorem State.modRec_deltas : (s.modRec f).deltas = s.deltas := rfl
@[simp] theorem State.modRec_nearPorts : (s.modRec f).nearPorts = s.nearPorts := rfl
@[simp] theorem State.modRec_flows : (s.modRec f).flows = s.flows := rfl
@[simp] theorem State.modRec_inbox : (s.modRec f).inbox = s.inbox := rfl
@[simp] theorem State.modRec_owed : (s.modRec f).owed = s.owed := rfl
@[simp] theorem State.modRec_reduces : (s.modRec f).reduces = s.reduces := rfl
@[simp] theorem State.modRec_digestRoots : (s.modRec f).digestRoots = s.digestRoots := rfl
@[simp] theorem State.modRec_digestNodes : (s.modRec f).digestNodes = s.digestNodes := rfl
@[simp] theorem State.modRec_digestSilent : (s.modRec f).digestSilent = s.digestSilent := rfl
@[simp] theorem State.modRec_farPorts : (s.modRec f).farPorts = s.farPorts := rfl
@[simp] theorem State.modRec_recvSlots : (s.modRec f).recvSlots = s.recvSlots := rfl
@[simp] theorem State.modRec_exchanges : (s.modRec f).exchanges = s.exchanges := rfl
@[simp] theorem State.modRec_farInbox : (s.modRec f).farInbox = s.farInbox := rfl
@[simp] theorem State.modRec_joining : (s.modRec f).joining = s.joining := rfl
@[simp] theorem State.modRec_lastHold : (s.modRec f).lastHold = s.lastHold := rfl
@[simp] theorem State.modRec_gathers : (s.modRec f).gathers = s.gathers := rfl
@[simp] theorem State.modRec_feedbacks : (s.modRec f).feedbacks = s.feedbacks := rfl
@[simp] theorem State.modRec_farTransfers : (s.modRec f).farTransfers = s.farTransfers := rfl
@[simp] theorem State.modRec_surroundings : (s.modRec f).surroundings = s.surroundings := rfl
@[simp] theorem State.modRec_cageTries : (s.modRec f).cageTries = s.cageTries := rfl
@[simp] theorem State.modRec_triedAt : (s.modRec f).triedAt = s.triedAt := rfl
@[simp] theorem State.modRec_presentAt : (s.modRec f).presentAt = s.presentAt := rfl
@[simp] theorem State.modRec_emitted : (s.modRec f).emitted = s.emitted := rfl
end

section
variable (s : State) (a : Nat) (l : List Byte)
@[simp] theorem State.writeHbm_pending : (s.writeHbm a l).pending = s.pending := rfl
@[simp] theorem State.writeHbm_now : (s.writeHbm a l).now = s.now := rfl
@[simp] theorem State.writeHbm_siteTime : (s.writeHbm a l).siteTime = s.siteTime := rfl
@[simp] theorem State.writeHbm_timeRuns : (s.writeHbm a l).timeRuns = s.timeRuns := rfl
@[simp] theorem State.writeHbm_inputOk : (s.writeHbm a l).inputOk = s.inputOk := rfl
@[simp] theorem State.writeHbm_pwrgood : (s.writeHbm a l).pwrgood = s.pwrgood := rfl
@[simp] theorem State.writeHbm_perstN : (s.writeHbm a l).perstN = s.perstN := rfl
@[simp] theorem State.writeHbm_dormantPin : (s.writeHbm a l).dormantPin = s.dormantPin := rfl
@[simp] theorem State.writeHbm_profilePin : (s.writeHbm a l).profilePin = s.profilePin := rfl
@[simp] theorem State.writeHbm_regs : (s.writeHbm a l).regs = s.regs := rfl
@[simp] theorem State.writeHbm_locked : (s.writeHbm a l).locked = s.locked := rfl
@[simp] theorem State.writeHbm_sram : (s.writeHbm a l).sram = s.sram := rfl
@[simp] theorem State.writeHbm_isram : (s.writeHbm a l).isram = s.isram := rfl
@[simp] theorem State.writeHbm_awlBuf : (s.writeHbm a l).awlBuf = s.awlBuf := rfl
@[simp] theorem State.writeHbm_flash : (s.writeHbm a l).flash = s.flash := rfl
@[simp] theorem State.writeHbm_nor : (s.writeHbm a l).nor = s.nor := rfl
@[simp] theorem State.writeHbm_norPart : (s.writeHbm a l).norPart = s.norPart := rfl
@[simp] theorem State.writeHbm_host : (s.writeHbm a l).host = s.host := rfl
@[simp] theorem State.writeHbm_dies : (s.writeHbm a l).dies = s.dies := rfl
@[simp] theorem State.writeHbm_sentinels : (s.writeHbm a l).sentinels = s.sentinels := rfl
@[simp] theorem State.writeHbm_cornerAt : (s.writeHbm a l).cornerAt = s.cornerAt := rfl
@[simp] theorem State.writeHbm_signals : (s.writeHbm a l).signals = s.signals := rfl
@[simp] theorem State.writeHbm_notices : (s.writeHbm a l).notices = s.notices := rfl
@[simp] theorem State.writeHbm_initialised : (s.writeHbm a l).initialised = s.initialised := rfl
@[simp] theorem State.writeHbm_journalValid : (s.writeHbm a l).journalValid = s.journalValid := rfl
@[simp] theorem State.writeHbm_journalOpen : (s.writeHbm a l).journalOpen = s.journalOpen := rfl
@[simp] theorem State.writeHbm_sources : (s.writeHbm a l).sources = s.sources := rfl
@[simp] theorem State.writeHbm_held : (s.writeHbm a l).held = s.held := rfl
@[simp] theorem State.writeHbm_covered : (s.writeHbm a l).covered = s.covered := rfl
@[simp] theorem State.writeHbm_best : (s.writeHbm a l).best = s.best := rfl
@[simp] theorem State.writeHbm_on : (s.writeHbm a l).on = s.on := rfl
@[simp] theorem State.writeHbm_rising : (s.writeHbm a l).rising = s.rising := rfl
@[simp] theorem State.writeHbm_switchOns : (s.writeHbm a l).switchOns = s.switchOns := rfl
@[simp] theorem State.writeHbm_switchedAt : (s.writeHbm a l).switchedAt = s.switchedAt := rfl
@[simp] theorem State.writeHbm_domFaults : (s.writeHbm a l).domFaults = s.domFaults := rfl
@[simp] theorem State.writeHbm_switchOffs : (s.writeHbm a l).switchOffs = s.switchOffs := rfl
@[simp] theorem State.writeHbm_tripped : (s.writeHbm a l).tripped = s.tripped := rfl
@[simp] theorem State.writeHbm_coolSince : (s.writeHbm a l).coolSince = s.coolSince := rfl
@[simp] theorem State.writeHbm_hotInletSince : (s.writeHbm a l).hotInletSince = s.hotInletSince := rfl
@[simp] theorem State.writeHbm_overSince : (s.writeHbm a l).overSince = s.overSince := rfl
@[simp] theorem State.writeHbm_coolantTold : (s.writeHbm a l).coolantTold = s.coolantTold := rfl
@[simp] theorem State.writeHbm_overTold : (s.writeHbm a l).overTold = s.overTold := rfl
@[simp] theorem State.writeHbm_excessDw : (s.writeHbm a l).excessDw = s.excessDw := rfl
@[simp] theorem State.writeHbm_retained : (s.writeHbm a l).retained = s.retained := rfl
@[simp] theorem State.writeHbm_wakeAt : (s.writeHbm a l).wakeAt = s.wakeAt := rfl
@[simp] theorem State.writeHbm_sensed : (s.writeHbm a l).sensed = s.sensed := rfl
@[simp] theorem State.writeHbm_failedChannels : (s.writeHbm a l).failedChannels = s.failedChannels := rfl
@[simp] theorem State.writeHbm_channelReplays : (s.writeHbm a l).channelReplays = s.channelReplays := rfl
@[simp] theorem State.writeHbm_accessMisses : (s.writeHbm a l).accessMisses = s.accessMisses := rfl
@[simp] theorem State.writeHbm_fatal : (s.writeHbm a l).fatal = s.fatal := rfl
@[simp] theorem State.writeHbm_monitors : (s.writeHbm a l).monitors = s.monitors := rfl
@[simp] theorem State.writeHbm_switchStep : (s.writeHbm a l).switchStep = s.switchStep := rfl
@[simp] theorem State.writeHbm_pllLocked : (s.writeHbm a l).pllLocked = s.pllLocked := rfl
@[simp] theorem State.writeHbm_wires : (s.writeHbm a l).wires = s.wires := rfl
@[simp] theorem State.writeHbm_heldPins : (s.writeHbm a l).heldPins = s.heldPins := rfl
@[simp] theorem State.writeHbm_crossings : (s.writeHbm a l).crossings = s.crossings := rfl
@[simp] theorem State.writeHbm_fuses : (s.writeHbm a l).fuses = s.fuses := rfl
@[simp] theorem State.writeHbm_cak : (s.writeHbm a l).cak = s.cak := rfl
@[simp] theorem State.writeHbm_kek : (s.writeHbm a l).kek = s.kek := rfl
@[simp] theorem State.writeHbm_authFails : (s.writeHbm a l).authFails = s.authFails := rfl
@[simp] theorem State.writeHbm_lockoutAt : (s.writeHbm a l).lockoutAt = s.lockoutAt := rfl
@[simp] theorem State.writeHbm_noiseFault : (s.writeHbm a l).noiseFault = s.noiseFault := rfl
@[simp] theorem State.writeHbm_drbgRequests : (s.writeHbm a l).drbgRequests = s.drbgRequests := rfl
@[simp] theorem State.writeHbm_drawCount : (s.writeHbm a l).drawCount = s.drawCount := rfl
@[simp] theorem State.writeHbm_firmware : (s.writeHbm a l).firmware = s.firmware := rfl
@[simp] theorem State.writeHbm_rings : (s.writeHbm a l).rings = s.rings := rfl
@[simp] theorem State.writeHbm_taken : (s.writeHbm a l).taken = s.taken := rfl
@[simp] theorem State.writeHbm_items : (s.writeHbm a l).items = s.items := rfl
@[simp] theorem State.writeHbm_decided : (s.writeHbm a l).decided = s.decided := rfl
@[simp] theorem State.writeHbm_ended : (s.writeHbm a l).ended = s.ended := rfl
@[simp] theorem State.writeHbm_bookings : (s.writeHbm a l).bookings = s.bookings := rfl
@[simp] theorem State.writeHbm_reservations : (s.writeHbm a l).reservations = s.reservations := rfl
@[simp] theorem State.writeHbm_heldRecords : (s.writeHbm a l).heldRecords = s.heldRecords := rfl
@[simp] theorem State.writeHbm_staged : (s.writeHbm a l).staged = s.staged := rfl
@[simp] theorem State.writeHbm_plans : (s.writeHbm a l).plans = s.plans := rfl
@[simp] theorem State.writeHbm_msixTable : (s.writeHbm a l).msixTable = s.msixTable := rfl
@[simp] theorem State.writeHbm_pba : (s.writeHbm a l).pba = s.pba := rfl
@[simp] theorem State.writeHbm_localVerdict : (s.writeHbm a l).localVerdict = s.localVerdict := rfl
@[simp] theorem State.writeHbm_localSent : (s.writeHbm a l).localSent = s.localSent := rfl
@[simp] theorem State.writeHbm_pastVerdicts : (s.writeHbm a l).pastVerdicts = s.pastVerdicts := rfl
@[simp] theorem State.writeHbm_armedAt : (s.writeHbm a l).armedAt = s.armedAt := rfl
@[simp] theorem State.writeHbm_reports : (s.writeHbm a l).reports = s.reports := rfl
@[simp] theorem State.writeHbm_norms : (s.writeHbm a l).norms = s.norms := rfl
@[simp] theorem State.writeHbm_pinOrder : (s.writeHbm a l).pinOrder = s.pinOrder := rfl
@[simp] theorem State.writeHbm_dayBuckets : (s.writeHbm a l).dayBuckets = s.dayBuckets := rfl
@[simp] theorem State.writeHbm_nandWritten : (s.writeHbm a l).nandWritten = s.nandWritten := rfl
@[simp] theorem State.writeHbm_nandLife : (s.writeHbm a l).nandLife = s.nandLife := rfl
@[simp] theorem State.writeHbm_unitWrites : (s.writeHbm a l).unitWrites = s.unitWrites := rfl
@[simp] theorem State.writeHbm_exportHolds : (s.writeHbm a l).exportHolds = s.exportHolds := rfl
@[simp] theorem State.writeHbm_shardsReady : (s.writeHbm a l).shardsReady = s.shardsReady := rfl
@[simp] theorem State.writeHbm_buckets : (s.writeHbm a l).buckets = s.buckets := rfl
@[simp] theorem State.writeHbm_rebased : (s.writeHbm a l).rebased = s.rebased := rfl
@[simp] theorem State.writeHbm_deltas : (s.writeHbm a l).deltas = s.deltas := rfl
@[simp] theorem State.writeHbm_nearPorts : (s.writeHbm a l).nearPorts = s.nearPorts := rfl
@[simp] theorem State.writeHbm_flows : (s.writeHbm a l).flows = s.flows := rfl
@[simp] theorem State.writeHbm_inbox : (s.writeHbm a l).inbox = s.inbox := rfl
@[simp] theorem State.writeHbm_owed : (s.writeHbm a l).owed = s.owed := rfl
@[simp] theorem State.writeHbm_reduces : (s.writeHbm a l).reduces = s.reduces := rfl
@[simp] theorem State.writeHbm_digestRoots : (s.writeHbm a l).digestRoots = s.digestRoots := rfl
@[simp] theorem State.writeHbm_digestNodes : (s.writeHbm a l).digestNodes = s.digestNodes := rfl
@[simp] theorem State.writeHbm_digestSilent : (s.writeHbm a l).digestSilent = s.digestSilent := rfl
@[simp] theorem State.writeHbm_farPorts : (s.writeHbm a l).farPorts = s.farPorts := rfl
@[simp] theorem State.writeHbm_recvSlots : (s.writeHbm a l).recvSlots = s.recvSlots := rfl
@[simp] theorem State.writeHbm_exchanges : (s.writeHbm a l).exchanges = s.exchanges := rfl
@[simp] theorem State.writeHbm_farInbox : (s.writeHbm a l).farInbox = s.farInbox := rfl
@[simp] theorem State.writeHbm_joining : (s.writeHbm a l).joining = s.joining := rfl
@[simp] theorem State.writeHbm_lastHold : (s.writeHbm a l).lastHold = s.lastHold := rfl
@[simp] theorem State.writeHbm_gathers : (s.writeHbm a l).gathers = s.gathers := rfl
@[simp] theorem State.writeHbm_feedbacks : (s.writeHbm a l).feedbacks = s.feedbacks := rfl
@[simp] theorem State.writeHbm_farTransfers : (s.writeHbm a l).farTransfers = s.farTransfers := rfl
@[simp] theorem State.writeHbm_surroundings : (s.writeHbm a l).surroundings = s.surroundings := rfl
@[simp] theorem State.writeHbm_cageTries : (s.writeHbm a l).cageTries = s.cageTries := rfl
@[simp] theorem State.writeHbm_triedAt : (s.writeHbm a l).triedAt = s.triedAt := rfl
@[simp] theorem State.writeHbm_presentAt : (s.writeHbm a l).presentAt = s.presentAt := rfl
@[simp] theorem State.writeHbm_recorder : (s.writeHbm a l).recorder = s.recorder := rfl
@[simp] theorem State.writeHbm_emitted : (s.writeHbm a l).emitted = s.emitted := rfl
end

/-! ### Time -/

section
variable (s : State) (dt : Nat)
@[simp] theorem State.advance_pending : (s.advance dt).pending = s.pending := by unfold State.advance; dsimp only; split <;> split <;> rfl
@[simp] theorem State.advance_timeRuns : (s.advance dt).timeRuns = s.timeRuns := by unfold State.advance; dsimp only; split <;> split <;> rfl
@[simp] theorem State.advance_inputOk : (s.advance dt).inputOk = s.inputOk := by unfold State.advance; dsimp only; split <;> split <;> rfl
@[simp] theorem State.advance_pwrgood : (s.advance dt).pwrgood = s.pwrgood := by unfold State.advance; dsimp only; split <;> split <;> rfl
@[simp] theorem State.advance_perstN : (s.advance dt).perstN = s.perstN := by unfold State.advance; dsimp only; split <;> split <;> rfl
@[simp] theorem State.advance_dormantPin : (s.advance dt).dormantPin = s.dormantPin := by unfold State.advance; dsimp only; split <;> split <;> rfl
@[simp] theorem State.advance_profilePin : (s.advance dt).profilePin = s.profilePin := by unfold State.advance; dsimp only; split <;> split <;> rfl
@[simp] theorem State.advance_regs : (s.advance dt).regs = s.regs := by unfold State.advance; dsimp only; split <;> split <;> rfl
@[simp] theorem State.advance_locked : (s.advance dt).locked = s.locked := by unfold State.advance; dsimp only; split <;> split <;> rfl
@[simp] theorem State.advance_hbm : (s.advance dt).hbm = s.hbm := by unfold State.advance; dsimp only; split <;> split <;> rfl
@[simp] theorem State.advance_sram : (s.advance dt).sram = s.sram := by unfold State.advance; dsimp only; split <;> split <;> rfl
@[simp] theorem State.advance_isram : (s.advance dt).isram = s.isram := by unfold State.advance; dsimp only; split <;> split <;> rfl
@[simp] theorem State.advance_awlBuf : (s.advance dt).awlBuf = s.awlBuf := by unfold State.advance; dsimp only; split <;> split <;> rfl
@[simp] theorem State.advance_flash : (s.advance dt).flash = s.flash := by unfold State.advance; dsimp only; split <;> split <;> rfl
@[simp] theorem State.advance_nor : (s.advance dt).nor = s.nor := by unfold State.advance; dsimp only; split <;> split <;> rfl
@[simp] theorem State.advance_norPart : (s.advance dt).norPart = s.norPart := by unfold State.advance; dsimp only; split <;> split <;> rfl
@[simp] theorem State.advance_host : (s.advance dt).host = s.host := by unfold State.advance; dsimp only; split <;> split <;> rfl
@[simp] theorem State.advance_dies : (s.advance dt).dies = s.dies := by unfold State.advance; dsimp only; split <;> split <;> rfl
@[simp] theorem State.advance_sentinels : (s.advance dt).sentinels = s.sentinels := by unfold State.advance; dsimp only; split <;> split <;> rfl
@[simp] theorem State.advance_cornerAt : (s.advance dt).cornerAt = s.cornerAt := by unfold State.advance; dsimp only; split <;> split <;> rfl
@[simp] theorem State.advance_signals : (s.advance dt).signals = s.signals := by unfold State.advance; dsimp only; split <;> split <;> rfl
@[simp] theorem State.advance_notices : (s.advance dt).notices = s.notices := by unfold State.advance; dsimp only; split <;> split <;> rfl
@[simp] theorem State.advance_initialised : (s.advance dt).initialised = s.initialised := by unfold State.advance; dsimp only; split <;> split <;> rfl
@[simp] theorem State.advance_journalValid : (s.advance dt).journalValid = s.journalValid := by unfold State.advance; dsimp only; split <;> split <;> rfl
@[simp] theorem State.advance_journalOpen : (s.advance dt).journalOpen = s.journalOpen := by unfold State.advance; dsimp only; split <;> split <;> rfl
@[simp] theorem State.advance_sources : (s.advance dt).sources = s.sources := by unfold State.advance; dsimp only; split <;> split <;> rfl
@[simp] theorem State.advance_held : (s.advance dt).held = s.held := by unfold State.advance; dsimp only; split <;> split <;> rfl
@[simp] theorem State.advance_covered : (s.advance dt).covered = s.covered := by unfold State.advance; dsimp only; split <;> split <;> rfl
@[simp] theorem State.advance_best : (s.advance dt).best = s.best := by unfold State.advance; dsimp only; split <;> split <;> rfl
@[simp] theorem State.advance_on : (s.advance dt).on = s.on := by unfold State.advance; dsimp only; split <;> split <;> rfl
@[simp] theorem State.advance_rising : (s.advance dt).rising = s.rising := by unfold State.advance; dsimp only; split <;> split <;> rfl
@[simp] theorem State.advance_switchOns : (s.advance dt).switchOns = s.switchOns := by unfold State.advance; dsimp only; split <;> split <;> rfl
@[simp] theorem State.advance_switchedAt : (s.advance dt).switchedAt = s.switchedAt := by unfold State.advance; dsimp only; split <;> split <;> rfl
@[simp] theorem State.advance_domFaults : (s.advance dt).domFaults = s.domFaults := by unfold State.advance; dsimp only; split <;> split <;> rfl
@[simp] theorem State.advance_switchOffs : (s.advance dt).switchOffs = s.switchOffs := by unfold State.advance; dsimp only; split <;> split <;> rfl
@[simp] theorem State.advance_tripped : (s.advance dt).tripped = s.tripped := by unfold State.advance; dsimp only; split <;> split <;> rfl
@[simp] theorem State.advance_coolSince : (s.advance dt).coolSince = s.coolSince := by unfold State.advance; dsimp only; split <;> split <;> rfl
@[simp] theorem State.advance_hotInletSince : (s.advance dt).hotInletSince = s.hotInletSince := by unfold State.advance; dsimp only; split <;> split <;> rfl
@[simp] theorem State.advance_overSince : (s.advance dt).overSince = s.overSince := by unfold State.advance; dsimp only; split <;> split <;> rfl
@[simp] theorem State.advance_coolantTold : (s.advance dt).coolantTold = s.coolantTold := by unfold State.advance; dsimp only; split <;> split <;> rfl
@[simp] theorem State.advance_overTold : (s.advance dt).overTold = s.overTold := by unfold State.advance; dsimp only; split <;> split <;> rfl
@[simp] theorem State.advance_excessDw : (s.advance dt).excessDw = s.excessDw := by unfold State.advance; dsimp only; split <;> split <;> rfl
@[simp] theorem State.advance_retained : (s.advance dt).retained = s.retained := by unfold State.advance; dsimp only; split <;> split <;> rfl
@[simp] theorem State.advance_wakeAt : (s.advance dt).wakeAt = s.wakeAt := by unfold State.advance; dsimp only; split <;> split <;> rfl
@[simp] theorem State.advance_sensed : (s.advance dt).sensed = s.sensed := by unfold State.advance; dsimp only; split <;> split <;> rfl
@[simp] theorem State.advance_failedChannels : (s.advance dt).failedChannels = s.failedChannels := by unfold State.advance; dsimp only; split <;> split <;> rfl
@[simp] theorem State.advance_channelReplays : (s.advance dt).channelReplays = s.channelReplays := by unfold State.advance; dsimp only; split <;> split <;> rfl
@[simp] theorem State.advance_accessMisses : (s.advance dt).accessMisses = s.accessMisses := by unfold State.advance; dsimp only; split <;> split <;> rfl
@[simp] theorem State.advance_fatal : (s.advance dt).fatal = s.fatal := by unfold State.advance; dsimp only; split <;> split <;> rfl
@[simp] theorem State.advance_monitors : (s.advance dt).monitors = s.monitors := by unfold State.advance; dsimp only; split <;> split <;> rfl
@[simp] theorem State.advance_switchStep : (s.advance dt).switchStep = s.switchStep := by unfold State.advance; dsimp only; split <;> split <;> rfl
@[simp] theorem State.advance_pllLocked : (s.advance dt).pllLocked = s.pllLocked := by unfold State.advance; dsimp only; split <;> split <;> rfl
@[simp] theorem State.advance_wires : (s.advance dt).wires = s.wires := by unfold State.advance; dsimp only; split <;> split <;> rfl
@[simp] theorem State.advance_heldPins : (s.advance dt).heldPins = s.heldPins := by unfold State.advance; dsimp only; split <;> split <;> rfl
@[simp] theorem State.advance_crossings : (s.advance dt).crossings = s.crossings := by unfold State.advance; dsimp only; split <;> split <;> rfl
@[simp] theorem State.advance_fuses : (s.advance dt).fuses = s.fuses := by unfold State.advance; dsimp only; split <;> split <;> rfl
@[simp] theorem State.advance_cak : (s.advance dt).cak = s.cak := by unfold State.advance; dsimp only; split <;> split <;> rfl
@[simp] theorem State.advance_kek : (s.advance dt).kek = s.kek := by unfold State.advance; dsimp only; split <;> split <;> rfl
@[simp] theorem State.advance_authFails : (s.advance dt).authFails = s.authFails := by unfold State.advance; dsimp only; split <;> split <;> rfl
@[simp] theorem State.advance_lockoutAt : (s.advance dt).lockoutAt = s.lockoutAt := by unfold State.advance; dsimp only; split <;> split <;> rfl
@[simp] theorem State.advance_noiseFault : (s.advance dt).noiseFault = s.noiseFault := by unfold State.advance; dsimp only; split <;> split <;> rfl
@[simp] theorem State.advance_drbgRequests : (s.advance dt).drbgRequests = s.drbgRequests := by unfold State.advance; dsimp only; split <;> split <;> rfl
@[simp] theorem State.advance_drawCount : (s.advance dt).drawCount = s.drawCount := by unfold State.advance; dsimp only; split <;> split <;> rfl
@[simp] theorem State.advance_firmware : (s.advance dt).firmware = s.firmware := by unfold State.advance; dsimp only; split <;> split <;> rfl
@[simp] theorem State.advance_rings : (s.advance dt).rings = s.rings := by unfold State.advance; dsimp only; split <;> split <;> rfl
@[simp] theorem State.advance_taken : (s.advance dt).taken = s.taken := by unfold State.advance; dsimp only; split <;> split <;> rfl
@[simp] theorem State.advance_items : (s.advance dt).items = s.items := by unfold State.advance; dsimp only; split <;> split <;> rfl
@[simp] theorem State.advance_decided : (s.advance dt).decided = s.decided := by unfold State.advance; dsimp only; split <;> split <;> rfl
@[simp] theorem State.advance_ended : (s.advance dt).ended = s.ended := by unfold State.advance; dsimp only; split <;> split <;> rfl
@[simp] theorem State.advance_bookings : (s.advance dt).bookings = s.bookings := by unfold State.advance; dsimp only; split <;> split <;> rfl
@[simp] theorem State.advance_reservations : (s.advance dt).reservations = s.reservations := by unfold State.advance; dsimp only; split <;> split <;> rfl
@[simp] theorem State.advance_heldRecords : (s.advance dt).heldRecords = s.heldRecords := by unfold State.advance; dsimp only; split <;> split <;> rfl
@[simp] theorem State.advance_staged : (s.advance dt).staged = s.staged := by unfold State.advance; dsimp only; split <;> split <;> rfl
@[simp] theorem State.advance_plans : (s.advance dt).plans = s.plans := by unfold State.advance; dsimp only; split <;> split <;> rfl
@[simp] theorem State.advance_msixTable : (s.advance dt).msixTable = s.msixTable := by unfold State.advance; dsimp only; split <;> split <;> rfl
@[simp] theorem State.advance_pba : (s.advance dt).pba = s.pba := by unfold State.advance; dsimp only; split <;> split <;> rfl
@[simp] theorem State.advance_localVerdict : (s.advance dt).localVerdict = s.localVerdict := by unfold State.advance; dsimp only; split <;> split <;> rfl
@[simp] theorem State.advance_localSent : (s.advance dt).localSent = s.localSent := by unfold State.advance; dsimp only; split <;> split <;> rfl
@[simp] theorem State.advance_pastVerdicts : (s.advance dt).pastVerdicts = s.pastVerdicts := by unfold State.advance; dsimp only; split <;> split <;> rfl
@[simp] theorem State.advance_armedAt : (s.advance dt).armedAt = s.armedAt := by unfold State.advance; dsimp only; split <;> split <;> rfl
@[simp] theorem State.advance_reports : (s.advance dt).reports = s.reports := by unfold State.advance; dsimp only; split <;> split <;> rfl
@[simp] theorem State.advance_norms : (s.advance dt).norms = s.norms := by unfold State.advance; dsimp only; split <;> split <;> rfl
@[simp] theorem State.advance_pinOrder : (s.advance dt).pinOrder = s.pinOrder := by unfold State.advance; dsimp only; split <;> split <;> rfl
@[simp] theorem State.advance_dayBuckets : (s.advance dt).dayBuckets = s.dayBuckets := by unfold State.advance; dsimp only; split <;> split <;> rfl
@[simp] theorem State.advance_nandWritten : (s.advance dt).nandWritten = s.nandWritten := by unfold State.advance; dsimp only; split <;> split <;> rfl
@[simp] theorem State.advance_nandLife : (s.advance dt).nandLife = s.nandLife := by unfold State.advance; dsimp only; split <;> split <;> rfl
@[simp] theorem State.advance_unitWrites : (s.advance dt).unitWrites = s.unitWrites := by unfold State.advance; dsimp only; split <;> split <;> rfl
@[simp] theorem State.advance_exportHolds : (s.advance dt).exportHolds = s.exportHolds := by unfold State.advance; dsimp only; split <;> split <;> rfl
@[simp] theorem State.advance_shardsReady : (s.advance dt).shardsReady = s.shardsReady := by unfold State.advance; dsimp only; split <;> split <;> rfl
@[simp] theorem State.advance_buckets : (s.advance dt).buckets = s.buckets := by unfold State.advance; dsimp only; split <;> split <;> rfl
@[simp] theorem State.advance_rebased : (s.advance dt).rebased = s.rebased := by unfold State.advance; dsimp only; split <;> split <;> rfl
@[simp] theorem State.advance_deltas : (s.advance dt).deltas = s.deltas := by unfold State.advance; dsimp only; split <;> split <;> rfl
@[simp] theorem State.advance_nearPorts : (s.advance dt).nearPorts = s.nearPorts := by unfold State.advance; dsimp only; split <;> split <;> rfl
@[simp] theorem State.advance_flows : (s.advance dt).flows = s.flows := by unfold State.advance; dsimp only; split <;> split <;> rfl
@[simp] theorem State.advance_inbox : (s.advance dt).inbox = s.inbox := by unfold State.advance; dsimp only; split <;> split <;> rfl
@[simp] theorem State.advance_owed : (s.advance dt).owed = s.owed := by unfold State.advance; dsimp only; split <;> split <;> rfl
@[simp] theorem State.advance_reduces : (s.advance dt).reduces = s.reduces := by unfold State.advance; dsimp only; split <;> split <;> rfl
@[simp] theorem State.advance_digestRoots : (s.advance dt).digestRoots = s.digestRoots := by unfold State.advance; dsimp only; split <;> split <;> rfl
@[simp] theorem State.advance_digestNodes : (s.advance dt).digestNodes = s.digestNodes := by unfold State.advance; dsimp only; split <;> split <;> rfl
@[simp] theorem State.advance_digestSilent : (s.advance dt).digestSilent = s.digestSilent := by unfold State.advance; dsimp only; split <;> split <;> rfl
@[simp] theorem State.advance_farPorts : (s.advance dt).farPorts = s.farPorts := by unfold State.advance; dsimp only; split <;> split <;> rfl
@[simp] theorem State.advance_recvSlots : (s.advance dt).recvSlots = s.recvSlots := by unfold State.advance; dsimp only; split <;> split <;> rfl
@[simp] theorem State.advance_exchanges : (s.advance dt).exchanges = s.exchanges := by unfold State.advance; dsimp only; split <;> split <;> rfl
@[simp] theorem State.advance_farInbox : (s.advance dt).farInbox = s.farInbox := by unfold State.advance; dsimp only; split <;> split <;> rfl
@[simp] theorem State.advance_joining : (s.advance dt).joining = s.joining := by unfold State.advance; dsimp only; split <;> split <;> rfl
@[simp] theorem State.advance_lastHold : (s.advance dt).lastHold = s.lastHold := by unfold State.advance; dsimp only; split <;> split <;> rfl
@[simp] theorem State.advance_gathers : (s.advance dt).gathers = s.gathers := by unfold State.advance; dsimp only; split <;> split <;> rfl
@[simp] theorem State.advance_feedbacks : (s.advance dt).feedbacks = s.feedbacks := by unfold State.advance; dsimp only; split <;> split <;> rfl
@[simp] theorem State.advance_farTransfers : (s.advance dt).farTransfers = s.farTransfers := by unfold State.advance; dsimp only; split <;> split <;> rfl
@[simp] theorem State.advance_surroundings : (s.advance dt).surroundings = s.surroundings := by unfold State.advance; dsimp only; split <;> split <;> rfl
@[simp] theorem State.advance_cageTries : (s.advance dt).cageTries = s.cageTries := by unfold State.advance; dsimp only; split <;> split <;> rfl
@[simp] theorem State.advance_triedAt : (s.advance dt).triedAt = s.triedAt := by unfold State.advance; dsimp only; split <;> split <;> rfl
@[simp] theorem State.advance_presentAt : (s.advance dt).presentAt = s.presentAt := by unfold State.advance; dsimp only; split <;> split <;> rfl
@[simp] theorem State.advance_emitted : (s.advance dt).emitted = s.emitted := by unfold State.advance; dsimp only; split <;> split <;> rfl
@[simp] theorem State.advance_now : (s.advance dt).now = s.now + dt := by
  unfold State.advance; dsimp only; split <;> split <;> rfl
@[simp] theorem State.advance_siteTime :
    (s.advance dt).siteTime = if s.timeRuns then s.siteTime + BitVec.ofNat 64 dt else s.siteTime := by
  unfold State.advance; dsimp only; split <;> split <;> rfl
theorem State.advance_recorder (c : Recorder) (h : c = s.recorder) :
    ∃ m r, (s.advance dt).recorder = { c with opMs := m, opNsRest := r } := by
  subst h; unfold State.advance; dsimp only
  split <;> split <;> exact ⟨_, _, rfl⟩
end

/-! ### What is read through several fields -/

section
variable (s : State)
@[simp] theorem State.advance_reg (dt a : Nat) : (s.advance dt).reg a = s.reg a := by simp [State.reg]
@[simp] theorem State.advance_regBits (dt a h l : Nat) : (s.advance dt).regBits a h l = s.regBits a h l := by
  simp [State.regBits]
@[simp] theorem State.advance_live (dt b : Nat) : (s.advance dt).live b = s.live b := by simp [State.live]
@[simp] theorem State.advance_die (dt n : Nat) : (s.advance dt).die n = s.die n := by simp [State.die]
@[simp] theorem State.advance_ring (dt n : Nat) : (s.advance dt).ring n = s.ring n := by simp [State.ring]
@[simp] theorem State.advance_item? (dt n : Nat) : (s.advance dt).item? n = s.item? n := by simp [State.item?]
@[simp] theorem State.advance_nport (dt n : Nat) : (s.advance dt).nport n = s.nport n := by simp [State.nport]
@[simp] theorem State.advance_fport (dt n : Nat) : (s.advance dt).fport n = s.fport n := by simp [State.fport]
end

/-! ### Registers -/

theorem State.reg_congr {s t : State} (h : t.regs = s.regs) (a : Nat) : t.reg a = s.reg a := by simp [State.reg, h]

/-! ### Outcomes -/

/-- Every command that ends in `finish` answers a next state that has the queue it found and the time after it. -/
theorem State.finish_next (s : State) (dt : Nat) (t : State) :
    s.finish dt t = .next { t with pending := s.pending, now := s.now + dt, fuses := s.fuses } := rfl

theorem State.finishFuses_next (s : State) (dt : Nat) (t : State) :
    s.finishFuses dt t = .next { t with pending := s.pending, now := s.now + dt } := rfl

end Sys2Proof.Machine
end

