-- ==== Sys2Proof/Laws/Shared.lean ====
section
/-! SUPPORT. What the shared operations touch: the raising of events, the writing of records, the decision of a
descriptor. One lemma per operation says it; the lemmas of a relation give each field that it leaves. -/

namespace Sys2Proof.Machine

/-! ### OnlyReports -/

section
variable {s t u : State}
theorem State.OnlyReports.refl (s : State) : s.OnlyReports s := ⟨_, _, _, _, rfl⟩
theorem State.OnlyReports.trans (h : s.OnlyReports t) (g : t.OnlyReports u) : s.OnlyReports u := by
  obtain ⟨_, _, _, _, rfl⟩ := h; obtain ⟨_, _, _, _, rfl⟩ := g; exact ⟨_, _, _, _, rfl⟩
theorem State.OnlyReports.pending (h : s.OnlyReports t) : t.pending = s.pending := by obtain ⟨_, _, _, _, rfl⟩ := h; rfl
theorem State.OnlyReports.now (h : s.OnlyReports t) : t.now = s.now := by obtain ⟨_, _, _, _, rfl⟩ := h; rfl
theorem State.OnlyReports.siteTime (h : s.OnlyReports t) : t.siteTime = s.siteTime := by obtain ⟨_, _, _, _, rfl⟩ := h; rfl
theorem State.OnlyReports.timeRuns (h : s.OnlyReports t) : t.timeRuns = s.timeRuns := by obtain ⟨_, _, _, _, rfl⟩ := h; rfl
theorem State.OnlyReports.inputOk (h : s.OnlyReports t) : t.inputOk = s.inputOk := by obtain ⟨_, _, _, _, rfl⟩ := h; rfl
theorem State.OnlyReports.pwrgood (h : s.OnlyReports t) : t.pwrgood = s.pwrgood := by obtain ⟨_, _, _, _, rfl⟩ := h; rfl
theorem State.OnlyReports.perstN (h : s.OnlyReports t) : t.perstN = s.perstN := by obtain ⟨_, _, _, _, rfl⟩ := h; rfl
theorem State.OnlyReports.dormantPin (h : s.OnlyReports t) : t.dormantPin = s.dormantPin := by obtain ⟨_, _, _, _, rfl⟩ := h; rfl
theorem State.OnlyReports.profilePin (h : s.OnlyReports t) : t.profilePin = s.profilePin := by obtain ⟨_, _, _, _, rfl⟩ := h; rfl
theorem State.OnlyReports.locked (h : s.OnlyReports t) : t.locked = s.locked := by obtain ⟨_, _, _, _, rfl⟩ := h; rfl
theorem State.OnlyReports.hbm (h : s.OnlyReports t) : t.hbm = s.hbm := by obtain ⟨_, _, _, _, rfl⟩ := h; rfl
theorem State.OnlyReports.sram (h : s.OnlyReports t) : t.sram = s.sram := by obtain ⟨_, _, _, _, rfl⟩ := h; rfl
theorem State.OnlyReports.isram (h : s.OnlyReports t) : t.isram = s.isram := by obtain ⟨_, _, _, _, rfl⟩ := h; rfl
theorem State.OnlyReports.awlBuf (h : s.OnlyReports t) : t.awlBuf = s.awlBuf := by obtain ⟨_, _, _, _, rfl⟩ := h; rfl
theorem State.OnlyReports.flash (h : s.OnlyReports t) : t.flash = s.flash := by obtain ⟨_, _, _, _, rfl⟩ := h; rfl
theorem State.OnlyReports.nor (h : s.OnlyReports t) : t.nor = s.nor := by obtain ⟨_, _, _, _, rfl⟩ := h; rfl
theorem State.OnlyReports.norPart (h : s.OnlyReports t) : t.norPart = s.norPart := by obtain ⟨_, _, _, _, rfl⟩ := h; rfl
theorem State.OnlyReports.host (h : s.OnlyReports t) : t.host = s.host := by obtain ⟨_, _, _, _, rfl⟩ := h; rfl
theorem State.OnlyReports.dies (h : s.OnlyReports t) : t.dies = s.dies := by obtain ⟨_, _, _, _, rfl⟩ := h; rfl
theorem State.OnlyReports.sentinels (h : s.OnlyReports t) : t.sentinels = s.sentinels := by obtain ⟨_, _, _, _, rfl⟩ := h; rfl
theorem State.OnlyReports.cornerAt (h : s.OnlyReports t) : t.cornerAt = s.cornerAt := by obtain ⟨_, _, _, _, rfl⟩ := h; rfl
theorem State.OnlyReports.signals (h : s.OnlyReports t) : t.signals = s.signals := by obtain ⟨_, _, _, _, rfl⟩ := h; rfl
theorem State.OnlyReports.notices (h : s.OnlyReports t) : t.notices = s.notices := by obtain ⟨_, _, _, _, rfl⟩ := h; rfl
theorem State.OnlyReports.initialised (h : s.OnlyReports t) : t.initialised = s.initialised := by obtain ⟨_, _, _, _, rfl⟩ := h; rfl
theorem State.OnlyReports.journalValid (h : s.OnlyReports t) : t.journalValid = s.journalValid := by obtain ⟨_, _, _, _, rfl⟩ := h; rfl
theorem State.OnlyReports.journalOpen (h : s.OnlyReports t) : t.journalOpen = s.journalOpen := by obtain ⟨_, _, _, _, rfl⟩ := h; rfl
theorem State.OnlyReports.sources (h : s.OnlyReports t) : t.sources = s.sources := by obtain ⟨_, _, _, _, rfl⟩ := h; rfl
theorem State.OnlyReports.held (h : s.OnlyReports t) : t.held = s.held := by obtain ⟨_, _, _, _, rfl⟩ := h; rfl
theorem State.OnlyReports.covered (h : s.OnlyReports t) : t.covered = s.covered := by obtain ⟨_, _, _, _, rfl⟩ := h; rfl
theorem State.OnlyReports.best (h : s.OnlyReports t) : t.best = s.best := by obtain ⟨_, _, _, _, rfl⟩ := h; rfl
theorem State.OnlyReports.on (h : s.OnlyReports t) : t.on = s.on := by obtain ⟨_, _, _, _, rfl⟩ := h; rfl
theorem State.OnlyReports.rising (h : s.OnlyReports t) : t.rising = s.rising := by obtain ⟨_, _, _, _, rfl⟩ := h; rfl
theorem State.OnlyReports.switchOns (h : s.OnlyReports t) : t.switchOns = s.switchOns := by obtain ⟨_, _, _, _, rfl⟩ := h; rfl
theorem State.OnlyReports.switchedAt (h : s.OnlyReports t) : t.switchedAt = s.switchedAt := by obtain ⟨_, _, _, _, rfl⟩ := h; rfl
theorem State.OnlyReports.domFaults (h : s.OnlyReports t) : t.domFaults = s.domFaults := by obtain ⟨_, _, _, _, rfl⟩ := h; rfl
theorem State.OnlyReports.switchOffs (h : s.OnlyReports t) : t.switchOffs = s.switchOffs := by obtain ⟨_, _, _, _, rfl⟩ := h; rfl
theorem State.OnlyReports.tripped (h : s.OnlyReports t) : t.tripped = s.tripped := by obtain ⟨_, _, _, _, rfl⟩ := h; rfl
theorem State.OnlyReports.coolSince (h : s.OnlyReports t) : t.coolSince = s.coolSince := by obtain ⟨_, _, _, _, rfl⟩ := h; rfl
theorem State.OnlyReports.hotInletSince (h : s.OnlyReports t) : t.hotInletSince = s.hotInletSince := by obtain ⟨_, _, _, _, rfl⟩ := h; rfl
theorem State.OnlyReports.overSince (h : s.OnlyReports t) : t.overSince = s.overSince := by obtain ⟨_, _, _, _, rfl⟩ := h; rfl
theorem State.OnlyReports.coolantTold (h : s.OnlyReports t) : t.coolantTold = s.coolantTold := by obtain ⟨_, _, _, _, rfl⟩ := h; rfl
theorem State.OnlyReports.overTold (h : s.OnlyReports t) : t.overTold = s.overTold := by obtain ⟨_, _, _, _, rfl⟩ := h; rfl
theorem State.OnlyReports.excessDw (h : s.OnlyReports t) : t.excessDw = s.excessDw := by obtain ⟨_, _, _, _, rfl⟩ := h; rfl
theorem State.OnlyReports.retained (h : s.OnlyReports t) : t.retained = s.retained := by obtain ⟨_, _, _, _, rfl⟩ := h; rfl
theorem State.OnlyReports.wakeAt (h : s.OnlyReports t) : t.wakeAt = s.wakeAt := by obtain ⟨_, _, _, _, rfl⟩ := h; rfl
theorem State.OnlyReports.sensed (h : s.OnlyReports t) : t.sensed = s.sensed := by obtain ⟨_, _, _, _, rfl⟩ := h; rfl
theorem State.OnlyReports.failedChannels (h : s.OnlyReports t) : t.failedChannels = s.failedChannels := by obtain ⟨_, _, _, _, rfl⟩ := h; rfl
theorem State.OnlyReports.channelReplays (h : s.OnlyReports t) : t.channelReplays = s.channelReplays := by obtain ⟨_, _, _, _, rfl⟩ := h; rfl
theorem State.OnlyReports.accessMisses (h : s.OnlyReports t) : t.accessMisses = s.accessMisses := by obtain ⟨_, _, _, _, rfl⟩ := h; rfl
theorem State.OnlyReports.fatal (h : s.OnlyReports t) : t.fatal = s.fatal := by obtain ⟨_, _, _, _, rfl⟩ := h; rfl
theorem State.OnlyReports.monitors (h : s.OnlyReports t) : t.monitors = s.monitors := by obtain ⟨_, _, _, _, rfl⟩ := h; rfl
theorem State.OnlyReports.switchStep (h : s.OnlyReports t) : t.switchStep = s.switchStep := by obtain ⟨_, _, _, _, rfl⟩ := h; rfl
theorem State.OnlyReports.pllLocked (h : s.OnlyReports t) : t.pllLocked = s.pllLocked := by obtain ⟨_, _, _, _, rfl⟩ := h; rfl
theorem State.OnlyReports.wires (h : s.OnlyReports t) : t.wires = s.wires := by obtain ⟨_, _, _, _, rfl⟩ := h; rfl
theorem State.OnlyReports.heldPins (h : s.OnlyReports t) : t.heldPins = s.heldPins := by obtain ⟨_, _, _, _, rfl⟩ := h; rfl
theorem State.OnlyReports.crossings (h : s.OnlyReports t) : t.crossings = s.crossings := by obtain ⟨_, _, _, _, rfl⟩ := h; rfl
theorem State.OnlyReports.fuses (h : s.OnlyReports t) : t.fuses = s.fuses := by obtain ⟨_, _, _, _, rfl⟩ := h; rfl
theorem State.OnlyReports.cak (h : s.OnlyReports t) : t.cak = s.cak := by obtain ⟨_, _, _, _, rfl⟩ := h; rfl
theorem State.OnlyReports.kek (h : s.OnlyReports t) : t.kek = s.kek := by obtain ⟨_, _, _, _, rfl⟩ := h; rfl
theorem State.OnlyReports.authFails (h : s.OnlyReports t) : t.authFails = s.authFails := by obtain ⟨_, _, _, _, rfl⟩ := h; rfl
theorem State.OnlyReports.lockoutAt (h : s.OnlyReports t) : t.lockoutAt = s.lockoutAt := by obtain ⟨_, _, _, _, rfl⟩ := h; rfl
theorem State.OnlyReports.noiseFault (h : s.OnlyReports t) : t.noiseFault = s.noiseFault := by obtain ⟨_, _, _, _, rfl⟩ := h; rfl
theorem State.OnlyReports.drbgRequests (h : s.OnlyReports t) : t.drbgRequests = s.drbgRequests := by obtain ⟨_, _, _, _, rfl⟩ := h; rfl
theorem State.OnlyReports.drawCount (h : s.OnlyReports t) : t.drawCount = s.drawCount := by obtain ⟨_, _, _, _, rfl⟩ := h; rfl
theorem State.OnlyReports.firmware (h : s.OnlyReports t) : t.firmware = s.firmware := by obtain ⟨_, _, _, _, rfl⟩ := h; rfl
theorem State.OnlyReports.rings (h : s.OnlyReports t) : t.rings = s.rings := by obtain ⟨_, _, _, _, rfl⟩ := h; rfl
theorem State.OnlyReports.taken (h : s.OnlyReports t) : t.taken = s.taken := by obtain ⟨_, _, _, _, rfl⟩ := h; rfl
theorem State.OnlyReports.items (h : s.OnlyReports t) : t.items = s.items := by obtain ⟨_, _, _, _, rfl⟩ := h; rfl
theorem State.OnlyReports.decided (h : s.OnlyReports t) : t.decided = s.decided := by obtain ⟨_, _, _, _, rfl⟩ := h; rfl
theorem State.OnlyReports.ended (h : s.OnlyReports t) : t.ended = s.ended := by obtain ⟨_, _, _, _, rfl⟩ := h; rfl
theorem State.OnlyReports.bookings (h : s.OnlyReports t) : t.bookings = s.bookings := by obtain ⟨_, _, _, _, rfl⟩ := h; rfl
theorem State.OnlyReports.reservations (h : s.OnlyReports t) : t.reservations = s.reservations := by obtain ⟨_, _, _, _, rfl⟩ := h; rfl
theorem State.OnlyReports.heldRecords (h : s.OnlyReports t) : t.heldRecords = s.heldRecords := by obtain ⟨_, _, _, _, rfl⟩ := h; rfl
theorem State.OnlyReports.staged (h : s.OnlyReports t) : t.staged = s.staged := by obtain ⟨_, _, _, _, rfl⟩ := h; rfl
theorem State.OnlyReports.plans (h : s.OnlyReports t) : t.plans = s.plans := by obtain ⟨_, _, _, _, rfl⟩ := h; rfl
theorem State.OnlyReports.msixTable (h : s.OnlyReports t) : t.msixTable = s.msixTable := by obtain ⟨_, _, _, _, rfl⟩ := h; rfl
theorem State.OnlyReports.localVerdict (h : s.OnlyReports t) : t.localVerdict = s.localVerdict := by obtain ⟨_, _, _, _, rfl⟩ := h; rfl
theorem State.OnlyReports.localSent (h : s.OnlyReports t) : t.localSent = s.localSent := by obtain ⟨_, _, _, _, rfl⟩ := h; rfl
theorem State.OnlyReports.pastVerdicts (h : s.OnlyReports t) : t.pastVerdicts = s.pastVerdicts := by obtain ⟨_, _, _, _, rfl⟩ := h; rfl
theorem State.OnlyReports.armedAt (h : s.OnlyReports t) : t.armedAt = s.armedAt := by obtain ⟨_, _, _, _, rfl⟩ := h; rfl
theorem State.OnlyReports.reports (h : s.OnlyReports t) : t.reports = s.reports := by obtain ⟨_, _, _, _, rfl⟩ := h; rfl
theorem State.OnlyReports.norms (h : s.OnlyReports t) : t.norms = s.norms := by obtain ⟨_, _, _, _, rfl⟩ := h; rfl
theorem State.OnlyReports.pinOrder (h : s.OnlyReports t) : t.pinOrder = s.pinOrder := by obtain ⟨_, _, _, _, rfl⟩ := h; rfl
theorem State.OnlyReports.dayBuckets (h : s.OnlyReports t) : t.dayBuckets = s.dayBuckets := by obtain ⟨_, _, _, _, rfl⟩ := h; rfl
theorem State.OnlyReports.nandWritten (h : s.OnlyReports t) : t.nandWritten = s.nandWritten := by obtain ⟨_, _, _, _, rfl⟩ := h; rfl
theorem State.OnlyReports.nandLife (h : s.OnlyReports t) : t.nandLife = s.nandLife := by obtain ⟨_, _, _, _, rfl⟩ := h; rfl
theorem State.OnlyReports.unitWrites (h : s.OnlyReports t) : t.unitWrites = s.unitWrites := by obtain ⟨_, _, _, _, rfl⟩ := h; rfl
theorem State.OnlyReports.exportHolds (h : s.OnlyReports t) : t.exportHolds = s.exportHolds := by obtain ⟨_, _, _, _, rfl⟩ := h; rfl
theorem State.OnlyReports.shardsReady (h : s.OnlyReports t) : t.shardsReady = s.shardsReady := by obtain ⟨_, _, _, _, rfl⟩ := h; rfl
theorem State.OnlyReports.buckets (h : s.OnlyReports t) : t.buckets = s.buckets := by obtain ⟨_, _, _, _, rfl⟩ := h; rfl
theorem State.OnlyReports.rebased (h : s.OnlyReports t) : t.rebased = s.rebased := by obtain ⟨_, _, _, _, rfl⟩ := h; rfl
theorem State.OnlyReports.deltas (h : s.OnlyReports t) : t.deltas = s.deltas := by obtain ⟨_, _, _, _, rfl⟩ := h; rfl
theorem State.OnlyReports.nearPorts (h : s.OnlyReports t) : t.nearPorts = s.nearPorts := by obtain ⟨_, _, _, _, rfl⟩ := h; rfl
theorem State.OnlyReports.flows (h : s.OnlyReports t) : t.flows = s.flows := by obtain ⟨_, _, _, _, rfl⟩ := h; rfl
theorem State.OnlyReports.inbox (h : s.OnlyReports t) : t.inbox = s.inbox := by obtain ⟨_, _, _, _, rfl⟩ := h; rfl
theorem State.OnlyReports.owed (h : s.OnlyReports t) : t.owed = s.owed := by obtain ⟨_, _, _, _, rfl⟩ := h; rfl
theorem State.OnlyReports.reduces (h : s.OnlyReports t) : t.reduces = s.reduces := by obtain ⟨_, _, _, _, rfl⟩ := h; rfl
theorem State.OnlyReports.digestRoots (h : s.OnlyReports t) : t.digestRoots = s.digestRoots := by obtain ⟨_, _, _, _, rfl⟩ := h; rfl
theorem State.OnlyReports.digestNodes (h : s.OnlyReports t) : t.digestNodes = s.digestNodes := by obtain ⟨_, _, _, _, rfl⟩ := h; rfl
theorem State.OnlyReports.digestSilent (h : s.OnlyReports t) : t.digestSilent = s.digestSilent := by obtain ⟨_, _, _, _, rfl⟩ := h; rfl
theorem State.OnlyReports.farPorts (h : s.OnlyReports t) : t.farPorts = s.farPorts := by obtain ⟨_, _, _, _, rfl⟩ := h; rfl
theorem State.OnlyReports.recvSlots (h : s.OnlyReports t) : t.recvSlots = s.recvSlots := by obtain ⟨_, _, _, _, rfl⟩ := h; rfl
theorem State.OnlyReports.exchanges (h : s.OnlyReports t) : t.exchanges = s.exchanges := by obtain ⟨_, _, _, _, rfl⟩ := h; rfl
theorem State.OnlyReports.farInbox (h : s.OnlyReports t) : t.farInbox = s.farInbox := by obtain ⟨_, _, _, _, rfl⟩ := h; rfl
theorem State.OnlyReports.joining (h : s.OnlyReports t) : t.joining = s.joining := by obtain ⟨_, _, _, _, rfl⟩ := h; rfl
theorem State.OnlyReports.lastHold (h : s.OnlyReports t) : t.lastHold = s.lastHold := by obtain ⟨_, _, _, _, rfl⟩ := h; rfl
theorem State.OnlyReports.gathers (h : s.OnlyReports t) : t.gathers = s.gathers := by obtain ⟨_, _, _, _, rfl⟩ := h; rfl
theorem State.OnlyReports.feedbacks (h : s.OnlyReports t) : t.feedbacks = s.feedbacks := by obtain ⟨_, _, _, _, rfl⟩ := h; rfl
theorem State.OnlyReports.farTransfers (h : s.OnlyReports t) : t.farTransfers = s.farTransfers := by obtain ⟨_, _, _, _, rfl⟩ := h; rfl
theorem State.OnlyReports.surroundings (h : s.OnlyReports t) : t.surroundings = s.surroundings := by obtain ⟨_, _, _, _, rfl⟩ := h; rfl
theorem State.OnlyReports.cageTries (h : s.OnlyReports t) : t.cageTries = s.cageTries := by obtain ⟨_, _, _, _, rfl⟩ := h; rfl
theorem State.OnlyReports.triedAt (h : s.OnlyReports t) : t.triedAt = s.triedAt := by obtain ⟨_, _, _, _, rfl⟩ := h; rfl
theorem State.OnlyReports.presentAt (h : s.OnlyReports t) : t.presentAt = s.presentAt := by obtain ⟨_, _, _, _, rfl⟩ := h; rfl
end

/-! ### OnlyRecords -/

section
variable {s t u : State}
theorem State.OnlyRecords.refl (s : State) : s.OnlyRecords s := ⟨_, _, _, _, _, _, _, rfl⟩
theorem State.OnlyRecords.trans (h : s.OnlyRecords t) (g : t.OnlyRecords u) : s.OnlyRecords u := by
  obtain ⟨_, _, _, _, _, _, _, rfl⟩ := h; obtain ⟨_, _, _, _, _, _, _, rfl⟩ := g; exact ⟨_, _, _, _, _, _, _, rfl⟩
theorem State.OnlyRecords.pending (h : s.OnlyRecords t) : t.pending = s.pending := by obtain ⟨_, _, _, _, _, _, _, rfl⟩ := h; rfl
theorem State.OnlyRecords.now (h : s.OnlyRecords t) : t.now = s.now := by obtain ⟨_, _, _, _, _, _, _, rfl⟩ := h; rfl
theorem State.OnlyRecords.siteTime (h : s.OnlyRecords t) : t.siteTime = s.siteTime := by obtain ⟨_, _, _, _, _, _, _, rfl⟩ := h; rfl
theorem State.OnlyRecords.timeRuns (h : s.OnlyRecords t) : t.timeRuns = s.timeRuns := by obtain ⟨_, _, _, _, _, _, _, rfl⟩ := h; rfl
theorem State.OnlyRecords.inputOk (h : s.OnlyRecords t) : t.inputOk = s.inputOk := by obtain ⟨_, _, _, _, _, _, _, rfl⟩ := h; rfl
theorem State.OnlyRecords.pwrgood (h : s.OnlyRecords t) : t.pwrgood = s.pwrgood := by obtain ⟨_, _, _, _, _, _, _, rfl⟩ := h; rfl
theorem State.OnlyRecords.perstN (h : s.OnlyRecords t) : t.perstN = s.perstN := by obtain ⟨_, _, _, _, _, _, _, rfl⟩ := h; rfl
theorem State.OnlyRecords.dormantPin (h : s.OnlyRecords t) : t.dormantPin = s.dormantPin := by obtain ⟨_, _, _, _, _, _, _, rfl⟩ := h; rfl
theorem State.OnlyRecords.profilePin (h : s.OnlyRecords t) : t.profilePin = s.profilePin := by obtain ⟨_, _, _, _, _, _, _, rfl⟩ := h; rfl
theorem State.OnlyRecords.locked (h : s.OnlyRecords t) : t.locked = s.locked := by obtain ⟨_, _, _, _, _, _, _, rfl⟩ := h; rfl
theorem State.OnlyRecords.hbm (h : s.OnlyRecords t) : t.hbm = s.hbm := by obtain ⟨_, _, _, _, _, _, _, rfl⟩ := h; rfl
theorem State.OnlyRecords.sram (h : s.OnlyRecords t) : t.sram = s.sram := by obtain ⟨_, _, _, _, _, _, _, rfl⟩ := h; rfl
theorem State.OnlyRecords.isram (h : s.OnlyRecords t) : t.isram = s.isram := by obtain ⟨_, _, _, _, _, _, _, rfl⟩ := h; rfl
theorem State.OnlyRecords.awlBuf (h : s.OnlyRecords t) : t.awlBuf = s.awlBuf := by obtain ⟨_, _, _, _, _, _, _, rfl⟩ := h; rfl
theorem State.OnlyRecords.flash (h : s.OnlyRecords t) : t.flash = s.flash := by obtain ⟨_, _, _, _, _, _, _, rfl⟩ := h; rfl
theorem State.OnlyRecords.nor (h : s.OnlyRecords t) : t.nor = s.nor := by obtain ⟨_, _, _, _, _, _, _, rfl⟩ := h; rfl
theorem State.OnlyRecords.norPart (h : s.OnlyRecords t) : t.norPart = s.norPart := by obtain ⟨_, _, _, _, _, _, _, rfl⟩ := h; rfl
theorem State.OnlyRecords.dies (h : s.OnlyRecords t) : t.dies = s.dies := by obtain ⟨_, _, _, _, _, _, _, rfl⟩ := h; rfl
theorem State.OnlyRecords.sentinels (h : s.OnlyRecords t) : t.sentinels = s.sentinels := by obtain ⟨_, _, _, _, _, _, _, rfl⟩ := h; rfl
theorem State.OnlyRecords.cornerAt (h : s.OnlyRecords t) : t.cornerAt = s.cornerAt := by obtain ⟨_, _, _, _, _, _, _, rfl⟩ := h; rfl
theorem State.OnlyRecords.signals (h : s.OnlyRecords t) : t.signals = s.signals := by obtain ⟨_, _, _, _, _, _, _, rfl⟩ := h; rfl
theorem State.OnlyRecords.notices (h : s.OnlyRecords t) : t.notices = s.notices := by obtain ⟨_, _, _, _, _, _, _, rfl⟩ := h; rfl
theorem State.OnlyRecords.initialised (h : s.OnlyRecords t) : t.initialised = s.initialised := by obtain ⟨_, _, _, _, _, _, _, rfl⟩ := h; rfl
theorem State.OnlyRecords.journalValid (h : s.OnlyRecords t) : t.journalValid = s.journalValid := by obtain ⟨_, _, _, _, _, _, _, rfl⟩ := h; rfl
theorem State.OnlyRecords.journalOpen (h : s.OnlyRecords t) : t.journalOpen = s.journalOpen := by obtain ⟨_, _, _, _, _, _, _, rfl⟩ := h; rfl
theorem State.OnlyRecords.sources (h : s.OnlyRecords t) : t.sources = s.sources := by obtain ⟨_, _, _, _, _, _, _, rfl⟩ := h; rfl
theorem State.OnlyRecords.held (h : s.OnlyRecords t) : t.held = s.held := by obtain ⟨_, _, _, _, _, _, _, rfl⟩ := h; rfl
theorem State.OnlyRecords.covered (h : s.OnlyRecords t) : t.covered = s.covered := by obtain ⟨_, _, _, _, _, _, _, rfl⟩ := h; rfl
theorem State.OnlyRecords.best (h : s.OnlyRecords t) : t.best = s.best := by obtain ⟨_, _, _, _, _, _, _, rfl⟩ := h; rfl
theorem State.OnlyRecords.on (h : s.OnlyRecords t) : t.on = s.on := by obtain ⟨_, _, _, _, _, _, _, rfl⟩ := h; rfl
theorem State.OnlyRecords.rising (h : s.OnlyRecords t) : t.rising = s.rising := by obtain ⟨_, _, _, _, _, _, _, rfl⟩ := h; rfl
theorem State.OnlyRecords.switchOns (h : s.OnlyRecords t) : t.switchOns = s.switchOns := by obtain ⟨_, _, _, _, _, _, _, rfl⟩ := h; rfl
theorem State.OnlyRecords.switchedAt (h : s.OnlyRecords t) : t.switchedAt = s.switchedAt := by obtain ⟨_, _, _, _, _, _, _, rfl⟩ := h; rfl
theorem State.OnlyRecords.domFaults (h : s.OnlyRecords t) : t.domFaults = s.domFaults := by obtain ⟨_, _, _, _, _, _, _, rfl⟩ := h; rfl
theorem State.OnlyRecords.switchOffs (h : s.OnlyRecords t) : t.switchOffs = s.switchOffs := by obtain ⟨_, _, _, _, _, _, _, rfl⟩ := h; rfl
theorem State.OnlyRecords.tripped (h : s.OnlyRecords t) : t.tripped = s.tripped := by obtain ⟨_, _, _, _, _, _, _, rfl⟩ := h; rfl
theorem State.OnlyRecords.coolSince (h : s.OnlyRecords t) : t.coolSince = s.coolSince := by obtain ⟨_, _, _, _, _, _, _, rfl⟩ := h; rfl
theorem State.OnlyRecords.hotInletSince (h : s.OnlyRecords t) : t.hotInletSince = s.hotInletSince := by obtain ⟨_, _, _, _, _, _, _, rfl⟩ := h; rfl
theorem State.OnlyRecords.overSince (h : s.OnlyRecords t) : t.overSince = s.overSince := by obtain ⟨_, _, _, _, _, _, _, rfl⟩ := h; rfl
theorem State.OnlyRecords.coolantTold (h : s.OnlyRecords t) : t.coolantTold = s.coolantTold := by obtain ⟨_, _, _, _, _, _, _, rfl⟩ := h; rfl
theorem State.OnlyRecords.overTold (h : s.OnlyRecords t) : t.overTold = s.overTold := by obtain ⟨_, _, _, _, _, _, _, rfl⟩ := h; rfl
theorem State.OnlyRecords.excessDw (h : s.OnlyRecords t) : t.excessDw = s.excessDw := by obtain ⟨_, _, _, _, _, _, _, rfl⟩ := h; rfl
theorem State.OnlyRecords.retained (h : s.OnlyRecords t) : t.retained = s.retained := by obtain ⟨_, _, _, _, _, _, _, rfl⟩ := h; rfl
theorem State.OnlyRecords.wakeAt (h : s.OnlyRecords t) : t.wakeAt = s.wakeAt := by obtain ⟨_, _, _, _, _, _, _, rfl⟩ := h; rfl
theorem State.OnlyRecords.sensed (h : s.OnlyRecords t) : t.sensed = s.sensed := by obtain ⟨_, _, _, _, _, _, _, rfl⟩ := h; rfl
theorem State.OnlyRecords.failedChannels (h : s.OnlyRecords t) : t.failedChannels = s.failedChannels := by obtain ⟨_, _, _, _, _, _, _, rfl⟩ := h; rfl
theorem State.OnlyRecords.channelReplays (h : s.OnlyRecords t) : t.channelReplays = s.channelReplays := by obtain ⟨_, _, _, _, _, _, _, rfl⟩ := h; rfl
theorem State.OnlyRecords.accessMisses (h : s.OnlyRecords t) : t.accessMisses = s.accessMisses := by obtain ⟨_, _, _, _, _, _, _, rfl⟩ := h; rfl
theorem State.OnlyRecords.fatal (h : s.OnlyRecords t) : t.fatal = s.fatal := by obtain ⟨_, _, _, _, _, _, _, rfl⟩ := h; rfl
theorem State.OnlyRecords.monitors (h : s.OnlyRecords t) : t.monitors = s.monitors := by obtain ⟨_, _, _, _, _, _, _, rfl⟩ := h; rfl
theorem State.OnlyRecords.switchStep (h : s.OnlyRecords t) : t.switchStep = s.switchStep := by obtain ⟨_, _, _, _, _, _, _, rfl⟩ := h; rfl
theorem State.OnlyRecords.pllLocked (h : s.OnlyRecords t) : t.pllLocked = s.pllLocked := by obtain ⟨_, _, _, _, _, _, _, rfl⟩ := h; rfl
theorem State.OnlyRecords.wires (h : s.OnlyRecords t) : t.wires = s.wires := by obtain ⟨_, _, _, _, _, _, _, rfl⟩ := h; rfl
theorem State.OnlyRecords.heldPins (h : s.OnlyRecords t) : t.heldPins = s.heldPins := by obtain ⟨_, _, _, _, _, _, _, rfl⟩ := h; rfl
theorem State.OnlyRecords.crossings (h : s.OnlyRecords t) : t.crossings = s.crossings := by obtain ⟨_, _, _, _, _, _, _, rfl⟩ := h; rfl
theorem State.OnlyRecords.fuses (h : s.OnlyRecords t) : t.fuses = s.fuses := by obtain ⟨_, _, _, _, _, _, _, rfl⟩ := h; rfl
theorem State.OnlyRecords.cak (h : s.OnlyRecords t) : t.cak = s.cak := by obtain ⟨_, _, _, _, _, _, _, rfl⟩ := h; rfl
theorem State.OnlyRecords.kek (h : s.OnlyRecords t) : t.kek = s.kek := by obtain ⟨_, _, _, _, _, _, _, rfl⟩ := h; rfl
theorem State.OnlyRecords.authFails (h : s.OnlyRecords t) : t.authFails = s.authFails := by obtain ⟨_, _, _, _, _, _, _, rfl⟩ := h; rfl
theorem State.OnlyRecords.lockoutAt (h : s.OnlyRecords t) : t.lockoutAt = s.lockoutAt := by obtain ⟨_, _, _, _, _, _, _, rfl⟩ := h; rfl
theorem State.OnlyRecords.noiseFault (h : s.OnlyRecords t) : t.noiseFault = s.noiseFault := by obtain ⟨_, _, _, _, _, _, _, rfl⟩ := h; rfl
theorem State.OnlyRecords.drbgRequests (h : s.OnlyRecords t) : t.drbgRequests = s.drbgRequests := by obtain ⟨_, _, _, _, _, _, _, rfl⟩ := h; rfl
theorem State.OnlyRecords.drawCount (h : s.OnlyRecords t) : t.drawCount = s.drawCount := by obtain ⟨_, _, _, _, _, _, _, rfl⟩ := h; rfl
theorem State.OnlyRecords.firmware (h : s.OnlyRecords t) : t.firmware = s.firmware := by obtain ⟨_, _, _, _, _, _, _, rfl⟩ := h; rfl
theorem State.OnlyRecords.taken (h : s.OnlyRecords t) : t.taken = s.taken := by obtain ⟨_, _, _, _, _, _, _, rfl⟩ := h; rfl
theorem State.OnlyRecords.items (h : s.OnlyRecords t) : t.items = s.items := by obtain ⟨_, _, _, _, _, _, _, rfl⟩ := h; rfl
theorem State.OnlyRecords.decided (h : s.OnlyRecords t) : t.decided = s.decided := by obtain ⟨_, _, _, _, _, _, _, rfl⟩ := h; rfl
theorem State.OnlyRecords.ended (h : s.OnlyRecords t) : t.ended = s.ended := by obtain ⟨_, _, _, _, _, _, _, rfl⟩ := h; rfl
theorem State.OnlyRecords.bookings (h : s.OnlyRecords t) : t.bookings = s.bookings := by obtain ⟨_, _, _, _, _, _, _, rfl⟩ := h; rfl
theorem State.OnlyRecords.reservations (h : s.OnlyRecords t) : t.reservations = s.reservations := by obtain ⟨_, _, _, _, _, _, _, rfl⟩ := h; rfl
theorem State.OnlyRecords.staged (h : s.OnlyRecords t) : t.staged = s.staged := by obtain ⟨_, _, _, _, _, _, _, rfl⟩ := h; rfl
theorem State.OnlyRecords.plans (h : s.OnlyRecords t) : t.plans = s.plans := by obtain ⟨_, _, _, _, _, _, _, rfl⟩ := h; rfl
theorem State.OnlyRecords.msixTable (h : s.OnlyRecords t) : t.msixTable = s.msixTable := by obtain ⟨_, _, _, _, _, _, _, rfl⟩ := h; rfl
theorem State.OnlyRecords.localVerdict (h : s.OnlyRecords t) : t.localVerdict = s.localVerdict := by obtain ⟨_, _, _, _, _, _, _, rfl⟩ := h; rfl
theorem State.OnlyRecords.localSent (h : s.OnlyRecords t) : t.localSent = s.localSent := by obtain ⟨_, _, _, _, _, _, _, rfl⟩ := h; rfl
theorem State.OnlyRecords.pastVerdicts (h : s.OnlyRecords t) : t.pastVerdicts = s.pastVerdicts := by obtain ⟨_, _, _, _, _, _, _, rfl⟩ := h; rfl
theorem State.OnlyRecords.armedAt (h : s.OnlyRecords t) : t.armedAt = s.armedAt := by obtain ⟨_, _, _, _, _, _, _, rfl⟩ := h; rfl
theorem State.OnlyRecords.reports (h : s.OnlyRecords t) : t.reports = s.reports := by obtain ⟨_, _, _, _, _, _, _, rfl⟩ := h; rfl
theorem State.OnlyRecords.norms (h : s.OnlyRecords t) : t.norms = s.norms := by obtain ⟨_, _, _, _, _, _, _, rfl⟩ := h; rfl
theorem State.OnlyRecords.pinOrder (h : s.OnlyRecords t) : t.pinOrder = s.pinOrder := by obtain ⟨_, _, _, _, _, _, _, rfl⟩ := h; rfl
theorem State.OnlyRecords.dayBuckets (h : s.OnlyRecords t) : t.dayBuckets = s.dayBuckets := by obtain ⟨_, _, _, _, _, _, _, rfl⟩ := h; rfl
theorem State.OnlyRecords.nandWritten (h : s.OnlyRecords t) : t.nandWritten = s.nandWritten := by obtain ⟨_, _, _, _, _, _, _, rfl⟩ := h; rfl
theorem State.OnlyRecords.nandLife (h : s.OnlyRecords t) : t.nandLife = s.nandLife := by obtain ⟨_, _, _, _, _, _, _, rfl⟩ := h; rfl
theorem State.OnlyRecords.unitWrites (h : s.OnlyRecords t) : t.unitWrites = s.unitWrites := by obtain ⟨_, _, _, _, _, _, _, rfl⟩ := h; rfl
theorem State.OnlyRecords.exportHolds (h : s.OnlyRecords t) : t.exportHolds = s.exportHolds := by obtain ⟨_, _, _, _, _, _, _, rfl⟩ := h; rfl
theorem State.OnlyRecords.shardsReady (h : s.OnlyRecords t) : t.shardsReady = s.shardsReady := by obtain ⟨_, _, _, _, _, _, _, rfl⟩ := h; rfl
theorem State.OnlyRecords.buckets (h : s.OnlyRecords t) : t.buckets = s.buckets := by obtain ⟨_, _, _, _, _, _, _, rfl⟩ := h; rfl
theorem State.OnlyRecords.rebased (h : s.OnlyRecords t) : t.rebased = s.rebased := by obtain ⟨_, _, _, _, _, _, _, rfl⟩ := h; rfl
theorem State.OnlyRecords.deltas (h : s.OnlyRecords t) : t.deltas = s.deltas := by obtain ⟨_, _, _, _, _, _, _, rfl⟩ := h; rfl
theorem State.OnlyRecords.nearPorts (h : s.OnlyRecords t) : t.nearPorts = s.nearPorts := by obtain ⟨_, _, _, _, _, _, _, rfl⟩ := h; rfl
theorem State.OnlyRecords.flows (h : s.OnlyRecords t) : t.flows = s.flows := by obtain ⟨_, _, _, _, _, _, _, rfl⟩ := h; rfl
theorem State.OnlyRecords.inbox (h : s.OnlyRecords t) : t.inbox = s.inbox := by obtain ⟨_, _, _, _, _, _, _, rfl⟩ := h; rfl
theorem State.OnlyRecords.owed (h : s.OnlyRecords t) : t.owed = s.owed := by obtain ⟨_, _, _, _, _, _, _, rfl⟩ := h; rfl
theorem State.OnlyRecords.reduces (h : s.OnlyRecords t) : t.reduces = s.reduces := by obtain ⟨_, _, _, _, _, _, _, rfl⟩ := h; rfl
theorem State.OnlyRecords.digestRoots (h : s.OnlyRecords t) : t.digestRoots = s.digestRoots := by obtain ⟨_, _, _, _, _, _, _, rfl⟩ := h; rfl
theorem State.OnlyRecords.digestNodes (h : s.OnlyRecords t) : t.digestNodes = s.digestNodes := by obtain ⟨_, _, _, _, _, _, _, rfl⟩ := h; rfl
theorem State.OnlyRecords.digestSilent (h : s.OnlyRecords t) : t.digestSilent = s.digestSilent := by obtain ⟨_, _, _, _, _, _, _, rfl⟩ := h; rfl
theorem State.OnlyRecords.farPorts (h : s.OnlyRecords t) : t.farPorts = s.farPorts := by obtain ⟨_, _, _, _, _, _, _, rfl⟩ := h; rfl
theorem State.OnlyRecords.recvSlots (h : s.OnlyRecords t) : t.recvSlots = s.recvSlots := by obtain ⟨_, _, _, _, _, _, _, rfl⟩ := h; rfl
theorem State.OnlyRecords.exchanges (h : s.OnlyRecords t) : t.exchanges = s.exchanges := by obtain ⟨_, _, _, _, _, _, _, rfl⟩ := h; rfl
theorem State.OnlyRecords.farInbox (h : s.OnlyRecords t) : t.farInbox = s.farInbox := by obtain ⟨_, _, _, _, _, _, _, rfl⟩ := h; rfl
theorem State.OnlyRecords.joining (h : s.OnlyRecords t) : t.joining = s.joining := by obtain ⟨_, _, _, _, _, _, _, rfl⟩ := h; rfl
theorem State.OnlyRecords.lastHold (h : s.OnlyRecords t) : t.lastHold = s.lastHold := by obtain ⟨_, _, _, _, _, _, _, rfl⟩ := h; rfl
theorem State.OnlyRecords.gathers (h : s.OnlyRecords t) : t.gathers = s.gathers := by obtain ⟨_, _, _, _, _, _, _, rfl⟩ := h; rfl
theorem State.OnlyRecords.feedbacks (h : s.OnlyRecords t) : t.feedbacks = s.feedbacks := by obtain ⟨_, _, _, _, _, _, _, rfl⟩ := h; rfl
theorem State.OnlyRecords.farTransfers (h : s.OnlyRecords t) : t.farTransfers = s.farTransfers := by obtain ⟨_, _, _, _, _, _, _, rfl⟩ := h; rfl
theorem State.OnlyRecords.surroundings (h : s.OnlyRecords t) : t.surroundings = s.surroundings := by obtain ⟨_, _, _, _, _, _, _, rfl⟩ := h; rfl
theorem State.OnlyRecords.cageTries (h : s.OnlyRecords t) : t.cageTries = s.cageTries := by obtain ⟨_, _, _, _, _, _, _, rfl⟩ := h; rfl
theorem State.OnlyRecords.triedAt (h : s.OnlyRecords t) : t.triedAt = s.triedAt := by obtain ⟨_, _, _, _, _, _, _, rfl⟩ := h; rfl
theorem State.OnlyRecords.presentAt (h : s.OnlyRecords t) : t.presentAt = s.presentAt := by obtain ⟨_, _, _, _, _, _, _, rfl⟩ := h; rfl
theorem State.OnlyReports.weaken (h : s.OnlyReports t) : s.OnlyRecords t := by obtain ⟨_, _, _, _, rfl⟩ := h; exact ⟨_, _, _, _, _, _, _, rfl⟩
end

/-! ### OnlyDecides -/

section
variable {s t u : State}
theorem State.OnlyDecides.refl (s : State) : s.OnlyDecides s := ⟨_, _, _, _, _, _, _, _, _, _, _, _, _, _, _, _, _, _, _, rfl, rfl, rfl, rfl⟩
theorem State.OnlyDecides.trans (h : s.OnlyDecides t) (g : t.OnlyDecides u) : s.OnlyDecides u := by
  obtain ⟨_, _, _, _, _, _, _, _, _, _, _, _, _, _, _, _, _, _, _, rfl, e, ey, ew⟩ := h; obtain ⟨_, _, _, _, _, _, _, _, _, _, _, _, _, _, _, _, _, _, _, rfl, e2, ey2, ew2⟩ := g; exact ⟨_, _, _, _, _, _, _, _, _, _, _, _, _, _, _, _, _, _, _, rfl, e2.trans e, ey2.trans ey, ew2.trans ew⟩
theorem State.OnlyDecides.pending (h : s.OnlyDecides t) : t.pending = s.pending := by obtain ⟨_, _, _, _, _, _, _, _, _, _, _, _, _, _, _, _, _, _, _, rfl, e, ey, ew⟩ := h; rfl
theorem State.OnlyDecides.now (h : s.OnlyDecides t) : t.now = s.now := by obtain ⟨_, _, _, _, _, _, _, _, _, _, _, _, _, _, _, _, _, _, _, rfl, e, ey, ew⟩ := h; rfl
theorem State.OnlyDecides.siteTime (h : s.OnlyDecides t) : t.siteTime = s.siteTime := by obtain ⟨_, _, _, _, _, _, _, _, _, _, _, _, _, _, _, _, _, _, _, rfl, e, ey, ew⟩ := h; rfl
theorem State.OnlyDecides.timeRuns (h : s.OnlyDecides t) : t.timeRuns = s.timeRuns := by obtain ⟨_, _, _, _, _, _, _, _, _, _, _, _, _, _, _, _, _, _, _, rfl, e, ey, ew⟩ := h; rfl
theorem State.OnlyDecides.inputOk (h : s.OnlyDecides t) : t.inputOk = s.inputOk := by obtain ⟨_, _, _, _, _, _, _, _, _, _, _, _, _, _, _, _, _, _, _, rfl, e, ey, ew⟩ := h; rfl
theorem State.OnlyDecides.pwrgood (h : s.OnlyDecides t) : t.pwrgood = s.pwrgood := by obtain ⟨_, _, _, _, _, _, _, _, _, _, _, _, _, _, _, _, _, _, _, rfl, e, ey, ew⟩ := h; rfl
theorem State.OnlyDecides.perstN (h : s.OnlyDecides t) : t.perstN = s.perstN := by obtain ⟨_, _, _, _, _, _, _, _, _, _, _, _, _, _, _, _, _, _, _, rfl, e, ey, ew⟩ := h; rfl
theorem State.OnlyDecides.dormantPin (h : s.OnlyDecides t) : t.dormantPin = s.dormantPin := by obtain ⟨_, _, _, _, _, _, _, _, _, _, _, _, _, _, _, _, _, _, _, rfl, e, ey, ew⟩ := h; rfl
theorem State.OnlyDecides.profilePin (h : s.OnlyDecides t) : t.profilePin = s.profilePin := by obtain ⟨_, _, _, _, _, _, _, _, _, _, _, _, _, _, _, _, _, _, _, rfl, e, ey, ew⟩ := h; rfl
theorem State.OnlyDecides.locked (h : s.OnlyDecides t) : t.locked = s.locked := by obtain ⟨_, _, _, _, _, _, _, _, _, _, _, _, _, _, _, _, _, _, _, rfl, e, ey, ew⟩ := h; rfl
theorem State.OnlyDecides.hbm (h : s.OnlyDecides t) : t.hbm = s.hbm := by obtain ⟨_, _, _, _, _, _, _, _, _, _, _, _, _, _, _, _, _, _, _, rfl, e, ey, ew⟩ := h; rfl
theorem State.OnlyDecides.sram (h : s.OnlyDecides t) : t.sram = s.sram := by obtain ⟨_, _, _, _, _, _, _, _, _, _, _, _, _, _, _, _, _, _, _, rfl, e, ey, ew⟩ := h; rfl
theorem State.OnlyDecides.isram (h : s.OnlyDecides t) : t.isram = s.isram := by obtain ⟨_, _, _, _, _, _, _, _, _, _, _, _, _, _, _, _, _, _, _, rfl, e, ey, ew⟩ := h; rfl
theorem State.OnlyDecides.awlBuf (h : s.OnlyDecides t) : t.awlBuf = s.awlBuf := by obtain ⟨_, _, _, _, _, _, _, _, _, _, _, _, _, _, _, _, _, _, _, rfl, e, ey, ew⟩ := h; rfl
theorem State.OnlyDecides.flash (h : s.OnlyDecides t) : t.flash = s.flash := by obtain ⟨_, _, _, _, _, _, _, _, _, _, _, _, _, _, _, _, _, _, _, rfl, e, ey, ew⟩ := h; rfl
theorem State.OnlyDecides.nor (h : s.OnlyDecides t) : t.nor = s.nor := by obtain ⟨_, _, _, _, _, _, _, _, _, _, _, _, _, _, _, _, _, _, _, rfl, e, ey, ew⟩ := h; rfl
theorem State.OnlyDecides.norPart (h : s.OnlyDecides t) : t.norPart = s.norPart := by obtain ⟨_, _, _, _, _, _, _, _, _, _, _, _, _, _, _, _, _, _, _, rfl, e, ey, ew⟩ := h; rfl
theorem State.OnlyDecides.sentinels (h : s.OnlyDecides t) : t.sentinels = s.sentinels := by obtain ⟨_, _, _, _, _, _, _, _, _, _, _, _, _, _, _, _, _, _, _, rfl, e, ey, ew⟩ := h; rfl
theorem State.OnlyDecides.cornerAt (h : s.OnlyDecides t) : t.cornerAt = s.cornerAt := by obtain ⟨_, _, _, _, _, _, _, _, _, _, _, _, _, _, _, _, _, _, _, rfl, e, ey, ew⟩ := h; rfl
theorem State.OnlyDecides.signals (h : s.OnlyDecides t) : t.signals = s.signals := by obtain ⟨_, _, _, _, _, _, _, _, _, _, _, _, _, _, _, _, _, _, _, rfl, e, ey, ew⟩ := h; rfl
theorem State.OnlyDecides.notices (h : s.OnlyDecides t) : t.notices = s.notices := by obtain ⟨_, _, _, _, _, _, _, _, _, _, _, _, _, _, _, _, _, _, _, rfl, e, ey, ew⟩ := h; rfl
theorem State.OnlyDecides.initialised (h : s.OnlyDecides t) : t.initialised = s.initialised := by obtain ⟨_, _, _, _, _, _, _, _, _, _, _, _, _, _, _, _, _, _, _, rfl, e, ey, ew⟩ := h; rfl
theorem State.OnlyDecides.journalValid (h : s.OnlyDecides t) : t.journalValid = s.journalValid := by obtain ⟨_, _, _, _, _, _, _, _, _, _, _, _, _, _, _, _, _, _, _, rfl, e, ey, ew⟩ := h; rfl
theorem State.OnlyDecides.journalOpen (h : s.OnlyDecides t) : t.journalOpen = s.journalOpen := by obtain ⟨_, _, _, _, _, _, _, _, _, _, _, _, _, _, _, _, _, _, _, rfl, e, ey, ew⟩ := h; rfl
theorem State.OnlyDecides.sources (h : s.OnlyDecides t) : t.sources = s.sources := by obtain ⟨_, _, _, _, _, _, _, _, _, _, _, _, _, _, _, _, _, _, _, rfl, e, ey, ew⟩ := h; rfl
theorem State.OnlyDecides.held (h : s.OnlyDecides t) : t.held = s.held := by obtain ⟨_, _, _, _, _, _, _, _, _, _, _, _, _, _, _, _, _, _, _, rfl, e, ey, ew⟩ := h; rfl
theorem State.OnlyDecides.covered (h : s.OnlyDecides t) : t.covered = s.covered := by obtain ⟨_, _, _, _, _, _, _, _, _, _, _, _, _, _, _, _, _, _, _, rfl, e, ey, ew⟩ := h; rfl
theorem State.OnlyDecides.best (h : s.OnlyDecides t) : t.best = s.best := by obtain ⟨_, _, _, _, _, _, _, _, _, _, _, _, _, _, _, _, _, _, _, rfl, e, ey, ew⟩ := h; rfl
theorem State.OnlyDecides.on (h : s.OnlyDecides t) : t.on = s.on := by obtain ⟨_, _, _, _, _, _, _, _, _, _, _, _, _, _, _, _, _, _, _, rfl, e, ey, ew⟩ := h; rfl
theorem State.OnlyDecides.rising (h : s.OnlyDecides t) : t.rising = s.rising := by obtain ⟨_, _, _, _, _, _, _, _, _, _, _, _, _, _, _, _, _, _, _, rfl, e, ey, ew⟩ := h; rfl
theorem State.OnlyDecides.switchOns (h : s.OnlyDecides t) : t.switchOns = s.switchOns := by obtain ⟨_, _, _, _, _, _, _, _, _, _, _, _, _, _, _, _, _, _, _, rfl, e, ey, ew⟩ := h; rfl
theorem State.OnlyDecides.switchedAt (h : s.OnlyDecides t) : t.switchedAt = s.switchedAt := by obtain ⟨_, _, _, _, _, _, _, _, _, _, _, _, _, _, _, _, _, _, _, rfl, e, ey, ew⟩ := h; rfl
theorem State.OnlyDecides.domFaults (h : s.OnlyDecides t) : t.domFaults = s.domFaults := by obtain ⟨_, _, _, _, _, _, _, _, _, _, _, _, _, _, _, _, _, _, _, rfl, e, ey, ew⟩ := h; rfl
theorem State.OnlyDecides.switchOffs (h : s.OnlyDecides t) : t.switchOffs = s.switchOffs := by obtain ⟨_, _, _, _, _, _, _, _, _, _, _, _, _, _, _, _, _, _, _, rfl, e, ey, ew⟩ := h; rfl
theorem State.OnlyDecides.tripped (h : s.OnlyDecides t) : t.tripped = s.tripped := by obtain ⟨_, _, _, _, _, _, _, _, _, _, _, _, _, _, _, _, _, _, _, rfl, e, ey, ew⟩ := h; rfl
theorem State.OnlyDecides.coolSince (h : s.OnlyDecides t) : t.coolSince = s.coolSince := by obtain ⟨_, _, _, _, _, _, _, _, _, _, _, _, _, _, _, _, _, _, _, rfl, e, ey, ew⟩ := h; rfl
theorem State.OnlyDecides.hotInletSince (h : s.OnlyDecides t) : t.hotInletSince = s.hotInletSince := by obtain ⟨_, _, _, _, _, _, _, _, _, _, _, _, _, _, _, _, _, _, _, rfl, e, ey, ew⟩ := h; rfl
theorem State.OnlyDecides.overSince (h : s.OnlyDecides t) : t.overSince = s.overSince := by obtain ⟨_, _, _, _, _, _, _, _, _, _, _, _, _, _, _, _, _, _, _, rfl, e, ey, ew⟩ := h; rfl
theorem State.OnlyDecides.coolantTold (h : s.OnlyDecides t) : t.coolantTold = s.coolantTold := by obtain ⟨_, _, _, _, _, _, _, _, _, _, _, _, _, _, _, _, _, _, _, rfl, e, ey, ew⟩ := h; rfl
theorem State.OnlyDecides.overTold (h : s.OnlyDecides t) : t.overTold = s.overTold := by obtain ⟨_, _, _, _, _, _, _, _, _, _, _, _, _, _, _, _, _, _, _, rfl, e, ey, ew⟩ := h; rfl
theorem State.OnlyDecides.excessDw (h : s.OnlyDecides t) : t.excessDw = s.excessDw := by obtain ⟨_, _, _, _, _, _, _, _, _, _, _, _, _, _, _, _, _, _, _, rfl, e, ey, ew⟩ := h; rfl
theorem State.OnlyDecides.retained (h : s.OnlyDecides t) : t.retained = s.retained := by obtain ⟨_, _, _, _, _, _, _, _, _, _, _, _, _, _, _, _, _, _, _, rfl, e, ey, ew⟩ := h; rfl
theorem State.OnlyDecides.wakeAt (h : s.OnlyDecides t) : t.wakeAt = s.wakeAt := by obtain ⟨_, _, _, _, _, _, _, _, _, _, _, _, _, _, _, _, _, _, _, rfl, e, ey, ew⟩ := h; rfl
theorem State.OnlyDecides.sensed (h : s.OnlyDecides t) : t.sensed = s.sensed := by obtain ⟨_, _, _, _, _, _, _, _, _, _, _, _, _, _, _, _, _, _, _, rfl, e, ey, ew⟩ := h; rfl
theorem State.OnlyDecides.failedChannels (h : s.OnlyDecides t) : t.failedChannels = s.failedChannels := by obtain ⟨_, _, _, _, _, _, _, _, _, _, _, _, _, _, _, _, _, _, _, rfl, e, ey, ew⟩ := h; rfl
theorem State.OnlyDecides.channelReplays (h : s.OnlyDecides t) : t.channelReplays = s.channelReplays := by obtain ⟨_, _, _, _, _, _, _, _, _, _, _, _, _, _, _, _, _, _, _, rfl, e, ey, ew⟩ := h; rfl
theorem State.OnlyDecides.accessMisses (h : s.OnlyDecides t) : t.accessMisses = s.accessMisses := by obtain ⟨_, _, _, _, _, _, _, _, _, _, _, _, _, _, _, _, _, _, _, rfl, e, ey, ew⟩ := h; rfl
theorem State.OnlyDecides.fatal (h : s.OnlyDecides t) : t.fatal = s.fatal := by obtain ⟨_, _, _, _, _, _, _, _, _, _, _, _, _, _, _, _, _, _, _, rfl, e, ey, ew⟩ := h; rfl
theorem State.OnlyDecides.monitors (h : s.OnlyDecides t) : t.monitors = s.monitors := by obtain ⟨_, _, _, _, _, _, _, _, _, _, _, _, _, _, _, _, _, _, _, rfl, e, ey, ew⟩ := h; rfl
theorem State.OnlyDecides.switchStep (h : s.OnlyDecides t) : t.switchStep = s.switchStep := by obtain ⟨_, _, _, _, _, _, _, _, _, _, _, _, _, _, _, _, _, _, _, rfl, e, ey, ew⟩ := h; rfl
theorem State.OnlyDecides.pllLocked (h : s.OnlyDecides t) : t.pllLocked = s.pllLocked := by obtain ⟨_, _, _, _, _, _, _, _, _, _, _, _, _, _, _, _, _, _, _, rfl, e, ey, ew⟩ := h; rfl
theorem State.OnlyDecides.wires (h : s.OnlyDecides t) : t.wires = s.wires := by obtain ⟨_, _, _, _, _, _, _, _, _, _, _, _, _, _, _, _, _, _, _, rfl, e, ey, ew⟩ := h; rfl
theorem State.OnlyDecides.heldPins (h : s.OnlyDecides t) : t.heldPins = s.heldPins := by obtain ⟨_, _, _, _, _, _, _, _, _, _, _, _, _, _, _, _, _, _, _, rfl, e, ey, ew⟩ := h; rfl
theorem State.OnlyDecides.crossings (h : s.OnlyDecides t) : t.crossings = s.crossings := by obtain ⟨_, _, _, _, _, _, _, _, _, _, _, _, _, _, _, _, _, _, _, rfl, e, ey, ew⟩ := h; rfl
theorem State.OnlyDecides.fuses (h : s.OnlyDecides t) : t.fuses = s.fuses := by obtain ⟨_, _, _, _, _, _, _, _, _, _, _, _, _, _, _, _, _, _, _, rfl, e, ey, ew⟩ := h; rfl
theorem State.OnlyDecides.cak (h : s.OnlyDecides t) : t.cak = s.cak := by obtain ⟨_, _, _, _, _, _, _, _, _, _, _, _, _, _, _, _, _, _, _, rfl, e, ey, ew⟩ := h; rfl
theorem State.OnlyDecides.kek (h : s.OnlyDecides t) : t.kek = s.kek := by obtain ⟨_, _, _, _, _, _, _, _, _, _, _, _, _, _, _, _, _, _, _, rfl, e, ey, ew⟩ := h; rfl
theorem State.OnlyDecides.noiseFault (h : s.OnlyDecides t) : t.noiseFault = s.noiseFault := by obtain ⟨_, _, _, _, _, _, _, _, _, _, _, _, _, _, _, _, _, _, _, rfl, e, ey, ew⟩ := h; rfl
theorem State.OnlyDecides.drbgRequests (h : s.OnlyDecides t) : t.drbgRequests = s.drbgRequests := by obtain ⟨_, _, _, _, _, _, _, _, _, _, _, _, _, _, _, _, _, _, _, rfl, e, ey, ew⟩ := h; rfl
theorem State.OnlyDecides.drawCount (h : s.OnlyDecides t) : t.drawCount = s.drawCount := by obtain ⟨_, _, _, _, _, _, _, _, _, _, _, _, _, _, _, _, _, _, _, rfl, e, ey, ew⟩ := h; rfl
theorem State.OnlyDecides.firmware (h : s.OnlyDecides t) : t.firmware = s.firmware := by obtain ⟨_, _, _, _, _, _, _, _, _, _, _, _, _, _, _, _, _, _, _, rfl, e, ey, ew⟩ := h; rfl
theorem State.OnlyDecides.ended (h : s.OnlyDecides t) : t.ended = s.ended := by obtain ⟨_, _, _, _, _, _, _, _, _, _, _, _, _, _, _, _, _, _, _, rfl, e, ey, ew⟩ := h; rfl
theorem State.OnlyDecides.plans (h : s.OnlyDecides t) : t.plans = s.plans := by obtain ⟨_, _, _, _, _, _, _, _, _, _, _, _, _, _, _, _, _, _, _, rfl, e, ey, ew⟩ := h; rfl
theorem State.OnlyDecides.msixTable (h : s.OnlyDecides t) : t.msixTable = s.msixTable := by obtain ⟨_, _, _, _, _, _, _, _, _, _, _, _, _, _, _, _, _, _, _, rfl, e, ey, ew⟩ := h; rfl
theorem State.OnlyDecides.localVerdict (h : s.OnlyDecides t) : t.localVerdict = s.localVerdict := by obtain ⟨_, _, _, _, _, _, _, _, _, _, _, _, _, _, _, _, _, _, _, rfl, e, ey, ew⟩ := h; rfl
theorem State.OnlyDecides.localSent (h : s.OnlyDecides t) : t.localSent = s.localSent := by obtain ⟨_, _, _, _, _, _, _, _, _, _, _, _, _, _, _, _, _, _, _, rfl, e, ey, ew⟩ := h; rfl
theorem State.OnlyDecides.pastVerdicts (h : s.OnlyDecides t) : t.pastVerdicts = s.pastVerdicts := by obtain ⟨_, _, _, _, _, _, _, _, _, _, _, _, _, _, _, _, _, _, _, rfl, e, ey, ew⟩ := h; rfl
theorem State.OnlyDecides.armedAt (h : s.OnlyDecides t) : t.armedAt = s.armedAt := by obtain ⟨_, _, _, _, _, _, _, _, _, _, _, _, _, _, _, _, _, _, _, rfl, e, ey, ew⟩ := h; rfl
theorem State.OnlyDecides.reports (h : s.OnlyDecides t) : t.reports = s.reports := by obtain ⟨_, _, _, _, _, _, _, _, _, _, _, _, _, _, _, _, _, _, _, rfl, e, ey, ew⟩ := h; rfl
theorem State.OnlyDecides.norms (h : s.OnlyDecides t) : t.norms = s.norms := by obtain ⟨_, _, _, _, _, _, _, _, _, _, _, _, _, _, _, _, _, _, _, rfl, e, ey, ew⟩ := h; rfl
theorem State.OnlyDecides.pinOrder (h : s.OnlyDecides t) : t.pinOrder = s.pinOrder := by obtain ⟨_, _, _, _, _, _, _, _, _, _, _, _, _, _, _, _, _, _, _, rfl, e, ey, ew⟩ := h; rfl
theorem State.OnlyDecides.dayBuckets (h : s.OnlyDecides t) : t.dayBuckets = s.dayBuckets := by obtain ⟨_, _, _, _, _, _, _, _, _, _, _, _, _, _, _, _, _, _, _, rfl, e, ey, ew⟩ := h; rfl
theorem State.OnlyDecides.nandWritten (h : s.OnlyDecides t) : t.nandWritten = s.nandWritten := by obtain ⟨_, _, _, _, _, _, _, _, _, _, _, _, _, _, _, _, _, _, _, rfl, e, ey, ew⟩ := h; rfl
theorem State.OnlyDecides.nandLife (h : s.OnlyDecides t) : t.nandLife = s.nandLife := by obtain ⟨_, _, _, _, _, _, _, _, _, _, _, _, _, _, _, _, _, _, _, rfl, e, ey, ew⟩ := h; rfl
theorem State.OnlyDecides.unitWrites (h : s.OnlyDecides t) : t.unitWrites = s.unitWrites := by obtain ⟨_, _, _, _, _, _, _, _, _, _, _, _, _, _, _, _, _, _, _, rfl, e, ey, ew⟩ := h; rfl
theorem State.OnlyDecides.shardsReady (h : s.OnlyDecides t) : t.shardsReady = s.shardsReady := by obtain ⟨_, _, _, _, _, _, _, _, _, _, _, _, _, _, _, _, _, _, _, rfl, e, ey, ew⟩ := h; rfl
theorem State.OnlyDecides.buckets (h : s.OnlyDecides t) : t.buckets = s.buckets := by obtain ⟨_, _, _, _, _, _, _, _, _, _, _, _, _, _, _, _, _, _, _, rfl, e, ey, ew⟩ := h; rfl
theorem State.OnlyDecides.rebased (h : s.OnlyDecides t) : t.rebased = s.rebased := by obtain ⟨_, _, _, _, _, _, _, _, _, _, _, _, _, _, _, _, _, _, _, rfl, e, ey, ew⟩ := h; rfl
theorem State.OnlyDecides.deltas (h : s.OnlyDecides t) : t.deltas = s.deltas := by obtain ⟨_, _, _, _, _, _, _, _, _, _, _, _, _, _, _, _, _, _, _, rfl, e, ey, ew⟩ := h; rfl
theorem State.OnlyDecides.nearPorts (h : s.OnlyDecides t) : t.nearPorts = s.nearPorts := by obtain ⟨_, _, _, _, _, _, _, _, _, _, _, _, _, _, _, _, _, _, _, rfl, e, ey, ew⟩ := h; rfl
theorem State.OnlyDecides.flows (h : s.OnlyDecides t) : t.flows = s.flows := by obtain ⟨_, _, _, _, _, _, _, _, _, _, _, _, _, _, _, _, _, _, _, rfl, e, ey, ew⟩ := h; rfl
theorem State.OnlyDecides.inbox (h : s.OnlyDecides t) : t.inbox = s.inbox := by obtain ⟨_, _, _, _, _, _, _, _, _, _, _, _, _, _, _, _, _, _, _, rfl, e, ey, ew⟩ := h; rfl
theorem State.OnlyDecides.owed (h : s.OnlyDecides t) : t.owed = s.owed := by obtain ⟨_, _, _, _, _, _, _, _, _, _, _, _, _, _, _, _, _, _, _, rfl, e, ey, ew⟩ := h; rfl
theorem State.OnlyDecides.digestRoots (h : s.OnlyDecides t) : t.digestRoots = s.digestRoots := by obtain ⟨_, _, _, _, _, _, _, _, _, _, _, _, _, _, _, _, _, _, _, rfl, e, ey, ew⟩ := h; rfl
theorem State.OnlyDecides.digestNodes (h : s.OnlyDecides t) : t.digestNodes = s.digestNodes := by obtain ⟨_, _, _, _, _, _, _, _, _, _, _, _, _, _, _, _, _, _, _, rfl, e, ey, ew⟩ := h; rfl
theorem State.OnlyDecides.digestSilent (h : s.OnlyDecides t) : t.digestSilent = s.digestSilent := by obtain ⟨_, _, _, _, _, _, _, _, _, _, _, _, _, _, _, _, _, _, _, rfl, e, ey, ew⟩ := h; rfl
theorem State.OnlyDecides.recvSlots (h : s.OnlyDecides t) : t.recvSlots = s.recvSlots := by obtain ⟨_, _, _, _, _, _, _, _, _, _, _, _, _, _, _, _, _, _, _, rfl, e, ey, ew⟩ := h; rfl
theorem State.OnlyDecides.exchanges (h : s.OnlyDecides t) : t.exchanges = s.exchanges := by obtain ⟨_, _, _, _, _, _, _, _, _, _, _, _, _, _, _, _, _, _, _, rfl, e, ey, ew⟩ := h; rfl
theorem State.OnlyDecides.farInbox (h : s.OnlyDecides t) : t.farInbox = s.farInbox := by obtain ⟨_, _, _, _, _, _, _, _, _, _, _, _, _, _, _, _, _, _, _, rfl, e, ey, ew⟩ := h; rfl
theorem State.OnlyDecides.joining (h : s.OnlyDecides t) : t.joining = s.joining := by obtain ⟨_, _, _, _, _, _, _, _, _, _, _, _, _, _, _, _, _, _, _, rfl, e, ey, ew⟩ := h; rfl
theorem State.OnlyDecides.lastHold (h : s.OnlyDecides t) : t.lastHold = s.lastHold := by obtain ⟨_, _, _, _, _, _, _, _, _, _, _, _, _, _, _, _, _, _, _, rfl, e, ey, ew⟩ := h; rfl
theorem State.OnlyDecides.gathers (h : s.OnlyDecides t) : t.gathers = s.gathers := by obtain ⟨_, _, _, _, _, _, _, _, _, _, _, _, _, _, _, _, _, _, _, rfl, e, ey, ew⟩ := h; rfl
theorem State.OnlyDecides.feedbacks (h : s.OnlyDecides t) : t.feedbacks = s.feedbacks := by obtain ⟨_, _, _, _, _, _, _, _, _, _, _, _, _, _, _, _, _, _, _, rfl, e, ey, ew⟩ := h; rfl
theorem State.OnlyDecides.farTransfers (h : s.OnlyDecides t) : t.farTransfers = s.farTransfers := by obtain ⟨_, _, _, _, _, _, _, _, _, _, _, _, _, _, _, _, _, _, _, rfl, e, ey, ew⟩ := h; rfl
theorem State.OnlyDecides.surroundings (h : s.OnlyDecides t) : t.surroundings = s.surroundings := by obtain ⟨_, _, _, _, _, _, _, _, _, _, _, _, _, _, _, _, _, _, _, rfl, e, ey, ew⟩ := h; rfl
theorem State.OnlyDecides.cageTries (h : s.OnlyDecides t) : t.cageTries = s.cageTries := by obtain ⟨_, _, _, _, _, _, _, _, _, _, _, _, _, _, _, _, _, _, _, rfl, e, ey, ew⟩ := h; rfl
theorem State.OnlyDecides.triedAt (h : s.OnlyDecides t) : t.triedAt = s.triedAt := by obtain ⟨_, _, _, _, _, _, _, _, _, _, _, _, _, _, _, _, _, _, _, rfl, e, ey, ew⟩ := h; rfl
theorem State.OnlyDecides.presentAt (h : s.OnlyDecides t) : t.presentAt = s.presentAt := by obtain ⟨_, _, _, _, _, _, _, _, _, _, _, _, _, _, _, _, _, _, _, rfl, e, ey, ew⟩ := h; rfl
theorem State.OnlyRecords.weaken (h : s.OnlyRecords t) : s.OnlyDecides t := by obtain ⟨_, _, _, _, _, _, _, rfl⟩ := h; exact ⟨_, _, _, _, _, _, _, _, _, _, _, _, _, _, _, _, _, _, _, rfl, rfl, rfl, rfl⟩
end

/-! ### Operations that report -/

namespace State

theorem setReg_only (s : State) (a v : Nat) : s.OnlyReports (s.setReg a v) := ⟨_, _, _, _, rfl⟩
theorem setField_only (s : State) (a h l v : Nat) : s.OnlyReports (s.setField a h l v) := ⟨_, _, _, _, rfl⟩
theorem count_only (s : State) (a n : Nat) : s.OnlyReports (s.count a n) := ⟨_, _, _, _, rfl⟩
theorem count64_only (s : State) (a n : Nat) : s.OnlyReports (s.count64 a n) := ⟨_, _, _, _, rfl⟩
theorem emit_only (s : State) (e : Emitted) : s.OnlyReports (s.emit e) := ⟨_, _, _, _, rfl⟩
theorem modRec_only (s : State) (f : Recorder → Recorder) : s.OnlyReports (s.modRec f) := ⟨_, _, _, _, rfl⟩

/-- A vector that fires leaves a message or a pending bit. -/
theorem fireVector_only (s : State) (v : Nat) : s.OnlyReports (s.fireVector v) := by
  unfold fireVector
  dsimp only
  split
  · split
    · exact ⟨_, _, _, _, rfl⟩
    · exact emit_only _ _
  · exact .refl s

/-- An event bit that is set may fire vector 0. -/
theorem setEvent_only (s : State) (e : EvSrc) (b : Nat) : s.OnlyReports (s.setEvent e b) := by
  unfold setEvent
  dsimp only
  split
  · exact (setReg_only s _ _).trans (fireVector_only _ _)
  · exact setReg_only s _ _

theorem noteInfo_only (s : State) (e : EvSrc) (b : Nat) : s.OnlyReports (s.noteInfo e b) := by
  unfold noteInfo
  dsimp only
  have h := setEvent_only s e b
  split
  · exact h.trans (modRec_only _ _)
  · split
    · exact h
    · split
      · exact h
      · exact h.trans (modRec_only _ _)

theorem routeRecord_only (s : State) (r : EventRec) : s.OnlyReports (s.routeRecord r) := by
  unfold routeRecord
  dsimp only
  split
  · exact modRec_only _ _
  · split
    · exact .refl s
    · split
      · exact .refl s
      · split
        · exact modRec_only _ _
        · split
          · exact modRec_only _ _
          · exact ((modRec_only s _).trans (count_only _ _ _)).trans (noteInfo_only _ _ _)

theorem note_only (s : State) (r : EventRec) : s.OnlyReports (s.note r) := by
  unfold note
  dsimp only
  split
  · exact (noteInfo_only s _ _).trans (routeRecord_only _ _)
  · exact routeRecord_only _ _

/-- Raising an event touches nothing but what reporting touches. -/
theorem raiseAt_only (s : State) (e : EvSrc) (b d u : Nat) : s.OnlyReports (s.raiseAt e b d u) :=
  (setEvent_only s e b).trans (note_only _ _)

theorem raise_only (s : State) (e : EvSrc) (b : Nat) : s.OnlyReports (s.raise e b) := raiseAt_only s e b _ _

theorem detail_only (s : State) (c v d u : Nat) (l : List Byte) : s.OnlyReports (s.detail c v d u l) := note_only s _

theorem badAccess_only (s : State) : s.OnlyReports s.badAccess := by
  unfold badAccess mapCount
  split
  · exact count_only s _ _
  · exact .refl s

/-! ### Registers that reporting touches -/

/-- The registers a report may change beside the event register it sets. -/
def reportRegs : List Nat := [Reg.errEvents, Reg.recEvents, Reg.recLost]

theorem fireVector_reg (s : State) (v a : Nat) : (s.fireVector v).reg a = s.reg a := by
  unfold fireVector
  dsimp only
  split
  · split <;> rfl
  · rfl

/-- An event bit that is set: its register holds it, every other register is as before. -/
theorem setEvent_reg (s : State) (e : EvSrc) (b a : Nat) :
    (s.setEvent e b).reg a = if a = e.off then (s.reg a ||| 2 ^ b) % 2 ^ 64 else s.reg a := by
  unfold setEvent
  dsimp only
  split
  · rw [fireVector_reg, reg_setReg]; split
    · next h => rw [h]
    · rfl
  · rw [reg_setReg]; split
    · next h => rw [h]
    · rfl

theorem noteInfo_reg (s : State) (e : EvSrc) (b a : Nat) :
    (s.noteInfo e b).reg a = if a = e.off then (s.reg a ||| 2 ^ b) % 2 ^ 64 else s.reg a := by
  rw [← setEvent_reg]
  unfold noteInfo
  dsimp only
  split
  · rfl
  · split
    · rfl
    · split <;> rfl

theorem routeRecord_reg (s : State) (r : EventRec) (a : Nat) (h : a ∉ reportRegs) :
    (s.routeRecord r).reg a = s.reg a := by
  simp only [reportRegs, List.mem_cons, List.not_mem_nil, or_false, not_or] at h
  unfold routeRecord
  dsimp only
  split
  · rfl
  · split
    · rfl
    · split
      · rfl
      · split
        · rfl
        · split
          · rfl
          · rw [noteInfo_reg, if_neg (show a ≠ EvSrc.recd.off from h.2.1), count, reg_setReg, if_neg h.2.2]; rfl

theorem note_reg (s : State) (r : EventRec) (a : Nat) (h : a ∉ reportRegs) : (s.note r).reg a = s.reg a := by
  unfold note
  dsimp only
  rw [routeRecord_reg _ _ _ h]
  split
  · rw [noteInfo_reg, if_neg]; intro q; exact h (by simp [reportRegs, q, EvSrc.off])
  · rfl

theorem detail_reg (s : State) (c v d u : Nat) (l : List Byte) (a : Nat) (h : a ∉ reportRegs) :
    (s.detail c v d u l).reg a = s.reg a := note_reg s _ a h

/-- An event raised: its bit is set in its register; no other register but those of the recorder changes. -/
theorem raiseAt_reg (s : State) (e : EvSrc) (b d u a : Nat) (h : a ∉ reportRegs) :
    (s.raiseAt e b d u).reg a = if a = e.off then (s.reg a ||| 2 ^ b) % 2 ^ 64 else s.reg a := by
  unfold raiseAt
  dsimp only
  rw [note_reg _ _ _ h, setEvent_reg]

theorem raise_reg (s : State) (e : EvSrc) (b a : Nat) (h : a ∉ reportRegs) :
    (s.raise e b).reg a = if a = e.off then (s.reg a ||| 2 ^ b) % 2 ^ 64 else s.reg a := raiseAt_reg s e b _ _ a h

/-- An offset among the ring registers. -/
abbrev isRingWord (a : Nat) : Prop := 0x10000 ≤ a ∧ a < 0x10800

/-! ### Operations that write records -/

theorem modRing_only (s : State) (n : Nat) (f : Ring → Ring) : s.OnlyRecords (s.modRing n f) := ⟨_, _, _, _, _, _, _, rfl⟩
theorem writeHost_only (s : State) (a : Nat) (l : List Byte) : s.OnlyRecords (s.writeHost a l) := ⟨_, _, _, _, _, _, _, rfl⟩

theorem countRecord_only (s : State) (n : Nat) : s.OnlyRecords (s.countRecord n) := by
  unfold countRecord
  dsimp only
  split
  · split
    · exact modRing_only _ _ _
    · exact (modRing_only s _ _).trans (fireVector_only _ _).weaken
  · exact modRing_only _ _ _

theorem settleRing_only (s : State) (n : Nat) : s.OnlyReports (s.settleRing n) := by
  unfold settleRing
  split
  · exact setField_only _ _ _ _ _
  · exact .refl s

/-- A record written touches host memory, its ring and what its interrupt touches. -/
theorem putRecord_only (s : State) (n : Nat) (l : List Byte) (c : Bool) : s.OnlyRecords (s.putRecord n l c) := by
  unfold putRecord
  dsimp only
  refine OnlyRecords.trans ?_ (settleRing_only _ _).weaken
  have h : ∀ u, s.OnlyRecords u → s.OnlyRecords (if c = true then u.countRecord n else u) := by
    intro u g
    split
    · exact g.trans (countRecord_only _ _)
    · exact g
  apply h
  exact ((writeHost_only s _ _).trans (setReg_only _ _ _).weaken).trans (modRing_only _ _ _)

theorem orphanRecord_only (s : State) : s.OnlyReports s.orphanRecord := (count_only s _ _).trans (raise_only _ _ _)

theorem emitRecord_only (s : State) (n : Nat) (l : List Byte) (c : Bool) : s.OnlyRecords (s.emitRecord n l c) := by
  unfold emitRecord
  split
  · exact (orphanRecord_only s).weaken
  · split
    · exact ⟨_, _, _, _, _, _, _, rfl⟩
    · exact putRecord_only s _ _ _

/-! ### The decision of a descriptor -/

theorem onlyIf {R : State → State → Prop} (s : State) {p : Prop} [Decidable p] {a b : State}
    (ha : R s a) (hb : R s b) : R s (if p then a else b) := by split <;> assumption

theorem onlyWhen {R : State → State → Prop} (rf : ∀ s, R s s) (s : State) (p : Prop) [Decidable p] (f : State → State)
    (h : ∀ x, R x (f x)) : R s (if p then f s else s) := by split; exacts [h s, rf s]

/-- A refusal, apart from the decision it enters, touches only what a record touches. -/
theorem refuse_records (s : State) (t : Taken) (r : Refuse) :
    State.OnlyRecords { s with decided := (itemId t.ring t.index, Decision.refused) :: s.decided.take 65535 }
      (s.refuse t r) := by
  unfold refuse
  extract_lets id d a b c e
  refine OnlyRecords.trans ?_ (emitRecord_only _ _ _ _)
  refine OnlyRecords.trans ?_ (modRing_only _ _ _)
  refine OnlyReports.weaken ?_
  have ha : d.OnlyReports a := count_only d _ _
  have hb : d.OnlyReports b := ha.trans (onlyWhen .refl _ _ _ fun x => raise_only x _ _)
  exact hb.trans (onlyWhen .refl _ _ _ fun x => raise_only x _ _)

theorem refuse_refuses (s : State) (l : List Taken) (t : Taken) (r : Refuse) :
    s.OnlyRefuses ((s.setTaken l).refuse t r) := ⟨_, _, refuse_records _ t r⟩

theorem refuse_only (s : State) (t : Taken) (r : Refuse) : s.OnlyDecides (s.refuse t r) :=
  OnlyDecides.trans ⟨_, _, _, _, _, _, _, _, _, _, _, _, _, _, _, _, _, _, _, rfl, rfl, rfl, rfl⟩ (refuse_records s t r).weaken

theorem book_only (s : State) (t : Nat) (u : BookUnit) : s.OnlyDecides (s.book t u) :=
  ⟨_, _, _, _, _, _, _, _, _, _, _, _, _, _, _, _, _, _, _, rfl, rfl, rfl, rfl⟩

theorem bookAll_only (t : Nat) (l : List BookUnit) (s : State) : s.OnlyDecides (l.foldl (State.book t) s) := by
  induction l generalizing s with
  | nil => exact .refl s
  | cons u l ih => exact (book_only s t u).trans (ih _)

/-- A die keeps everything but the owner of its runs when an item takes another's place. -/
theorem unowned_map (d : Die) (f : RunInfo → RunInfo) (g : CobRun → CobRun) (hf : ∀ r, { f r with item := 0 } = { r with item := 0 })
    (hg : ∀ c, { g c with item := 0 } = { c with item := 0 }) :
    Die.unowned { d with run := d.run.map f, cob := d.cob.map g } = d.unowned := by
  unfold Die.unowned
  simp only [Option.map_map]
  congr 1
  · congr 1; funext r; exact hf r
  · congr 1; funext c; exact hg c

theorem modItem_only (s : State) (id : Nat) (f : Item → Item) : s.OnlyDecides (s.modItem id f) :=
  ⟨_, _, _, _, _, _, _, _, _, _, _, _, _, _, _, _, _, _, _, rfl, rfl, rfl, rfl⟩

/-- Items numbered anew: what is owned stays as it is but for its owner. -/
theorem renumber_only (s : State) (f : Nat → Nat) : s.OnlyDecides (s.renumber f) := by
  unfold renumber
  refine ⟨_, _, _, _, _, _, _, _, _, _, _, _, _, _, _, _, _, _, _, rfl, ?_, ?_, ?_⟩
  · show (s.dies.map _).map Die.unowned = _
    rw [List.map_map]
    exact List.map_congr_left fun d _ => unowned_map d _ _ (fun _ => rfl) (fun _ => rfl)
  · show (s.staged.map _).map StagedSet.unowned = _
    rw [List.map_map]; rfl
  · show (s.exportHolds.map _).map _ = _
    rw [List.map_map]; rfl

theorem takeOver_only (s : State) (d : List Byte) (id : Nat) : s.OnlyDecides (s.takeOver d id) := by
  unfold takeOver
  split
  · exact .refl s
  · extract_lets s1 s2 s3
    have h3 : s.OnlyDecides s3 :=
      (OnlyDecides.trans (t := s1) ⟨_, _, _, _, _, _, _, _, _, _, _, _, _, _, _, _, _, _, _, rfl, rfl, rfl, rfl⟩ (renumber_only _ _)).trans (modItem_only _ _ _)
    split
    · exact h3
    · exact (h3.trans (modRing_only _ _ _).weaken).trans (settleRing_only _ _).weaken.weaken

/-- An acceptance touches the decisions, the items, the bookings and what its record touches. -/
theorem accept_only (s : State) (t : Taken) (p : Plan) (ts tp dw : Nat) : s.OnlyDecides (s.accept t p ts tp dw) := by
  unfold accept
  dsimp only
  refine OnlyDecides.trans ?_ (emitRecord_only _ _ _ _).weaken
  have w : ∀ (u : State) (c : Prop) [Decidable c] (f : State → State), s.OnlyDecides u → (∀ x : State, x.OnlyDecides (f x)) →
      s.OnlyDecides (if c then f u else u) := by
    intro u c _ f g h
    split
    · exact g.trans (h _)
    · exact g
  refine w _ _ (fun u => u.takeOver t.bytes (itemId t.ring t.index)) ?_ (fun x => takeOver_only x _ _)
  refine OnlyDecides.trans ?_ ⟨_, _, _, _, _, _, _, _, _, _, _, _, _, _, _, _, _, _, _, rfl, rfl, rfl, rfl⟩
  refine w _ _ (fun u => { u with reservations := u.reservations ++ [(ts, tp, dw)] }) ?_
    (fun x => ⟨_, _, _, _, _, _, _, _, _, _, _, _, _, _, _, _, _, _, _, rfl, rfl, rfl, rfl⟩)
  refine w _ _ (fun u => p.units.foldl (State.book tp) u) ?_ (fun x => bookAll_only _ _ _)
  exact OnlyDecides.trans ⟨_, _, _, _, _, _, _, _, _, _, _, _, _, _, _, _, _, _, _, rfl, rfl, rfl, rfl⟩ (count64_only _ _ _).weaken.weaken

/-- Authentication touches the command counter, the failure count, the lockout and what its events touch. -/
theorem authenticate_only (s : State) (d : List Byte) : s.OnlyDecides (s.authenticate d).1 := by
  unfold authenticate
  split
  · exact .refl s
  split
  · exact .refl s
  split
  · exact .refl s
  split
  · exact .refl s
  split
  · have a : s.OnlyDecides ((s.count Reg.secAuthfail 1).raise .sec 0) :=
      ((count_only s _ _).trans (raise_only _ _ _)).weaken.weaken
    dsimp only
    split
    · refine OnlyDecides.trans ?_ (raise_only _ _ _).weaken.weaken
      refine OnlyDecides.trans ?_ (setField_only _ _ _ _ _).weaken.weaken
      exact a.trans ⟨_, _, _, _, _, _, _, _, _, _, _, _, _, _, _, _, _, _, _, rfl, rfl, rfl, rfl⟩
    · exact a.trans ⟨_, _, _, _, _, _, _, _, _, _, _, _, _, _, _, _, _, _, _, rfl, rfl, rfl, rfl⟩
  · exact ⟨_, _, _, _, _, _, _, _, _, _, _, _, _, _, _, _, _, _, _, rfl, rfl, rfl, rfl⟩

theorem authed_only (s : State) (d : List Byte) : s.OnlyDecides (s.authed d).1 := by
  unfold authed
  split
  · exact authenticate_only s d
  · exact .refl s

theorem itemDone_only (s : State) (id c : Nat) (l : List Byte) : s.OnlyDecides (s.itemDone id c l) :=
  modItem_only _ _ _

theorem completeItem_only (s : State) (id : Nat) : s.OnlyDecides (s.completeItem id) := by
  unfold completeItem
  split
  · exact .refl s
  · dsimp only
    have a : ∀ it : Item, s.OnlyDecides { s with items := s.items.filter (·.id != id) } :=
      fun _ => ⟨_, _, _, _, _, _, _, _, _, _, _, _, _, _, _, _, _, _, _, rfl, rfl, rfl, rfl⟩
    split
    · next it _ _ => exact (a it).trans (orphanRecord_only _).weaken.weaken
    · next it _ _ => exact (a it).trans (emitRecord_only _ _ _ _).weaken

/-- What a decision leads to when it starts an item: the item is the accepted one of the descriptor, marked started;
everything else but what a decision touches is as it was. -/
theorem starts_spec (s : State) (k : Nat × Nat) (c : ItemCheck) (it : Item) (t : State)
    (h : s.starts k c = some (it, t)) :
    ∃ d, s.taken = [d] ∧ s.decides k = true ∧ rowKind d.bytes = k ∧ s.OnlyDecides t ∧
      ∃ u p ts tp dw, (s.setTaken []).authed d.bytes = (u, none) ∧ u.judge c d = .ok (p, ts, tp, dw)
        ∧ (u.accept d p ts tp dw).item? (itemId d.ring d.index) = some it
        ∧ it.started = false ∧ it.done = false ∧ it.ts ≤ (u.accept d p ts tp dw).time
        ∧ (u.accept d p ts tp dw).startWaits it = false
        ∧ t = (u.accept d p ts tp dw).modItem (itemId d.ring d.index) fun i => { i with started := true } := by
  unfold starts at h
  split at h
  · next d hd =>
    split at h
    · exact absurd h (by simp)
    · next hk =>
      simp only [ne_eq, Bool.or_eq_true, decide_eq_true_eq, not_or, Bool.not_eq_eq_eq_not, Bool.not_true,
        Bool.not_eq_false, Decidable.not_not] at hk
      split at h
      · exact absurd h (by simp)
      · next u hu =>
        split at h
        · exact absurd h (by simp)
        · next p ts tp dw hj =>
          dsimp only at h
          split at h
          · next i hi =>
            split at h
            · exact absurd h (by simp)
            · next hs =>
              have hs' := hs
              unfold startWaits at hs
              simp only [Bool.or_eq_true, decide_eq_true_eq, not_or, Bool.not_eq_true, not_lt] at hs
              simp only [Option.some.injEq, Prod.mk.injEq] at h
              obtain ⟨rfl, rfl⟩ := h
              refine ⟨d, hd, hk.1, hk.2, ?_, u, p, ts, tp, dw, hu, hj, hi, hs.1.1.1.1, hs.1.1.1.2, hs.1.1.2,
                Bool.not_eq_true _ ▸ hs', rfl⟩
              refine OnlyDecides.trans ?_ (modItem_only _ _ _)
              refine OnlyDecides.trans ?_ (accept_only _ _ _ _ _ _)
              have z : s.OnlyDecides (s.setTaken []) := ⟨_, _, _, _, _, _, _, _, _, _, _, _, _, _, _, _, _, _, _, rfl, rfl, rfl, rfl⟩
              have y := authed_only (s.setTaken []) d.bytes
              rw [hu] at y
              exact z.trans y
          · exact absurd h (by simp)
  · exact absurd h (by simp)

/-- A row that starts its item: the whole effect is the item's start. -/
theorem decideRow_starts (s : State) (k : Nat × Nat) (c : ItemCheck) (f : ItemStart) (it : Item) (t : State)
    (h : s.starts k c = some (it, t)) : State.decideRow k c f s = f it t := by
  obtain ⟨d, hd, ha, hk, -, u, p, ts, tp, dw, hu, hj, hi, -, -, -, hw, rfl⟩ := starts_spec s k c it t h
  unfold decideRow
  rw [ha, hd]
  simp only [Bool.not_true, Bool.false_eq_true, if_false, hk, if_true, List.length_nil, flushBad]
  unfold decideTaken
  rw [hu]
  simp only [hj]
  unfold startItem
  rw [hi]
  simp [hw]

theorem setTaken_only (s : State) (l : List Taken) : s.OnlyDecides (s.setTaken l) :=
  ⟨_, _, _, _, _, _, _, _, _, _, _, _, _, _, _, _, _, _, _, rfl, rfl, rfl, rfl⟩

/-- A row that refuses: the refusal, in the state that the authentication leaves. -/
theorem decideRow_refusal (s : State) (k : Nat × Nat) (c : ItemCheck) (f : ItemStart) (d : Taken) (r : Refuse) (u : State)
    (h : s.refusal k c = some (d, r, u)) : State.decideRow k c f s = u.refuse d r ∧ s.OnlyDecides u := by
  unfold refusal at h
  split at h
  · next e he =>
    split at h
    · exact absurd h (by simp)
    · next hk =>
      simp only [ne_eq, Bool.or_eq_true, decide_eq_true_eq, not_or, Bool.not_eq_eq_eq_not, Bool.not_true,
        Bool.not_eq_false, Decidable.not_not] at hk
      split at h
      · exact absurd h (by simp)
      · next v hv =>
        split at h
        · next r' hj =>
          simp only [Option.some.injEq, Prod.mk.injEq] at h
          obtain ⟨rfl, rfl, rfl⟩ := h
          constructor
          · unfold decideRow
            rw [hk.1, he]
            simp only [Bool.not_true, Bool.false_eq_true, if_false, hk.2, if_true, List.length_nil, flushBad]
            unfold decideTaken
            rw [hv]
            simp only [hj]
          · have ho := authed_only (s.setTaken []) e.bytes
            rw [hv] at ho
            exact (setTaken_only s []).trans ho
        · exact absurd h (by simp)
  · exact absurd h (by simp)

/-- A row whose descriptor does not authenticate. -/
theorem decideRow_unauthentic (s : State) (k : Nat × Nat) (c : ItemCheck) (f : ItemStart) (d : Taken) (n : Nat) (u : State)
    (h : s.unauthentic k = some (d, n, u)) :
    State.decideRow k c f s = u.refuse d { code := n } ∧ s.OnlyDecides u := by
  unfold unauthentic at h
  split at h
  · next e he =>
    split at h
    · exact absurd h (by simp)
    · next hk =>
      simp only [ne_eq, Bool.or_eq_true, decide_eq_true_eq, not_or, Bool.not_eq_eq_eq_not, Bool.not_true,
        Bool.not_eq_false, Decidable.not_not] at hk
      split at h
      · next v m hv =>
        simp only [Option.some.injEq, Prod.mk.injEq] at h
        obtain ⟨rfl, rfl, rfl⟩ := h
        constructor
        · unfold decideRow
          rw [hk.1, he]
          simp only [Bool.not_true, Bool.false_eq_true, if_false, hk.2, if_true, List.length_nil, flushBad]
          unfold decideTaken
          rw [hv]
        · have y := authed_only (s.setTaken []) e.bytes
          rw [hv] at y
          exact (setTaken_only s []).trans y
      · exact absurd h (by simp)
  · exact absurd h (by simp)

/-- Authentication, apart from the failure count and the lockout, touches only what a report touches. -/
theorem authenticate_reports (s : State) (d : List Byte) :
    ∃ a l, State.OnlyReports { s with authFails := a, lockoutAt := l } (s.authenticate d).1 := by
  unfold authenticate
  split
  · exact ⟨s.authFails, s.lockoutAt, .refl s⟩
  split
  · exact ⟨s.authFails, s.lockoutAt, .refl s⟩
  split
  · exact ⟨s.authFails, s.lockoutAt, .refl s⟩
  split
  · exact ⟨s.authFails, s.lockoutAt, .refl s⟩
  split
  · have a : s.OnlyReports ((s.count Reg.secAuthfail 1).raise .sec 0) := (count_only s _ _).trans (raise_only _ _ _)
    dsimp only
    obtain ⟨r, c, p, e, h⟩ := a
    rw [h]
    split
    · refine ⟨0, some s.now, ?_⟩
      refine OnlyReports.trans ?_ (raise_only _ _ _)
      refine OnlyReports.trans ?_ (setField_only _ _ _ _ _)
      exact ⟨r, c, p, e, rfl⟩
    · exact ⟨s.authFails + 1, s.lockoutAt, r, c, p, e, rfl⟩
  · exact ⟨0, s.lockoutAt, _, _, _, _, rfl⟩

theorem authed_reports (s : State) (d : List Byte) :
    ∃ a l, State.OnlyReports { s with authFails := a, lockoutAt := l } (s.authed d).1 := by
  unfold authed
  split
  · exact authenticate_reports s d
  · exact ⟨s.authFails, s.lockoutAt, .refl s⟩

theorem orphanRecord_reg (s : State) (a : Nat) (h : a ∉ reportRegs) (h1 : a ≠ Reg.hifOrphans) (h2 : a ≠ Reg.hifEvents) :
    s.orphanRecord.reg a = s.reg a := by
  unfold orphanRecord
  rw [raise_reg _ _ _ _ h, if_neg (show a ≠ EvSrc.hif.off from h2), count, reg_setReg, if_neg h1]

theorem putRecord_reg (s : State) (n : Nat) (l : List Byte) (c : Bool) (a : Nat) (h1 : a ≠ Reg.ringWritten n)
    (h2 : a ≠ Reg.ringStatus n) : (s.putRecord n l c).reg a = s.reg a := by
  unfold putRecord
  extract_lets j cq ph bs s1 s2 s3 s4
  have e4 : s4.reg a = s3.reg a := by
    unfold s4
    split
    · unfold countRecord
      dsimp only
      split
      · split
        · rfl
        · rw [fireVector_reg]; rfl
      · rfl
    · rfl
  have e3 : s3.reg a = s.reg a := by
    have : s3.reg a = s2.reg a := rfl
    rw [this]
    unfold s2
    rw [reg_setReg, if_neg h1]; rfl
  unfold settleRing
  split
  · rw [setField, reg_setReg, if_neg h2, e4, e3]
  · rw [e4, e3]

/-- A register that no record and no report touches. -/
theorem emitRecord_reg (s : State) (n : Nat) (l : List Byte) (c : Bool) (a : Nat) (h : a ∉ reportRegs)
    (h1 : a ≠ Reg.hifOrphans) (h2 : a ≠ Reg.hifEvents) (h3 : ¬ isRingWord a) : (s.emitRecord n l c).reg a = s.reg a := by
  unfold emitRecord
  split
  · exact orphanRecord_reg s a h h1 h2
  · split
    · rfl
    · next q _ =>
      apply putRecord_reg
      · rintro rfl; apply h3; unfold isRingWord Reg.ringWritten; omega
      · rintro rfl; apply h3; unfold isRingWord Reg.ringStatus; omega

/-- An acceptance leaves the descriptors that wait. -/
theorem accept_taken (s : State) (t : Taken) (p : Plan) (ts tp dw : Nat) : (s.accept t p ts tp dw).taken = s.taken := by
  unfold accept
  extract_lets d id a b c e tau dies it f g
  rw [(emitRecord_only _ _ _ _).taken]
  have hc : c.taken = s.taken := by
    unfold c
    split
    · have : ∀ (l : List BookUnit) (x : State), (l.foldl (State.book tp) x).taken = x.taken := by
        intro l
        induction l with
        | nil => intro x; rfl
        | cons y l ih => intro x; exact (ih _).trans rfl
      rw [this]; rfl
    · rfl
  have he : e.taken = s.taken := by
    unfold e
    split <;> exact hc
  unfold g
  split
  · have : ∀ x : State, (x.takeOver d id).taken = x.taken := by
      intro x
      unfold takeOver
      split
      · rfl
      · dsimp only
        split
        · rfl
        · rw [(settleRing_only _ _).taken]; rfl
    rw [this]; exact he
  · exact he

theorem authed_taken (s : State) (d : List Byte) : (s.authed d).1.taken = s.taken := by
  obtain ⟨a, l, h⟩ := authed_reports s d
  exact h.taken

theorem starts_taken (s : State) (k : Nat × Nat) (c : ItemCheck) (it : Item) (t : State)
    (h : s.starts k c = some (it, t)) : t.taken = [] := by
  obtain ⟨d, hd, ha, hk, ho, u, p, ts, tp, dw, hu, hj, hi, -, -, -, -, rfl⟩ := starts_spec _ _ _ _ _ h
  have := authed_taken (s.setTaken []) d.bytes
  rw [hu] at this
  show (u.accept d p ts tp dw).taken = []
  rw [accept_taken]
  exact this

/-- What a row's refusal says of the state before: the descriptor waits, of the row's kind, is authentic and is judged
against. -/
theorem refusal_spec (s : State) (k : Nat × Nat) (c : ItemCheck) (d : Taken) (r : Refuse) (u : State)
    (h : s.refusal k c = some (d, r, u)) :
    s.taken = [d] ∧ s.decides k = true ∧ rowKind d.bytes = k ∧ (s.setTaken []).authed d.bytes = (u, none)
      ∧ u.judge c d = .error r := by
  unfold refusal at h
  split at h
  · next e he =>
    split at h
    · exact absurd h (by simp)
    · next hk =>
      simp only [ne_eq, Bool.or_eq_true, decide_eq_true_eq, not_or, Bool.not_eq_eq_eq_not, Bool.not_true,
        Bool.not_eq_false, Decidable.not_not] at hk
      split at h
      · exact absurd h (by simp)
      · next v hv =>
        split at h
        · next r' hj =>
          simp only [Option.some.injEq, Prod.mk.injEq] at h
          obtain ⟨rfl, rfl, rfl⟩ := h
          exact ⟨he, hk.1, hk.2, hv, hj⟩
        · exact absurd h (by simp)
  · exact absurd h (by simp)

theorem unauthentic_spec (s : State) (k : Nat × Nat) (d : Taken) (n : Nat) (u : State)
    (h : s.unauthentic k = some (d, n, u)) :
    s.taken = [d] ∧ s.decides k = true ∧ rowKind d.bytes = k ∧ (s.setTaken []).authed d.bytes = (u, some n) := by
  unfold unauthentic at h
  split at h
  · next e he =>
    split at h
    · exact absurd h (by simp)
    · next hk =>
      simp only [ne_eq, Bool.or_eq_true, decide_eq_true_eq, not_or, Bool.not_eq_eq_eq_not, Bool.not_true,
        Bool.not_eq_false, Decidable.not_not] at hk
      split at h
      · next v m hv =>
        simp only [Option.some.injEq, Prod.mk.injEq] at h
        obtain ⟨rfl, rfl, rfl⟩ := h
        exact ⟨he, hk.1, hk.2, hv⟩
      · exact absurd h (by simp)
  · exact absurd h (by simp)

/-- PRM_REFUSED counts a refusal. -/
theorem refuse_prmRefused (s : State) (t : Taken) (r : Refuse) :
    (s.refuse t r).reg Reg.prmRefused = min (s.reg Reg.prmRefused + 1) 0xFFFFFFFF := by
  unfold refuse
  extract_lets id a b c d e
  rw [emitRecord_reg _ _ _ _ _ (by decide) (by decide) (by decide) (by decide)]
  have hb : b.reg Reg.prmRefused = min (s.reg Reg.prmRefused + 1) 0xFFFFFFFF := by
    unfold b
    rw [count, reg_setReg, if_pos rfl]
    have : a.reg Reg.prmRefused = s.reg Reg.prmRefused := rfl
    rw [this]
    omega
  have hc : c.reg Reg.prmRefused = b.reg Reg.prmRefused := by
    unfold c
    split
    · rw [raise_reg _ _ _ _ (by decide), if_neg (by decide)]
    · rfl
  have hd : d.reg Reg.prmRefused = c.reg Reg.prmRefused := by
    unfold d
    split
    · rw [raise_reg _ _ _ _ (by decide), if_neg (by decide)]
    · rfl
  show d.reg _ = _
  rw [hd, hc, hb]

end State

end Sys2Proof.Machine
end

