-- ==== Sys2Proof/Laws/Advance.lean ====
section
/-! SUPPORT. What is read of a state is the same after `State.advance`, which moves time alone. -/

namespace Sys2Proof.Machine

variable (s : State) (dt : Nat)

/-- Time that passes changes site time, operating time and the model's clock. -/
theorem State.advance_eq : ∃ st r, s.advance dt = { s with siteTime := st, recorder := r, now := s.now + dt } := by
  unfold State.advance; dsimp only; split <;> split <;> exact ⟨_, _, rfl⟩

@[simp] theorem State.advance_k1Live : (s.advance dt).k1Live = s.k1Live := by
  obtain ⟨_, _, h⟩ := s.advance_eq dt; rw [h]; rfl
@[simp] theorem State.advance_hubLive (j : Nat) : (s.advance dt).hubLive j = s.hubLive j := by
  obtain ⟨_, _, h⟩ := s.advance_eq dt; rw [h]; rfl
@[simp] theorem State.advance_readHbm (a n : Nat) : (s.advance dt).readHbm a n = s.readHbm a n := by
  obtain ⟨_, _, h⟩ := s.advance_eq dt; rw [h]; rfl
@[simp] theorem State.advance_pendingSrc (e : EvSrc) : (s.advance dt).pendingSrc e = s.pendingSrc e := by
  obtain ⟨_, _, h⟩ := s.advance_eq dt; rw [h]; rfl
@[simp] theorem State.advance_irqPending (d : Nat) : (s.advance dt).irqPending d = s.irqPending d := by
  obtain ⟨_, _, h⟩ := s.advance_eq dt; rw [h]; rfl
@[simp] theorem State.advance_blockLive (b : Nat) : (s.advance dt).blockLive b = s.blockLive b := by
  obtain ⟨_, _, h⟩ := s.advance_eq dt; rw [h]; rfl
@[simp] theorem State.advance_sentinelPs (n : Nat) : (s.advance dt).sentinelPs n = s.sentinelPs n := by
  obtain ⟨_, _, h⟩ := s.advance_eq dt; rw [h]; rfl
@[simp] theorem State.advance_tempOf (n : Nat) : (s.advance dt).tempOf n = s.tempOf n := by
  obtain ⟨_, _, h⟩ := s.advance_eq dt; rw [h]; rfl
@[simp] theorem State.advance_hot (n : Nat) : (s.advance dt).hot n = s.hot n := by
  obtain ⟨_, _, h⟩ := s.advance_eq dt; rw [h]; rfl
@[simp] theorem State.advance_baseDw : (s.advance dt).baseDw = s.baseDw := by
  obtain ⟨_, _, h⟩ := s.advance_eq dt; rw [h]; rfl
@[simp] theorem State.advance_reservedAt (t : Nat) : (s.advance dt).reservedAt t = s.reservedAt t := by
  obtain ⟨_, _, h⟩ := s.advance_eq dt; rw [h]; rfl
@[simp] theorem State.advance_outstanding (n : Nat) : (s.advance dt).outstanding n = s.outstanding n := by
  obtain ⟨_, _, h⟩ := s.advance_eq dt; rw [h]; rfl
@[simp] theorem State.advance_sur (e : Nat) : (s.advance dt).sur e = s.sur e := by
  obtain ⟨_, _, h⟩ := s.advance_eq dt; rw [h]; rfl
@[simp] theorem State.advance_surByte (a : Nat) : (s.advance dt).surByte a = s.surByte a := by
  obtain ⟨_, _, h⟩ := s.advance_eq dt; rw [h]; rfl
@[simp] theorem State.advance_fuseMap : (s.advance dt).fuseMap = s.fuseMap := by
  obtain ⟨_, _, h⟩ := s.advance_eq dt; rw [h]; rfl
@[simp] theorem State.advance_hostRangeOk (a n : Nat) : (s.advance dt).hostRangeOk a n = s.hostRangeOk a n := by
  obtain ⟨_, _, h⟩ := s.advance_eq dt; rw [h]; rfl
@[simp] theorem State.advance_readHost (a n : Nat) : (s.advance dt).readHost a n = s.readHost a n := by
  obtain ⟨_, _, h⟩ := s.advance_eq dt; rw [h]; rfl
@[simp] theorem State.advance_ringState (n : Nat) : (s.advance dt).ringState n = s.ringState n := by
  obtain ⟨_, _, h⟩ := s.advance_eq dt; rw [h]; rfl
@[simp] theorem State.advance_sqLog (n : Nat) : (s.advance dt).sqLog n = s.sqLog n := by
  obtain ⟨_, _, h⟩ := s.advance_eq dt; rw [h]; rfl
@[simp] theorem State.advance_cqLog (n : Nat) : (s.advance dt).cqLog n = s.cqLog n := by
  obtain ⟨_, _, h⟩ := s.advance_eq dt; rw [h]; rfl
@[simp] theorem State.advance_dbAddr (n : Nat) : (s.advance dt).dbAddr n = s.dbAddr n := by
  obtain ⟨_, _, h⟩ := s.advance_eq dt; rw [h]; rfl
@[simp] theorem State.advance_cqRoom (n : Nat) : (s.advance dt).cqRoom n = s.cqRoom n := by
  obtain ⟨_, _, h⟩ := s.advance_eq dt; rw [h]; rfl
@[simp] theorem State.advance_admitting : (s.advance dt).admitting = s.admitting := by
  obtain ⟨_, _, h⟩ := s.advance_eq dt; rw [h]; rfl
@[simp] theorem State.advance_tagInput (d : List Byte) : (s.advance dt).tagInput d = s.tagInput d := by
  obtain ⟨_, _, h⟩ := s.advance_eq dt; rw [h]; rfl
@[simp] theorem State.advance_guardPct (n : Nat) : (s.advance dt).guardPct n = s.guardPct n := by
  obtain ⟨_, _, h⟩ := s.advance_eq dt; rw [h]; rfl
@[simp] theorem State.advance_tau (n : Nat) : (s.advance dt).tau n = s.tau n := by
  obtain ⟨_, _, h⟩ := s.advance_eq dt; rw [h]; rfl
@[simp] theorem State.advance_share (n : Nat) : (s.advance dt).share n = s.share n := by
  obtain ⟨_, _, h⟩ := s.advance_eq dt; rw [h]; rfl
@[simp] theorem State.advance_isRemote (n : Nat) : (s.advance dt).isRemote n = s.isRemote n := by
  obtain ⟨_, _, h⟩ := s.advance_eq dt; rw [h]; rfl
@[simp] theorem State.advance_shareBroken : (s.advance dt).shareBroken = s.shareBroken := by
  obtain ⟨_, _, h⟩ := s.advance_eq dt; rw [h]; rfl
@[simp] theorem State.advance_requested (pd : Nat) : (s.advance dt).requested pd = s.requested pd := by
  obtain ⟨_, _, h⟩ := s.advance_eq dt; rw [h]; rfl
@[simp] theorem State.advance_domainOff (pd : Nat) : (s.advance dt).domainOff pd = s.domainOff pd := by
  obtain ⟨_, _, h⟩ := s.advance_eq dt; rw [h]; rfl
@[simp] theorem State.advance_unitDown (u : BookUnit) : (s.advance dt).unitDown u = s.unitDown u := by
  obtain ⟨_, _, h⟩ := s.advance_eq dt; rw [h]; rfl
@[simp] theorem State.advance_freeAt (u : BookUnit) : (s.advance dt).freeAt u = s.freeAt u := by
  obtain ⟨_, _, h⟩ := s.advance_eq dt; rw [h]; rfl
@[simp] theorem State.advance_loadAt (t : Nat) : (s.advance dt).loadAt t = s.loadAt t := by
  obtain ⟨_, _, h⟩ := s.advance_eq dt; rw [h]; rfl
@[simp] theorem State.advance_fits (p : Plan) (dw start : Nat) : (s.advance dt).fits p dw start = s.fits p dw start := by
  obtain ⟨_, _, h⟩ := s.advance_eq dt; rw [h]; rfl
@[simp] theorem State.advance_pacedStart (p : Plan) (dw s0 : Nat) : (s.advance dt).pacedStart p dw s0 = s.pacedStart p dw s0 := by
  obtain ⟨_, _, h⟩ := s.advance_eq dt; rw [h]; rfl
@[simp] theorem State.advance_undecided (own id : Nat) : (s.advance dt).undecided own id = s.undecided own id := by
  obtain ⟨_, _, h⟩ := s.advance_eq dt; rw [h]; rfl
@[simp] theorem State.advance_depOf (own id : Nat) : (s.advance dt).depOf own id = s.depOf own id := by
  obtain ⟨_, _, h⟩ := s.advance_eq dt; rw [h]; rfl
@[simp] theorem State.advance_originOk (d : List Byte) : (s.advance dt).originOk d = s.originOk d := by
  obtain ⟨_, _, h⟩ := s.advance_eq dt; rw [h]; rfl
@[simp] theorem State.advance_deps (own : Nat) (d : List Byte) : (s.advance dt).deps own d = s.deps own d := by
  obtain ⟨_, _, h⟩ := s.advance_eq dt; rw [h]; rfl
@[simp] theorem State.advance_commonCheck (own : Nat) (d : List Byte) : (s.advance dt).commonCheck own d = s.commonCheck own d := by
  obtain ⟨_, _, h⟩ := s.advance_eq dt; rw [h]; rfl
@[simp] theorem State.advance_norBytes (a n : Nat) : (s.advance dt).norBytes a n = s.norBytes a n := by
  obtain ⟨_, _, h⟩ := s.advance_eq dt; rw [h]; rfl
@[simp] theorem State.advance_norErased (a n : Nat) : (s.advance dt).norErased a n = s.norErased a n := by
  obtain ⟨_, _, h⟩ := s.advance_eq dt; rw [h]; rfl
@[simp] theorem State.advance_marked (sector : Nat) : (s.advance dt).marked sector = s.marked sector := by
  obtain ⟨_, _, h⟩ := s.advance_eq dt; rw [h]; rfl
@[simp] theorem State.advance_counterEntries : (s.advance dt).counterEntries = s.counterEntries := by
  obtain ⟨_, _, h⟩ := s.advance_eq dt; rw [h]; rfl
@[simp] theorem State.advance_newestCounter : (s.advance dt).newestCounter = s.newestCounter := by
  obtain ⟨_, _, h⟩ := s.advance_eq dt; rw [h]; rfl
@[simp] theorem State.advance_validUnits (a : RecArea) : (s.advance dt).validUnits a = s.validUnits a := by
  obtain ⟨_, _, h⟩ := s.advance_eq dt; rw [h]; rfl
@[simp] theorem State.advance_writerRuns : (s.advance dt).writerRuns = s.writerRuns := by
  obtain ⟨_, _, h⟩ := s.advance_eq dt; rw [h]; rfl
@[simp] theorem State.advance_coord : (s.advance dt).coord = s.coord := by
  obtain ⟨_, _, h⟩ := s.advance_eq dt; rw [h]; rfl
@[simp] theorem State.advance_dimSize (i : Nat) : (s.advance dt).dimSize i = s.dimSize i := by
  obtain ⟨_, _, h⟩ := s.advance_eq dt; rw [h]; rfl
@[simp] theorem State.advance_neighbour (p : Nat) : (s.advance dt).neighbour p = s.neighbour p := by
  obtain ⟨_, _, h⟩ := s.advance_eq dt; rw [h]; rfl
@[simp] theorem State.advance_npState (p : Nat) : (s.advance dt).npState p = s.npState p := by
  obtain ⟨_, _, h⟩ := s.advance_eq dt; rw [h]; rfl
@[simp] theorem State.advance_linkClock (p : Nat) : (s.advance dt).linkClock p = s.linkClock p := by
  obtain ⟨_, _, h⟩ := s.advance_eq dt; rw [h]; rfl
@[simp] theorem State.advance_nearUp (p : Nat) : (s.advance dt).nearUp p = s.nearUp p := by
  obtain ⟨_, _, h⟩ := s.advance_eq dt; rw [h]; rfl
@[simp] theorem State.advance_portToward (i : Nat) (plus : Bool) (stitch : Nat) : (s.advance dt).portToward i plus stitch = s.portToward i plus stitch := by
  obtain ⟨_, _, h⟩ := s.advance_eq dt; rw [h]; rfl
@[simp] theorem State.advance_crossesDateline (i : Nat) (plus : Bool) : (s.advance dt).crossesDateline i plus = s.crossesDateline i plus := by
  obtain ⟨_, _, h⟩ := s.advance_eq dt; rw [h]; rfl
@[simp] theorem State.advance_hop (dst stitch vc : Nat) (arrived : Option Nat) : (s.advance dt).hop dst stitch vc arrived = s.hop dst stitch vc arrived := by
  obtain ⟨_, _, h⟩ := s.advance_eq dt; rw [h]; rfl
@[simp] theorem State.advance_flow (peer : Nat) : (s.advance dt).flow peer = s.flow peer := by
  obtain ⟨_, _, h⟩ := s.advance_eq dt; rw [h]; rfl
@[simp] theorem State.advance_prgState (n : Nat) : (s.advance dt).prgState n = s.prgState n := by
  obtain ⟨_, _, h⟩ := s.advance_eq dt; rw [h]; rfl
@[simp] theorem State.advance_refOf (n e slot : Nat) : (s.advance dt).refOf n e slot = s.refOf n e slot := by
  obtain ⟨_, _, h⟩ := s.advance_eq dt; rw [h]; rfl
@[simp] theorem State.advance_gangOf (id : Nat) : (s.advance dt).gangOf id = s.gangOf id := by
  obtain ⟨_, _, h⟩ := s.advance_eq dt; rw [h]; rfl
@[simp] theorem State.advance_itemsOn (hit : BookUnit → Bool) : (s.advance dt).itemsOn hit = s.itemsOn hit := by
  obtain ⟨_, _, h⟩ := s.advance_eq dt; rw [h]; rfl
@[simp] theorem State.advance_cachedUnits (j : Nat) : (s.advance dt).cachedUnits j = s.cachedUnits j := by
  obtain ⟨_, _, h⟩ := s.advance_eq dt; rw [h]; rfl
@[simp] theorem State.advance_powered (b : Nat) : (s.advance dt).powered b = s.powered b := by
  obtain ⟨_, _, h⟩ := s.advance_eq dt; rw [h]; rfl
@[simp] theorem State.advance_counts (b : Nat) : (s.advance dt).counts b = s.counts b := by
  obtain ⟨_, _, h⟩ := s.advance_eq dt; rw [h]; rfl
@[simp] theorem State.advance_wanted (b : Nat) : (s.advance dt).wanted b = s.wanted b := by
  obtain ⟨_, _, h⟩ := s.advance_eq dt; rw [h]; rfl
@[simp] theorem State.advance_reachOk (p : Nat) : (s.advance dt).reachOk p = s.reachOk p := by
  obtain ⟨_, _, h⟩ := s.advance_eq dt; rw [h]; rfl
@[simp] theorem State.advance_fpState (k : Nat) : (s.advance dt).fpState k = s.fpState k := by
  obtain ⟨_, _, h⟩ := s.advance_eq dt; rw [h]; rfl
@[simp] theorem State.advance_sealed (k : Nat) : (s.advance dt).sealed k = s.sealed k := by
  obtain ⟨_, _, h⟩ := s.advance_eq dt; rw [h]; rfl
@[simp] theorem State.advance_txSlot (k : Nat) : (s.advance dt).txSlot k = s.txSlot k := by
  obtain ⟨_, _, h⟩ := s.advance_eq dt; rw [h]; rfl
@[simp] theorem State.advance_rxSlot (k : Nat) : (s.advance dt).rxSlot k = s.rxSlot k := by
  obtain ⟨_, _, h⟩ := s.advance_eq dt; rw [h]; rfl
@[simp] theorem State.advance_slotState (k slot : Nat) : (s.advance dt).slotState k slot = s.slotState k slot := by
  obtain ⟨_, _, h⟩ := s.advance_eq dt; rw [h]; rfl
@[simp] theorem State.advance_jbase (n : Nat) : (s.advance dt).jbase n = s.jbase n := by
  obtain ⟨_, _, h⟩ := s.advance_eq dt; rw [h]; rfl
@[simp] theorem State.advance_header (n : Nat) : (s.advance dt).header n = s.header n := by
  obtain ⟨_, _, h⟩ := s.advance_eq dt; rw [h]; rfl
@[simp] theorem State.advance_headerInvalid (n : Nat) : (s.advance dt).headerInvalid n = s.headerInvalid n := by
  obtain ⟨_, _, h⟩ := s.advance_eq dt; rw [h]; rfl
@[simp] theorem State.advance_rollfwdDue (n : Nat) : (s.advance dt).rollfwdDue n = s.rollfwdDue n := by
  obtain ⟨_, _, h⟩ := s.advance_eq dt; rw [h]; rfl
@[simp] theorem State.advance_passed (e b : Nat) : (s.advance dt).passed e b = s.passed e b := by
  obtain ⟨_, _, h⟩ := s.advance_eq dt; rw [h]; rfl
@[simp] theorem State.advance_canRelease (b : Nat) : (s.advance dt).canRelease b = s.canRelease b := by
  obtain ⟨_, _, h⟩ := s.advance_eq dt; rw [h]; rfl
@[simp] theorem State.advance_sideReady (die : Nat) : (s.advance dt).sideReady die = s.sideReady die := by
  obtain ⟨_, _, h⟩ := s.advance_eq dt; rw [h]; rfl
@[simp] theorem State.advance_monitor (i : Nat) : (s.advance dt).monitor i = s.monitor i := by
  obtain ⟨_, _, h⟩ := s.advance_eq dt; rw [h]; rfl
@[simp] theorem State.advance_srcReady (i : Nat) : (s.advance dt).srcReady i = s.srcReady i := by
  obtain ⟨_, _, h⟩ := s.advance_eq dt; rw [h]; rfl
@[simp] theorem State.advance_aligned : (s.advance dt).aligned = s.aligned := by
  obtain ⟨_, _, h⟩ := s.advance_eq dt; rw [h]; rfl
@[simp] theorem State.advance_recovPresent : (s.advance dt).recovPresent = s.recovPresent := by
  obtain ⟨_, _, h⟩ := s.advance_eq dt; rw [h]; rfl
@[simp] theorem State.advance_switchIdle : (s.advance dt).switchIdle = s.switchIdle := by
  obtain ⟨_, _, h⟩ := s.advance_eq dt; rw [h]; rfl
@[simp] theorem State.advance_selectable (i : Nat) : (s.advance dt).selectable i = s.selectable i := by
  obtain ⟨_, _, h⟩ := s.advance_eq dt; rw [h]; rfl
@[simp] theorem State.advance_hottest : (s.advance dt).hottest = s.hottest := by
  obtain ⟨_, _, h⟩ := s.advance_eq dt; rw [h]; rfl
@[simp] theorem State.advance_anyHeld : (s.advance dt).anyHeld = s.anyHeld := by
  obtain ⟨_, _, h⟩ := s.advance_eq dt; rw [h]; rfl
@[simp] theorem State.advance_alert : (s.advance dt).alert = s.alert := by
  obtain ⟨_, _, h⟩ := s.advance_eq dt; rw [h]; rfl
@[simp] theorem State.advance_ckoOut (n : Nat) : (s.advance dt).ckoOut n = s.ckoOut n := by
  obtain ⟨_, _, h⟩ := s.advance_eq dt; rw [h]; rfl
@[simp] theorem State.advance_domainBooked (b : Nat) : (s.advance dt).domainBooked b = s.domainBooked b := by
  obtain ⟨_, _, h⟩ := s.advance_eq dt; rw [h]; rfl
@[simp] theorem State.advance_sleepState : (s.advance dt).sleepState = s.sleepState := by
  obtain ⟨_, _, h⟩ := s.advance_eq dt; rw [h]; rfl
@[simp] theorem State.advance_dormantAsked : (s.advance dt).dormantAsked = s.dormantAsked := by
  obtain ⟨_, _, h⟩ := s.advance_eq dt; rw [h]; rfl
@[simp] theorem State.advance_retain : (s.advance dt).retain = s.retain := by
  obtain ⟨_, _, h⟩ := s.advance_eq dt; rw [h]; rfl
@[simp] theorem State.advance_sentinel (die i : Nat) : (s.advance dt).sentinel die i = s.sentinel die i := by
  obtain ⟨_, _, h⟩ := s.advance_eq dt; rw [h]; rfl
@[simp] theorem State.advance_readerReady (e : Nat) : (s.advance dt).readerReady e = s.readerReady e := by
  obtain ⟨_, _, h⟩ := s.advance_eq dt; rw [h]; rfl
@[simp] theorem State.advance_loadPoints (t : Nat) : (s.advance dt).loadPoints t = s.loadPoints t := by
  obtain ⟨_, _, h⟩ := s.advance_eq dt; rw [h]; rfl
@[simp] theorem State.advance_placePowered (n : Nat) (p : Place) (len : Nat) : (s.advance dt).placePowered n p len = s.placePowered n p len := by
  obtain ⟨_, _, h⟩ := s.advance_eq dt; rw [h]; rfl
@[simp] theorem State.advance_accFault (n t off len : Nat) : (s.advance dt).accFault n t off len = s.accFault n t off len := by
  obtain ⟨_, _, h⟩ := s.advance_eq dt; rw [h]; rfl
@[simp] theorem State.advance_versions (n : Nat) : (s.advance dt).versions n = s.versions n := by
  obtain ⟨_, _, h⟩ := s.advance_eq dt; rw [h]; rfl
@[simp] theorem State.advance_redirect (n : Nat) (write : Bool) (a len : Nat) : (s.advance dt).redirect n write a len = s.redirect n write a len := by
  obtain ⟨_, _, h⟩ := s.advance_eq dt; rw [h]; rfl
@[simp] theorem State.advance_checkRange (n : Nat) (u : Use) (al a len : Nat) : (s.advance dt).checkRange n u al a len = s.checkRange n u al a len := by
  obtain ⟨_, _, h⟩ := s.advance_eq dt; rw [h]; rfl
@[simp] theorem State.advance_checkDest (n al a len : Nat) : (s.advance dt).checkDest n al a len = s.checkDest n al a len := by
  obtain ⟨_, _, h⟩ := s.advance_eq dt; rw [h]; rfl
@[simp] theorem State.advance_readAt (n : Nat) (p : Place) (len : Nat) : (s.advance dt).readAt n p len = s.readAt n p len := by
  obtain ⟨_, _, h⟩ := s.advance_eq dt; rw [h]; rfl
@[simp] theorem State.advance_verdict : (s.advance dt).verdict = s.verdict := by
  obtain ⟨_, _, h⟩ := s.advance_eq dt; rw [h]; rfl
@[simp] theorem State.advance_readSram (m off n : Nat) : (s.advance dt).readSram m off n = s.readSram m off n := by
  obtain ⟨_, _, h⟩ := s.advance_eq dt; rw [h]; rfl
@[simp] theorem State.advance_readIsram (n off len : Nat) : (s.advance dt).readIsram n off len = s.readIsram n off len := by
  obtain ⟨_, _, h⟩ := s.advance_eq dt; rw [h]; rfl
@[simp] theorem State.advance_record (n : Nat) (o : SlotOp) : (s.advance dt).record n o = s.record n o := by
  obtain ⟨_, _, h⟩ := s.advance_eq dt; rw [h]; rfl
@[simp] theorem State.advance_running (n : Nat) : (s.advance dt).running n = s.running n := by
  obtain ⟨_, _, h⟩ := s.advance_eq dt; rw [h]; rfl
@[simp] theorem State.advance_settled (n : Nat) : (s.advance dt).settled n = s.settled n := by
  obtain ⟨_, _, h⟩ := s.advance_eq dt; rw [h]; rfl
@[simp] theorem State.advance_boundVerdict (n : Nat) : (s.advance dt).boundVerdict n = s.boundVerdict n := by
  obtain ⟨_, _, h⟩ := s.advance_eq dt; rw [h]; rfl
@[simp] theorem State.advance_moveReady (n : Nat) (store : Bool) (o : SlotOp) : (s.advance dt).moveReady n store o = s.moveReady n store o := by
  obtain ⟨_, _, h⟩ := s.advance_eq dt; rw [h]; rfl
@[simp] theorem State.advance_operands (n : Nat) (p : PassRec) : (s.advance dt).operands n p = s.operands n p := by
  obtain ⟨_, _, h⟩ := s.advance_eq dt; rw [h]; rfl
@[simp] theorem State.advance_readDeep (n : Nat) (t : Tile) (x l : Nat) : (s.advance dt).readDeep n t x l = s.readDeep n t x l := by
  obtain ⟨_, _, h⟩ := s.advance_eq dt; rw [h]; rfl
@[simp] theorem State.advance_deepOver (n : Nat) (t : Tile) : (s.advance dt).deepOver n t = s.deepOver n t := by
  obtain ⟨_, _, h⟩ := s.advance_eq dt; rw [h]; rfl
@[simp] theorem State.advance_overSign (n : Nat) (t : Tile) (x l : Nat) : (s.advance dt).overSign n t x l = s.overSign n t x l := by
  obtain ⟨_, _, h⟩ := s.advance_eq dt; rw [h]; rfl
@[simp] theorem State.advance_overTag (n : Nat) (t : Tile) (x : Nat) : (s.advance dt).overTag n t x = s.overTag n t x := by
  obtain ⟨_, _, h⟩ := s.advance_eq dt; rw [h]; rfl
@[simp] theorem State.advance_tileCheck (n mode k : Nat) (rec : List Byte) : (s.advance dt).tileCheck n mode k rec = s.tileCheck n mode k rec := by
  obtain ⟨_, _, h⟩ := s.advance_eq dt; rw [h]; rfl
@[simp] theorem State.advance_drainValue (n : Nat) (t : Tile) (x : Nat) : (s.advance dt).drainValue n t x = s.drainValue n t x := by
  obtain ⟨_, _, h⟩ := s.advance_eq dt; rw [h]; rfl
@[simp] theorem State.advance_drainRow (n : Nat) (o : SlotOp) (rec : List Byte) (t : Tile) (i : Nat) : (s.advance dt).drainRow n o rec t i = s.drainRow n o rec t i := by
  obtain ⟨_, _, h⟩ := s.advance_eq dt; rw [h]; rfl
@[simp] theorem State.advance_rawImage (n : Nat) (t : Tile) : (s.advance dt).rawImage n t = s.rawImage n t := by
  obtain ⟨_, _, h⟩ := s.advance_eq dt; rw [h]; rfl
@[simp] theorem State.advance_microProgram (n : Nat) (e : ElemRec) : (s.advance dt).microProgram n e = s.microProgram n e := by
  obtain ⟨_, _, h⟩ := s.advance_eq dt; rw [h]; rfl
@[simp] theorem State.advance_elemCheck (n : Nat) (r : List Byte) : (s.advance dt).elemCheck n r = s.elemCheck n r := by
  obtain ⟨_, _, h⟩ := s.advance_eq dt; rw [h]; rfl
@[simp] theorem State.advance_streamAt (n : Nat) (sp off len : Nat) : (s.advance dt).streamAt n sp off len = s.streamAt n sp off len := by
  obtain ⟨_, _, h⟩ := s.advance_eq dt; rw [h]; rfl
@[simp] theorem State.advance_openStream (n : Nat) (d : Stream) (count : Nat) : (s.advance dt).openStream n d count = s.openStream n d count := by
  obtain ⟨_, _, h⟩ := s.advance_eq dt; rw [h]; rfl
@[simp] theorem State.advance_outRandom (n : Nat) (e : ElemRec) (d : Stream) (i : Nat) : (s.advance dt).outRandom n e d i = s.outRandom n e d i := by
  obtain ⟨_, _, h⟩ := s.advance_eq dt; rw [h]; rfl
@[simp] theorem State.advance_combRange (n : Nat) (dest : Bool) (u : Use) (al a len : Nat) : (s.advance dt).combRange n dest u al a len = s.combRange n dest u al a len := by
  obtain ⟨_, _, h⟩ := s.advance_eq dt; rw [h]; rfl
@[simp] theorem State.advance_combEntries (n : Nat) (x : CombRec) : (s.advance dt).combEntries n x = s.combEntries n x := by
  obtain ⟨_, _, h⟩ := s.advance_eq dt; rw [h]; rfl
@[simp] theorem State.advance_accPartial (n a : Nat) : (s.advance dt).accPartial n a = s.accPartial n a := by
  obtain ⟨_, _, h⟩ := s.advance_eq dt; rw [h]; rfl
@[simp] theorem State.advance_awlCheck (n : Nat) (o : SlotOp) : (s.advance dt).awlCheck n o = s.awlCheck n o := by
  obtain ⟨_, _, h⟩ := s.advance_eq dt; rw [h]; rfl
@[simp] theorem State.advance_u16s (a n : Nat) : (s.advance dt).u16s a n = s.u16s a n := by
  obtain ⟨_, _, h⟩ := s.advance_eq dt; rw [h]; rfl
@[simp] theorem State.advance_groupAt (a : Nat) : (s.advance dt).groupAt a = s.groupAt a := by
  obtain ⟨_, _, h⟩ := s.advance_eq dt; rw [h]; rfl
@[simp] theorem State.advance_longestCable : (s.advance dt).longestCable = s.longestCable := by
  obtain ⟨_, _, h⟩ := s.advance_eq dt; rw [h]; rfl
@[simp] theorem State.advance_linkTau : (s.advance dt).linkTau = s.linkTau := by
  obtain ⟨_, _, h⟩ := s.advance_eq dt; rw [h]; rfl
@[simp] theorem State.advance_torusDist (a b : Nat) : (s.advance dt).torusDist a b = s.torusDist a b := by
  obtain ⟨_, _, h⟩ := s.advance_eq dt; rw [h]; rfl
@[simp] theorem State.advance_hopNs (hops : Nat) : (s.advance dt).hopNs hops = s.hopNs hops := by
  obtain ⟨_, _, h⟩ := s.advance_eq dt; rw [h]; rfl
@[simp] theorem State.advance_gateLimit : (s.advance dt).gateLimit = s.gateLimit := by
  obtain ⟨_, _, h⟩ := s.advance_eq dt; rw [h]; rfl
@[simp] theorem State.advance_updating : (s.advance dt).updating = s.updating := by
  obtain ⟨_, _, h⟩ := s.advance_eq dt; rw [h]; rfl
@[simp] theorem State.advance_normPartial : (s.advance dt).normPartial = s.normPartial := by
  obtain ⟨_, _, h⟩ := s.advance_eq dt; rw [h]; rfl
@[simp] theorem State.advance_clipOf (sum : Int) : (s.advance dt).clipOf sum = s.clipOf sum := by
  obtain ⟨_, _, h⟩ := s.advance_eq dt; rw [h]; rfl
@[simp] theorem State.advance_readTile (n a len : Nat) : (s.advance dt).readTile n a len = s.readTile n a len := by
  obtain ⟨_, _, h⟩ := s.advance_eq dt; rw [h]; rfl
@[simp] theorem State.advance_copyRangeOk (n a len : Nat) : (s.advance dt).copyRangeOk n a len = s.copyRangeOk n a len := by
  obtain ⟨_, _, h⟩ := s.advance_eq dt; rw [h]; rfl
@[simp] theorem State.advance_bucketAt (a : Nat) : (s.advance dt).bucketAt a = s.bucketAt a := by
  obtain ⟨_, _, h⟩ := s.advance_eq dt; rw [h]; rfl
@[simp] theorem State.advance_vtSt (n e slot : Nat) : (s.advance dt).vtSt n e slot = s.vtSt n e slot := by
  obtain ⟨_, _, h⟩ := s.advance_eq dt; rw [h]; rfl
@[simp] theorem State.advance_entryValid (n e : Nat) : (s.advance dt).entryValid n e = s.entryValid n e := by
  obtain ⟨_, _, h⟩ := s.advance_eq dt; rw [h]; rfl
@[simp] theorem State.advance_slotBase (n e slot : Nat) : (s.advance dt).slotBase n e slot = s.slotBase n e slot := by
  obtain ⟨_, _, h⟩ := s.advance_eq dt; rw [h]; rfl
@[simp] theorem State.advance_slotLen (n e : Nat) : (s.advance dt).slotLen n e = s.slotLen n e := by
  obtain ⟨_, _, h⟩ := s.advance_eq dt; rw [h]; rfl
@[simp] theorem State.advance_currentSlot (n e : Nat) : (s.advance dt).currentSlot n e = s.currentSlot n e := by
  obtain ⟨_, _, h⟩ := s.advance_eq dt; rw [h]; rfl
@[simp] theorem State.advance_targetSlot (n e : Nat) : (s.advance dt).targetSlot n e = s.targetSlot n e := by
  obtain ⟨_, _, h⟩ := s.advance_eq dt; rw [h]; rfl
@[simp] theorem State.advance_targetBusy (n e : Nat) : (s.advance dt).targetBusy n e = s.targetBusy n e := by
  obtain ⟨_, _, h⟩ := s.advance_eq dt; rw [h]; rfl
@[simp] theorem State.advance_currentVersion (n e : Nat) : (s.advance dt).currentVersion n e = s.currentVersion n e := by
  obtain ⟨_, _, h⟩ := s.advance_eq dt; rw [h]; rfl
@[simp] theorem State.advance_entryLeaves (n e : Nat) : (s.advance dt).entryLeaves n e = s.entryLeaves n e := by
  obtain ⟨_, _, h⟩ := s.advance_eq dt; rw [h]; rfl
@[simp] theorem State.advance_entryBlock (n e block : Nat) : (s.advance dt).entryBlock n e block = s.entryBlock n e block := by
  obtain ⟨_, _, h⟩ := s.advance_eq dt; rw [h]; rfl
@[simp] theorem State.advance_endedStep : (s.advance dt).endedStep = s.endedStep := by
  obtain ⟨_, _, h⟩ := s.advance_eq dt; rw [h]; rfl
@[simp] theorem State.advance_ownNodes (g : GroupRec) (entry level node : Nat) : (s.advance dt).ownNodes g entry level node = s.ownNodes g entry level node := by
  obtain ⟨_, _, h⟩ := s.advance_eq dt; rw [h]; rfl
@[simp] theorem State.advance_replying (g : GroupRec) : (s.advance dt).replying g = s.replying g := by
  obtain ⟨_, _, h⟩ := s.advance_eq dt; rw [h]; rfl
@[simp] theorem State.advance_ftState (j : Nat) : (s.advance dt).ftState j = s.ftState j := by
  obtain ⟨_, _, h⟩ := s.advance_eq dt; rw [h]; rfl
@[simp] theorem State.advance_flashTakes (write : Bool) (j : Nat) : (s.advance dt).flashTakes write j = s.flashTakes write j := by
  obtain ⟨_, _, h⟩ := s.advance_eq dt; rw [h]; rfl
@[simp] theorem State.advance_readFlash (l : Locator) (count : Nat) : (s.advance dt).readFlash l count = s.readFlash l count := by
  obtain ⟨_, _, h⟩ := s.advance_eq dt; rw [h]; rfl
@[simp] theorem State.advance_dayBytes (j : Nat) : (s.advance dt).dayBytes j = s.dayBytes j := by
  obtain ⟨_, _, h⟩ := s.advance_eq dt; rw [h]; rfl
@[simp] theorem State.advance_flashDeliver (l : Locator) (count : Nat) : (s.advance dt).flashDeliver l count = s.flashDeliver l count := by
  obtain ⟨_, _, h⟩ := s.advance_eq dt; rw [h]; rfl
@[simp] theorem State.advance_planAt (a : Nat) : (s.advance dt).planAt a = s.planAt a := by
  obtain ⟨_, _, h⟩ := s.advance_eq dt; rw [h]; rfl
@[simp] theorem State.advance_maskOfPlan (n : Nat) (p : PlanRec) : (s.advance dt).maskOfPlan n p = s.maskOfPlan n p := by
  obtain ⟨_, _, h⟩ := s.advance_eq dt; rw [h]; rfl
@[simp] theorem State.advance_words (n a count : Nat) : (s.advance dt).words n a count = s.words n a count := by
  obtain ⟨_, _, h⟩ := s.advance_eq dt; rw [h]; rfl
@[simp] theorem State.advance_hyperAt (i : Nat) : (s.advance dt).hyperAt i = s.hyperAt i := by
  obtain ⟨_, _, h⟩ := s.advance_eq dt; rw [h]; rfl
@[simp] theorem State.advance_scheduleAt (k : Nat) : (s.advance dt).scheduleAt k = s.scheduleAt k := by
  obtain ⟨_, _, h⟩ := s.advance_eq dt; rw [h]; rfl
@[simp] theorem State.advance_gradArea (n : Nat) : (s.advance dt).gradArea n = s.gradArea n := by
  obtain ⟨_, _, h⟩ := s.advance_eq dt; rw [h]; rfl
@[simp] theorem State.advance_grads (n lo hi : Nat) : (s.advance dt).grads n lo hi = s.grads n lo hi := by
  obtain ⟨_, _, h⟩ := s.advance_eq dt; rw [h]; rfl
@[simp] theorem State.advance_trainGrads (n : Nat) (p : PlanRec) (m : Mask) : (s.advance dt).trainGrads n p m = s.trainGrads n p m := by
  obtain ⟨_, _, h⟩ := s.advance_eq dt; rw [h]; rfl
@[simp] theorem State.advance_jrecord (n i : Nat) : (s.advance dt).jrecord n i = s.jrecord n i := by
  obtain ⟨_, _, h⟩ := s.advance_eq dt; rw [h]; rfl
@[simp] theorem State.advance_rowAddr (u : Nat) : (s.advance dt).rowAddr u = s.rowAddr u := by
  obtain ⟨_, _, h⟩ := s.advance_eq dt; rw [h]; rfl
@[simp] theorem State.advance_rowEntry (u : Nat) : (s.advance dt).rowEntry u = s.rowEntry u := by
  obtain ⟨_, _, h⟩ := s.advance_eq dt; rw [h]; rfl
@[simp] theorem State.advance_unitLine (u : Nat) : (s.advance dt).unitLine u = s.unitLine u := by
  obtain ⟨_, _, h⟩ := s.advance_eq dt; rw [h]; rfl
@[simp] theorem State.advance_unitState (u : Nat) : (s.advance dt).unitState u = s.unitState u := by
  obtain ⟨_, _, h⟩ := s.advance_eq dt; rw [h]; rfl
@[simp] theorem State.advance_unitPins (u : Nat) : (s.advance dt).unitPins u = s.unitPins u := by
  obtain ⟨_, _, h⟩ := s.advance_eq dt; rw [h]; rfl
@[simp] theorem State.advance_unitBlocks (u : Nat) : (s.advance dt).unitBlocks u = s.unitBlocks u := by
  obtain ⟨_, _, h⟩ := s.advance_eq dt; rw [h]; rfl
@[simp] theorem State.advance_unitHub (u : Nat) : (s.advance dt).unitHub u = s.unitHub u := by
  obtain ⟨_, _, h⟩ := s.advance_eq dt; rw [h]; rfl
@[simp] theorem State.advance_unitLoc (u : Nat) : (s.advance dt).unitLoc u = s.unitLoc u := by
  obtain ⟨_, _, h⟩ := s.advance_eq dt; rw [h]; rfl
@[simp] theorem State.advance_unitImage (u : Nat) : (s.advance dt).unitImage u = s.unitImage u := by
  obtain ⟨_, _, h⟩ := s.advance_eq dt; rw [h]; rfl
@[simp] theorem State.advance_unitOfPlan (plan : Nat) : (s.advance dt).unitOfPlan plan = s.unitOfPlan plan := by
  obtain ⟨_, _, h⟩ := s.advance_eq dt; rw [h]; rfl
@[simp] theorem State.advance_gapOf (k : Nat) (lazyUnit : Option Nat) : (s.advance dt).gapOf k lazyUnit = s.gapOf k lazyUnit := by
  obtain ⟨_, _, h⟩ := s.advance_eq dt; rw [h]; rfl
@[simp] theorem State.advance_masters (n : Nat) (p : PlanRec) (lo hi : Nat) : (s.advance dt).masters n p lo hi = s.masters n p lo hi := by
  obtain ⟨_, _, h⟩ := s.advance_eq dt; rw [h]; rfl
@[simp] theorem State.advance_anchors (n base size lo hi : Nat) : (s.advance dt).anchors n base size lo hi = s.anchors n base size lo hi := by
  obtain ⟨_, _, h⟩ := s.advance_eq dt; rw [h]; rfl
@[simp] theorem State.advance_shardRows (n e slot : Nat) (g : WGeom) (x : Rect) : (s.advance dt).shardRows n e slot g x = s.shardRows n e slot g x := by
  obtain ⟨_, _, h⟩ := s.advance_eq dt; rw [h]; rfl
@[simp] theorem State.advance_rebaseRound : (s.advance dt).rebaseRound = s.rebaseRound := by
  obtain ⟨_, _, h⟩ := s.advance_eq dt; rw [h]; rfl
@[simp] theorem State.advance_exportAhead (id tensor : Nat) (x : Rect) : (s.advance dt).exportAhead id tensor x = s.exportAhead id tensor x := by
  obtain ⟨_, _, h⟩ := s.advance_eq dt; rw [h]; rfl
@[simp] theorem State.advance_fxBase : (s.advance dt).fxBase = s.fxBase := by
  obtain ⟨_, _, h⟩ := s.advance_eq dt; rw [h]; rfl
@[simp] theorem State.advance_fxFld (off n : Nat) : (s.advance dt).fxFld off n = s.fxFld off n := by
  obtain ⟨_, _, h⟩ := s.advance_eq dt; rw [h]; rfl
@[simp] theorem State.advance_site : (s.advance dt).site = s.site := by
  obtain ⟨_, _, h⟩ := s.advance_eq dt; rw [h]; rfl
@[simp] theorem State.advance_plane : (s.advance dt).plane = s.plane := by
  obtain ⟨_, _, h⟩ := s.advance_eq dt; rw [h]; rfl
@[simp] theorem State.advance_fxEpoch : (s.advance dt).fxEpoch = s.fxEpoch := by
  obtain ⟨_, _, h⟩ := s.advance_eq dt; rw [h]; rfl
@[simp] theorem State.advance_activeSites : (s.advance dt).activeSites = s.activeSites := by
  obtain ⟨_, _, h⟩ := s.advance_eq dt; rw [h]; rfl
@[simp] theorem State.advance_rotation (i : Nat) : (s.advance dt).rotation i = s.rotation i := by
  obtain ⟨_, _, h⟩ := s.advance_eq dt; rw [h]; rfl
@[simp] theorem State.advance_siteWeight (o : Nat) : (s.advance dt).siteWeight o = s.siteWeight o := by
  obtain ⟨_, _, h⟩ := s.advance_eq dt; rw [h]; rfl
@[simp] theorem State.advance_backup (o : Nat) : (s.advance dt).backup o = s.backup o := by
  obtain ⟨_, _, h⟩ := s.advance_eq dt; rw [h]; rfl
@[simp] theorem State.advance_fxPort (k : Nat) : (s.advance dt).fxPort k = s.fxPort k := by
  obtain ⟨_, _, h⟩ := s.advance_eq dt; rw [h]; rfl
@[simp] theorem State.advance_routeTo (d : Nat) : (s.advance dt).routeTo d = s.routeTo d := by
  obtain ⟨_, _, h⟩ := s.advance_eq dt; rw [h]; rfl
@[simp] theorem State.advance_relayPorts (o : Nat) : (s.advance dt).relayPorts o = s.relayPorts o := by
  obtain ⟨_, _, h⟩ := s.advance_eq dt; rw [h]; rfl
@[simp] theorem State.advance_fxShards : (s.advance dt).fxShards = s.fxShards := by
  obtain ⟨_, _, h⟩ := s.advance_eq dt; rw [h]; rfl
@[simp] theorem State.advance_fxTableOk : (s.advance dt).fxTableOk = s.fxTableOk := by
  obtain ⟨_, _, h⟩ := s.advance_eq dt; rw [h]; rfl
@[simp] theorem State.advance_anchorHeld (off n : Nat) : (s.advance dt).anchorHeld off n = s.anchorHeld off n := by
  obtain ⟨_, _, h⟩ := s.advance_eq dt; rw [h]; rfl
@[simp] theorem State.advance_vtRanges (n : Nat) : (s.advance dt).vtRanges n = s.vtRanges n := by
  obtain ⟨_, _, h⟩ := s.advance_eq dt; rw [h]; rfl
@[simp] theorem State.advance_vtFree (n e : Nat) : (s.advance dt).vtFree n e = s.vtFree n e := by
  obtain ⟨_, _, h⟩ := s.advance_eq dt; rw [h]; rfl
@[simp] theorem State.advance_listOk (a n : Nat) : (s.advance dt).listOk a n = s.listOk a n := by
  obtain ⟨_, _, h⟩ := s.advance_eq dt; rw [h]; rfl
@[simp] theorem State.advance_planOk (a : Nat) : (s.advance dt).planOk a = s.planOk a := by
  obtain ⟨_, _, h⟩ := s.advance_eq dt; rw [h]; rfl
@[simp] theorem State.advance_maskOk (n : Nat) (p : PlanRec) : (s.advance dt).maskOk n p = s.maskOk n p := by
  obtain ⟨_, _, h⟩ := s.advance_eq dt; rw [h]; rfl
@[simp] theorem State.advance_planDieOk (n : Nat) (p : PlanRec) : (s.advance dt).planDieOk n p = s.planDieOk n p := by
  obtain ⟨_, _, h⟩ := s.advance_eq dt; rw [h]; rfl
@[simp] theorem State.advance_unitsFit : (s.advance dt).unitsFit = s.unitsFit := by
  obtain ⟨_, _, h⟩ := s.advance_eq dt; rw [h]; rfl
@[simp] theorem State.advance_vtOk (off : Nat) : (s.advance dt).vtOk off = s.vtOk off := by
  obtain ⟨_, _, h⟩ := s.advance_eq dt; rw [h]; rfl
@[simp] theorem State.advance_stagedList (a n : Nat) : (s.advance dt).stagedList a n = s.stagedList a n := by
  obtain ⟨_, _, h⟩ := s.advance_eq dt; rw [h]; rfl
@[simp] theorem State.advance_setOf (id : Nat) (d : List Byte) : (s.advance dt).setOf id d = s.setOf id d := by
  obtain ⟨_, _, h⟩ := s.advance_eq dt; rw [h]; rfl
@[simp] theorem State.advance_openDie (dies : List Nat) : (s.advance dt).openDie dies = s.openDie dies := by
  obtain ⟨_, _, h⟩ := s.advance_eq dt; rw [h]; rfl
@[simp] theorem State.advance_fallbackOk : (s.advance dt).fallbackOk = s.fallbackOk := by
  obtain ⟨_, _, h⟩ := s.advance_eq dt; rw [h]; rfl
@[simp] theorem State.advance_hasGate (n : Nat) : (s.advance dt).hasGate n = s.hasGate n := by
  obtain ⟨_, _, h⟩ := s.advance_eq dt; rw [h]; rfl
@[simp] theorem State.advance_validEntries (n : Nat) : (s.advance dt).validEntries n = s.validEntries n := by
  obtain ⟨_, _, h⟩ := s.advance_eq dt; rw [h]; rfl
@[simp] theorem State.advance_heldSlot (n e tag : Nat) : (s.advance dt).heldSlot n e tag = s.heldSlot n e tag := by
  obtain ⟨_, _, h⟩ := s.advance_eq dt; rw [h]; rfl
@[simp] theorem State.advance_selected (n e pin tag : Nat) : (s.advance dt).selected n e pin tag = s.selected n e pin tag := by
  obtain ⟨_, _, h⟩ := s.advance_eq dt; rw [h]; rfl
@[simp] theorem State.advance_pinRefusal (dies : List Nat) (pin tag : Nat) : (s.advance dt).pinRefusal dies pin tag = s.pinRefusal dies pin tag := by
  obtain ⟨_, _, h⟩ := s.advance_eq dt; rw [h]; rfl
@[simp] theorem State.advance_slowest (dies : List Nat) : (s.advance dt).slowest dies = s.slowest dies := by
  obtain ⟨_, _, h⟩ := s.advance_eq dt; rw [h]; rfl
@[simp] theorem State.advance_gangBound (tau n : Nat) : (s.advance dt).gangBound tau n = s.gangBound tau n := by
  obtain ⟨_, _, h⟩ := s.advance_eq dt; rw [h]; rfl
@[simp] theorem State.advance_windowFor (d : List Byte) : (s.advance dt).windowFor d = s.windowFor d := by
  obtain ⟨_, _, h⟩ := s.advance_eq dt; rw [h]; rfl
@[simp] theorem State.advance_dropsAt (n tag : Nat) : (s.advance dt).dropsAt n tag = s.dropsAt n tag := by
  obtain ⟨_, _, h⟩ := s.advance_eq dt; rw [h]; rfl
@[simp] theorem State.advance_targetFree (n e : Nat) : (s.advance dt).targetFree n e = s.targetFree n e := by
  obtain ⟨_, _, h⟩ := s.advance_eq dt; rw [h]; rfl
@[simp] theorem State.advance_entriesFree (n : Nat) (es : List Nat) : (s.advance dt).entriesFree n es = s.entriesFree n es := by
  obtain ⟨_, _, h⟩ := s.advance_eq dt; rw [h]; rfl
@[simp] theorem State.advance_digestTokens (n : Nat) : (s.advance dt).digestTokens n = s.digestTokens n := by
  obtain ⟨_, _, h⟩ := s.advance_eq dt; rw [h]; rfl
@[simp] theorem State.advance_cobPlan (n tokens bytes notBefore : Nat) (flash : List Nat) : (s.advance dt).cobPlan n tokens bytes notBefore flash = s.cobPlan n tokens bytes notBefore flash := by
  obtain ⟨_, _, h⟩ := s.advance_eq dt; rw [h]; rfl
@[simp] theorem State.advance_updForm (d : List Byte) (w : Nat) : (s.advance dt).updForm d w = s.updForm d w := by
  obtain ⟨_, _, h⟩ := s.advance_eq dt; rw [h]; rfl
@[simp] theorem State.advance_cobK (kind : Nat) : (s.advance dt).cobK kind = s.cobK kind := by
  obtain ⟨_, _, h⟩ := s.advance_eq dt; rw [h]; rfl
@[simp] theorem State.advance_unitList (d : List Byte) : (s.advance dt).unitList d = s.unitList d := by
  obtain ⟨_, _, h⟩ := s.advance_eq dt; rw [h]; rfl
@[simp] theorem State.advance_freeLines (j : Nat) : (s.advance dt).freeLines j = s.freeLines j := by
  obtain ⟨_, _, h⟩ := s.advance_eq dt; rw [h]; rfl
@[simp] theorem State.advance_evictable (u : Nat) : (s.advance dt).evictable u = s.evictable u := by
  obtain ⟨_, _, h⟩ := s.advance_eq dt; rw [h]; rfl
@[simp] theorem State.advance_unitListBad (d : List Byte) : (s.advance dt).unitListBad d = s.unitListBad d := by
  obtain ⟨_, _, h⟩ := s.advance_eq dt; rw [h]; rfl
@[simp] theorem State.advance_pagesOf (u : Nat) : (s.advance dt).pagesOf u = s.pagesOf u := by
  obtain ⟨_, _, h⟩ := s.advance_eq dt; rw [h]; rfl
@[simp] theorem State.advance_planDie (x : Nat × Nat) : (s.advance dt).planDie x = s.planDie x := by
  obtain ⟨_, _, h⟩ := s.advance_eq dt; rw [h]; rfl
@[simp] theorem State.advance_entryGeom (n e : Nat) : (s.advance dt).entryGeom n e = s.entryGeom n e := by
  obtain ⟨_, _, h⟩ := s.advance_eq dt; rw [h]; rfl
@[simp] theorem State.advance_unitHead (u : Nat) : (s.advance dt).unitHead u = s.unitHead u := by
  obtain ⟨_, _, h⟩ := s.advance_eq dt; rw [h]; rfl
@[simp] theorem State.advance_unitNamed (tensor : Nat) (x : Rect) : (s.advance dt).unitNamed tensor x = s.unitNamed tensor x := by
  obtain ⟨_, _, h⟩ := s.advance_eq dt; rw [h]; rfl
@[simp] theorem State.advance_imageHubs (p : ImagePlan) : (s.advance dt).imageHubs p = s.imageHubs p := by
  obtain ⟨_, _, h⟩ := s.advance_eq dt; rw [h]; rfl
@[simp] theorem State.advance_payload (p : ImagePlan) : (s.advance dt).payload p = s.payload p := by
  obtain ⟨_, _, h⟩ := s.advance_eq dt; rw [h]; rfl
@[simp] theorem State.advance_importBusy (p : ImagePlan) : (s.advance dt).importBusy p = s.importBusy p := by
  obtain ⟨_, _, h⟩ := s.advance_eq dt; rw [h]; rfl
@[simp] theorem State.advance_channelNs (bytes hub : Nat) : (s.advance dt).channelNs bytes hub = s.channelNs bytes hub := by
  obtain ⟨_, _, h⟩ := s.advance_eq dt; rw [h]; rfl
@[simp] theorem State.advance_portsToward (dst : Nat) : (s.advance dt).portsToward dst = s.portsToward dst := by
  obtain ⟨_, _, h⟩ := s.advance_eq dt; rw [h]; rfl
@[simp] theorem State.advance_upToward (dst : Nat) : (s.advance dt).upToward dst = s.upToward dst := by
  obtain ⟨_, _, h⟩ := s.advance_eq dt; rw [h]; rfl
@[simp] theorem State.advance_slowLink : (s.advance dt).slowLink = s.slowLink := by
  obtain ⟨_, _, h⟩ := s.advance_eq dt; rw [h]; rfl
@[simp] theorem State.advance_chainHops (g : GroupRec) (ring : Nat) : (s.advance dt).chainHops g ring = s.chainHops g ring := by
  obtain ⟨_, _, h⟩ := s.advance_eq dt; rw [h]; rfl
@[simp] theorem State.advance_sourceBlock (b : Bucket) (x : Rect) (i : Nat) : (s.advance dt).sourceBlock b x i = s.sourceBlock b x i := by
  obtain ⟨_, _, h⟩ := s.advance_eq dt; rw [h]; rfl
@[simp] theorem State.advance_reduceOf (group bucket : Nat) : (s.advance dt).reduceOf group bucket = s.reduceOf group bucket := by
  obtain ⟨_, _, h⟩ := s.advance_eq dt; rw [h]; rfl
@[simp] theorem State.advance_bucketReady (it : Item) : (s.advance dt).bucketReady it = s.bucketReady it := by
  obtain ⟨_, _, h⟩ := s.advance_eq dt; rw [h]; rfl
@[simp] theorem State.advance_shardWriteNs (g : GroupRec) (b : Bucket) : (s.advance dt).shardWriteNs g b = s.shardWriteNs g b := by
  obtain ⟨_, _, h⟩ := s.advance_eq dt; rw [h]; rfl
@[simp] theorem State.advance_bucketOk (g : GroupRec) (b : Bucket) : (s.advance dt).bucketOk g b = s.bucketOk g b := by
  obtain ⟨_, _, h⟩ := s.advance_eq dt; rw [h]; rfl
@[simp] theorem State.advance_canReduce (m : NearMsg) : (s.advance dt).canReduce m = s.canReduce m := by
  obtain ⟨_, _, h⟩ := s.advance_eq dt; rw [h]; rfl
@[simp] theorem State.advance_hopsTo (dst : Nat) : (s.advance dt).hopsTo dst = s.hopsTo dst := by
  obtain ⟨_, _, h⟩ := s.advance_eq dt; rw [h]; rfl
@[simp] theorem State.advance_copyNs (bytes dst : Nat) : (s.advance dt).copyNs bytes dst = s.copyNs bytes dst := by
  obtain ⟨_, _, h⟩ := s.advance_eq dt; rw [h]; rfl
@[simp] theorem State.advance_inTorus (c : Nat) : (s.advance dt).inTorus c = s.inTorus c := by
  obtain ⟨_, _, h⟩ := s.advance_eq dt; rw [h]; rfl
@[simp] theorem State.advance_copyItem (m : NearMsg) : (s.advance dt).copyItem m = s.copyItem m := by
  obtain ⟨_, _, h⟩ := s.advance_eq dt; rw [h]; rfl
@[simp] theorem State.advance_suspectBlocks (n e : Nat) : (s.advance dt).suspectBlocks n e = s.suspectBlocks n e := by
  obtain ⟨_, _, h⟩ := s.advance_eq dt; rw [h]; rfl
@[simp] theorem State.advance_nearLive (p : Nat) : (s.advance dt).nearLive p = s.nearLive p := by
  obtain ⟨_, _, h⟩ := s.advance_eq dt; rw [h]; rfl
@[simp] theorem State.advance_fecLock (p : Nat) : (s.advance dt).fecLock p = s.fecLock p := by
  obtain ⟨_, _, h⟩ := s.advance_eq dt; rw [h]; rfl
@[simp] theorem State.advance_helloBytes (p : Nat) : (s.advance dt).helloBytes p = s.helloBytes p := by
  obtain ⟨_, _, h⟩ := s.advance_eq dt; rw [h]; rfl
@[simp] theorem State.advance_dropsMsg (m : NearMsg) : (s.advance dt).dropsMsg m = s.dropsMsg m := by
  obtain ⟨_, _, h⟩ := s.advance_eq dt; rw [h]; rfl
@[simp] theorem State.advance_encap6 (k : Nat) : (s.advance dt).encap6 k = s.encap6 k := by
  obtain ⟨_, _, h⟩ := s.advance_eq dt; rw [h]; rfl
@[simp] theorem State.advance_macHead (k : Nat) : (s.advance dt).macHead k = s.macHead k := by
  obtain ⟨_, _, h⟩ := s.advance_eq dt; rw [h]; rfl
@[simp] theorem State.advance_wrapFrame (k : Nat) (ngt : List Byte) : (s.advance dt).wrapFrame k ngt = s.wrapFrame k ngt := by
  obtain ⟨_, _, h⟩ := s.advance_eq dt; rw [h]; rfl
@[simp] theorem State.advance_unwrapFrame (k : Nat) (f : List Byte) : (s.advance dt).unwrapFrame k f = s.unwrapFrame k f := by
  obtain ⟨_, _, h⟩ := s.advance_eq dt; rw [h]; rfl
@[simp] theorem State.advance_wireBytes (k payload : Nat) : (s.advance dt).wireBytes k payload = s.wireBytes k payload := by
  obtain ⟨_, _, h⟩ := s.advance_eq dt; rw [h]; rfl
@[simp] theorem State.advance_keySlot (k slot : Nat) : (s.advance dt).keySlot k slot = s.keySlot k slot := by
  obtain ⟨_, _, h⟩ := s.advance_eq dt; rw [h]; rfl
@[simp] theorem State.advance_overlapNs (k : Nat) : (s.advance dt).overlapNs k = s.overlapNs k := by
  obtain ⟨_, _, h⟩ := s.advance_eq dt; rw [h]; rfl
@[simp] theorem State.advance_itemFrames (id : Nat) : (s.advance dt).itemFrames id = s.itemFrames id := by
  obtain ⟨_, _, h⟩ := s.advance_eq dt; rw [h]; rfl
@[simp] theorem State.advance_farLive (k : Nat) : (s.advance dt).farLive k = s.farLive k := by
  obtain ⟨_, _, h⟩ := s.advance_eq dt; rw [h]; rfl
@[simp] theorem State.advance_canSeal (k : Nat) : (s.advance dt).canSeal k = s.canSeal k := by
  obtain ⟨_, _, h⟩ := s.advance_eq dt; rw [h]; rfl
@[simp] theorem State.advance_farRate (k : Nat) : (s.advance dt).farRate k = s.farRate k := by
  obtain ⟨_, _, h⟩ := s.advance_eq dt; rw [h]; rfl
@[simp] theorem State.advance_relayPct (k : Nat) : (s.advance dt).relayPct k = s.relayPct k := by
  obtain ⟨_, _, h⟩ := s.advance_eq dt; rw [h]; rfl
@[simp] theorem State.advance_shareNs (k pct bytes : Nat) : (s.advance dt).shareNs k pct bytes = s.shareNs k pct bytes := by
  obtain ⟨_, _, h⟩ := s.advance_eq dt; rw [h]; rfl
@[simp] theorem State.advance_rttEnv (k : Nat) : (s.advance dt).rttEnv k = s.rttEnv k := by
  obtain ⟨_, _, h⟩ := s.advance_eq dt; rw [h]; rfl
@[simp] theorem State.advance_rto (k : Nat) : (s.advance dt).rto k = s.rto k := by
  obtain ⟨_, _, h⟩ := s.advance_eq dt; rw [h]; rfl
@[simp] theorem State.advance_remainingNs (k : Nat) (it : Item) : (s.advance dt).remainingNs k it = s.remainingNs k it := by
  obtain ⟨_, _, h⟩ := s.advance_eq dt; rw [h]; rfl
@[simp] theorem State.advance_lossAllowance (k : Nat) (it : Item) : (s.advance dt).lossAllowance k it = s.lossAllowance k it := by
  obtain ⟨_, _, h⟩ := s.advance_eq dt; rw [h]; rfl
@[simp] theorem State.advance_payloadBytes (f : FarFrame) : (s.advance dt).payloadBytes f = s.payloadBytes f := by
  obtain ⟨_, _, h⟩ := s.advance_eq dt; rw [h]; rfl
@[simp] theorem State.advance_portTo (d : Nat) : (s.advance dt).portTo d = s.portTo d := by
  obtain ⟨_, _, h⟩ := s.advance_eq dt; rw [h]; rfl
@[simp] theorem State.advance_ownMsg (kind dst round shard : Nat) (body : List Byte) : (s.advance dt).ownMsg kind dst round shard body = s.ownMsg kind dst round shard body := by
  obtain ⟨_, _, h⟩ := s.advance_eq dt; rw [h]; rfl
@[simp] theorem State.advance_recvSlot (round origin shard : Nat) : (s.advance dt).recvSlot round origin shard = s.recvSlot round origin shard := by
  obtain ⟨_, _, h⟩ := s.advance_eq dt; rw [h]; rfl
@[simp] theorem State.advance_epochOk (h : NgtHead) : (s.advance dt).epochOk h = s.epochOk h := by
  obtain ⟨_, _, h⟩ := s.advance_eq dt; rw [h]; rfl
@[simp] theorem State.advance_frameOk (k : Nat) (h : NgtHead) (p : List Byte) : (s.advance dt).frameOk k h p = s.frameOk k h p := by
  obtain ⟨_, _, h⟩ := s.advance_eq dt; rw [h]; rfl
@[simp] theorem State.advance_exch (round shard : Nat) : (s.advance dt).exch round shard = s.exch round shard := by
  obtain ⟨_, _, h⟩ := s.advance_eq dt; rw [h]; rfl
@[simp] theorem State.advance_gateway : (s.advance dt).gateway = s.gateway := by
  obtain ⟨_, _, h⟩ := s.advance_eq dt; rw [h]; rfl
@[simp] theorem State.advance_roundOk (round : Nat) : (s.advance dt).roundOk round = s.roundOk round := by
  obtain ⟨_, _, h⟩ := s.advance_eq dt; rw [h]; rfl
@[simp] theorem State.advance_memberHeld (round origin shard : Nat) : (s.advance dt).memberHeld round origin shard = s.memberHeld round origin shard := by
  obtain ⟨_, _, h⟩ := s.advance_eq dt; rw [h]; rfl
@[simp] theorem State.advance_heldMask (round shard : Nat) : (s.advance dt).heldMask round shard = s.heldMask round shard := by
  obtain ⟨_, _, h⟩ := s.advance_eq dt; rw [h]; rfl
@[simp] theorem State.advance_memberAt (x : FxShard) (round origin : Nat) : (s.advance dt).memberAt x round origin = s.memberAt x round origin := by
  obtain ⟨_, _, h⟩ := s.advance_eq dt; rw [h]; rfl
@[simp] theorem State.advance_hbmWords (a n : Nat) : (s.advance dt).hbmWords a n = s.hbmWords a n := by
  obtain ⟨_, _, h⟩ := s.advance_eq dt; rw [h]; rfl
@[simp] theorem State.advance_countedFrames (k bytes : Nat) : (s.advance dt).countedFrames k bytes = s.countedFrames k bytes := by
  obtain ⟨_, _, h⟩ := s.advance_eq dt; rw [h]; rfl
@[simp] theorem State.advance_sendNs (k frames : Nat) : (s.advance dt).sendNs k frames = s.sendNs k frames := by
  obtain ⟨_, _, h⟩ := s.advance_eq dt; rw [h]; rfl
@[simp] theorem State.advance_countersCover (k frames : Nat) : (s.advance dt).countersCover k frames = s.countersCover k frames := by
  obtain ⟨_, _, h⟩ := s.advance_eq dt; rw [h]; rfl
@[simp] theorem State.advance_holdRecords (round : Nat) : (s.advance dt).holdRecords round = s.holdRecords round := by
  obtain ⟨_, _, h⟩ := s.advance_eq dt; rw [h]; rfl
@[simp] theorem State.advance_reporters (e : Exchange) (late : Bool) (o : Nat) : (s.advance dt).reporters e late o = s.reporters e late o := by
  obtain ⟨_, _, h⟩ := s.advance_eq dt; rw [h]; rfl
@[simp] theorem State.advance_holderOf (o : Nat) (l : List Nat) : (s.advance dt).holderOf o l = s.holderOf o l := by
  obtain ⟨_, _, h⟩ := s.advance_eq dt; rw [h]; rfl
@[simp] theorem State.advance_formManifest (e : Exchange) : (s.advance dt).formManifest e = s.formManifest e := by
  obtain ⟨_, _, h⟩ := s.advance_eq dt; rw [h]; rfl
@[simp] theorem State.advance_fetchCycle (holder origin : Nat) : (s.advance dt).fetchCycle holder origin = s.fetchCycle holder origin := by
  obtain ⟨_, _, h⟩ := s.advance_eq dt; rw [h]; rfl
@[simp] theorem State.advance_namedHolder (round shard origin : Nat) : (s.advance dt).namedHolder round shard origin = s.namedHolder round shard origin := by
  obtain ⟨_, _, h⟩ := s.advance_eq dt; rw [h]; rfl
@[simp] theorem State.advance_memberWeight (om : Word) (round : Nat) (m : Nat × Nat) : (s.advance dt).memberWeight om round m = s.memberWeight om round m := by
  obtain ⟨_, _, h⟩ := s.advance_eq dt; rw [h]; rfl
@[simp] theorem State.advance_mergedDelta (x : FxShard) (round ontime late : Nat) : (s.advance dt).mergedDelta x round ontime late = s.mergedDelta x round ontime late := by
  obtain ⟨_, _, h⟩ := s.advance_eq dt; rw [h]; rfl
@[simp] theorem State.advance_anchorPayload (x : FxShard) : (s.advance dt).anchorPayload x = s.anchorPayload x := by
  obtain ⟨_, _, h⟩ := s.advance_eq dt; rw [h]; rfl
@[simp] theorem State.advance_anchorLeaves (x : FxShard) : (s.advance dt).anchorLeaves x = s.anchorLeaves x := by
  obtain ⟨_, _, h⟩ := s.advance_eq dt; rw [h]; rfl
@[simp] theorem State.advance_shardImage (x : FxShard) (item round : Nat) : (s.advance dt).shardImage x item round = s.shardImage x item round := by
  obtain ⟨_, _, h⟩ := s.advance_eq dt; rw [h]; rfl
@[simp] theorem State.advance_blockAsked (m : FarMsg) : (s.advance dt).blockAsked m = s.blockAsked m := by
  obtain ⟨_, _, h⟩ := s.advance_eq dt; rw [h]; rfl
@[simp] theorem State.advance_snapItem (m : FarMsg) : (s.advance dt).snapItem m = s.snapItem m := by
  obtain ⟨_, _, h⟩ := s.advance_eq dt; rw [h]; rfl
@[simp] theorem State.advance_loadedKey (d : List Byte) : (s.advance dt).loadedKey d = s.loadedKey d := by
  obtain ⟨_, _, h⟩ := s.advance_eq dt; rw [h]; rfl
@[simp] theorem State.advance_loadRefusal (d : List Byte) : (s.advance dt).loadRefusal d = s.loadRefusal d := by
  obtain ⟨_, _, h⟩ := s.advance_eq dt; rw [h]; rfl
@[simp] theorem State.advance_switchRefusal (d : List Byte) : (s.advance dt).switchRefusal d = s.switchRefusal d := by
  obtain ⟨_, _, h⟩ := s.advance_eq dt; rw [h]; rfl
@[simp] theorem State.advance_eraseRefusal (d : List Byte) : (s.advance dt).eraseRefusal d = s.eraseRefusal d := by
  obtain ⟨_, _, h⟩ := s.advance_eq dt; rw [h]; rfl
@[simp] theorem State.advance_sealBusy (k : Nat) : (s.advance dt).sealBusy k = s.sealBusy k := by
  obtain ⟨_, _, h⟩ := s.advance_eq dt; rw [h]; rfl
@[simp] theorem State.advance_fuseValue (d : List Byte) : (s.advance dt).fuseValue d = s.fuseValue d := by
  obtain ⟨_, _, h⟩ := s.advance_eq dt; rw [h]; rfl
@[simp] theorem State.advance_isFuseItem (id : Nat) : (s.advance dt).isFuseItem id = s.isFuseItem id := by
  obtain ⟨_, _, h⟩ := s.advance_eq dt; rw [h]; rfl
@[simp] theorem State.advance_wire (die : Nat) (i : Island) : (s.advance dt).wire die i = s.wire die i := by
  obtain ⟨_, _, h⟩ := s.advance_eq dt; rw [h]; rfl
@[simp] theorem State.advance_crossUp (c : Nat) : (s.advance dt).crossUp c = s.crossUp c := by
  obtain ⟨_, _, h⟩ := s.advance_eq dt; rw [h]; rfl
@[simp] theorem State.advance_controlOk (die : Nat) : (s.advance dt).controlOk die = s.controlOk die := by
  obtain ⟨_, _, h⟩ := s.advance_eq dt; rw [h]; rfl
@[simp] theorem State.advance_hubServes (j : Nat) : (s.advance dt).hubServes j = s.hubServes j := by
  obtain ⟨_, _, h⟩ := s.advance_eq dt; rw [h]; rfl
@[simp] theorem State.advance_answers (b : BarBlock) : (s.advance dt).answers b = s.answers b := by
  obtain ⟨_, _, h⟩ := s.advance_eq dt; rw [h]; rfl
@[simp] theorem State.advance_lastReading (n : Nat) : (s.advance dt).lastReading n = s.lastReading n := by
  obtain ⟨_, _, h⟩ := s.advance_eq dt; rw [h]; rfl
@[simp] theorem State.advance_channelUp (c : Channel) : (s.advance dt).channelUp c = s.channelUp c := by
  obtain ⟨_, _, h⟩ := s.advance_eq dt; rw [h]; rfl
@[simp] theorem State.advance_route (a b : FabricEnd) : (s.advance dt).route a b = s.route a b := by
  obtain ⟨_, _, h⟩ := s.advance_eq dt; rw [h]; rfl
@[simp] theorem State.advance_attachedHub (k j : Nat) : (s.advance dt).attachedHub k j = s.attachedHub k j := by
  obtain ⟨_, _, h⟩ := s.advance_eq dt; rw [h]; rfl
@[simp] theorem State.advance_reaches (a b : FabricEnd) : (s.advance dt).reaches a b = s.reaches a b := by
  obtain ⟨_, _, h⟩ := s.advance_eq dt; rw [h]; rfl
@[simp] theorem State.advance_cobblerFree (it : Item) : (s.advance dt).cobblerFree it = s.cobblerFree it := by
  obtain ⟨_, _, h⟩ := s.advance_eq dt; rw [h]; rfl
@[simp] theorem State.advance_transfers (it : Item) : (s.advance dt).transfers it = s.transfers it := by
  obtain ⟨_, _, h⟩ := s.advance_eq dt; rw [h]; rfl
@[simp] theorem State.advance_portFlows (p : Nat) : (s.advance dt).portFlows p = s.portFlows p := by
  obtain ⟨_, _, h⟩ := s.advance_eq dt; rw [h]; rfl
@[simp] theorem State.advance_firstPort (m : NearMsg) : (s.advance dt).firstPort m = s.firstPort m := by
  obtain ⟨_, _, h⟩ := s.advance_eq dt; rw [h]; rfl
@[simp] theorem State.advance_touchesHub (j : Nat) (it : Item) : (s.advance dt).touchesHub j it = s.touchesHub j it := by
  obtain ⟨_, _, h⟩ := s.advance_eq dt; rw [h]; rfl
@[simp] theorem State.advance_itemsLost (r : ResetSource) : (s.advance dt).itemsLost r = s.itemsLost r := by
  obtain ⟨_, _, h⟩ := s.advance_eq dt; rw [h]; rfl
@[simp] theorem State.advance_moduleSpeed (k : Nat) : (s.advance dt).moduleSpeed k = s.moduleSpeed k := by
  obtain ⟨_, _, h⟩ := s.advance_eq dt; rw [h]; rfl
@[simp] theorem State.advance_following : (s.advance dt).following = s.following := by
  obtain ⟨_, _, h⟩ := s.advance_eq dt; rw [h]; rfl
@[simp] theorem State.advance_alertNow : (s.advance dt).alertNow = s.alertNow := by
  obtain ⟨_, _, h⟩ := s.advance_eq dt; rw [h]; rfl
@[simp] theorem State.advance_ckoNow (n : Nat) : (s.advance dt).ckoNow n = s.ckoNow n := by
  obtain ⟨_, _, h⟩ := s.advance_eq dt; rw [h]; rfl
@[simp] theorem State.advance_turnComes (b : Nat) : (s.advance dt).turnComes b = s.turnComes b := by
  obtain ⟨_, _, h⟩ := s.advance_eq dt; rw [h]; rfl
@[simp] theorem State.advance_skipped (b : Nat) : (s.advance dt).skipped b = s.skipped b := by
  obtain ⟨_, _, h⟩ := s.advance_eq dt; rw [h]; rfl
@[simp] theorem State.advance_tauFloor (n : Nat) : (s.advance dt).tauFloor n = s.tauFloor n := by
  obtain ⟨_, _, h⟩ := s.advance_eq dt; rw [h]; rfl
@[simp] theorem State.advance_aboveHold (n : Nat) : (s.advance dt).aboveHold n = s.aboveHold n := by
  obtain ⟨_, _, h⟩ := s.advance_eq dt; rw [h]; rfl
@[simp] theorem State.advance_heldVcore (n v : Nat) : (s.advance dt).heldVcore n v = s.heldVcore n v := by
  obtain ⟨_, _, h⟩ := s.advance_eq dt; rw [h]; rfl
@[simp] theorem State.advance_placeOpen (p : Place) (len : Nat) : (s.advance dt).placeOpen p len = s.placeOpen p len := by
  obtain ⟨_, _, h⟩ := s.advance_eq dt; rw [h]; rfl
@[simp] theorem State.advance_exportHeld (item a len : Nat) : (s.advance dt).exportHeld item a len = s.exportHeld item a len := by
  obtain ⟨_, _, h⟩ := s.advance_eq dt; rw [h]; rfl
@[simp] theorem State.advance_rangeReady (n : Nat) (store : Bool) (r : Nat × Nat) : (s.advance dt).rangeReady n store r = s.rangeReady n store r := by
  obtain ⟨_, _, h⟩ := s.advance_eq dt; rw [h]; rfl
@[simp] theorem State.advance_tileIdle (n : Nat) (p : Place) : (s.advance dt).tileIdle n p = s.tileIdle n p := by
  obtain ⟨_, _, h⟩ := s.advance_eq dt; rw [h]; rfl
@[simp] theorem State.advance_beyondImage (n : Nat) (p : Place) (len : Nat) : (s.advance dt).beyondImage n p len = s.beyondImage n p len := by
  obtain ⟨_, _, h⟩ := s.advance_eq dt; rw [h]; rfl
@[simp] theorem State.advance_xsBad (n c : Nat) (p : Place) : (s.advance dt).xsBad n c p = s.xsBad n c p := by
  obtain ⟨_, _, h⟩ := s.advance_eq dt; rw [h]; rfl
@[simp] theorem State.advance_readsUnsettled (n : Nat) (o : SlotOp) : (s.advance dt).readsUnsettled n o = s.readsUnsettled n o := by
  obtain ⟨_, _, h⟩ := s.advance_eq dt; rw [h]; rfl
@[simp] theorem State.advance_linkDiesOn : (s.advance dt).linkDiesOn = s.linkDiesOn := by
  obtain ⟨_, _, h⟩ := s.advance_eq dt; rw [h]; rfl
@[simp] theorem State.advance_ownLeft (r : Reduce) : (s.advance dt).ownLeft r = s.ownLeft r := by
  obtain ⟨_, _, h⟩ := s.advance_eq dt; rw [h]; rfl
@[simp] theorem State.advance_fxReservedOk : (s.advance dt).fxReservedOk = s.fxReservedOk := by
  obtain ⟨_, _, h⟩ := s.advance_eq dt; rw [h]; rfl
@[simp] theorem State.advance_nextStart (shard : Nat) : (s.advance dt).nextStart shard = s.nextStart shard := by
  obtain ⟨_, _, h⟩ := s.advance_eq dt; rw [h]; rfl
@[simp] theorem State.advance_hypersOk (a : Nat) : (s.advance dt).hypersOk a = s.hypersOk a := by
  obtain ⟨_, _, h⟩ := s.advance_eq dt; rw [h]; rfl
@[simp] theorem State.advance_segmentsOk (a : Nat) : (s.advance dt).segmentsOk a = s.segmentsOk a := by
  obtain ⟨_, _, h⟩ := s.advance_eq dt; rw [h]; rfl
@[simp] theorem State.advance_updBytes (d : List Byte) (w : Nat) : (s.advance dt).updBytes d w = s.updBytes d w := by
  obtain ⟨_, _, h⟩ := s.advance_eq dt; rw [h]; rfl
@[simp] theorem State.advance_unitBytes (d : List Byte) : (s.advance dt).unitBytes d = s.unitBytes d := by
  obtain ⟨_, _, h⟩ := s.advance_eq dt; rw [h]; rfl
@[simp] theorem State.advance_readIssued (u : Nat) : (s.advance dt).readIssued u = s.readIssued u := by
  obtain ⟨_, _, h⟩ := s.advance_eq dt; rw [h]; rfl
@[simp] theorem State.advance_planRanges (p : ImagePlan) : (s.advance dt).planRanges p = s.planRanges p := by
  obtain ⟨_, _, h⟩ := s.advance_eq dt; rw [h]; rfl
@[simp] theorem State.advance_importStores (p : ImagePlan) : (s.advance dt).importStores p = s.importStores p := by
  obtain ⟨_, _, h⟩ := s.advance_eq dt; rw [h]; rfl
@[simp] theorem State.advance_channelTau (hub : Nat) : (s.advance dt).channelTau hub = s.channelTau hub := by
  obtain ⟨_, _, h⟩ := s.advance_eq dt; rw [h]; rfl
@[simp] theorem State.advance_channelDies (hub : Nat) : (s.advance dt).channelDies hub = s.channelDies hub := by
  obtain ⟨_, _, h⟩ := s.advance_eq dt; rw [h]; rfl
@[simp] theorem State.advance_contribSends : (s.advance dt).contribSends = s.contribSends := by
  obtain ⟨_, _, h⟩ := s.advance_eq dt; rw [h]; rfl
@[simp] theorem State.advance_otherTrailer (k : Nat) (head body tag : List Byte) : (s.advance dt).otherTrailer k head body tag = s.otherTrailer k head body tag := by
  obtain ⟨_, _, h⟩ := s.advance_eq dt; rw [h]; rfl
@[simp] theorem State.advance_notPast (round : Nat) : (s.advance dt).notPast round = s.notPast round := by
  obtain ⟨_, _, h⟩ := s.advance_eq dt; rw [h]; rfl
@[simp] theorem State.advance_seedQ (x : FxShard) : (s.advance dt).seedQ x = s.seedQ x := by
  obtain ⟨_, _, h⟩ := s.advance_eq dt; rw [h]; rfl
@[simp] theorem State.advance_warmQ (x : FxShard) : (s.advance dt).warmQ x = s.warmQ x := by
  obtain ⟨_, _, h⟩ := s.advance_eq dt; rw [h]; rfl
@[simp] theorem State.advance_hasFeedback (x : FxShard) : (s.advance dt).hasFeedback x = s.hasFeedback x := by
  obtain ⟨_, _, h⟩ := s.advance_eq dt; rw [h]; rfl
@[simp] theorem State.advance_feedbackOf (x : FxShard) : (s.advance dt).feedbackOf x = s.feedbackOf x := by
  obtain ⟨_, _, h⟩ := s.advance_eq dt; rw [h]; rfl
@[simp] theorem State.advance_formImage (x : FxShard) (mm : List Word) : (s.advance dt).formImage x mm = s.formImage x mm := by
  obtain ⟨_, _, h⟩ := s.advance_eq dt; rw [h]; rfl
@[simp] theorem State.advance_fetchNs (k bytes : Nat) : (s.advance dt).fetchNs k bytes = s.fetchNs k bytes := by
  obtain ⟨_, _, h⟩ := s.advance_eq dt; rw [h]; rfl
@[simp] theorem State.advance_thinningDies (x : FxShard) : (s.advance dt).thinningDies x = s.thinningDies x := by
  obtain ⟨_, _, h⟩ := s.advance_eq dt; rw [h]; rfl
@[simp] theorem State.advance_shardAddr (x : FxShard) : (s.advance dt).shardAddr x = s.shardAddr x := by
  obtain ⟨_, _, h⟩ := s.advance_eq dt; rw [h]; rfl
@[simp] theorem State.advance_outerDue (n : Nat) : (s.advance dt).outerDue n = s.outerDue n := by
  obtain ⟨_, _, h⟩ := s.advance_eq dt; rw [h]; rfl
@[simp] theorem State.advance_mirrorRead (off : Nat) (wide : Bool) : (s.advance dt).mirrorRead off wide = s.mirrorRead off wide := by
  obtain ⟨_, _, h⟩ := s.advance_eq dt; rw [h]; rfl
@[simp] theorem State.advance_hostUp : (s.advance dt).hostUp = s.hostUp := by
  obtain ⟨_, _, h⟩ := s.advance_eq dt; rw [h]; rfl
@[simp] theorem State.advance_l0Contained : (s.advance dt).l0Contained = s.l0Contained := by
  obtain ⟨_, _, h⟩ := s.advance_eq dt; rw [h]; rfl
@[simp] theorem State.advance_decidedAs (id : Nat) : (s.advance dt).decidedAs id = s.decidedAs id := by
  obtain ⟨_, _, h⟩ := s.advance_eq dt; rw [h]; rfl
@[simp] theorem State.advance_named (id : Nat) : (s.advance dt).named id = s.named id := by
  obtain ⟨_, _, h⟩ := s.advance_eq dt; rw [h]; rfl
@[simp] theorem State.advance_readersOf (own : Bool) (die : Nat) : (s.advance dt).readersOf own die = s.readersOf own die := by
  obtain ⟨_, _, h⟩ := s.advance_eq dt; rw [h]; rfl
@[simp] theorem State.advance_lostUnits (j : Nat) : (s.advance dt).lostUnits j = s.lostUnits j := by
  obtain ⟨_, _, h⟩ := s.advance_eq dt; rw [h]; rfl
@[simp] theorem State.advance_portsTaken (blocks : List Nat) : (s.advance dt).portsTaken blocks = s.portsTaken blocks := by
  obtain ⟨_, _, h⟩ := s.advance_eq dt; rw [h]; rfl
@[simp] theorem State.advance_plannedNeighbour (p : Nat) : (s.advance dt).plannedNeighbour p = s.plannedNeighbour p := by
  obtain ⟨_, _, h⟩ := s.advance_eq dt; rw [h]; rfl
@[simp] theorem State.advance_reportsNeighbour (p : Nat) : (s.advance dt).reportsNeighbour p = s.reportsNeighbour p := by
  obtain ⟨_, _, h⟩ := s.advance_eq dt; rw [h]; rfl
@[simp] theorem State.advance_domainHeld : (s.advance dt).domainHeld = s.domainHeld := by
  obtain ⟨_, _, h⟩ := s.advance_eq dt; rw [h]; rfl
@[simp] theorem State.advance_woken (b : Nat) : (s.advance dt).woken b = s.woken b := by
  obtain ⟨_, _, h⟩ := s.advance_eq dt; rw [h]; rfl
@[simp] theorem State.advance_refusalRun (channel unit : Nat) : (s.advance dt).refusalRun channel unit = s.refusalRun channel unit := by
  obtain ⟨_, _, h⟩ := s.advance_eq dt; rw [h]; rfl
@[simp] theorem State.advance_boardFull (n : Nat) : (s.advance dt).boardFull n = s.boardFull n := by
  obtain ⟨_, _, h⟩ := s.advance_eq dt; rw [h]; rfl
@[simp] theorem State.advance_armsDue : (s.advance dt).armsDue = s.armsDue := by
  obtain ⟨_, _, h⟩ := s.advance_eq dt; rw [h]; rfl
@[simp] theorem State.advance_stepHeld (k : Nat) : (s.advance dt).stepHeld k = s.stepHeld k := by
  obtain ⟨_, _, h⟩ := s.advance_eq dt; rw [h]; rfl
@[simp] theorem State.advance_stepOfStart (arm : Bool) : (s.advance dt).stepOfStart arm = s.stepOfStart arm := by
  obtain ⟨_, _, h⟩ := s.advance_eq dt; rw [h]; rfl
@[simp] theorem State.advance_qhatRanges (tensor : Nat) (x : Rect) : (s.advance dt).qhatRanges tensor x = s.qhatRanges tensor x := by
  obtain ⟨_, _, h⟩ := s.advance_eq dt; rw [h]; rfl
@[simp] theorem State.advance_movedRanges (p : ImagePlan) : (s.advance dt).movedRanges p = s.movedRanges p := by
  obtain ⟨_, _, h⟩ := s.advance_eq dt; rw [h]; rfl
@[simp] theorem State.advance_unitBeyond (p : ImagePlan) : (s.advance dt).unitBeyond p = s.unitBeyond p := by
  obtain ⟨_, _, h⟩ := s.advance_eq dt; rw [h]; rfl
@[simp] theorem State.advance_farOn (k : Nat) : (s.advance dt).farOn k = s.farOn k := by
  obtain ⟨_, _, h⟩ := s.advance_eq dt; rw [h]; rfl
@[simp] theorem State.advance_itemBytes (k : Nat) (it : Item) : (s.advance dt).itemBytes k it = s.itemBytes k it := by
  obtain ⟨_, _, h⟩ := s.advance_eq dt; rw [h]; rfl
@[simp] theorem State.advance_readable (k : Nat) (f : FarFrame) : (s.advance dt).readable k f = s.readable k f := by
  obtain ⟨_, _, h⟩ := s.advance_eq dt; rw [h]; rfl
@[simp] theorem State.advance_contribWaits (k : Nat) (h : NgtHead) (p : List Byte) : (s.advance dt).contribWaits k h p = s.contribWaits k h p := by
  obtain ⟨_, _, h⟩ := s.advance_eq dt; rw [h]; rfl
@[simp] theorem State.advance_droppedOf (round shard : Nat) : (s.advance dt).droppedOf round shard = s.droppedOf round shard := by
  obtain ⟨_, _, h⟩ := s.advance_eq dt; rw [h]; rfl

@[simp] theorem State.advance_decides (kind : Nat × Nat) : (s.advance dt).decides kind = s.decides kind := by
  simp only [State.decides, State.advance_admitting, State.advance_hostUp]
@[simp] theorem State.advance_clearedSectors (a : RecArea) (thr : BitVec 32) : (s.advance dt).clearedSectors a thr = s.clearedSectors a thr := by
  unfold State.advance; dsimp only; split <;> split <;> rfl
@[simp] theorem State.advance_openable (a : RecArea) (sector : Nat) : (s.advance dt).openable a sector = s.openable a sector := by
  unfold State.advance; dsimp only; split <;> split <;> rfl

end Sys2Proof.Machine
end

