-- ==== Sys2Proof/Laws/Bits.lean ====
section
/-! SUPPORT. Laws of bit fields and of bytes. -/

namespace Sys2Proof.Machine

/-! ### Bit fields -/

theorem bitsOf_lt (v hi lo : Nat) : bitsOf v hi lo < 2 ^ (hi + 1 - lo) := Nat.mod_lt _ (by positivity)

theorem bitsOf_testBit (v hi lo i : Nat) :
    (bitsOf v hi lo).testBit i = (decide (i < hi + 1 - lo) && v.testBit (lo + i)) := by
  simp [bitsOf, Nat.testBit_mod_two_pow, Nat.testBit_div_two_pow, Nat.add_comm]

theorem putBits_testBit (v hi lo x i : Nat) (h : lo ≤ hi) :
    (putBits v hi lo x).testBit i =
      if i < lo then v.testBit i else if i ≤ hi then x.testBit (i - lo) else v.testBit i := by
  have e : putBits v hi lo x
      = 2 ^ (hi + 1) * (v / 2 ^ (hi + 1)) + (2 ^ lo * (x % 2 ^ (hi + 1 - lo)) + v % 2 ^ lo) := by
    unfold putBits; ring
  have b1 : v % 2 ^ lo < 2 ^ lo := Nat.mod_lt _ (by positivity)
  have b2 : 2 ^ lo * (x % 2 ^ (hi + 1 - lo)) + v % 2 ^ lo < 2 ^ (hi + 1) := by
    have : x % 2 ^ (hi + 1 - lo) < 2 ^ (hi + 1 - lo) := Nat.mod_lt _ (by positivity)
    have e2 : 2 ^ (hi + 1) = 2 ^ lo * 2 ^ (hi + 1 - lo) := by rw [← pow_add]; congr 1; omega
    rw [e2]
    calc _ < 2 ^ lo * (x % 2 ^ (hi + 1 - lo)) + 2 ^ lo := by omega
      _ = 2 ^ lo * (x % 2 ^ (hi + 1 - lo) + 1) := by ring
      _ ≤ _ := Nat.mul_le_mul_left _ this
  rw [e, Nat.testBit_two_pow_mul_add _ b2, Nat.testBit_two_pow_mul_add _ b1]
  by_cases h1 : i < lo
  · have : i < hi + 1 := by omega
    simp [h1, this, Nat.testBit_mod_two_pow]
  · by_cases h2 : i ≤ hi
    · have a : i < hi + 1 := by omega
      have b : i - lo < hi + 1 - lo := by omega
      simp [h1, h2, a, b, Nat.testBit_mod_two_pow]
    · have a : ¬ i < hi + 1 := by omega
      have c : i - (hi + 1) + (hi + 1) = i := by omega
      simp [h1, h2, a, Nat.testBit_div_two_pow, c]

/-- A field reads as what was put there. -/
theorem bitsOf_putBits_same (v hi lo x : Nat) (h : lo ≤ hi) :
    bitsOf (putBits v hi lo x) hi lo = x % 2 ^ (hi + 1 - lo) := by
  apply Nat.eq_of_testBit_eq
  intro i
  rw [bitsOf_testBit, putBits_testBit _ _ _ _ _ h, Nat.testBit_mod_two_pow]
  by_cases hi' : i < hi + 1 - lo
  · have a : ¬ lo + i < lo := by omega
    have b : lo + i ≤ hi := by omega
    simp [hi', a, b]
  · simp [hi']

/-- A field elsewhere reads as before. -/
theorem bitsOf_putBits_other (v hi lo x hi' lo' : Nat) (h : lo ≤ hi) (d : hi < lo' ∨ hi' < lo) :
    bitsOf (putBits v hi lo x) hi' lo' = bitsOf v hi' lo' := by
  apply Nat.eq_of_testBit_eq
  intro i
  rw [bitsOf_testBit, bitsOf_testBit, putBits_testBit _ _ _ _ _ h]
  by_cases q : i < hi' + 1 - lo'
  · simp only [q, decide_true, Bool.true_and]
    rcases d with d | d
    · have a : ¬ lo' + i < lo := by omega
      have b : ¬ lo' + i ≤ hi := by omega
      simp [a, b]
    · have a : lo' + i < lo := by omega
      simp [a]
  · simp [q]

theorem bitOf_eq (v i : Nat) : bitOf v i = v.testBit i := by
  rw [Nat.testBit_eq_decide_div_mod_eq]; rfl

theorem bitsOf_mod64 (v hi lo : Nat) (h : hi < 64) : bitsOf (v % 2 ^ 64) hi lo = bitsOf v hi lo := by
  apply Nat.eq_of_testBit_eq
  intro i
  rw [bitsOf_testBit, bitsOf_testBit, Nat.testBit_mod_two_pow]
  by_cases hi : i < hi + 1 - lo
  · have : lo + i < 64 := by omega
    simp [hi, this]
  · simp [hi]

theorem putBits_lt (v hi lo x n : Nat) (h : lo ≤ hi) (hn : hi < n) (hv : v < 2 ^ n) : putBits v hi lo x < 2 ^ n := by
  apply Nat.lt_pow_two_of_testBit
  intro i hi'
  rw [putBits_testBit _ _ _ _ _ h]
  have a : ¬ i < lo := by omega
  have b : ¬ i ≤ hi := by omega
  simp only [a, b, if_false]
  exact Nat.testBit_lt_two_pow (lt_of_lt_of_le hv (Nat.pow_le_pow_right (by decide) hi'))

/-! ### Bytes -/

@[simp] theorem leBytes_length (n v : Nat) : (leBytes n v).length = n := by
  induction n generalizing v with
  | zero => rfl
  | succ n ih => simp [leBytes, ih]

theorem leNat_leBytes (n v : Nat) : leNat (leBytes n v) = v % 256 ^ n := by
  induction n generalizing v with
  | zero => simp [leBytes, leNat, Nat.mod_one]
  | succ n ih =>
    rw [leBytes, leNat, ih, BitVec.toNat_ofNat, show (256 : Nat) ^ (n + 1) = 256 * 256 ^ n by ring, Nat.mod_mul]

@[simp] theorem zeros_length (n : Nat) : (zeros n).length = n := List.length_replicate

@[simp] theorem padTo_length (n : Nat) (bs : List Byte) : (padTo n bs).length = n := by
  simp [padTo]; omega

/-! ### Lists -/

@[simp] theorem modAt_length {α : Type} (l : List α) (i : Nat) (f : α → α) : (modAt l i f).length = l.length := by
  simp [modAt]

theorem modAt_getD {α : Type} (l : List α) (i j : Nat) (f : α → α) (d : α) (h : i < l.length) :
    (modAt l i f).getD j d = if i = j then f (l.getD i d) else l.getD j d := by
  unfold modAt
  by_cases e : i = j
  · subst e; simp [List.getD, h]
  · simp [List.getD, e]

theorem find?_filter_ne {κ α : Type} [DecidableEq κ] (l : List (κ × α)) (k j : κ) :
    (l.filter (·.1 ≠ k)).find? (·.1 = j) = if k = j then none else l.find? (·.1 = j) := by
  induction l with
  | nil => simp
  | cons x t ih =>
    by_cases h : x.1 = k
    · rw [List.filter_cons_of_neg (by simp [h]), ih]
      by_cases e : k = j
      · simp [e]
      · rw [List.find?_cons_of_neg (by simpa [h] using e)]
    · rw [List.filter_cons_of_pos (by simp [h])]
      by_cases g : x.1 = j
      · have : k ≠ j := fun e => h (g.trans e.symm)
        simp [g, this]
      · rw [List.find?_cons_of_neg (by simpa using g), List.find?_cons_of_neg (by simpa using g), ih]

theorem look_assoc {κ α : Type} [DecidableEq κ] (l : List (κ × α)) (k j : κ) (v : α) :
    look (assoc l k v) j = if k = j then some v else look l j := by
  unfold look assoc
  by_cases e : k = j
  · simp [e]
  · rw [List.find?_cons_of_neg (by simpa using e), find?_filter_ne]
    simp [e]

theorem look_dissoc {κ α : Type} [DecidableEq κ] (l : List (κ × α)) (k j : κ) :
    look (dissoc l k) j = if k = j then none else look l j := by
  unfold look dissoc
  rw [find?_filter_ne]
  by_cases e : k = j <;> simp [e]

theorem mem_addTo (l : List Nat) (n m : Nat) : m ∈ addTo l n ↔ m = n ∨ m ∈ l := by
  unfold addTo
  split
  · constructor
    · exact .inr
    · rintro (rfl | h)
      · assumption
      · exact h
  · simp [or_comm]

theorem mem_dropFrom (l : List Nat) (n m : Nat) : m ∈ dropFrom l n ↔ m ∈ l ∧ m ≠ n := by
  simp [dropFrom]

end Sys2Proof.Machine
end

