-- ==== Sys2Proof/Laws/Losses.lean ====
section
/-! SUPPORT. What the loss of a block, and the end of items with it, leaves as it was: the sources and the episode, the
domains that are on, the pins, the supply, the flash and the fuses. -/

namespace Sys2Proof.Machine

/-- `t` has of `s` what no loss of a block takes. -/
structure State.Keeps (s t : State) : Prop where
  pending : t.pending = s.pending
  now : t.now = s.now
  siteTime : t.siteTime = s.siteTime
  timeRuns : t.timeRuns = s.timeRuns
  inputOk : t.inputOk = s.inputOk
  pwrgood : t.pwrgood = s.pwrgood
  perstN : t.perstN = s.perstN
  dormantPin : t.dormantPin = s.dormantPin
  profilePin : t.profilePin = s.profilePin
  flash : t.flash = s.flash
  norPart : t.norPart = s.norPart
  journalOpen : t.journalOpen = s.journalOpen
  sources : t.sources = s.sources
  held : t.held = s.held
  covered : t.covered = s.covered
  best : t.best = s.best
  on : t.on = s.on
  rising : t.rising = s.rising
  tripped : t.tripped = s.tripped
  coolSince : t.coolSince = s.coolSince
  retained : t.retained = s.retained
  wakeAt : t.wakeAt = s.wakeAt
  sensed : t.sensed = s.sensed
  fatal : t.fatal = s.fatal
  pllLocked : t.pllLocked = s.pllLocked
  fuses : t.fuses = s.fuses
  noiseFault : t.noiseFault = s.noiseFault
  dayBuckets : t.dayBuckets = s.dayBuckets
  nandWritten : t.nandWritten = s.nandWritten
  nandLife : t.nandLife = s.nandLife

namespace State

theorem Keeps.refl (s : State) : s.Keeps s := ⟨rfl, rfl, rfl, rfl, rfl, rfl, rfl, rfl, rfl, rfl, rfl, rfl, rfl, rfl, rfl, rfl, rfl, rfl, rfl, rfl, rfl, rfl, rfl, rfl, rfl, rfl, rfl, rfl, rfl, rfl⟩

theorem Keeps.trans {s t u : State} (a : s.Keeps t) (b : t.Keeps u) : s.Keeps u :=
  ⟨b.pending.trans a.pending, b.now.trans a.now, b.siteTime.trans a.siteTime, b.timeRuns.trans a.timeRuns, b.inputOk.trans a.inputOk, b.pwrgood.trans a.pwrgood, b.perstN.trans a.perstN, b.dormantPin.trans a.dormantPin, b.profilePin.trans a.profilePin, b.flash.trans a.flash, b.norPart.trans a.norPart, b.journalOpen.trans a.journalOpen,
   b.sources.trans a.sources, b.held.trans a.held, b.covered.trans a.covered, b.best.trans a.best, b.on.trans a.on, b.rising.trans a.rising, b.tripped.trans a.tripped, b.coolSince.trans a.coolSince, b.retained.trans a.retained, b.wakeAt.trans a.wakeAt,
   b.sensed.trans a.sensed, b.fatal.trans a.fatal, b.pllLocked.trans a.pllLocked, b.fuses.trans a.fuses, b.noiseFault.trans a.noiseFault, b.dayBuckets.trans a.dayBuckets, b.nandWritten.trans a.nandWritten, b.nandLife.trans a.nandLife⟩

theorem Keeps.foldl {α : Type} (f : State → α → State) (h : ∀ (s : State) (a : α), s.Keeps (f s a)) (l : List α) (s : State) :
    s.Keeps (l.foldl f s) := by
  induction l generalizing s with
  | nil => exact .refl s
  | cons a l ih => exact (h s a).trans (ih _)

theorem Keeps.ite {s a b : State} {c : Prop} [Decidable c] (h : s.Keeps a) (g : s.Keeps b) :
    s.Keeps (if c then a else b) := by split; exacts [h, g]

/-- What a decision touches is none of it. -/
theorem OnlyDecides.keeps {s t : State} (h : s.OnlyDecides t) : s.Keeps t := by
  obtain ⟨_, _, _, _, _, _, _, _, _, _, _, _, _, _, _, _, _, _, _, rfl, _⟩ := h
  constructor <;> rfl

theorem OnlyRecords.keeps {s t : State} (h : s.OnlyRecords t) : s.Keeps t := h.weaken.keeps
theorem OnlyReports.keeps {s t : State} (h : s.OnlyReports t) : s.Keeps t := h.weaken.weaken.keeps

theorem modDie_keeps (s : State) (n : Nat) (f : Die → Die) : s.Keeps (s.modDie n f) := by constructor <;> rfl
theorem modNport_keeps (s : State) (n : Nat) (f : NearPort → NearPort) : s.Keeps (s.modNport n f) := by
  constructor <;> rfl
theorem modFport_keeps (s : State) (n : Nat) (f : FarPort → FarPort) : s.Keeps (s.modFport n f) := by
  constructor <;> rfl
theorem modFlow_keeps (s : State) (n : Nat) (f : Flow → Flow) : s.Keeps (s.modFlow n f) := by constructor <;> rfl
theorem writeHbm_keeps (s : State) (a : Nat) (l : List Byte) : s.Keeps (s.writeHbm a l) := by constructor <;> rfl

/-! ### The end of runs and items -/

theorem releaseRun_keeps (s : State) (n : Nat) : s.Keeps (s.releaseRun n) := by
  unfold releaseRun
  split
  · exact .refl s
  · refine Keeps.foldl _ ?_ _ _
    intro s a
    dsimp only
    unfold showRefs
    refine Keeps.trans ?_ (setReg_only _ _ _).keeps
    split
    · exact (setReg_only _ _ _).keeps
    · exact .refl _

theorem faultItem_keeps (s : State) (i c : Nat) (l : List Byte) : s.Keeps (s.faultItem i c l) := by constructor <;> rfl

theorem settleGang_keeps (s : State) (i : Nat) : s.Keeps (s.settleGang i) := by
  unfold settleGang
  split
  · exact (modItem_only _ _ _).keeps
  · exact .refl s

/-- A program fault. -/
theorem faultDie_keeps (s : State) (n c k b : Nat) : s.Keeps (s.faultDie n c k b) := by
  unfold faultDie
  split
  · exact .refl s
  · extract_lets d id s1 s2 s3 s4 s5 s6 w s7 s8
    have h1 : s.Keeps s1 := modDie_keeps _ _ _
    have h2 : s.Keeps s2 := h1.trans (setField_only _ _ _ _ _).keeps
    have h3 : s.Keeps s3 := h2.trans (setReg_only _ _ _).keeps
    have h4 : s.Keeps s4 := h3.trans (releaseRun_keeps _ _)
    have h5 : s.Keeps s5 := h4.trans (by constructor <;> rfl)
    have h6 : s.Keeps s6 := by
      unfold s6
      split
      · exact h5.trans (fireVector_only _ _).keeps
      · exact h5
    exact ((h6.trans (detail_only _ _ _ _ _ _).keeps).trans (faultItem_keeps _ _ _ _)).trans (settleGang_keeps _ _)

theorem stopGang_keeps (s : State) (i : Nat) : s.Keeps (s.stopGang i) :=
  Keeps.foldl _ (fun s n => faultDie_keeps s n _ _ _) _ s

theorem dropSet_keeps (s : State) (i : Nat) : s.Keeps (s.dropSet i) := by
  unfold dropSet
  extract_lets e s1
  have h1 : s.Keeps s1 := by constructor <;> rfl
  exact .ite (h1.trans (setReg_only _ _ _).keeps) h1

theorem dropWork_keeps (s : State) (i : Nat) : s.Keeps (s.dropWork i) := by
  unfold dropWork
  extract_lets s1 s2 cut cutPort
  have h1 : s.Keeps s1 := by constructor <;> rfl
  exact (h1.trans (dropSet_keeps _ _)).trans (by constructor <;> rfl)

theorem noteEnded_keeps (s : State) (it : Item) (c : Nat) : s.Keeps (s.noteEnded it c) := by
  unfold noteEnded
  split
  · constructor <;> rfl
  · exact .refl s

theorem abortItem_keeps (s : State) (i c : Nat) : s.Keeps (s.abortItem i c) := by
  unfold abortItem
  split
  · exact .refl s
  · split
    · exact .refl s
    · exact ((((modItem_only _ _ _).keeps.trans (stopGang_keeps _ _)).trans (dropWork_keeps _ _)).trans
        (noteEnded_keeps _ _ _)).trans (completeItem_only _ _).keeps

theorem endReading_keeps (s : State) (r : Reader) : s.Keeps (endReading r s) := by
  unfold endReading
  split
  · exact faultDie_keeps _ _ _ _ _
  · exact (modItem_only _ _ _).keeps.trans (abortItem_keeps _ _ _)

theorem endReader_keeps (s : State) (o : Bool) (d : Nat) : s.Keeps (s.endReader o d) := by
  unfold endReader
  extract_lets l
  split
  · refine Keeps.trans ?_ (endReading_keeps _ _)
    constructor <;> rfl
  · exact .refl s

theorem voidGo_keeps (n c : Nat) (l : List Nat) (s : State) : s.Keeps (voidGo n c l s) := by
  induction n generalizing l s with
  | zero => exact .refl s
  | succ n ih =>
    unfold voidGo
    extract_lets hit s1 deps
    split
    · exact .refl s
    · refine Keeps.trans ?_ (ih _ _)
      refine Keeps.foldl _ ?_ _ _
      intro s i
      exact (((modItem_only _ _ _).keeps.trans (count_only _ _ _).keeps).trans (raise_only _ _ _).keeps).trans
        (detail_only _ _ _ _ _ _).keeps

theorem voidItems_keeps (s : State) (c : Nat) (l : List Nat) : s.Keeps (s.voidItems c l) := voidGo_keeps _ _ _ _

theorem loseUnits_keeps (s : State) (l : List Nat) : s.Keeps (s.loseUnits l) := by
  unfold loseUnits
  refine Keeps.trans ?_ (Keeps.foldl _ (fun s n => abortItem_keeps s n _) _ _)
  exact (voidItems_keeps _ _ _).trans (Keeps.foldl _ (fun s n => abortItem_keeps s n _) _ _)

/-! ### The near fabric -/

theorem pumpOne_keeps (s : State) (p : Nat) : s.Keeps (s.pumpOne p) := by
  unfold pumpOne
  dsimp only
  split
  · exact .refl s
  · split
    · exact .refl s
    · split
      · exact .refl s
      · exact (modNport_keeps _ _ _).trans (emit_only _ _).keeps

theorem pumpGo_keeps (p n : Nat) (s : State) : s.Keeps (pump.go p n s) := by
  induction n generalizing s with
  | zero => exact .refl s
  | succ n ih => exact (pumpOne_keeps s p).trans (ih _)

theorem emitCtl_keeps (s : State) (p : Nat) (x : Nat × Nat × Nat) : s.Keeps (s.emitCtl p x) := (emit_only _ _).keeps

theorem sendWaiting_keeps (s : State) (p : Nat) : s.Keeps (s.sendWaiting p) := by
  unfold sendWaiting
  exact .ite ((modNport_keeps _ _ _).trans (Keeps.foldl _ (fun s x => emitCtl_keeps s p x) _ _)) (.refl s)

theorem pump_keeps (s : State) (p : Nat) : s.Keeps (s.pump p) := (sendWaiting_keeps s p).trans (pumpGo_keeps p _ _)

theorem routeMsg_keeps (s : State) (m : NearMsg) (v : Nat) (a : Option Nat) : s.Keeps (s.routeMsg m v a) := by
  unfold routeMsg
  extract_lets spent s1
  have h1 : s.Keeps s1 := by
    unfold s1
    split
    · constructor <;> rfl
    · exact .refl s
  split
  · exact h1.trans (count_only _ _ _).keeps
  · exact h1.trans ((modNport_keeps _ _ _).trans (pump_keeps _ _))

theorem resendNear_keeps (s : State) (p n : Nat) : s.Keeps (s.resendNear p n) := by
  unfold resendNear
  split
  · exact .refl s
  · exact ((modFlow_keeps _ _ _).trans (count_only _ _ _).keeps).trans (routeMsg_keeps _ _ _ _)

theorem nearLose_keeps (s : State) (p : Nat) : s.Keeps (s.nearLose p) := by
  unfold nearLose
  extract_lets s1 s2 mine
  have h1 : s.Keeps s1 := modNport_keeps _ _ _
  have h2 : s.Keeps s2 := h1.trans (by constructor <;> rfl)
  exact h2.trans (Keeps.foldl _ (fun s x => resendNear_keeps s _ _) _ _)

/-! ### Blocks -/

theorem dropEntries_keeps (s : State) (c : Nat) : s.Keeps (s.dropEntries c) := by
  unfold dropEntries
  extract_lets n s1 s2 s3
  have h1 : s.Keeps s1 := by constructor <;> rfl
  have h3 : s.Keeps s3 := (h1.trans (count_only _ _ _).keeps).trans (detail_only _ _ _ _ _ _).keeps
  exact .ite (h3.trans (endReader_keeps _ _ _)) h3

theorem closeCrossing_keeps (s : State) (c : Nat) : s.Keeps (s.closeCrossing c) := by
  unfold closeCrossing
  extract_lets w
  split
  · exact .refl s
  · refine .ite (Keeps.trans ?_ (dropEntries_keeps _ _)) ?_ <;> constructor <;> rfl

theorem closeCrossings_keeps (s : State) (l : List Nat) : s.Keeps (s.closeCrossings l) :=
  Keeps.foldl _ (fun s c => closeCrossing_keeps s c) _ s

theorem lostRecords_keeps (j n : Nat) (l : List Nat) (s : State) : s.Keeps (lostRecords j n l s) := by
  induction n generalizing l s with
  | zero => exact .refl s
  | succ n ih =>
    unfold lostRecords
    split
    · exact .refl s
    · exact (detail_only _ _ _ _ _ _).keeps.trans (ih _ _)

theorem emptyRowCache_keeps (s : State) (j : Nat) : s.Keeps (s.emptyRowCache j) := by
  unfold emptyRowCache
  extract_lets base units s1
  have h1 : s.Keeps s1 := Keeps.foldl _ (fun s u => writeHbm_keeps s _ _) _ _
  exact h1.trans (by constructor <;> rfl)

theorem tellLost_keeps (s : State) (j : Nat) (l : List Nat) : s.Keeps (s.tellLost j l) := by
  unfold tellLost
  exact .ite (.refl s) ((raise_only _ _ _).keeps.trans (lostRecords_keeps _ _ _ _))

theorem interruptRecord_keeps (s : State) : s.Keeps s.interruptRecord := by
  unfold interruptRecord
  split
  · exact .refl s
  · extract_lets a p n
    refine .ite (.refl s) ?_
    constructor <;> rfl

/-- The loss of a block. -/
theorem loseBlock_keeps (s : State) (b : Nat) : s.Keeps (s.loseBlock b) := by
  unfold loseBlock
  refine .ite ?_ <| .ite ?_ <| .ite ?_ <| .ite ?_ <| .ite ?_ <| .ite ?_ <| .ite ?_ <| .ite ?_ <| .ite ?_ <| .ite ?_ <|
    .ite ?_ ?_
  · constructor <;> rfl
  · constructor <;> rfl
  · constructor <;> rfl
  · exact (nearLose_keeps _ _).trans (modNport_keeps _ _ _)
  · exact modFport_keeps _ _ _
  · constructor <;> rfl
  · exact .refl s
  · constructor <;> rfl
  · constructor <;> rfl
  · constructor <;> rfl
  · exact (interruptRecord_keeps _).trans (modRec_only _ _).keeps
  · constructor <;> rfl

theorem loseFlows_keeps (s : State) (l : List Nat) : s.Keeps (s.loseFlows l) := by
  unfold loseFlows
  split
  · constructor <;> rfl
  · exact .refl s

theorem nearPower_keeps (s : State) (p : Nat) : s.Keeps (s.nearPower p) := by
  unfold nearPower
  exact .ite (.refl s) (((setField_only _ _ _ _ _).keeps.trans (detail_only _ _ _ _ _ _).keeps).trans (modNport_keeps _ _ _))

theorem farPower_keeps (s : State) (k : Nat) : s.Keeps (s.farPower k) := by
  unfold farPower
  exact .ite (.refl s) (((setField_only _ _ _ _ _).keeps.trans (raise_only _ _ _).keeps).trans (modFport_keeps _ _ _))

theorem portsPower_keeps (s : State) (l : List Nat) : s.Keeps (s.portsPower l) :=
  (Keeps.foldl _ (fun s p => nearPower_keeps s p) _ s).trans (Keeps.foldl _ (fun s k => farPower_keeps s k) _ _)

/-- The loss of a list of blocks. -/
theorem loseBlocks_keeps (s : State) (c : Bool) (l : List Nat) : s.Keeps (s.loseBlocks c l) := by
  unfold loseBlocks
  extract_lets cause count s1 s2 lost s3 s4 s5 s6 s7 s8
  have h1 : s.Keeps s1 := closeCrossings_keeps _ _
  have h2 : s.Keeps s2 := h1.trans (portsPower_keeps _ _)
  have h3 : s.Keeps s3 := h2.trans (Keeps.foldl _ (fun s j => emptyRowCache_keeps s j) _ _)
  have h4 : s.Keeps s4 := h3.trans (by constructor <;> rfl)
  have h5 : s.Keeps s5 := (h4.trans (Keeps.foldl _ (fun s b => loseBlock_keeps s b) _ _)).trans (loseFlows_keeps _ _)
  have h6 : s.Keeps s6 := h5.trans (by constructor <;> rfl)
  have h7 : s.Keeps s7 := (h6.trans (setReg_only _ _ _).keeps).trans (setReg_only _ _ _).keeps
  have h8 : s.Keeps s8 := h7.trans (by constructor <;> rfl)
  exact h8.trans (Keeps.foldl _ (fun s x => tellLost_keeps s _ _) _ _)

theorem dropQuiet_keeps (s : State) (l : List Nat) : s.Keeps (s.dropQuiet l) := by
  unfold dropQuiet
  extract_lets gone dr s1
  have h1 : s.Keeps s1 := by constructor <;> rfl
  exact h1.trans (Keeps.foldl _ (fun s x => (abortItem_keeps _ _ _).trans (raise_only _ _ _).keeps) _ _)

theorem endCovered_keeps (s : State) (l : List Nat) : s.Keeps (s.endCovered l) := by
  unfold endCovered
  refine .ite ?_ ?_
  · exact (Keeps.foldl _ (fun s i => stopGang_keeps s i) _ _).trans (by constructor <;> rfl)
  · exact (Keeps.foldl _ (fun s i => abortItem_keeps s i _) _ _).trans (dropQuiet_keeps _ _)

/-! ### Sources -/

theorem queueOns_spec (s : State) : ∃ l, s.queueOns = { s with switchOns := l } := by
  by_cases h : blkK1 ∈ s.held
  · exact ⟨s.switchOns, by unfold queueOns; rw [if_pos h]⟩
  · unfold queueOns
    rw [if_neg h]
    exact ⟨_, rfl⟩

theorem sense_spec (s : State) : ∃ r, s.sense = { s with regs := r, sensed := true } := by
  unfold sense
  extract_lets mv fused code bad c aligned s1 s2 s3 s4 s5
  have e : ∀ (u : State) (a v : Nat), (∃ r, u = { s with regs := r }) → ∃ r, u.setReg a v = { s with regs := r } := by
    rintro u a v ⟨r, rfl⟩
    exact ⟨_, rfl⟩
  have h5 : ∃ r, s5 = { s with regs := r } := e _ _ _ (e _ _ _ (e _ _ _ (e _ _ _ (e _ _ _ ⟨s.regs, rfl⟩))))
  clear_value s5
  obtain ⟨r, rfl⟩ := h5
  exact ⟨r, rfl⟩

/-- What ends with a COLD or WARM reset: containment and the states above it. -/
theorem endStates_spec (s : State) (n : Nat) :
    ∃ f r m w, s.endStates n = { s with sources := f, regs := r, fatal := m, wakeAt := w }
      ∧ ∀ x, x ∈ f ↔ x ∈ s.sources ∧ (n ≤ 1 → x.cause ≠ 0x41 ∧ x.cause ≠ 0x31) := by
  unfold endStates
  split
  · next h =>
    refine ⟨s.sources, s.regs, s.fatal, s.wakeAt, rfl, fun x => ?_⟩
    constructor
    · intro hx; exact ⟨hx, fun q => by omega⟩
    · exact fun q => q.1
  · next h =>
    dsimp only
    split
    · refine ⟨_, _, _, _, rfl, fun x => ?_⟩
      have : n ≤ 1 := by omega
      simp [this]
    · refine ⟨_, _, _, _, rfl, fun x => ?_⟩
      have : n ≤ 1 := by omega
      simp [this]

theorem mem_foldl_addTo (l : List Nat) (a : List Nat) (b : Nat) : b ∈ l.foldl addTo a ↔ b ∈ a ∨ b ∈ l := by
  induction l generalizing a with
  | nil => simp
  | cons x l ih => rw [List.foldl_cons, ih]; unfold addTo; split <;> simp <;> grind

/-- What the assertion of a source does to the sources, to what is held and covered, and what it keeps. -/
theorem assertBase_spec (s : State) (r : ResetSource) :
    let t := s.assertBase r
    (∀ b, b ∈ t.held ↔ b ∈ s.held ∨ b ∈ r.cover) ∧ (∀ b, b ∈ t.covered ↔ b ∈ s.covered ∨ b ∈ r.cover)
      ∧ (∀ x, x ∈ t.sources ↔ x = r ∨ x ∈ s.sources ∧ (r.reach ≤ 1 → x.cause ≠ 0x41 ∧ x.cause ≠ 0x31))
      ∧ (t.on = s.on ∧ t.rising = s.rising ∨ r.reach = 0 ∧ t.on = [] ∧ t.rising = [])
      ∧ t.inputOk = s.inputOk ∧ t.pwrgood = s.pwrgood ∧ t.perstN = s.perstN
      ∧ t.tripped = s.tripped ∧ t.now = s.now ∧ t.fuses = s.fuses ∧ t.flash = s.flash := by
  unfold assertBase
  extract_lets cov cold fc sl s1 s2 s3 s4 s5 s6 t
  obtain ⟨f, g, m, w, e1, hf⟩ := endStates_spec s r.reach
  have k : s1.Keeps s3 := (endCovered_keeps _ _).trans (loseBlocks_keeps _ _ _)
  have h5 : ∃ a b c, s5 = { s4 with siteTime := a, timeRuns := b, pllLocked := c } := by
    unfold s5
    split
    · exact ⟨_, _, _, rfl⟩
    · exact ⟨s4.siteTime, s4.timeRuns, s4.pllLocked, rfl⟩
  have h6 : ∃ g a o i l, s6 = { s5 with regs := g, sensed := a, on := o, rising := i, switchOns := l }
      ∧ (o = s5.on ∧ i = s5.rising ∨ r.reach = 0 ∧ o = [] ∧ i = []) := by
    unfold s6
    split
    · next hc =>
      obtain ⟨g, e⟩ := sense_spec s5
      unfold badProfileOff
      split
      · exact ⟨g, true, [], [], [], by rw [e], .inr ⟨hc, rfl, rfl⟩⟩
      · exact ⟨g, true, s5.on, s5.rising, s5.switchOns, by rw [e], .inl ⟨rfl, rfl⟩⟩
    · exact ⟨s5.regs, s5.sensed, s5.on, s5.rising, s5.switchOns, rfl, .inl ⟨rfl, rfl⟩⟩
  have ht : ∃ l, t = { s6 with switchOns := l } := by
    unfold t
    split
    · exact queueOns_spec _
    · exact ⟨s6.switchOns, rfl⟩
  have e1' : s1 = _ := e1
  clear_value t s6 s5
  obtain ⟨a5, b5, c5, rfl⟩ := h5
  obtain ⟨r6, a6, o6, i6, l6, rfl, ho⟩ := h6
  obtain ⟨l, rfl⟩ := ht
  refine ⟨?_, ?_, ?_, ?_, ?_, ?_, ?_, ?_, ?_, ?_, ?_⟩
  · intro b
    show b ∈ cov.foldl addTo s3.held ↔ _
    rw [mem_foldl_addTo, k.held, e1']
  · intro b
    show b ∈ cov.foldl addTo s3.covered ↔ _
    rw [mem_foldl_addTo, k.covered, e1']
  · intro x
    show x ∈ s3.sources ++ [r] ↔ _
    rw [k.sources, e1', List.mem_append, List.mem_singleton]
    show x ∈ f ∨ x = r ↔ _
    rw [hf]
    tauto
  · show o6 = _ ∧ i6 = _ ∨ _
    rcases ho with ⟨rfl, rfl⟩ | ho
    · exact .inl ⟨by show s3.on = _; rw [k.on, e1'], by show s3.rising = _; rw [k.rising, e1']⟩
    · exact .inr ho
  · show s3.inputOk = _; rw [k.inputOk, e1']
  · show s3.pwrgood = _; rw [k.pwrgood, e1']
  · show s3.perstN = _; rw [k.perstN, e1']
  · show s3.tripped = _; rw [k.tripped, e1']
  · show s3.now = _; rw [k.now, e1']
  · show s3.fuses = _; rw [k.fuses, e1']
  · show s3.flash = _; rw [k.flash, e1']

/-- `t` has of `s` what no assertion of a source but a COLD or WARM one takes: what is held, covered or asserted stays so, no
domain is switched, and the pins, the supply, the flash and the fuses are as they were. -/
structure Grows (s t : State) : Prop where
  held : ∀ b, b ∈ s.held → b ∈ t.held
  covered : ∀ b, b ∈ s.covered → b ∈ t.covered
  sources : ∀ x, x ∈ s.sources → x ∈ t.sources
  on : t.on = s.on
  rising : t.rising = s.rising
  inputOk : t.inputOk = s.inputOk
  pwrgood : t.pwrgood = s.pwrgood
  perstN : t.perstN = s.perstN
  tripped : t.tripped = s.tripped
  now : t.now = s.now
  fuses : t.fuses = s.fuses
  flash : t.flash = s.flash

theorem Grows.refl (s : State) : s.Grows s :=
  ⟨fun _ h => h, fun _ h => h, fun _ h => h, rfl, rfl, rfl, rfl, rfl, rfl, rfl, rfl, rfl⟩

theorem Grows.trans {s t u : State} (a : s.Grows t) (b : t.Grows u) : s.Grows u :=
  ⟨fun x h => b.held x (a.held x h), fun x h => b.covered x (a.covered x h), fun x h => b.sources x (a.sources x h),
    b.on.trans a.on, b.rising.trans a.rising, b.inputOk.trans a.inputOk, b.pwrgood.trans a.pwrgood,
    b.perstN.trans a.perstN, b.tripped.trans a.tripped, b.now.trans a.now, b.fuses.trans a.fuses, b.flash.trans a.flash⟩

theorem Keeps.grows {s t : State} (h : s.Keeps t) : s.Grows t :=
  ⟨fun _ g => h.held ▸ g, fun _ g => h.covered ▸ g, fun _ g => h.sources ▸ g, h.on, h.rising, h.inputOk, h.pwrgood,
    h.perstN, h.tripped, h.now, h.fuses, h.flash⟩

theorem assertBase_grows (s : State) (r : ResetSource) (h : 2 ≤ r.reach) : s.Grows (s.assertBase r) := by
  obtain ⟨a, b, c, d, e1, e2, e3, e4, e5, e6, e7⟩ := assertBase_spec s r
  have hd : (s.assertBase r).on = s.on ∧ (s.assertBase r).rising = s.rising := by
    rcases d with d | d
    · exact d
    · omega
  exact ⟨fun x g => (a x).2 (.inl g), fun x g => (b x).2 (.inl g), fun x g => (c x).2 (.inr ⟨g, fun q => by omega⟩),
    hd.1, hd.2, e1, e2, e3, e4, e5, e6, e7⟩

theorem containBase_grows (s : State) (row : Nat) (r : ResetSource) (d u : Nat) (w : List Byte) (h : 2 ≤ r.reach) :
    s.Grows (s.containBase row r d u w) := by
  unfold containBase
  split
  · exact .refl s
  · extract_lets s1 s2 s3 s4
    have h3 : s.Keeps s3 := ((loseUnits_keeps _ _).trans (raiseAt_only _ _ _ _ _).keeps).trans (detail_only _ _ _ _ _ _).keeps
    have h4 : s.Grows s4 := h3.grows.trans (assertBase_grows _ _ h)
    split
    · exact h4.trans (setReg_only _ _ _).keeps.grows
    · exact h4.trans (setReg_only _ _ _).keeps.grows

theorem flapCheck_grows (s : State) (x : Bool × Nat) : s.Grows (s.flapCheck x) := by
  unfold flapCheck containPort
  extract_lets n l
  split
  · exact containBase_grows _ _ _ _ _ _ (by show 2 ≤ 3; decide)
  · exact .refl s

theorem flapChecks_grows (l : List (Bool × Nat)) (s : State) : s.Grows (l.foldl (fun s x => s.flapCheck x) s) := by
  induction l generalizing s with
  | nil => exact .refl s
  | cons x l ih => exact (flapCheck_grows s x).trans (ih _)

/-- After its own assertion a source may contain ports that it took DOWN once too often. -/
theorem assertSource_grows (s : State) (r : ResetSource) : (s.assertBase r).Grows (s.assertSource r) := by
  unfold assertSource
  split
  · exact .refl _
  · exact flapChecks_grows _ _

/-- What the assertion of a source holds, covers and asserts, and what it keeps. -/
theorem assertSource_spec (s : State) (r : ResetSource) :
    let t := s.assertSource r
    (∀ b, b ∈ s.held ∨ b ∈ r.cover → b ∈ t.held) ∧ (∀ b, b ∈ s.covered ∨ b ∈ r.cover → b ∈ t.covered) ∧ r ∈ t.sources
      ∧ (t.on = s.on ∧ t.rising = s.rising ∨ r.reach = 0 ∧ t.on = [] ∧ t.rising = [])
      ∧ t.inputOk = s.inputOk ∧ t.pwrgood = s.pwrgood ∧ t.perstN = s.perstN
      ∧ t.tripped = s.tripped ∧ t.now = s.now ∧ t.fuses = s.fuses ∧ t.flash = s.flash := by
  obtain ⟨a, b, c, d, e1, e2, e3, e4, e5, e6, e7⟩ := assertBase_spec s r
  have g := assertSource_grows s r
  refine ⟨fun x h => g.held x ((a x).2 h), fun x h => g.covered x ((b x).2 h), g.sources r ((c r).2 (.inl rfl)), ?_,
    g.inputOk.trans e1, g.pwrgood.trans e2, g.perstN.trans e3, g.tripped.trans e4, g.now.trans e5, g.fuses.trans e6,
    g.flash.trans e7⟩
  rw [g.on, g.rising]
  exact d

/-- A request for Dormant changes STATE, the queue of domains and the start of a wake. -/
theorem dormantStep_spec (s : State) :
    ∃ r l w, s.dormantStep = { s with regs := r, switchOns := l, wakeAt := w } := by
  unfold dormantStep
  split
  · exact ⟨s.regs, s.switchOns, s.wakeAt, rfl⟩
  · split
    · split
      · obtain ⟨l, h⟩ := queueOns_spec (s.setField Reg.pwrStatus 1 0 1)
        exact ⟨_, l, s.wakeAt, h⟩
      · exact ⟨s.regs, s.switchOns, s.wakeAt, rfl⟩
    · split
      · obtain ⟨l, h⟩ := queueOns_spec (({ s with wakeAt := some s.now }).setField Reg.pwrStatus 1 0 3)
        exact ⟨_, l, some s.now, h⟩
      · exact ⟨s.regs, s.switchOns, s.wakeAt, rfl⟩

/-- The end of an episode, if it ends. -/
theorem tryEnd_spec (s : State) :
    ∃ c b l w u, s.tryEnd = { u with covered := c, best := b, switchOns := l, wakeAt := w } ∧ s.OnlyReports u := by
  unfold tryEnd
  split
  · exact ⟨s.covered, s.best, s.switchOns, s.wakeAt, s, rfl, .refl s⟩
  · extract_lets s1 s2 s3
    have h1 : s.OnlyReports s1 := by
      unfold s1
      split
      · exact setReg_only _ _ _
      · exact .refl s
    have h2 : s.OnlyReports s2 := h1.trans (count_only _ _ _)
    have h3 := detail_only s3 0x0E81 0 63 0xFF (leBytes 8 (s3.reg Reg.rstCause) ++ leBytes 4 (s3.reg Reg.rstCount))
    obtain ⟨r, c, p, e, h⟩ := h3
    obtain ⟨r', l, w, h'⟩ := dormantStep_spec (s3.detail 0x0E81 0 63 0xFF
      (leBytes 8 (s3.reg Reg.rstCause) ++ leBytes 4 (s3.reg Reg.rstCount)))
    rw [h', h]
    exact ⟨[], none, l, w, { s2 with regs := r', recorder := c, pba := p, emitted := e }, rfl, h2.trans ⟨_, _, _, _, rfl⟩⟩

end State

end Sys2Proof.Machine
end

