-- ==== Sys2Proof/Laws/Registers.lean ====
section
/-! SUPPORT. Laws of register fields and of BAR0 writes. -/

namespace Sys2Proof.Machine

namespace State

/-! ### Fields -/

/-- A field that was set reads as what was put there. -/
theorem regBits_setField (s : State) (a hi lo v : Nat) (h : lo ≤ hi) (h64 : hi < 64) :
    (s.setField a hi lo v).regBits a hi lo = v % 2 ^ (hi + 1 - lo) := by
  unfold regBits setField
  rw [reg_setReg_same, bitsOf_mod64 _ _ _ h64, bitsOf_putBits_same _ _ _ _ h]

/-- Another field of the register reads as before. -/
theorem regBits_setField_other (s : State) (a hi lo v hi' lo' : Nat) (h : lo ≤ hi) (h64 : hi' < 64)
    (d : hi < lo' ∨ hi' < lo) : (s.setField a hi lo v).regBits a hi' lo' = s.regBits a hi' lo' := by
  unfold regBits setField
  rw [reg_setReg_same, bitsOf_mod64 _ _ _ h64, bitsOf_putBits_other _ _ _ _ _ _ h d]

theorem reg_setField_ne (s : State) (a b hi lo v : Nat) (h : b ≠ a) : (s.setField a hi lo v).reg b = s.reg b :=
  reg_setReg_ne _ _ _ _ h

theorem regBits_setField_ne (s : State) (a b hi lo v h' l' : Nat) (h : b ≠ a) :
    (s.setField a hi lo v).regBits b h' l' = s.regBits b h' l' := by
  unfold regBits; rw [reg_setField_ne _ _ _ _ _ _ h]

theorem regBits_setReg_ne (s : State) (a b v h' l' : Nat) (h : b ≠ a) :
    (s.setReg a v).regBits b h' l' = s.regBits b h' l' := by
  unfold regBits; rw [reg_setReg_ne _ _ _ _ h]

theorem regBits_congr {s t : State} {a : Nat} (h : t.reg a = s.reg a) (hi lo : Nat) :
    t.regBits a hi lo = s.regBits a hi lo := by unfold regBits; rw [h]

theorem reg_count (s : State) (a b n : Nat) :
    (s.count a n).reg b = if b = a then min (s.reg a + n) 0xFFFFFFFF else s.reg b := by
  unfold count
  rw [reg_setReg]
  split <;> omega

theorem reg_count64 (s : State) (a b n : Nat) :
    (s.count64 a n).reg b = if b = a then min (s.reg a + n) 0xFFFFFFFFFFFFFFFF else s.reg b := by
  unfold count64
  rw [reg_setReg]
  split <;> omega

/-! ### BAR0 writes -/

theorem barTakes_spec (s : State) (off : Nat) (wide : Bool) (v : Nat) (r : RegRow) (old new : Nat)
    (h : s.barTakes off wide v = some (r, old, new)) :
    ∃ b, blockAt off = some b ∧ regRowAt off = some r ∧ off % (if wide then 8 else 4) = 0
      ∧ s.answers b = true ∧ r.wide = wide ∧ r.inRange false v = true ∧ v &&& r.resv = 0 ∧ b.lock ∉ s.locked
      ∧ old = s.reg off ∧ new = r.written false (s.reg off) v := by
  unfold barTakes at h
  split at h
  · next b r' hb hr =>
    rw [Option.ite_none_right_eq_some] at h
    obtain ⟨c, h⟩ := h
    simp only [Bool.and_eq_true, beq_iff_eq, Bool.not_eq_eq_eq_not, Bool.not_true, decide_eq_false_iff_not] at c
    simp only [Option.some.injEq, Prod.mk.injEq] at h
    obtain ⟨rfl, rfl, rfl⟩ := h
    exact ⟨b, hb, hr, c.1.1.1.1.1, c.1.1.1.1.2, c.1.1.1.2, c.1.1.2, c.1.2, c.2, rfl, rfl⟩
  · cases h

/-- A write that is taken has the effect of its register. -/
theorem barWith_takes (act : RegRow → Nat → Nat → Nat → State → State) (s : State) (off : Nat) (wide : Bool) (v : Nat)
    (r : RegRow) (old new : Nat) (h : s.barTakes off wide v = some (r, old, new)) :
    s.barWith act off wide v = act r old new v s := by
  obtain ⟨b, hb, hr, h2, h3, h4, h5, h6, h7, rfl, rfl⟩ := barTakes_spec s off wide v r old new h
  have h8 : s.hostUp = true := by
    unfold answers at h3
    simp only [Bool.and_eq_true] at h3
    exact h3.1.1
  unfold barWith
  rw [hb, hr]
  simp [h2, h3, h4, h5, h6, h7, h8]

@[simp] theorem advance_barTakes (s : State) (dt off : Nat) (wide : Bool) (v : Nat) :
    (s.advance dt).barTakes off wide v = s.barTakes off wide v := by
  simp [barTakes]

/-! ### Events: bits that stay set -/

/-- The bit of a set event register stays set while other events are reported. -/
theorem setEvent_bit (s : State) (e : EvSrc) (b a i : Nat) (h : bitOf (s.reg a) i = true) :
    bitOf ((s.setEvent e b).reg a) i = true := by
  rw [setEvent_reg]
  split
  · next q =>
    have h64 : i < 64 := by
      by_contra c
      rw [bitOf_eq, Nat.testBit_lt_two_pow (lt_of_lt_of_le (s.reg_lt a) (Nat.pow_le_pow_right (by decide) (by omega)))] at h
      exact absurd h (by decide)
    rw [bitOf_eq] at h ⊢
    rw [Nat.testBit_mod_two_pow, Nat.testBit_or, h]
    simp [h64]
  · exact h

theorem noteInfo_bit (s : State) (e : EvSrc) (b a i : Nat) (h : bitOf (s.reg a) i = true) :
    bitOf ((s.noteInfo e b).reg a) i = true := by
  have g := setEvent_bit s e b a i h
  unfold noteInfo
  dsimp only
  split
  · exact g
  · split
    · exact g
    · split <;> exact g

theorem routeRecord_bit (s : State) (r : EventRec) (a i : Nat) (ha : a ≠ Reg.recLost) (h : bitOf (s.reg a) i = true) :
    bitOf ((s.routeRecord r).reg a) i = true := by
  unfold routeRecord
  split
  · exact h
  · split
    · exact h
    · split
      · exact h
      · split
        · exact h
        · split
          · exact h
          · apply noteInfo_bit
            rw [reg_count, if_neg ha]
            exact h

theorem note_bit (s : State) (r : EventRec) (a i : Nat) (ha : a ≠ Reg.recLost) (h : bitOf (s.reg a) i = true) :
    bitOf ((s.note r).reg a) i = true := by
  unfold note
  apply routeRecord_bit _ _ _ _ ha
  split
  · exact noteInfo_bit _ _ _ _ _ h
  · exact h

/-- A condition that is raised sets its bit. -/
theorem raiseAt_sets (s : State) (e : EvSrc) (b d u : Nat) (hb : b < 64) (ha : e.off ≠ Reg.recLost) :
    bitOf ((s.raiseAt e b d u).reg e.off) b = true := by
  unfold raiseAt
  apply note_bit _ _ _ _ ha
  rw [setEvent_reg, if_pos rfl, bitOf_eq, Nat.testBit_mod_two_pow, Nat.testBit_or]
  simp [hb]

theorem raise_sets (s : State) (e : EvSrc) (b : Nat) (hb : b < 64) (ha : e.off ≠ Reg.recLost) :
    bitOf ((s.raise e b).reg e.off) b = true := raiseAt_sets s e b _ _ hb ha

theorem raiseAt_bit (s : State) (e : EvSrc) (b d u a i : Nat) (ha : a ≠ Reg.recLost) (h : bitOf (s.reg a) i = true) :
    bitOf ((s.raiseAt e b d u).reg a) i = true := note_bit _ _ _ _ ha (setEvent_bit _ _ _ _ _ h)

theorem detail_bit (s : State) (c v d u : Nat) (l : List Byte) (a i : Nat) (ha : a ≠ Reg.recLost)
    (h : bitOf (s.reg a) i = true) : bitOf ((s.detail c v d u l).reg a) i = true := note_bit _ _ _ _ ha h

end State

/-! ### The word after a write -/

theorem foldl_bits_testBit (c : Nat → Bool) (n i : Nat) :
    ((List.range n).foldl (fun a k => if c k then a + 2 ^ k else a) 0).testBit i = (decide (i < n) && c i)
      ∧ (List.range n).foldl (fun a k => if c k then a + 2 ^ k else a) 0 < 2 ^ n := by
  induction n with
  | zero => simp
  | succ n ih =>
    rw [List.range_succ, List.foldl_append]
    simp only [List.foldl_cons, List.foldl_nil]
    generalize (List.range n).foldl (fun a k => if c k then a + 2 ^ k else a) 0 = x at ih
    obtain ⟨h1, h2⟩ := ih
    have e : 2 ^ (n + 1) = 2 ^ n + 2 ^ n := by ring
    by_cases hc : c n
    · simp only [hc, if_true]
      refine ⟨?_, by omega⟩
      have : x + 2 ^ n = 2 ^ n * 1 + x := by ring
      rw [this, Nat.testBit_two_pow_mul_add _ h2]
      by_cases a : i < n
      · have : i < n + 1 := by omega
        simp [a, this, h1]
      · by_cases b : i = n
        · subst b; simp [hc]
        · have q : ¬ i < n + 1 := by omega
          have : i - n ≠ 0 := by omega
          simp only [a, q, if_false, decide_false, Bool.false_and]
          simp [Nat.testBit, Nat.shiftRight_eq_div_pow, Nat.div_eq_of_lt (Nat.one_lt_two_pow this)]
    · simp only [hc, if_false, Bool.false_eq_true]
      refine ⟨?_, by omega⟩
      rw [h1]
      by_cases a : i < n
      · have : i < n + 1 := by omega
        simp [a, this]
      · by_cases b : i = n
        · subst b; simp [hc]
        · have q : ¬ i < n + 1 := by omega
          simp [a, q]

theorem sub_and_testBit (w m i : Nat) : (w - (w &&& m)).testBit i = (w.testBit i && !m.testBit i) := by
  induction i generalizing w m with
  | zero =>
    have p : (w &&& m) % 2 = 1 → w % 2 = 1 := fun h => (Nat.and_mod_two_eq_one.mp h).1
    have q : (w &&& m) % 2 = 1 ↔ w % 2 = 1 ∧ m % 2 = 1 := Nat.and_mod_two_eq_one
    have l : w &&& m ≤ w := Nat.and_le_left
    have e : (w - (w &&& m)) % 2 = 1 ↔ w % 2 = 1 ∧ ¬ m % 2 = 1 := by omega
    simp only [Nat.testBit_zero]
    by_cases a : w % 2 = 1 <;> by_cases b : m % 2 = 1 <;> simp_all
  | succ i ih =>
    have l : w &&& m ≤ w := Nat.and_le_left
    have p : (w &&& m) % 2 = 1 → w % 2 = 1 := fun h => (Nat.and_mod_two_eq_one.mp h).1
    have d : (w &&& m) / 2 = w / 2 &&& m / 2 := Nat.and_div_two
    have e : (w - (w &&& m)) / 2 = w / 2 - (w / 2 &&& m / 2) := by rw [← d]; omega
    rw [Nat.testBit_succ, e, ih, ← Nat.testBit_succ, ← Nat.testBit_succ]

end Sys2Proof.Machine
end

