-- ==== Sys2Proof/Tests/Slice0.lean ====
section
/-! SUPPORT. States that meet the hypotheses of the statements, one witness for every clause that has any, and a few
values taken from the manual. -/

open Sys2Proof Sys2Proof.Machine

namespace Sys2Proof.Tests

-- One theorem after another: all at once they would take more memory than there is.
set_option Elab.async false

/-! ### Small states -/

/-- Registers set, one after another. -/
def regs (l : List (Nat × Nat)) (s : State) : State := l.foldl (fun s x => s.setReg x.1 x.2) s

/-- A monitor that has seen 64 good windows. -/
def good : Monitor := { good := 64, bad := 0, stable := true, dead := false }

/-- A module whose every domain is on and out of reset, 5 ms after its start. -/
def live : State :=
  { State.reset with
    now := 5000000, siteTime := 5000000, timeRuns := true, inputOk := true, pwrgood := true, perstN := true
    sources := [], held := [], covered := [], best := none, on := List.range 96, sensed := true, pllLocked := true
    initialised := List.range 8, monitors := [good, good, good], wires := (List.range 64).flatMap fun n => (islandsOf n).map fun i => (n, i)
    cak := 5, kek := 7, journalValid := List.range 48 }

/-- That module with its clocks stable, everything enabled, its sentinels read and ring 0 on. -/
def up : State :=
  regs [(Reg.clkIsland, 2 ^ 64 - 1), (Reg.pwrEn, 2 ^ 64 - 1), (Reg.pwrEnHi, 2 ^ 32 - 1), (Reg.pwrLimit, 0x1FFF),
        (Reg.hifHostwinBase 0, 1), (Reg.hifHostwinLimit 0, 0xFFFFFFFFF), (Reg.secStatus, 1), (Reg.hifEpoch, 1),
        (Reg.prmHorizon, 0xFFFFFFFF), (Reg.clkStatus, 7), (Reg.ringStatus 0, 1), (Reg.ringCtrl 0, 0x101),
        (Reg.ringSize 0, 0x606), (Reg.ringSqBase 0, 0x10000), (Reg.ringCqBase 0, 0x20000), (Reg.ringDbAddr 0, 0x30000)]
    { live with
      sentinels := List.replicate 48 (List.replicate 4 ({ ps := 1000, takenAt := some 5000000 } : Sentinel))
        ++ List.replicate 14 (List.replicate 2 ({ ps := 1000, takenAt := some 5000000 } : Sentinel)) }

/-- A descriptor of a type, with its bytes from 32 on. -/
def desc (typ : Nat) (body : List Byte) : List Byte := padTo 128 (leBytes 1 typ ++ zeros 31 ++ body)

/-- A critical descriptor with the next counter of `up` and a tag: the CMAC under the key of `up` that the check wants. -/
def crit (typ : Nat) (body tag : List Byte) : List Byte :=
  padTo 96 (leBytes 1 typ ++ zeros 31 ++ body) ++ leBytes 8 1 ++ leBytes 1 (typ - 0x40) ++ zeros 7 ++ tag

/-- A descriptor waits for its decision. -/
def wait (d : List Byte) (s : State) : State := { s with taken := [{ ring := 0, index := 0, bytes := d }] }

/-- A row starts the item of the waiting descriptor. -/
def begins (kind : Nat × Nat) (check : ItemCheck) (s : State) : Bool := ((s.advance 1).starts kind check).isSome

/-! ### Descriptors that are accepted and start -/

/-- A program image of the code given, with token bounds of 100. -/
def prog (code : List Byte) : List Byte :=
  padTo 256 (leBytes 4 0x47505846 ++ leBytes 2 0x6448 ++ leBytes 1 1 ++ zeros 1 ++ leBytes 4 code.length ++ zeros 4
    ++ leBytes 4 (Crypto.crc32 code) ++ zeros 12 ++ leBytes 8 100 ++ zeros 8 ++ leBytes 8 100) ++ code

/-- Die 0 is loaded with two empty bundles. -/
def loaded : State := regs [(Reg.prmHbm 0, 100)] (State.loadDie (prog (zeros 64)) 0 up)

/-- A plan record of die 0, entry 0: a 32 by 32 tensor, its masters at 0x20000. -/
def planRec : List Byte :=
  padTo 128 (leBytes 6 0x20000 ++ leBytes 6 0x30000 ++ leBytes 6 0x40000 ++ leBytes 6 0x50000 ++ zeros 12
    ++ [(0, 32), (0, 32), (32, 32), (0, 32), (0, 32)].flatMap fun (x : Nat × Nat) => leBytes 4 x.1 ++ leBytes 4 x.2)

/-- Die 0 has a plan and a valid entry 0 with a current slot. -/
def planned : State :=
  regs [(Reg.cobJbase 0, 0x1000000), (Reg.vtSlot0 0 0, 0x2000000), (Reg.vtSlot1 0 0, 0x2010000),
        (Reg.vtCfg 0 0, 2 ^ 31 + 16), (Reg.vtState 0 0, 3), (Reg.vtVer0 0 0, 1), (Reg.prmHbm 0, 100), (Reg.cobStep, 5)]
    { (up.writeHbm 0x11000 (leBytes 8 0x10000)).writeHbm 0x10000 planRec with plans := [(0, 0x10000)] }

/-- The group table holds group 1, of this module alone; a bucket record lies at 0x13000. -/
def grouped : State :=
  regs [(Reg.neaGroups, 0x12000 + 2 ^ 48)]
    ((up.writeHbm 0x13000 (padTo 128 (leBytes 4 7 ++ leBytes 4 1 ++ leBytes 6 0x20000000000 ++ leBytes 6 0x3000000
        ++ leBytes 4 32 ++ leBytes 4 32 ++ zeros 8 ++ leBytes 4 0xFFFF ++ zeros 4 ++ leBytes 4 32 ++ zeros 4 ++ leBytes 4 32))).writeHbm
      0x12000 (leBytes 2 1 ++ leBytes 2 1 ++ zeros 2 ++ leBytes 2 1 ++ leBytes 4 1 ++ leBytes 2 1 ++ zeros 74))

/-- A row table of one unit in the state and with the pins given, and a list of it at 0x15000. -/
def paged (st pins : Nat) : State :=
  regs [(Reg.ftStatus 0, 1), (Reg.rtBase, 0x14000), (Reg.rtCount, 1), (Reg.rcBase 0, 0x4000000), (Reg.rcCfg 0, 4),
        (Reg.rcLine 0, 1), (Reg.prmHbm 0, 100)]
    (((up.writeHbm 0x15100 (zeros 16)).writeHbm 0x15000 (zeros 4)).writeHbm 0x14000
      (leBytes 8 0 ++ leBytes 8 1 ++ leBytes 6 0x4000000 ++ leBytes 1 st ++ leBytes 1 pins ++ zeros 8))

/-- A site of two with an exchange table of shard 3, run 1, far port 0 UP. -/
def exch : State :=
  regs [(Reg.fxTable, 0x16000), (Reg.fpStatus 0, 2), (Reg.secPortStatus 0, 1), (Reg.prmHbm 0, 100)]
    (up.writeHbm 0x16000 (padTo 1024 (leBytes 4 0x5845474E ++ leBytes 8 1 ++ leBytes 4 0x01010001 ++ leBytes 2 2 ++ leBytes 2 1)
      ++ padTo 1024 (leBytes 4 3 ++ leBytes 4 9 ++ leBytes 4 0 ++ leBytes 4 1 ++ leBytes 4 0 ++ leBytes 4 32 ++ zeros 4
        ++ (List.range 6).flatMap fun i => leBytes 6 (0x5000000 + i * 0x1000))))

/-- A set of one register entry lies at 0x17000. -/
def setAt : State := up.writeHbm 0x17000 (leBytes 4 1 ++ leBytes 4 Reg.prmPace ++ leBytes 8 5)

/-- R312, R344: the rows of host copies, on descriptors that are accepted and due. -/
theorem witness_DecisionRows_copies :
    begins (0x01, 0) hostCopyCheck (wait (desc 0x01 (zeros 8 ++ leBytes 8 4096 ++ leBytes 8 0x1000000000 ++ leBytes 4 64)) up) = true
    ∧ begins (0x01, 1) hostCopyCheck (wait (desc 0x01 (leBytes 8 1 ++ leBytes 8 4096 ++ leBytes 8 0x1000000000 ++ leBytes 4 64)) up) = true := by
  decide +kernel

/-- The row that loads a program. -/
theorem witness_DecisionRows_loading :
    begins (0x02, 0) progLoadCheck (wait (desc 0x02 (leBytes 8 1 ++ leBytes 8 4096 ++ leBytes 4 320))
      (up.writeHost 4096 (prog (zeros 64)))) = true := by
  decide +kernel

/-- The start of a gang. -/
theorem witness_GangsBegin : begins (0x03, 0) progStartCheck (wait (desc 0x03 (leBytes 8 1)) loaded) = true := by
  decide +kernel

/-- The rows of updates. -/
theorem witness_DecisionRows_updates :
    begins (0x04, 0) (updateCheck 0) (wait (desc 0x04 (leBytes 2 0 ++ leBytes 2 1 ++ leBytes 6 0x11000)) planned) = true
    ∧ begins (0x04, 1) (updateCheck 1) (wait (desc 0x04 (leBytes 2 0x100 ++ leBytes 2 1 ++ leBytes 6 0x11000)) planned) = true
    ∧ begins (0x04, 2) (updateCheck 2) (wait (desc 0x04 (leBytes 2 0x200 ++ leBytes 2 1 ++ leBytes 6 0x11000)) planned) = true
    ∧ begins (0x04, 3) (updateCheck 3) (wait (desc 0x04 (leBytes 2 0x300 ++ leBytes 2 1 ++ leBytes 6 0x11000)) planned) = true
    ∧ begins (0x04, 4) updateLazyCheck (wait (desc 0x04 (leBytes 2 0x400 ++ leBytes 2 1 ++ leBytes 6 0x15100)) (paged 2 1)) = true
    ∧ begins (0x04, 5) updateRollfwdCheck (wait (desc 0x04 (leBytes 2 0x500)) planned) = true := by
  decide +kernel

/-- The rows of the near fabric, of flash and of the row pager; REDUCE and PAGE_IN have statements of their own. -/
theorem witness_DecisionRows_fabric_flash :
    begins (0x05, 0) reduceCheck (wait (desc 0x05 (leBytes 6 0x13000)) grouped) = true
    ∧ begins (0x06, 0) copyCheck (wait (desc 0x06 (leBytes 6 0x1000 ++ leBytes 2 1 ++ leBytes 8 0x2000 ++ leBytes 4 64))
        (regs [(Reg.neaCoord, 2 * 512), (Reg.npStatus 0, 2), (Reg.npStatus 1, 2)] up)) = true
    ∧ begins (0x07, 0) (flashCheck false) (wait (desc 0x07 (zeros 8 ++ leBytes 4 1 ++ leBytes 6 0x1000)) (paged 0 0)) = true
    ∧ begins (0x07, 1) (flashCheck true) (wait (desc 0x07 (zeros 8 ++ leBytes 4 1 ++ leBytes 6 0x1000 ++ leBytes 1 1)) (paged 0 0)) = true
    ∧ begins (0x08, 0) pageInCheck (wait (desc 0x08 (leBytes 6 0x15000 ++ leBytes 2 1)) (paged 0 0)) = true
    ∧ begins (0x09, 0) unpinCheck (wait (desc 0x09 (leBytes 6 0x15000 ++ leBytes 2 1)) (paged 2 1)) = true := by
  decide +kernel

set_option maxRecDepth 100000 in
/-- The rows of the far exchange. MERGE_OUTER is not among them: the die it asks about is a free value (log 27), which no proof can
evaluate. -/
theorem witness_DecisionRows_exchange :
    begins (0x0A, 0) exportCheck (wait (desc 0x0A (leBytes 4 5 ++ leBytes 4 9 ++ leBytes 4 0 ++ leBytes 4 1 ++ leBytes 4 0 ++ leBytes 4 32
        ++ leBytes 8 0x6000000 ++ leBytes 4 8192)) exch) = true
    ∧ begins (0x0C, 0) contribCheck (wait (desc 0x0C (leBytes 4 0 ++ leBytes 4 3)) exch) = true
    ∧ begins (0x0E, 0) snapFetchCheck (wait (desc 0x0E (leBytes 4 4 ++ leBytes 4 0 ++ leBytes 4 3 ++ leBytes 8 0x6000000 ++ leBytes 4 8192))
        exch) = true
    ∧ begins (0x0F, 0) joinCheck (wait (desc 0x0F (leBytes 1 1)) exch) = true := by
  decide +kernel

/-- The resolution of a digest mismatch, windows and staged sets. -/
theorem witness_DecisionRows_sets :
    begins (0x10, 0) (resolveCheck false) (wait (desc 0x10 (zeros 3)) up) = true
    ∧ begins (0x10, 1) (resolveCheck true) (wait (desc 0x10 (zeros 2 ++ leBytes 1 1)) grouped) = true
    ∧ begins (0x11, 0) windowCheck (wait (desc 0x11 (leBytes 8 6000000 ++ leBytes 8 7000000)) up) = true
    ∧ begins (0x12, 0) (stageCheck 0) (wait (desc 0x12 (leBytes 2 0 ++ leBytes 2 1 ++ zeros 8 ++ leBytes 6 0x17000 ++ leBytes 2 1)) setAt) = true
    ∧ begins (0x12, 1) (stageCheck 1) (wait (desc 0x12 (leBytes 2 1 ++ zeros 10 ++ leBytes 6 0x17000 ++ leBytes 2 1)) setAt) = true
    ∧ begins (0x12, 2) (stageCheck 2) (wait (desc 0x12 (leBytes 4 2 ++ leBytes 4 2 ++ zeros 4 ++ leBytes 6 0x17000 ++ leBytes 2 1)) setAt) = true := by
  decide +kernel

set_option maxRecDepth 1000000 in
/-- The import of an image, of the smallest payload there is. -/
theorem witness_DecisionRows_import :
    begins (0x0B, 0) importCheck (wait (desc 0x0B (leBytes 8 0x7000000 ++ leBytes 4 4160))
      (exch.writeHbm 0x7000000 (imageHeader 5 0 9 ⟨0, 1, 0, 32⟩ 0 0 1 0 0))) = true := by
  decide +kernel

/-! ### Registers and rings -/

/-- Ring 1 is configured and OFF. -/
def ring1 : State :=
  regs [(Reg.ringSize 1, 0x606), (Reg.ringSqBase 1, 0x40000), (Reg.ringCqBase 1, 0x50000), (Reg.ringDbAddr 1, 0x60000)] up

/-- A descriptor stands in ring 0's first SQ slot, and its doorbell record names it. -/
def doorbell : State := (up.writeHost 0x10000 (desc 0x11 (leBytes 8 6000000 ++ leBytes 8 7000000))).writeHost 0x30000 (leBytes 4 1)

/-- The set-up lock is on. -/
def lockedUp : State := regs [(Reg.hifCtrl, 1)] up.lockAll

/-- R423: a write that is taken, of a register that only holds what is written. -/
theorem witness_RegisterWrites :
    plainReg Reg.prmPace = true ∧ (up.barTakes Reg.prmPace false 5).isSome = true
      ∧ plainReg Reg.hifSeed = true ∧ (up.barTakes Reg.hifSeed true (2 ^ 64 - 1)).isSome = true := by
  decide +kernel

/-- R423 to R426: one write for each way of being discarded. -/
theorem witness_DiscardedWrites :
    (State.reset.live 92 = false ∧ up.live 92 = true ∧ Reg.prmPace % 8 ≠ 0)
      ∧ (blockAt 0x3FFFFFC = none ∨ regRowAt 0x3FFFFFC = none)
      ∧ ((blockAt Reg.prmPace).map fun b => up.blockLive b.pd) = some true
      ∧ ((regRowAt Reg.prmGuard).map fun r => (r.wide, r.inRange false 63)) = some (false, false)
      ∧ ((blockAt (Reg.ftStatus 0)).map fun b => ({ up with on := [92] }).blockLive b.pd) = some false
      ∧ ({ up with on := [92] }).live 92 = true := by
  decide +kernel

/-- R426: a register of K1 answers while PD92 is held, and a register of L0's own block does not. -/
theorem test_K1Answers :
    ({ up with held := [92] } : State).barRead Reg.rstCause false = up.reg Reg.rstCause % 2 ^ 32
      ∧ ({ up with held := [92] } : State).barRead Reg.prmPace false = 0xFFFFFFFF := by
  decide +kernel

/-- R400, Table PWB-9: the plan has 5 for N1, at bytes 10 and 11 with VALID; a report of 6 sets PLAN_MISMATCH, one of 5
does not. -/
theorem test_WiringPlan :
    let s := { up with surroundings := (List.replicate 60 []).set 59 ([6, 0, 1] ++ zeros 7 ++ leBytes 2 0x8005 ++ zeros 52) }
    ((s.setReg (Reg.npStatus 1) (2 + 6 * 128)).checkPlan 1).regBits Reg.surEvents 2 2 = 1
      ∧ ((s.setReg (Reg.npStatus 1) (2 + 5 * 128)).checkPlan 1).regBits Reg.surEvents 2 2 = 0 := by
  decide +kernel

/-- R429: writes of a register of RWL fields alone and of one that has other fields, in a block whose lock flag is set. -/
theorem witness_LockedWrites :
    (∀ off ∈ [Reg.prmPace, Reg.recCtrl], ∀ b ∈ blockAt off, ∀ r ∈ regRowAt off, lockedUp.live 92 = true
        ∧ lockedUp.blockLive b.pd = true ∧ b.lock ∈ lockedUp.locked ∧ r.wide = false ∧ r.inRange true 5 = true ∧ 5 &&& r.resv = 0)
      ∧ (blockAt Reg.prmPace).isSome ∧ (regRowAt Reg.prmPace).isSome ∧ (blockAt Reg.recCtrl).isSome
      ∧ (regRowAt Reg.recCtrl).isSome := by
  decide +kernel

/-- R340: writes of EN that are taken, to a ring that is OFF with good and with bad sizes, and to one that is ON. -/
theorem witness_Rings :
    (ring1.ringState 1 = 0 ∧ (ring1.barTakes (Reg.ringCtrl 1) false (putBits 0x10020 0 0 1)).isSome = true)
      ∧ (up.ringState 1 = 0 ∧ (up.barTakes (Reg.ringCtrl 1) false (putBits 0x10020 0 0 1)).isSome = true)
      ∧ (up.ringState 0 = 1 ∧ (up.barTakes (Reg.ringCtrl 0) false (putBits 0x10020 0 0 0)).isSome = true) := by
  decide +kernel

/-- R337, R338: a tail one beyond the head, and a ring fourteen descriptors after its last head write-back. -/
theorem witness_Doorbells :
    ∀ s ∈ [doorbell, doorbell.modRing 0 fun r => { r with sinceWriteback := 14 }],
      s.rings.length = 8 ∧ s.admitting = true ∧ s.regBits Reg.hifStatus 1 1 = 0
        ∧ (∀ m ∈ List.range 8, s.ringState m = 1 ↔ m = 0) ∧ s.taken = [] ∧ 1 ≤ s.regBits (Reg.ringCtrl 0) 8 5
        ∧ (s.ring 0).sinceWriteback + 1 < 16 ∧ (s.ring 0).tail = BitVec.ofNat 32 (s.reg (Reg.ringHead 0))
        ∧ s.cqRoom 0 = true ∧ rowKind (s.readHost 0x10000 128) ∈ knownKinds
        ∧ fld (s.readHost (s.dbAddr 0) 8) 0 4 = 1 ∧ fld (s.readHost (s.dbAddr 0) 8) 4 4 = (s.ring 0).head.toNat := by
  decide +kernel

/-- R338, R341, R357: the function's states, a ring that is ON, and a coalescing timer that has just run out. -/
theorem witness_FunctionStates :
    (up.live 92 = true ∧ up.heldRecords = [])
      ∧ (regs [(Reg.hifStatus, 2)] doorbell).regBits Reg.hifStatus 1 1 = 1
      ∧ State.reset.admitting = false
      ∧ (up.admitting = true ∧ up.ringState 0 = 1 ∧ up.regBits Reg.hifStatus 1 1 = 0)
      ∧ (let s := (regs [(Reg.ringCtrl 0, 0x01000101)] up).modRing 0 fun r => { r with firstUnsignalled := some 4999001 };
          s.live 92 = true ∧ s.regBits (Reg.ringCtrl 0) 31 24 = 1 ∧ (s.ring 0).firstUnsignalled = some 4999001
            ∧ 4999001 + 1 * 1000 ≤ s.now + 1) := by
  decide +kernel

/-! ### Resets, clocks -/

/-- PERST_N is low: its source asserts and its blocks are held. -/
def inReset : State := { up with perstN := false, held := [92], covered := [92], sources := [srcPerst 1000] }

/-- The last source of an episode whose blocks are all released again. -/
def lastSource : State :=
  { up with perstN := false, sources := [srcPerst 1000], covered := [0, 1], best := some (srcPerst 1000) }

/-- R372, R376, R389, R395: pins that are high and low, a RESET command 10 us old, junctions that have been cool for 1 s,
and a root PLL that has not locked yet. -/
theorem witness_Sources :
    (up.pwrgood = true ∧ up.perstN = true ∧ up.inputOk = true)
      ∧ (let s : State := { up with sources := [{ cause := resetCause 0, reach := 0, kind := 0, index := 0, since := 4990001 }] };
          ∃ r ∈ s.sources, r.isCommand = true ∧ r.since + 10000 ≤ s.now + 1)
      ∧ (let s : State := { up with coolSince := some 5, tripped := true, now := 1000000004 };
          s.coolSince = some 5 ∧ s.tripped = true ∧ 5 + 1000000000 ≤ s.now + 1)
      ∧ (let s : State := { up with pllLocked := false, timeRuns := false };
          s.inputOk = true ∧ s.pllLocked = false ∧ s.srcReady 0 = true) := by
  decide +kernel

/-- R376: the last source of an episode, its blocks released. -/
theorem witness_Episodes :
    lastSource.inputOk = true ∧ lastSource.covered ≠ [] ∧ lastSource.best = some (srcPerst 1000)
      ∧ (∀ r ∈ lastSource.sources, r.cause = 0x10) ∧ ∀ x ∈ lastSource.covered, x ∉ lastSource.held := by
  decide +kernel

/-- R373: a block that may be released, and one that may not, its source still asserting. -/
theorem witness_Blocks :
    { up with held := [92], covered := [92] }.canRelease 92 = true ∧ inReset.canRelease 92 = false := by
  decide +kernel

/-- R380, R381: the input off, with its pins low, and on. -/
theorem witness_Input :
    State.reset.inputOk = false ∧ State.reset.pwrgood = false ∧ State.reset.perstN = false ∧ up.inputOk = true := by
  decide +kernel

/-- R389: a module that has not tripped. -/
theorem witness_ThermalTrip : up.inputOk = true ∧ up.tripped = false := by
  decide +kernel

/-- R378: a crossing whose sides are in generation 0 and 1. -/
def crossed : State :=
  { up with crossings := [(17, { clocked := { gen := true, begun := true }, clockless := { begun := true } })
      , (18, { clocked := { begun := true } })] }

/-- R378: a crossing whose sides have both begun, with tokens of the present generation and of another; one with a side that
has not begun. -/
theorem witness_Crossings :
    (look crossed.crossings 17).any (fun x => [Side.clocked, .clockless].all fun d =>
        (x.side d).begun && (x.side (otherSide d)).begun && (x.side d).gen == (d == Side.clocked)) = true
      ∧ (look crossed.crossings 18).any (fun x => (x.side .clocked).begun && !(x.side .clockless).begun) = true := by
  decide +kernel

/-- R363, R364: selections of a source that is ready, of one that is not, and of the present one in holdover, and the steps of
a switch. -/
theorem witness_Switches :
    (∃ a, up.barTakes Reg.clkCtrl false 1 = some a ∧ bitsOf a.2.2 1 0 ≠ bitsOf a.2.1 1 0 ∧ up.selectable 1 = true)
      ∧ (let s : State := { up with monitors := [good, {}, {}] };
          ∃ a, s.barTakes Reg.clkCtrl false 1 = some a ∧ bitsOf a.2.2 1 0 ≠ bitsOf a.2.1 1 0 ∧ s.selectable 1 = false)
      ∧ ({ up with switchStep := .released 1 }.switchStep = .released 1 ∧ up.inputOk = true ∧ up.srcReady 1 = true)
      ∧ ({ up with switchStep := .captured 1 }.switchStep = .captured 1)
      ∧ (let s := regs [(Reg.clkStatus, 0x107)] up;
          ((s.barTakes Reg.clkCtrl false (up.reg Reg.clkCtrl)).any fun a => s.selectable (bitsOf a.2.2 1 0)) = true
            ∧ s.switchStep = .idle ∧ bitOf (s.reg Reg.clkStatus) 8 = true) := by
  refine ⟨⟨(up.barTakes Reg.clkCtrl false 1).get (by decide +kernel), by decide +kernel⟩,
    ⟨(({ up with monitors := [good, {}, {}] } : State).barTakes Reg.clkCtrl false 1).get (by decide +kernel), by decide +kernel⟩,
    by decide +kernel⟩

/-- R359: three monitors, and no recovered clock. -/
theorem witness_Monitors : up.inputOk = true ∧ up.monitors.length = 3 ∧ up.recovPresent = false := by
  decide +kernel

/-- R361, R365, R367: an island with and without its clock, and writes that are taken. -/
theorem witness_Islands :
    (.k1 ∈ islandsOf 63 ∧ up.wire 63 .k1 = true) ∧ ({ up with wires := [] } : State).wire 63 .k1 = false ∧ up.pllLocked = true
      ∧ (up.barTakes Reg.clkTimeSet true 7).isSome = true
      ∧ ((up.barTakes Reg.clkCko false 0x101).map fun x =>
          (List.range 4).all fun n => !bitOf x.2.2 (8 + n) || bitsOf x.2.2 (2 * n + 1) (2 * n) == 1) = some true := by
  decide +kernel

/-! ### Power, surroundings, security, errors, the recorder -/

/-- The core of a link die and its port wait to be switched on, the core first. -/
def waitingOn : State :=
  { up with on := (List.range 96).filter (fun b => b != 80 && b != 64), switchOns := [80], rising := [(64, 4990000)] }

/-- R383: domains waiting, one whose supply comes, and one whose supply has not come for 1 ms. -/
theorem witness_Domains :
    (waitingOn.inputOk = true ∧ blkK1 ∉ waitingOn.held ∧ waitingOn.tripped = false)
      ∧ waitingOn.rising.any (·.1 == 64) = true
      ∧ (let s : State := { up with rising := [(95, 4000001)] }; (95, 4000001) ∈ s.rising ∧ 4000001 + 1000000 ≤ s.now + 1) := by
  decide +kernel

/-- R383 to R385: writes of both words of PWR_EN; one that asks for a die that is off, with no item and no episode. -/
theorem witness_PowerRequests :
    (up.barTakes Reg.pwrEn true (2 ^ 64 - 2)).isSome = true ∧ (up.barTakes Reg.pwrEnHi false 0x0FFFFFFF).isSome = true
      ∧ (let s : State := { up with on := dropFrom up.on 0 };
        (s.barTakes Reg.pwrEn true (2 ^ 64 - 1)).isSome = true ∧ s.items = [] ∧ s.covered = [] ∧ blkK1 ∉ s.held
          ∧ bitOf (s.reg Reg.clkProfile) 4 = false ∧ s.sleepState = 0 ∧ 0 ∉ s.on ∧ s.rising.any (·.1 == 0) = false
          ∧ 0 ∉ s.domFaults) := by
  decide +kernel

/-- R390 to R393: a module in each state of Dormant. -/
theorem witness_Dormant :
    blkK1 ∉ up.held ∧ up.sleepState = 0
      ∧ ((up.barTakes Reg.pwrCtrl false (up.reg Reg.pwrCtrl ||| 1)).map fun x => bitOf x.2.2 0) = some true
      ∧ bitOf (up.reg Reg.pwrCtrl) 0 = false ∧ up.dormantPin = false
      ∧ (regs [(Reg.pwrStatus, 9)] up).sleepState = 1 ∧ (regs [(Reg.pwrStatus, 9)] up).items.any Item.holdsDormant = false
      ∧ (regs [(Reg.pwrStatus, 10)] up).sleepState = 2 ∧ (regs [(Reg.pwrStatus, 11)] up).sleepState = 3 := by
  decide +kernel

/-- R387: a module that samples. -/
theorem witness_Telemetry : up.inputOk = true ∧ blkK1 ∉ up.held ∧ up.switchOffs = []
    ∧ up.tauFloor 47 = none := by
  decide +kernel

/-- R318: the last sentinel of the last link die. -/
theorem witness_Sentinels :
    up.sentinels.length = 62 ∧ 1 < (up.sentinels.getD 61 []).length ∧ up.live (sentinelPd 61) = true
      ∧ up.controlOk 61 = true := by
  decide +kernel

/-- A cage whose module has been there for 2 s, after two failed reads. -/
def caged : State :=
  ({ up with presentAt := [(17, 5)], cageTries := [(17, 2)], now := 2000000004 }).setSur 17 (surStatus 17 2)

/-- R397 to R400, R435: cages, and the entry of a hub's stack; the management pair. -/
theorem witness_Surroundings :
    caged.surroundings.length = 60 ∧ caged.readerReady 17 = true ∧ caged.readerReady 50 = true
      ∧ (look caged.presentAt 17).all (fun t => decide (t + 2000000000 ≤ caged.now + 1)) = true
      ∧ (look caged.triedAt 17).all (fun t => decide (t + 10000000 ≤ caged.now + 1)) = true
      ∧ (look ({ caged with presentAt := [(17, 6)] } : State).presentAt 17).all (fun t => decide (t + 2000000000 ≤ caged.now + 1)) = false
      ∧ (look caged.cageTries 17).getD 0 = 2 ∧ fld (caged.sur 17) 2 1 ≠ 0
      ∧ up.inputOk = true ∧ blkK1 ∉ up.held ∧ up.wire 63 .k1 = true := by
  decide +kernel

/-- R308, R313: a lockout about to end and one that is not. -/
theorem witness_Lockouts :
    (let s : State := { up with lockoutAt := some 5, now := 1000000004 }; s.lockoutAt = some 5 ∧ 5 + 1000000000 ≤ s.now + 1)
      ∧ (let s : State := { up with lockoutAt := some 5, now := 1000000003 }; s.lockoutAt = some 5 ∧ s.now + 1 < 5 + 1000000000)
      ∧ up.live 94 = true := by
  decide +kernel

/-- R415 to R417: a channel with nothing open, a die with two and with three misses, and contained units. -/
theorem witness_Errors :
    (up.inputOk = true ∧ 7 ∉ up.failedChannels ∧ up.channelReplays.find? (·.1 == 7) = none)
      ∧ (look ({ up with accessMisses := [(47, 3)] } : State).accessMisses 47).getD 0 = 3
      ∧ (look ({ up with accessMisses := [(61, 2)] } : State).accessMisses 61).getD 0 < 3
      ∧ (∀ r ∈ up.sources, r.cause ≠ 0x41)
      ∧ (up.barTakes Reg.errRelease true (2 ^ 47)).isSome = true
      ∧ (up.barTakes Reg.errReleasePort false 5).isSome = true := by
  decide +kernel

/-- A record that waits to be programmed. -/
def aRecord : EventRec := { sev := 1, code := 0x0100, die := 3, sub := 0xFF, siteTime := 9, firstAt := 4000000, detail := [] }

/-- The recorder writes. -/
def writing : State :=
  let s := regs [(Reg.recStatus, 1)] up
  { s with recorder := { s.recorder with queue := [aRecord], posEvents := 5, posFault := 5, posPower := 5, posCounter := 5 } }

/-- R406, R407: a record at the head, away from a sector's start. -/
theorem witness_Records :
    writing.writerRuns = true ∧ writing.recorder.lostPending = 0 ∧ writing.recorder.queue = [aRecord]
      ∧ writing.nextUnit aRecord.area (2 * aRecord.area.per) (writing.recorder.pos aRecord.area) % aRecord.area.per ≠ 0 := by
  decide +kernel

/-- R404, R408, R409: a held record 1 s old, a counter entry that is due, the last sector being erased. -/
theorem witness_Recorder :
    (let s : State := { up with now := 1003999999, recorder := { up.recorder with waiting := [aRecord] } };
        aRecord ∈ s.recorder.waiting ∧ (∀ x ∈ s.recorder.waiting, x.same aRecord = true → x = aRecord)
          ∧ aRecord.firstAt + 1000000000 ≤ s.now + 1 ∧ s.recorder.queue.length < 4096)
      ∧ (let s : State := { writing with recorder := { writing.recorder with opMs := 60000 } };
        (s.advance 1).writerRuns = true ∧ (s.advance 1).recorder.lastCounterMs + 60000 ≤ (s.advance 1).recorder.opMs)
      ∧ (let s : State := { up with recorder := { up.recorder with erasing := [511] } };
        s.live 95 = true ∧ s.regBits Reg.recStatus 2 2 = 0 ∧ 511 ∈ s.recorder.erasing) := by
  decide +kernel

/-- R411: FREEZE and UNFREEZE written, a freeze whose time is over, a window that is open and one that is not. -/
theorem witness_Freezing :
    ((up.barTakes Reg.recCtrl false 1).map fun x => bitOf x.2.2 0) = some true ∧ up.regBits Reg.recStatus 2 2 = 0
      ∧ ((up.barTakes Reg.recCtrl false 0).map fun x => bitOf x.2.2 0) = some false
      ∧ (let s : State := { up with recorder := { up.recorder with frozenAt := some 5 }, now := 10000000004 };
        s.recorder.frozenAt = some 5 ∧ 5 + s.regBits Reg.recFreeze 23 0 * 1000000 ≤ s.now + 1)
      ∧ up.live 92 = true ∧ up.live 95 = true ∧ (regs [(Reg.recStatus, 5)] up).regBits Reg.recStatus 2 2 = 1 := by
  decide +kernel

/-! ### Items -/

/-- The key wrap, under key 7, of the value that has the bits 0 to 2 of its first byte set. -/
def wrapped7 : List Byte := 
  [11, 97, 211, 108, 254, 91, 12, 52, 99, 205, 229, 230, 209, 44, 64, 150, 169, 249, 252, 33, 145, 154, 152, 137, 60, 69, 40, 168, 161,
   226, 60, 106, 253, 198, 175, 163, 146, 128, 165, 100]

/-- A module with two of its root key slots programmed. -/
def owned : State := { up with fuses := { up.fuses with programmed := 3, orks := [1, 2, 0, 0] } }

/-- An item of a descriptor, accepted and promised. -/
def item (d : List Byte) : Item :=
  { id := 2 ^ 40, ring := 0, ticket := 0, cirq := false, desc := d, ts := 4000000, tp := 4500000, tauPs := 1000, powerDw := 0, units := [],
    govDie := 0xFF, promised := true }

/-- A staged set of one entry, for a quiet point. -/
def aSet (off v : Nat) : StagedSet := ⟨2 ^ 40, 0, 0, 1, 0, 0, 0, [(1, off, v)]⟩

/-- R353, R354: a GAP set whose item waits; a set that cannot take effect, since its ring is on; one that can. -/
theorem witness_StagedSets :
    (let d := desc 0x12 (leBytes 2 1)
      let s : State := { up with items := [item d], staged := [aSet 8 5] };
      s.item? (item d).id = some (item d) ∧ dType d = 0x12 ∧ fld d 32 1 = 1 ∧ (item d).started = false ∧ (item d).done = false
        ∧ (s.advance 1).startWaits (item d) = false ∧ (s.staged.find? fun y => y.item == (item d).id) = some (aSet 8 5))
      ∧ (aSet 8 5).cls = 0 ∧ up.canApply (aSet (Reg.ringSqBase 0) 0x1000) = false
      ∧ up.canApply (aSet Reg.prmPace 5) = true ∧ plainReg Reg.prmPace = true ∧ (regRowAt Reg.prmPace).isSome = true := by
  decide +kernel

/-- R137, R211, R238: the items are new, the dies are 48, and the reduction is no resubmission. -/
theorem witness_Begin :
    loaded.dies.length = 48 ∧ loaded.items = [] ∧ (paged 0 0).items = [] ∧ grouped.items = []
      ∧ dResubmit (desc 0x05 (leBytes 6 0x13000)) = false ∧ dResubmit (desc 0x08 (leBytes 6 0x15000 ++ leBytes 2 1)) = false := by
  decide +kernel

/-- A copy within the host's memory, as an item. -/
def aCopy : Item := item (desc 0x01 (leBytes 8 1 ++ leBytes 8 4096 ++ leBytes 8 0x1000000000 ++ leBytes 4 64))

/-- R315, R317, R330: an item that is due, one that is not, one that is done, and one past its promise. -/
theorem witness_Items :
    (let s : State := { up with items := [aCopy] };
      s.item? aCopy.id = some aCopy ∧ (startOf aCopy.desc).isSome = true ∧ dType aCopy.desc ≠ 0x45
        ∧ (s.advance 1).startWaits aCopy = false ∧ s.gangOf aCopy.id = [] ∧ aCopy.promised = true ∧ aCopy.voided = false
        ∧ aCopy.breached = false ∧ aCopy.tp ≤ (s.advance 1).time ∧ dType aCopy.desc ∉ [0x03, 0x0E, 0x11] ∧ s.fatal = none)
      ∧ (let i := { aCopy with ts := 5000002, tp := 5000003 }
        let s : State := { up with items := [i] };
        s.item? i.id = some i ∧ (s.advance 1).time < i.ts ∧ (s.advance 1).time < i.tp ∧ s.gangOf i.id = [])
      ∧ (let i := { aCopy with started := true, done := true }
        let s : State := { up with items := [i] };
        s.item? i.id = some i ∧ i.done = true ∧ dType i.desc ≠ 0x11) := by
  decide +kernel

/-- R165, R190, R250, R285: writes that are taken, at the last die and the last ports. -/
theorem witness_ActingWrites :
    (up.barTakes (Reg.vtDrop 47) true (2 ^ 63)).isSome = true ∧ (up.barTakes (Reg.cobJbase 47) true 0x1000).isSome = true
      ∧ (up.barTakes (Reg.npCtrl 11) false (up.reg (Reg.npCtrl 11) % 2 + 2)).isSome = true
      ∧ (up.barTakes (Reg.fpCtrl 5) false (up.reg (Reg.fpCtrl 5) % 2 ^ 15 + 2 ^ 15)).isSome = true := by
  decide +kernel

/-- A page-in of unit 0, under way. -/
def paging : State :=
  { paged 1 0 with items := [{ item (desc 0x08 (leBytes 6 0x15000 ++ leBytes 2 1)) with started := true, checked := zeros 4 }] }

/-- R374, R202, R206, R211: a hub in service with its channel OFF, without its channel, and READY; a unit that is read and one that
is written back. -/
theorem witness_FlashAndPager :
    up.live (pdHub 7) = true ∧ up.live (pdPhy 7) = true ∧ up.live (pdFlash 7) = true ∧ up.ftState 7 = 0
      ∧ ({ up with on := dropFrom up.on (pdFlash 7) } : State).live (pdFlash 7) = false
      ∧ 7 ∈ up.initialised ∧ (regs [(Reg.ftStatus 7, 1)] up).ftState 7 = 1
      ∧ paging.hubLive (paging.unitHub 0) = true ∧ 0 < paging.regBits Reg.rtCount 24 0 ∧ paging.unitState 0 = 1
      ∧ (paging.pagesOf 0).isEmpty = false
      ∧ paging.readIssued 0 = true
      ∧ (let x : WriteBack := { unit := 0, hub := 0, locator := 2 ^ 30, image := [1] }
        let s : State := { paged 4 0 with unitWrites := [x] };
        s.hubLive (s.unitHub 0) = true ∧ (s.unitWrites.find? fun y => y.unit == 0) = some x ∧ s.hubLive x.hub = true
          ∧ s.hubLive (bitsOf x.locator 32 30) = true ∧ 0 < s.regBits Reg.rtCount 24 0 ∧ s.unitState 0 = 4) := by
  decide +kernel

set_option maxRecDepth 100000 in
/-- R304: a field that is programmed. -/
theorem witness_FuseProgramRow : begins (0x45, 0) fuseCheck (wait (crit 0x45 ([1, 0, 0, 0] ++ wrapped7)
    [42, 124, 25, 53, 33, 183, 190, 111, 207, 23, 212, 196, 58, 148, 91, 28]) up) = true := by
  decide +kernel

set_option maxRecDepth 100000 in
/-- R305: a slot that is revoked while another is left. -/
theorem witness_FuseRevokeRow : begins (0x45, 1) revokeCheck (wait (crit 0x45 [0, 0, 1]
    [61, 57, 236, 210, 168, 189, 169, 220, 45, 8, 23, 251, 14, 105, 232, 7]) owned) = true := by
  decide +kernel

/-! ### Programs -/

/-- Die 47 runs a program of ten bundles with room in its bounds, further as the function says. -/
def running (f : Die → Die) : State :=
  regs [(Reg.prgStatus 47, 2)] (up.modDie 47 fun d =>
    f { d with codeBytes := 320, fetching := true, cert := ⟨1000, 10, List.replicate 4 1000000, 0, 0, 0, 0⟩, run := some ⟨2 ^ 40, 0, 0, [], some 0, 0, false⟩ })

/-- Bytes in the instruction memory of die 47. -/
def inIsram (off : Nat) (bs : List Byte) (s : State) : State :=
  { s with isram := Memory.writeN blank s.isram (47 * 0x80000 + off) bs }

/-- An op of bundle 3: its opcode, its immediate, and its record at byte 64 times a number. -/
def opAt (op imm rcd : Nat) : SlotOp := ⟨BitVec.ofNat 64 (op + rcd * 2 ^ 25 + imm * 2 ^ 38), 3, 0, 0⟩

/-- An op at the head of a slot's queue, its record at 0x400 the bytes given. -/
def queued (slot : Nat) (o : SlotOp) (r : List Byte) (f : Die → Die) : State :=
  inIsram 0x400 r (running fun d => f (d.setQueue slot [o]))

/-- A CTRL op in hand. -/
def inCtrl (o : SlotOp) : State := running fun d => { d with ctrl := some o, fetching := false }

/-- What a check answered. -/
def ok {α : Type} : Except Nat α → Bool
  | .ok _ => true
  | .error _ => false

/-- R117: a fetch past the code; one with a queue full; one of an empty bundle. -/
theorem witness_Bundles :
    (let s := running fun d => { d with fetchAt := 10 };
      s.running 47 = true ∧ (s.die 47).fetching = true ∧ (s.die 47).ctrl = none ∧ (s.die 47).codeBytes / 32 ≤ (s.die 47).fetchAt)
      ∧ (let s := inIsram 32 (leBytes 8 1) (running fun d => { d with fetchAt := 1, qMove := List.replicate 8 (opAt 1 0 0) });
        (s.die 47).fetchAt < (s.die 47).codeBytes / 32 ∧ fld (s.readIsram 47 32 32) 0 8 % 256 ≠ 0
          ∧ 8 ≤ ((s.die 47).queue 0).length)
      ∧ (running id).readIsram 47 0 32 = zeros 32 := by
  decide +kernel

/-- R120, R130, R131, R156: a LOOP of one bundle in hand, at the deepest nesting. -/
theorem witness_ControlOps :
    (let s := running fun d =>
        { d with ctrl := some (opAt 1 (1 + 2 ^ 16) 0), loops := List.replicate 3 ⟨0, 9, 5, 0⟩ };
      (s.advance 1).inHand 47 1 26 (opAt 1 (1 + 2 ^ 16) 0) ∧ (s.die 47).loops.length < 4
        ∧ ∀ l, (s.die 47).loops.head? = some l → (opAt 1 (1 + 2 ^ 16) 0).bundle + 1 + 1 ≤ l.start + l.len) := by
  unfold State.inHand
  decide +kernel

/-- The other CTRL ops in hand, GATE with a verdict; an END that has issued and waits. -/
theorem witness_ControlOps_rest :
    (((inCtrl (opAt 2 (46 + 2 ^ 12) 0)).advance 1).inHand 47 2 16 (opAt 2 (46 + 2 ^ 12) 0))
      ∧ (let s := inCtrl (opAt 3 0 0); (s.advance 1).inHand 47 3 0 (opAt 3 0 0) ∧ s.settled 47 = true)
      ∧ (let s := regs [(Reg.gateStatus, 2)] (inCtrl (opAt 4 1 0));
        (s.advance 1).inHand 47 4 16 (opAt 4 1 0) ∧ s.boundVerdict 47 = some true ∧ (s.die 47).loops = [])
      ∧ ((inCtrl (opAt 5 7 0)).advance 1).inHand 47 5 16 (opAt 5 7 0)
      ∧ ((inCtrl (opAt 6 0 0)).advance 1).inHand 47 6 0 (opAt 6 0 0)
      ∧ ((running fun d => { d with ctrl := some (opAt 6 0 0), ctrlIssued := true, fetching := false }).advance 1).inHand 47 6 0
        (opAt 6 0 0) := by
  unfold State.inHand
  refine ⟨?_, ?_, ?_, ?_, ?_, ?_⟩ <;> decide +kernel

/-- R27, R120, R134, R138: a signal that fits, one behind another, one that does not, one to a die that is off or EMPTY; a notice; a meter past its
bound. -/
theorem witness_Signals :
    (let s := { running id with signals := [⟨0, 47, 63, 2, 3, 5⟩] };
      (s.signals.find? fun y => y.src == 0 && y.dst == 47) = some ⟨0, 47, 63, 2, 3, 5⟩ ∧ s.live 47 = true
        ∧ s.prgState 47 = 2 ∧ (s.die 47).sem 63 + 2 ≤ 65535)
      ∧ (let s := { running id with signals := [⟨0, 47, 62, 1, 3, 4⟩, ⟨0, 47, 63, 2, 3, 5⟩] };
        (s.signals.find? fun y => y.src == 0 && y.dst == 47).any (fun x => x.sem != 63) = true)
      ∧ 65535 < ((running fun d => { d with sems := List.replicate 64 65534 }).die 47).sem 63 + 2
      ∧ up.prgState 47 = 0 ∧ ({ up with held := [47] } : State).live 47 = false
      ∧ (let s := { running id with notices := [(0, 47)] }; (0, 47) ∈ s.notices ∧ s.running 47 = true)
      ∧ (let s := regs [(Reg.prgMeter 47, 1011)] (running id);
        s.running 47 = true ∧ (s.die 47).cert.path + (s.die 47).cert.allowance < s.reg (Reg.prgMeter 47))
      ∧ (running id).dies.length = 48 := by
  decide +kernel

/-- The record of a move of `rows` rows of `len` bytes. -/
def moveRec (kind rows len src dst : Nat) : List Byte :=
  leBytes 2 kind ++ leBytes 2 rows ++ leBytes 4 len ++ leBytes 6 src ++ zeros 6 ++ leBytes 4 len ++ leBytes 6 dst ++ zeros 6
    ++ leBytes 4 len

/-- The op at the head of slot 0 is of the row of its opcode and TURN bit, its move may issue, and its plan and its ranges are
good or not as said. -/
def moves (store : Bool) (turn : Bool) (r : List Byte) (plan ranges : Bool) : Bool :=
  let o := opAt (if store then 2 else 1) 0 16
  let s := queued 0 o r id
  let w := s.advance 1
  decide ((w.die 47).queue 0 = [o]) && w.running 47 && (w.die 47).semReady o && w.moveReady 47 store o
    && bitOf (fld (s.record 47 o) 0 1) 4 == turn
    && (match movePlan store o (s.record 47 o) with
      | .ok p => plan && ok (w.moveRanges 47 store p) == ranges && !(s.die 47).overCharge 0 p.cost
      | .error _ => !plan)

/-- R113, R121, R122: a load, a load turned, a store; a record with a bad length, and a destination in another die. -/
theorem witness_Moves :
    moves false false (moveRec 0 2 64 0x1000 0x30000000000) true true = true
      ∧ moves false true (moveRec 16 2 3 0x1000 0x30000000000) true true = true
      ∧ moves true false (moveRec 0 1 64 0x30000000000 0x1000) true true = true
      ∧ moves false false (moveRec 0 1 0 0x1000 0x30000000000) false true = true
      ∧ moves false false (moveRec 0 1 64 0x1000 0x20000000000) true false = true := by
  decide +kernel

/-- R123: a length of 0 in a record that is whole otherwise, and a kind of 15. -/
theorem witness_MovePlans :
    (let r := padTo 64 (moveRec 0 1 0 0 0);
      (opAt 1 0 16).imm < 112 ∧ fld r 0 1 < 16 ∧ fld r 1 1 = 0 ∧ zeroIn r 40 48 = true ∧ fld r 4 4 = 0)
      ∧ 5 ≤ fld (moveRec 15 1 64 0 0) 0 1 % 16 := by
  decide +kernel

/-- Tile 31 of the die becomes another. -/
def tiled (t : Tile) (d : Die) : Die := d.modTile 31 fun _ => t

/-- The record of a TILE op: flags, rows, deep-sum buffer, image. -/
def tileRec (flags rows deep image : Nat) : List Byte := zeros 1 ++ leBytes 1 flags ++ leBytes 2 rows ++ leBytes 6 deep ++ leBytes 6 image

/-- A TILE op of a mode on tile 31 may issue, its checks passing or not as said. -/
def tileStarts (mode : Nat) (t : Tile) (r image : List Byte) (good : Bool) : Bool :=
  let o := opAt 1 (31 + 32 * mode) 16
  let s := queued 1 o r (tiled t)
  let s := { s with sram := Memory.writeN blank s.sram (47 * 0x8000000 + 0x100000) image }
  let w := s.advance 1
  decide ((w.die 47).queue 1 = [o]) && w.running 47 && (w.die 47).semReady o && decide (o.imm < 128) && bitsOf o.imm 6 5 == mode
    && ((s.die 47).tile 31).marked == [] && !((s.die 47).tile 31).spillDue && ok (w.tileCheck 47 mode 31 r) == good
    && !(s.die 47).overCharge 1 (if mode = 0 then 0 else 2 * 64)

/-- A tile in progress of 64 rows, two lanes. -/
def aTile : Tile := { status := .inProgress, twoLane := true }

/-- R64 to R72: tiles that start by each mode, and one that is not free. -/
theorem witness_TileStarts :
    tileStarts 0 {} (tileRec 0 64 0 0) [] true = true
      ∧ tileStarts 1 { aTile with status := .parked, deep := 0x30000000000 } (tileRec 2 64 0x30000000000 0) [] true = true
      ∧ tileStarts 2 {} (tileRec 2 64 0x30000000000 0x30000100000) (imageHead 0 2 64 0 0) true = true
      ∧ tileStarts 0 aTile (tileRec 0 64 0 0) [] false = true := by
  decide +kernel

/-- The record of a PASS of one K element of H4 on both sides. -/
def aPass : List Byte :=
  leBytes 2 0 ++ leBytes 2 1 ++ zeros 4 ++ leBytes 6 0x30000000000 ++ leBytes 6 0x30000000000 ++ leBytes 4 0 ++ leBytes 6 0x30000000000
    ++ leBytes 6 0x30000000000 ++ leBytes 4 0

/-- R125: a pass that may issue. -/
theorem witness_Pass :
    (let o := opAt 2 31 16
      let s := queued 1 o aPass (tiled aTile)
      let w := s.advance 1;
      ((w.die 47).queue 1 = [o] ∧ w.running 47 = true ∧ (w.die 47).semReady o = true) ∧ (∀ t ∈ (s.die 47).tiles, t.marked = [])
        ∧ (s.die 47).awl = none
        ∧ (match passRec o (s.record 47 o) with
          | .ok p => !p.badFor ((s.die 47).tile 31) && ok (w.operands 47 p)
          | .error _ => false) = true) := by
  decide +kernel

/-- R72, R128, R75 to R80: a tile whose spill is due, with a buffer and without one; one with an overflow; a drain of each kind
that may issue. -/
theorem witness_SpillReplayDrain :
    (let t := { aTile with deep := 0x30000000000, spillDue := true, lanes := [(3, 7)] }
      let s := running (tiled t);
      s.live 47 = true ∧ ((s.die 47).tile 31) = t ∧ (s.advance 1).deepOver 47 t = [] ∧ s.prgState 47 = 2 ∧ 31 < (s.die 47).tiles.length)
      ∧ (let s := running (tiled { aTile with spillDue := true }); ((s.die 47).tile 31).spillDue = true ∧ ((s.die 47).tile 31).deep = 0)
      ∧ (let s := running (tiled { aTile with marked := [5] });
        (List.range 32).find? (fun k => ((s.die 47).tile k).marked != []) = some 31)
      ∧ ([true, false].all fun rel =>
        let o := opAt 3 (31 + if rel then 32 else 0) 16
        let r := padTo 64 (leBytes 2 0 ++ zeros 6 ++ leBytes 6 0x30000000000 ++ zeros 6 ++ leBytes 4 512 ++ zeros 8 ++ leBytes 4 256)
        let s := queued 1 o r (tiled aTile)
        let w := s.advance 1
        decide ((w.die 47).queue 1 = [o]) && w.running 47 && (w.die 47).semReady o && bitOf o.imm 5 == rel
          && ok (w.drainCheck 47 o (s.record 47 o) ((s.die 47).tile 31)) && !(s.die 47).overCharge 1 64) = true := by
  decide +kernel

/-- The record of an element operation: 32 elements, two micro-ops at 0x800, and one output. -/
def elemBytes : List Byte :=
  leBytes 2 32 ++ leBytes 2 64 ++ [1, 0, 0, 0] ++ zeros 8 ++ [7, 7, 7].flatMap (leBytes 8) ++ leBytes 8 (2 ^ 26) ++ leBytes 8 7
    ++ leBytes 8 7

/-- The record of a combine of one partial of a kind, its list at the start of the SRAM. -/
def combBytes (kind : Nat) : List Byte :=
  leBytes 4 1 ++ [32, BitVec.ofNat 8 kind] ++ leBytes 2 (if kind = 0 then 0 else 1) ++ leBytes 8 0x30000000000 ++ leBytes 8 0x30000002000

/-- An Awl record at 0x400, the program it names, and a list of one partial at 0x1000 of the SRAM. -/
def awlAt (r : List Byte) (f : Die → Die) : State :=
  let s := inIsram 0x800 (leBytes 8 (3 + 2 ^ 24) ++ leBytes 8 2) (queued 2 (opAt 1 0 16) r f)
  let m := Memory.writeN blank s.sram (47 * 0x8000000) (leBytes 8 0x30000001000)
  { s with sram := Memory.writeN blank m (47 * 0x8000000 + 0x1000) (imageHead 0 4 64 0 0) }

/-- R94, R96, R129: records that are handed over, one that the program's check refuses, one the Awl refuses. -/
theorem witness_Issue :
    ([elemBytes, combBytes 0, combBytes 1, combBytes 2, combBytes 3].all fun r =>
        let s := awlAt r id
        let w := s.advance 1
        decide ((w.die 47).queue 2 = [opAt 1 0 16]) && w.running 47 && (w.die 47).semReady (opAt 1 0 16) && (s.die 47).awl.isNone
          && !w.readsUnsettled 47 (opAt 1 0 16) && (match w.awlCheck 47 (opAt 1 0 16) with
            | .ok (c, _) => !(s.die 47).overCharge 2 c
            | .error _ => false)) = true
      ∧ (ofBits 0x7FC00000).isNan = true ∧ ((awlAt elemBytes id).advance 1).awlCheck 47 (opAt 1 1 16) = .error 1
      ∧ ((awlAt (zeros 7 ++ [1]) id).advance 1).awlCheck 47 (opAt 1 0 16) = .error 0x10A := by
  decide +kernel

/-- R94, R96: operations of every kind that have been handed over. -/
theorem witness_AwlRuns :
    ([(elemBytes, 0, 0), (combBytes 0, 1, 0), (combBytes 1, 1, 1), (combBytes 2, 1, 2), (combBytes 3, 1, 3)].all fun x =>
        let s := awlAt x.1 fun d => { d with qAwl := [], awl := some { record := padTo 64 x.1, op := opAt 1 0 16, claims := [] } }
        s.live 47 && (s.die 47).awl.isSome && awlKind (padTo 64 x.1) == x.2.1
          && (x.2.1 == 0 || (combRec (padTo 64 x.1)).kind == x.2.2)) = true := by
  decide +kernel

/-! ### The gate, updates -/

/-- A sequence is PENDING, with a local verdict formed. -/
def pending (opened : Bool) : State := regs [(Reg.gateCtrl, 1), (Reg.gateStatus, 1 + 7 * 65536)] { up with localVerdict := some opened }

/-- The same in a gate group of two, whose modules lie side by side; this one is the member given. -/
def gated (self : Nat) (opened : Bool) : State :=
  regs [(Reg.neaGroups, 0x12000 + 2 ^ 48), (Reg.neaCoord, 2 * 512 + self), (Reg.npStatus 0, 2), (Reg.npStatus 1, 2)]
    ((pending opened).writeHbm 0x12000
      (leBytes 2 1 ++ leBytes 2 2 ++ leBytes 2 self ++ [1, 2] ++ leBytes 4 1 ++ leBytes 2 1 ++ zeros 50 ++ leBytes 2 0 ++ leBytes 2 1 ++ zeros 4
        ++ leBytes 2 0 ++ leBytes 2 1 ++ zeros 4 ++ zeros 8))

/-- A near message of a type, from member 1 of group 1. -/
def msg (typ : Nat) (body : List Byte) : NearMsg :=
  { typ := typ, flags := 0, dst := 0, src := 1, group := 1, epoch := 1, stitch := 9, position := 0, operand := 0, body := body }

/-- R152, R153: a local verdict in a group of one, at the leader of a group and at a member. -/
theorem witness_Verdicts_formed :
    ([true, false].all fun opened =>
        let u := ((pending opened).advance 1).formLocal
        u.localVerdict == some opened && u.verdict == 1 && !u.updating && (pending opened).live 92 && u.gateGroup.isNone) = true
      ∧ ([0, 1].all fun self =>
        let u := ((gated self true).advance 1).formLocal
        u.localVerdict == some true && u.verdict == 1 && !u.updating && !u.localSent && (u.gateGroup.map (·.self)) == some self) = true := by
  decide +kernel

/-- R153, R154: reports and verdicts that come in, and limits that pass at a group of one, a leader and a member. -/
theorem witness_Verdicts_taken :
    (let s := { gated 0 true with inbox := [msg 4 (leBytes 2 7 ++ [2])] };
      ((s.advance 1).takeMsg 4).any (fun x => x.2.gateGroup.any fun g => g.self == 0 && g.members.idxOf? x.1.src == some 1) = true)
      ∧ (let s := { gated 1 true with inbox := [msg 5 (leBytes 2 7 ++ [2])] };
        ((s.advance 1).takeMsg 5).any (fun x => fld x.1.body 0 2 == s.regBits Reg.gateStatus 31 16) = true ∧ s.verdict = 1)
      ∧ fld (msg 5 (leBytes 2 6)).body 0 2 ≠ (gated 1 true).regBits Reg.gateStatus 31 16
      ∧ (let s := pending true; s.armedAt + s.gateLimit ≤ s.now + 1 ∧ (s.advance 1).gateGroup = none)
      ∧ (let s := gated 0 true; s.armedAt + s.gateLimit ≤ s.now + 1 ∧ ((s.advance 1).gateGroup.map (·.self)) = some 0)
      ∧ (let s := gated 1 true; (s.advance 1).leads = false ∧ s.armedAt + s.gateLimit + 2 * (s.advance 1).gateBound ≤ s.now + 1) := by
  decide +kernel

/-- R188, R242: a run of a Cobbler, and an entry whose slot is FILLING. -/
theorem witness_Updates :
    (let s := planned.modDie 0 fun d => { d with cob := some { item := 2 ^ 40, kind := 0, k := 5, plans := [0x10000] } };
      s.live 0 = true ∧ (s.die 0).cob.isSome = true)
      ∧ (let s := regs [(Reg.vtState 0 0, 3 + 3 * 8)] planned;
        s.live 0 = true ∧ s.entryValid 0 0 = true ∧ s.targetSlot 0 0 = 1 ∧ s.vtSt 0 0 1 = 3 ∧ (s.die 0).cob = none
          ∧ (s.advance 1).gathersOf 0 0 = []) := by
  decide +kernel

/-! ### The near fabric -/

/-- Near port 11 in a state, a time after its last change. -/
def nearAt (st since : Nat) (wired : Bool) : State :=
  (regs [(Reg.npStatus 11, st)] up).modNport 11 fun p => { p with since := since, wired := wired }

/-- R229: a port in training without and with FEC lock, in time and late; an UP port, heard of and silent; a DOWN one. -/
theorem witness_NearPorts :
    (let s := nearAt 1 4000000 false;
      s.live (pdNear 11) = true ∧ s.live (pdLink 5) = true ∧ s.npState 11 = 1 ∧ s.fecLock 11 = false
        ∧ s.now + 1 ≤ (s.nport 11).since + 500000000 ∧ 11 < s.nearPorts.length)
      ∧ (let s := { nearAt 1 1 false with now := 500000000 };
        s.npState 11 = 1 ∧ s.fecLock 11 = false ∧ (s.nport 11).since + 500000000 ≤ s.now + 1)
      ∧ (let s := { nearAt 65 1 false with now := 10000000 };
        s.npState 11 = 1 ∧ s.fecLock 11 = true ∧ s.linkClock 11 = true ∧ (s.nport 11).wired = false
          ∧ (s.nport 11).since + 10000000 ≤ s.now + 1)
      ∧ (let s := nearAt 66 1 true; s.nearUp 11 = true ∧ (s.nport 11).since + 100000 ≤ s.now + 1)
      ∧ (let s := { nearAt 3 1 false with now := 1000000000 };
        s.npState 11 = 3 ∧ (s.nport 11).since + 1000000000 ≤ s.now + 1) := by
  decide +kernel

/-- R227, R228: a flit of every kind with its CRC, at a port in training and at one UP, and one whose last bit is wrong. -/
theorem witness_Flits :
    (List.range 5).all (fun kind =>
        let f := flitBytes kind 0 0 0 [1, 2, 3]
        decide (f.length = 256) && Crypto.crc32 (f.take 252) == fld f 252 4 && fld f 4 1 % 8 == kind) = true
      ∧ (let f := padTo 256 []; f.length = 256 ∧ Crypto.crc32 (f.take 252) ≠ fld f 252 4)
      ∧ (nearAt 65 1 false).npState 11 = 1 ∧ (nearAt 66 1 true).npState 11 = 2 := by
  decide +kernel

/-- Messages in the inbox of a member of a group of two. -/
def received (self : Nat) (l : List NearMsg) : State := { gated self true with inbox := l }

/-- A message of this module to member 1, kept since an instant, sent again some times. -/
def keeps (at_ times : Nat) (l : List NearMsg) : State :=
  { received 0 l with flows := [{ peer := 1, kept := [⟨{ msg 3 [] with dst := 1, src := 0 }, at_, times, []⟩] }] }

/-- R234: the acknowledgement of a message, and messages not acknowledged in time, once and for the last time. -/
theorem witness_MessagesKept :
    (let s := keeps 1 0 [{ msg 9 [] with operand := 9 }];
      ((s.advance 1).takeMsg 9).any (fun x =>
        ((s.flow x.1.src).kept.any fun (y : Kept) => y.msg.stitch == bitsOf x.1.operand.toNat 47 0)) = true)
      ∧ (((keeps 4990000 0 []).flow 1).kept.any (fun (y : Kept) => y.msg.stitch == 9)) = true
      ∧ (keeps 4990000 0 []).now + 1 < 4990000 + 50000 ∧ 1 + 50000 ≤ (keeps 1 3 []).now + 1 := by
  decide +kernel

/-- R194, R195, R248: roots, a query, a block's answer, and a member that does not answer. -/
theorem witness_Digests :
    (let s := received 0 [msg 6 (padTo 16 [])];
      ((s.advance 1).takeMsg 6).any (fun x => (x.2.msgGroup x.1).any fun g => g.1.self == 0) = true)
      ∧ (let s := received 1 [{ msg 7 [] with src := 0 }];
        ((s.advance 1).takeMsg 7).any (fun x => (x.2.msgGroup x.1).isSome) = true)
      ∧ (let s := received 0 [msg 8 (zeros 8)];
        ((s.advance 1).takeMsg 8).any (fun x => x.1.node.2.1 == 0
          && (x.2.msgGroup x.1).any fun g => (g.1.entry? x.1.node.1).isSome) = true)
      ∧ (let s := { received 0 [] with digestRoots := [⟨1, 0, 0, 0, 5⟩] };
        ((s.advance 1).group? 1).any (fun g => g.self == 0 && decide (1 < g.size)) = true ∧ s.reduces = []
          ∧ ∀ r ∈ s.digestRoots, r.group = 1 ∧ r.member ≠ 1) := by
  decide +kernel

/-- A bucket of two shards of 32 by 32, of entry 0 of die 0, at 0x13000, and its reduction, in progress. -/
def reducing (l : List NearMsg) : State :=
  let b := padTo 128 (leBytes 4 7 ++ leBytes 4 1 ++ leBytes 6 0x20000000000 ++ leBytes 6 0x20000100000 ++ leBytes 4 64 ++ leBytes 4 32
    ++ zeros 8 ++ leBytes 4 0 ++ leBytes 4 0 ++ leBytes 4 64 ++ leBytes 4 0 ++ leBytes 4 32)
  let s := (received 0 l).writeHbm 0x13000 b
  regs [(Reg.vtSlot0 0 0, 0x2000000), (Reg.vtSlot1 0 0, 0x2010000), (Reg.vtCfg 0 0, 2 ^ 31 + 16), (Reg.vtState 0 0, 3), (Reg.vtVer0 0 0, 1)]
    { s with
      reduces := [{ item := 2 ^ 40, record := 0x13000, bucket := 7, group := 1, cutoff := 4000000, ready := true }]
      items := [{ item (desc 5 (leBytes 6 0x13000)) with started := true }] }

/-- A block of bucket 7 from member 1. -/
def blockMsg (typ bucket : Nat) (body : List Byte) : NearMsg :=
  { msg typ body with operand := BitVec.ofNat 64 bucket, position := 1 }

/-- R238 to R241, R244, R246: a block and a part of a bucket that is admitted here, and of one that is not; a copy; a cutoff. -/
theorem witness_Reductions :
    (let s := reducing [blockMsg 1 7 (zeros 132), blockMsg 2 7 (zeros 4)];
      ((s.advance 1).takeMsgIf 1 (s.advance 1).canReduce).any (fun x => (x.2.reduceOf 1 x.1.bucket).any fun r =>
          !r.stopped && (x.2.group? 1).any fun g => decide (x.1.position < g.size)) = true
        ∧ ((s.advance 1).takeMsgIf 2 (s.advance 1).canGather).any (fun x => (x.2.reduceOf 1 x.1.bucket).any fun r =>
          x.2.gatherEntry (x.2.bucketAt r.record) == some (0, 0) && x.2.live 0 && x.2.entryValid 0 0) = true)
      ∧ (let s := reducing [blockMsg 1 8 (zeros 132), blockMsg 2 8 (zeros 4)];
        ((s.advance 1).takeMsgIf 1 (s.advance 1).canReduce).any (fun x => (x.2.reduceOf 1 x.1.bucket).isNone) = true
          ∧ ((s.advance 1).takeMsgIf 2 (s.advance 1).canGather).any (fun x => (x.2.reduceOf 1 x.1.bucket).isNone) = true)
      ∧ (let s := received 0 [{ msg 3 (zeros 4) with operand := 0x1000 }];
        ((s.advance 1).takeMsg 3).any (fun x => !bitOf x.1.flags 2 && (moduleRange x.1.operand.toNat x.1.body.length).any fun pl =>
          x.2.placePowered 0xFF pl x.1.body.length) = true)
      ∧ (let s := reducing [];
        (s.reduce? (2 ^ 40)).any (fun r => decide (r.cutoff ≤ (s.advance 1).time) && ((s.advance 1).group? r.group).isSome
          && (s.item? (2 ^ 40)).any fun i => !i.done) = true
          ∧ (let u : State := { s with items := s.items.map fun (i : Item) => { i with done := true } }
            (u.reduce? (2 ^ 40)).any (fun (r : Reduce) => !r.stopped && (u.item? (2 ^ 40)).all Item.done) = true)
          ∧ (({ s with reduces := s.reduces.map fun (r : Reduce) => { r with stopped := true } } : State).reduce? (2 ^ 40)).any Reduce.stopped
            = true) := by
  decide +kernel

/-! ### Far ports -/

/-- Far port 0 of a site of two in a state, plain, its further fields as the function says. -/
def farAt (st : Nat) (f : FarPort → FarPort) : State :=
  (regs [(Reg.fpStatus 0, st), (Reg.secPortStatus 0, 1), (Reg.fpCtrl 0, 1), (Reg.fpWindow 0, 2)] exch).modFport 0 f

/-- R253: a far port in training, in time, late, and locked; an UP one; a DOWN one. -/
theorem witness_FarPorts :
    (let s := farAt 1 fun q => { q with since := 4000000 };
      s.farLive 0 = true ∧ s.fpState 0 = 1 ∧ (s.fport 0).lock = false ∧ s.now + 1 ≤ (s.fport 0).since + 2000000000)
      ∧ (let s := { farAt 1 id with now := 1999999999 };
        s.farLive 0 = true ∧ (s.fport 0).lock = false ∧ (s.fport 0).since + 2000000000 ≤ s.now + 1)
      ∧ (let s := { farAt 1 (fun q => { q with lock := true }) with now := 999999999 };
        s.fpState 0 = 1 ∧ (s.fport 0).lock = true ∧ (s.fport 0).since + 1000000000 ≤ s.now + 1)
      ∧ (let s := farAt 2 id; s.fpState 0 = 2 ∧ (s.fport 0).since + 5000000 ≤ s.now + 1)
      ∧ (let s := { farAt 3 id with now := 99999999 };
        s.farLive 0 = true ∧ s.fpState 0 = 3 ∧ bitOf (s.reg (Reg.fpCtrl 0)) 0 = true ∧ (s.fport 0).since + 100000000 ≤ s.now + 1) := by
  decide +kernel

/-- A frame of a contribution to site 0. -/
def aFrame : FarFrame :=
  { kind := 1, mirror := false, dst := 0, origin := 1, round := 0, shard := 3, offset := 0, msglen := 64, payload := .inline (zeros 64), item := none }

/-- R260, R261, R263, R299: a frame due again and a new one; acknowledgements due by time and by count; an interval with no
frame; a slot whose window ends. -/
theorem witness_FarFramesOut :
    (let s := farAt 2 fun q => { q with unacked := [{ aFrame with due := true }] };
      s.fpState 0 = 2 ∧ s.canSeal 0 = true ∧ (s.fport 0).freeAt ≤ s.now + 1
        ∧ (s.advance 1).pickDue 0 = some { aFrame with due := true })
      ∧ (let s := farAt 2 fun q => { q with unacked := [aFrame], sendQueue := [aFrame] };
        (s.advance 1).pickDue 0 = none ∧ (s.advance 1).pick 0 = some aFrame
          ∧ (s.fport 0).unacked.length < s.regBits (Reg.fpWindow 0) 20 0 ∧ (s.fport 0).nextStitch < 2 ^ 48 - 1)
      ∧ (let s := farAt 2 fun q => { q with dataSinceAck := 1 };
        0 < (s.fport 0).dataSinceAck ∧ (s.fport 0).ackedAt + 50000 ≤ s.now + 1)
      ∧ 64 ≤ ((farAt 2 fun q => { q with dataSinceAck := 64 }).fport 0).dataSinceAck
      ∧ ((farAt 2 id).fport 0).sentDataAt ≠ some (((farAt 2 id).now + 1) / 125000)
      ∧ (let s := regs [(Reg.secPortStatus 0, 1 + 3 * 32)] (farAt 2 fun q => { q with keys := [{}, { windowEnd := some 5 }] });
        s.slotState 0 1 = 3 ∧ (s.keySlot 0 1).windowEnd = some 5 ∧ 5 ≤ s.now + 1) := by
  decide +kernel

/-- An NGT frame of a type with a payload, its CRC right. -/
def ngt (typ : Nat) (p : List Byte) : List Byte :=
  let h : NgtHead := { typ := typ, kind := if typ = 1 then 2 else 0, epoch := 1, paylen := p.length }
  h.bytes ++ p ++ leBytes 4 (Crypto.crc32 (h.bytes ++ p)) ++ zeros 12

set_option maxRecDepth 100000 in
/-- R256 to R258: a good frame of each type, one whose CRC is wrong, and one that cannot be unwrapped. -/
theorem witness_FarFramesIn :
    ([(1, [1]), (2, zeros 48), (3, [])].all fun x =>
        let s := farAt 2 id
        let b := ngt x.1 x.2
        let h := NgtHead.parse (b.take 64)
        s.farLive 0 && s.fpState 0 == 2 && !s.sealed 0 && s.unwrapFrame 0 (s.wrapFrame 0 b) == some (some b)
          && b.length == 80 + h.paylen && payloadOk h.typ h.paylen && !ngtReserved (b.take 64) && !bitOf h.flags 0
          && fld b (64 + h.paylen) 4 == Crypto.crc32 (b.take 64 ++ (b.drop 64).take h.paylen)
          && zeroIn (b.drop (64 + h.paylen)) 4 16 && s.frameOk 0 h ((b.drop 64).take h.paylen) && h.typ == x.1) = true
      ∧ (let b := (ngt 3 []).take 64 ++ zeros 16; fld b 64 4 ≠ Crypto.crc32 (b.take 64))
      ∧ (farAt 2 id).unwrapFrame 0 [] = none := by
  decide +kernel

/-! ### The outer exchange -/

/-- Messages in the inbox of the gateway of site 1, whose table has these active sites, by mask, and this rotation. -/
def sites (active : Nat) (rot : List Byte) (l : List FarMsg) : State :=
  regs [(Reg.fxCutoff, 1), (Reg.fxMwait, 1)]
    { (exch.writeHbm 0x16014 rot).writeHbm 0x16010 (leBytes 2 active) with farInbox := l }

/-- A message of a kind from site 0, about shard 3. -/
def far (kind round : Nat) (body : List Byte) : FarMsg :=
  { kind := kind, mirror := false, dst := 1, origin := 0, hop := 0, epoch := 1, round := round, shard := 3, port := 0, body := body }

set_option maxRecDepth 100000 in
/-- R273, R275, R277, R278: a whole contribution and one with a scale of NaN; one that neither mask takes; HOLD, MANIFEST and FETCH. -/
theorem witness_Contributions :
    (let s := { sites 3 [0, 1] [far 1 0 []] with recvSlots := [{ round := 0, origin := 0, shard := 3, ranges := [], complete := true }] };
      ((s.advance 1).takeFar 1 (fun _ => true)).any (fun x => (x.2.fxShard? 3).any fun y =>
        (x.2.recvSlot 0 0 3).complete && x.2.roundOk 0 && !y.malformed (x.2.readHbm (y.slot 0 0) y.size)) = true
      ∧ (((s.advance 1).fxShard? 3).any fun y =>
        (((s.advance 1).writeHbm (y.slot 0 0) (List.replicate y.size 0xFF)).readHbm (y.slot 0 0) y.size).length == y.size
          && y.malformed (List.replicate y.size 0xFF)) = true)
      ∧ (let s := { exch with exchanges := [{ round := 0, shard := 3, manifest := some (2, 0, [], 0) },
            { round := 1, shard := 3, manifest := some (3, 2, [], 0) }] };
        (s.exch 0 3).manifest = some (2, 0, [], 0) ∧ (s.exch 1 3).manifest = some (3, 2, [], 0)
          ∧ bitOf 2 (far 1 0 []).origin = false)
      ∧ (let s := { sites 3 [0, 1] [far 2 0 (zeros 8), far 3 0 (zeros 24), far 4 0 [1]] with
            exchanges := [{ round := 0, shard := 3, ownHeld := true }] }
          let w := s.advance 1;
        (w.takeFar 2 (fun _ => true)).any (fun x => x.2.notPast x.1.round) = true ∧ (w.takeFar 3 (fun _ => true)).isSome = true
          ∧ (w.takeFar 4 (fun _ => true)).any (fun x => (x.2.fxShard? x.1.shard).isSome
            && x.2.memberHeld x.1.round (fld x.1.body 0 1) x.1.shard) = true) := by
  decide +kernel

set_option maxRecDepth 100000 in
/-- R275 to R278, R280: each of the three sites that may form a manifest; a holding to report; a FETCH not answered; a root without
majority. -/
theorem witness_Manifests :
    (let s := { sites 2 [1] [] with exchanges := [{ round := 0, shard := 3, roundStart := some 1 }] };
      s.gateway = true ∧ (s.fxShard? 3).isSome = true ∧ s.notPast 0 = true ∧ (s.exch 0 3).manifest = none ∧ s.rotation 0 = s.site
        ∧ s.rotation 1 = s.site ∧ (s.exch 0 3).past (s.now + 1) (s.regBits Reg.fxCutoff 23 0) = true
        ∧ (s.exch 0 3).past (s.now + 1) (s.regBits Reg.fxCutoff 23 0 + s.regBits Reg.fxMwait 23 0) = true)
      ∧ (let s := { sites 6 [1, 2] [] with exchanges := [{ round := 0, shard := 3, roundStart := some 1 }] };
        s.rotation 1 ≠ s.site ∧ s.rotation 2 = s.site
          ∧ (s.exch 0 3).past (s.now + 1) (s.regBits Reg.fxCutoff 23 0 + 2 * s.regBits Reg.fxMwait 23 0) = true)
      ∧ (let s := { sites 3 [0, 1] [] with exchanges := [{ round := 0, shard := 3, ownHeld := true }] };
        s.gateway = true ∧ s.notPast 0 = true ∧ s.rotation 0 ≠ s.site ∧ s.holdRecords 0 ≠ [] ∧ s.lastHold.find? (·.1 == 0) = none
          ∧ ((s.holdRecords 0).any fun r => !zeroIn r 4 8) = true)
      ∧ (let s := { sites 3 [0, 1] [] with exchanges := [{ round := 0, shard := 3, fetches := [(0, 1, 1)] }], now := 10000000000 };
        (s.exch 0 3).fetches.find? (·.1 == 0) = some (0, 1, 1) ∧ s.memberHeld 0 0 3 = false
          ∧ 1 + 2 * s.rttEnv (min (s.portTo ((s.fetchCycle (s.namedHolder 0 3 0) 0).getD 0 0)) 5) ≤ s.now + 1)
      ∧ (let s := { sites 3 [0, 1] [] with exchanges := [{ round := 0, shard := 3, merged := true, ownRoot := some (7, 1) }] };
        (s.exch 0 3).merged = true ∧ (s.exch 0 3).proceed = false ∧ (s.exch 0 3).held = false ∧ (s.exch 0 3).asked = []
          ∧ ((s.exch 0 3).ownRoot.any fun x => decide (x.2 + s.regBits Reg.fxMwait 23 0 * 1000 ≤ s.now + 1)) = true) := by
  decide +kernel

/-- The fetch of a snapshot of shard 3, round 1, under way. -/
def fetching : Item :=
  { item (desc 0x0E (leBytes 4 4 ++ leBytes 4 1 ++ leBytes 4 3 ++ leBytes 8 0x6000000 ++ leBytes 4 8192)) with started := true }

set_option maxRecDepth 100000 in
/-- R280 to R282: messages of every kind that compares or serves anchors. -/
theorem witness_Anchors :
    (let s := { sites 3 [0, 1] [far 5 1 (padTo 16 [3]), far 6 1 (zeros 8), { far 7 1 (leBytes 8 (2 ^ 16)) with origin := 0 }, far 9 1 [4],
            { far 8 0 (padTo 8 [2]) with hop := 2 }] with
            exchanges := [{ round := 0, shard := 3, proceed := true, asked := [(0, 1, 0)] }] }
        let w := s.advance 1;
      (w.takeFar 5 (fun _ => true)).any (fun x => x.1.body.length == 16 && x.1.round != 0 && (x.2.fxShard? (fld x.1.body 0 4)).isSome) = true
        ∧ (w.takeFar 6 (fun _ => true)).any (fun x => (x.2.fxShard? x.1.shard).isSome) = true
        ∧ (w.takeFar 7 (fun _ => true)).any (fun x => (x.2.fxShard? x.1.shard).isSome && x.1.round != 0
          && decide ((x.1.origin, bitsOf (fld x.1.body 0 8) 23 16, bitsOf (fld x.1.body 0 8) 63 24) ∈ (x.2.exch 0 3).asked)) = true
        ∧ (w.takeFar 9 (fun m => m.round != 0 && (w.exch (m.round - 1) m.shard).proceed)).any (fun x =>
          (x.2.fxShard? x.1.shard).isSome && fld x.1.body 0 1 == 4) = true
        ∧ (w.takeFar 8 (fun _ => true)).any (fun x => fld x.1.body 4 4 == 0 && (look s.joining (fld x.1.body 0 1)).isNone
          && x.1.hop == fld x.1.body 0 1) = true)
      ∧ (let w := (sites 3 [0, 1] [far 8 0 (leBytes 4 2 ++ leBytes 4 9)]).advance 1;
        (w.takeFar 8 (fun _ => true)).any (fun x => fld x.1.body 4 4 != 0) = true)
      ∧ (let w := ({ sites 3 [0, 1] [far 10 1 (zeros 4 ++ [4])] with items := [fetching] }).advance 1;
        (w.takeFar 10 fun m => (w.snapItem m).all fun it => !w.exportHeld it.id (fld it.desc 44 6) m.body.length).any (fun x =>
          x.2.snapItem x.1 == some fetching && (x.2.blockAsked x.1).isNone
          && decide (x.1.body.length ≤ fld fetching.desc 52 4)) = true)
      ∧ (let w := ({ sites 3 [0, 1] [far 10 1 (zeros 4 ++ [4])] with exchanges := [{ round := 0, shard := 3, asked := [(0, 0, 0)] }] }).advance 1;
        (w.takeFar 10 fun m => (w.snapItem m).all fun it => !w.exportHeld it.id (fld it.desc 44 6) m.body.length).any (fun x =>
          (x.2.snapItem x.1).isNone && x.2.blockAsked x.1 == some 0) = true) := by
  decide +kernel

/-! ### The machine as a whole; refusals; critical commands -/

/-- A command at the front of the queue, and no command at all. -/
theorem witness_Steps :
    (let s : State := { State.reset with pending := [.inputLeavesRating 1, .itemStart 2 3] };
      s.pending = .inputLeavesRating 1 :: [.itemStart 2 3])
      ∧ State.reset.pending = [] := by
  decide +kernel

/-- R304: the fuses of an UNOWNED and of an OWNED module, and a step that answers. -/
theorem witness_FusesStaySound :
    State.reset.fuses.Sound ∧ owned.fuses.Sound ∧ step State.reset = .next State.reset :=
  ⟨.inl (by decide), .inr (by decide), rfl⟩

set_option maxRecDepth 100000 in
/-- R312, R343: a descriptor that is refused, and a critical one whose tag is wrong. -/
theorem witness_Refusals :
    ((wait (desc 0x01 (zeros 24)) up).advance 1 |>.refusal (0x01, 0) hostCopyCheck).isSome = true
      ∧ ((wait (desc 0x46 []) up).advance 1 |>.unauthentic (0x46, 0)).isSome = true := by
  decide +kernel

/-- The key of bytes 1 to 32, wrapped under key 7 (RFC 3394). -/
def wrappedKey : List Byte :=
  [161, 63, 208, 76, 155, 9, 246, 80, 103, 218, 228, 102, 229, 91, 139, 142, 182, 83, 93, 107, 182, 170, 177, 37, 23, 58, 79, 50, 61,
   30, 48, 217, 10, 74, 78, 194, 252, 99, 245, 123]

/-- R298, R288: a key that may be loaded into the second slot of the last port, a slot that may be erased, a port whose mode may be
set. -/
theorem witness_CriticalCommands :
    (let d := desc 0x42 ([5, 1, 0, 0] ++ leBytes 4 1 ++ leBytes 4 2 ++ wrappedKey);
      keyPort d = 5 ∧ keySlotOf d = 1 ∧ 5 < up.farPorts.length ∧ 1 < (up.fport 5).keys.length ∧ up.loadRefusal d = none
        ∧ up.loadedKey d = some (BitVec.ofNat 256 (leNat ((List.range 32).map fun i => BitVec.ofNat 8 (i + 1)))))
      ∧ (regs [(Reg.secPortStatus 5, 2 * 32)] up).eraseRefusal (desc 0x42 [5, 1, 2]) = none ∧ up.fpState 5 = 0
      ∧ up.blockLive 94 = true := by
  decide +kernel

/-! ### Further clauses of the statements -/

/-- R304: a step from a sound state whose front command programs no fuse, and one that starts an item of another type. -/
theorem witness_FusesStay :
    (let s : State := { owned with pending := [.d0Return 1] };
      s.fuses.Sound ∧ (match step s with | .next _ => true | _ => false) = true)
      ∧ (let s : State := { up with items := [aCopy], pending := [.itemStart 1 aCopy.id] };
        s.item? aCopy.id = some aCopy ∧ dType aCopy.desc ≠ 0x45) := by
  unfold Fuses.Sound
  decide +kernel

set_option maxRecDepth 100000 in
/-- R343: an authentic critical command that is refused. -/
theorem witness_Refusals_authentic :
    ((wait (crit 0x49 (leBytes 4 0) [70, 112, 182, 12, 172, 202, 52, 193, 195, 41, 122, 244, 151, 108, 241, 43]) up).advance 1
      |>.refusal (0x49, 0) powerLimitCheck).isSome = true := by
  decide +kernel

set_option maxRecDepth 100000 in
/-- R304: fuses that are refused. -/
theorem witness_Refusals_fuses :
    ((wait (crit 0x45 (9 :: zeros 43) [228, 122, 45, 161, 64, 85, 248, 199, 247, 163, 107, 119, 23, 222, 187, 146]) up).advance 1
      |>.refusal (0x45, 0) fuseCheck).isSome = true := by
  decide +kernel

set_option maxRecDepth 100000 in
/-- R343: a refusal of a row that looks at its item afterwards, and a fuse command whose tag is wrong. -/
theorem witness_Refusals_more :
    ((wait (desc 0x03 []) up).advance 1 |>.refusal (0x03, 0) progStartCheck).isSome = true
      ∧ ((wait (desc 0x03 []) up).item? (itemId 0 0)).isNone = true
      ∧ ((wait (desc 0x45 [0]) up).advance 1 |>.unauthentic (0x45, 0)).isSome = true := by
  decide +kernel

/-- R298, R280, R412: a port whose other slot is STANDBY, a round that is merged, and areas to clear. -/
theorem witness_CriticalCommands_more :
    (regs [(Reg.secPortStatus 5, 2 * 4 + 1 * 32)] up).switchRefusal (desc 0x42 [5, 0, 1]) = none
      ∧ (let s : State := { up with exchanges := [{ round := 7, shard := 3, merged := true, held := true }] }
        let d := desc 0x47 (leBytes 4 7 ++ leBytes 4 3 ++ [1, 0xFF]);
        (s.exch (fld d 32 4) (fld d 36 4)).merged = true ∧ fld d 41 1 = 0xFF)
      ∧ areasOf 7 ≠ [] ∧ up.recorder.thresholds.length = 3 := by
  decide +kernel

/-- R423, R426: a write that reaches its register, one that does not, and a locked register that only holds what is written. -/
theorem witness_ReachedWrites :
    (up.hostUp = true ∧ ∀ b ∈ blockAt Reg.prmPace, up.answers b = true)
      ∧ ({ up with wires := [] } : State).hostUp = false
      ∧ ((blockAt Reg.prmPace).any fun b => !({ up with held := [92] } : State).answers b) = true
      ∧ (plainReg Reg.prmPace = true ∧ Reg.prmPace ≠ Reg.mapLockedWrites
        ∧ (regRowAt Reg.prmPace).any (fun r => bitOf r.rwl 0 && !bitOf (r.rw ||| r.stk ||| r.w1c ||| r.wo) 0) = true) := by
  decide +kernel

/-- R341: records held in D3hot, with host memory in reach and out of it, and a descriptor that waits. -/
theorem witness_HeldRecords :
    (let s : State := { up with heldRecords := [(0, zeros 64, false)] };
      s.live 92 = true ∧ s.hostUp = true ∧ s.heldRecords ≠ [])
      ∧ (let s : State := { up with heldRecords := [(0, zeros 64, false)], wires := up.wires.erase (56, .pcie) };
        s.live 92 = true ∧ s.hostUp = false)
      ∧ (∀ t ∈ (wait (desc 0x01 []) up).taken, rowKind t.bytes ∈ knownKinds)
      ∧ up.hostUp = true := by
  decide +kernel

/-- R378: a crossing at which nothing waits. -/
theorem witness_QuietCrossings :
    17 ≠ pcieCrossing ∧ ¬(56 ≤ dieOfCrossing 17 ∧ dieOfCrossing 17 < 62 ∧ (17 % 16 = 1 ∨ 17 % 16 = 2)) := by
  decide

/-- R383, R385, R393: domains whose turn has come with room for one more, a hub at the head with room for its two and without, a
group of dies in a wake, and a hub's domain whose supply has not come. -/
theorem witness_DomainTurns :
    (let s : State := { waitingOn with switchOns := [80, 3] };
      s.sleepState ≠ 3 ∧ ((s.switchOns.filter fun b => !s.skipped b).takeWhile s.turnComes) = [80, 3])
      ∧ ([4, 5].all fun n =>
        let s : State := { up with switchOns := [48, 56, 3], on := [92], switchedAt := List.replicate n 5000000 }
        ((s.switchOns.filter fun b => !s.skipped b).takeWhile s.turnComes) == [48, 56, 3]
          && (s.switchedAt.filter fun x => decide (s.now + 1 < x + 100000)).length == n) = true
      ∧ (let s : State := regs [(Reg.pwrStatus, 11)] { up with switchOns := [0, 1, 6], on := [92] };
        s.sleepState = 3 ∧ ((s.switchOns.filter fun b => !s.skipped b).takeWhile s.turnComes) = [0, 1, 6]
          ∧ (s.switchedAt.filter fun x => decide (s.now + 1 < x + 100000)) = [])
      ∧ (let s : State := regs [(Reg.pwrStatus, 11)] { up with rising := [(47, 4990000)] };
        s.sleepState = 3 ∧ s.rising.any (·.1 == 47) = true)
      ∧ (let s : State := { up with rising := [(48, 4000001)] }; (48, 4000001) ∈ s.rising ∧ 4000001 + 1000000 ≤ s.now + 1) := by
  decide +kernel

/-- R392, R393: a wake that every domain has done its part of, and one that a domain has not. -/
theorem witness_Wake :
    (let s := regs [(Reg.pwrStatus, 11)] up;
      blkK1 ∉ s.held ∧ s.sleepState = 3 ∧ (∀ b ∈ List.range 92, s.woken b = true) ∧ s.dormantPin = false
        ∧ bitOf (s.reg Reg.pwrCtrl) 0 = false)
      ∧ (let s := regs [(Reg.pwrStatus, 11)] { up with held := [0] };
        blkK1 ∉ s.held ∧ s.sleepState = 3 ∧ s.woken 0 = false) := by
  decide +kernel

/-- R320: a reading that lies above the hold of the promise it governs. -/
theorem witness_Hold :
    (let s : State := { up with items := [{ aCopy with taus := [(9, 100000)] }] };
      s.live (sentinelPd 9) = true ∧ s.controlOk 9 = true ∧ blkK1 ∉ s.held
        ∧ (s.modSentinel 9 0 fun x => { x with ps := 3000 }).aboveHold 9 = true ∧ s.reg (Reg.vcore 9) < 900) := by
  decide +kernel

/-- R415, R416, R417: seven replays of one unit on a mesh channel and on a home channel; a running die that no item reads; a
contained die. -/
theorem witness_Errors_more :
    ([7, 50].all fun c =>
        let s : State := { up with channelReplays := [(c, 5, 7, [1])] };
        decide (c ∉ s.failedChannels) && s.channelReplays.find? (·.1 == c) == some (c, 5, 7, [1])) = true
      ∧ ((running id).dies.length = 48 ∧ (running id).running 47 = true ∧ ∀ i ∈ (running id).items, i.reads 47 = false)
      ∧ (let s : State := { up with sources := [containSource 61 5], accessMisses := [(61, 3)] };
        s.contained 61 = true ∧ (look s.accessMisses 61).getD 0 = 3)
      ∧ (up.contained 61 = false) := by
  decide +kernel

/-- R404: sectors to be erased, one of which carries a header. -/
theorem witness_Sectors :
    (let s : State := { up with recorder := { up.recorder with erasing := [3, 511] } };
      s.marked 511 = false ∧ (s.eraseNow 3).marked 3 = true) := by
  decide +kernel

/-- R354: a set that cannot take effect, whose item is not done. -/
theorem witness_DroppedSet :
    (let s : State := { up with items := [item (desc 0x12 [])], staged := [aSet (Reg.ringSqBase 0) 0x1000] };
      s.canApply (aSet (Reg.ringSqBase 0) 0x1000) = false
        ∧ (s.items.any fun i => i.id == (aSet (Reg.ringSqBase 0) 0x1000).item && !i.done) = true) := by
  decide +kernel

/-- R317, R315: no such item; one that waits; one that is not done; a WINDOW whose T_p has come. -/
theorem witness_Items_more :
    up.item? 5 = none ∧ (∀ x ∈ up.ended, x.1 ≠ 5)
      ∧ (let i := { aCopy with ts := 5000002, tp := 5000003 }
        let s : State := { up with items := [i] };
        s.item? i.id = some i ∧ (s.advance 1).startWaits i = true ∧ i.done = false ∧ dType i.desc ≠ 0x11)
      ∧ (let i := { item (desc 0x11 []) with started := true }
        let s : State := { up with items := [i] };
        s.item? i.id = some i ∧ i.done = false ∧ dType i.desc = 0x11 ∧ i.tp ≤ (s.advance 1).time)
      ∧ (let i := { item (desc 0x0E []) with started := true, done := true }
        let s : State := { up with items := [i] };
        s.item? i.id = some i ∧ s.gangOf i.id = []) := by
  decide +kernel

/-- R124, R125: passes that fail by their record, their tile and their operands. -/
theorem witness_FailingPasses :
    ([(1, leBytes 1 7 ++ aPass.drop 1, aTile), (5, aPass, { aTile with status := .free }),
      (2, aPass.take 8 ++ leBytes 6 0xFFFFFFFFFFFF ++ aPass.drop 14, aTile)].all fun x =>
      let o := opAt 2 31 16
      let s := queued 1 o x.2.1 (tiled x.2.2)
      let w := s.advance 1
      decide ((w.die 47).queue 1 = [o]) && w.running 47 && (w.die 47).semReady o && (s.die 47).tiles.all (fun t => t.marked == [])
        && (s.die 47).awl.isNone && !((s.die 47).tile 31).spillDue
        && (match passRec o (s.record 47 o) with
          | .ok p => if x.1 == 5 then p.badFor ((s.die 47).tile 31)
              else !p.badFor ((s.die 47).tile 31) && (match w.operands 47 p with | .error e => e == x.1 | .ok _ => false)
          | .error e => e == x.1)) = true := by
  decide +kernel

/-- R157: a reduction whose cutoff has come with its bucket not complete, its sequence CLOSED. -/
theorem witness_NoBucket :
    (let s := reducing []
      let s := regs [(Reg.gateStatus, 3 + 7 * 65536)] { s with reduces := s.reduces.map fun (r : Reduce) => { r with ready := false } };
      s.verdict = 3 ∧ (s.reduce? (2 ^ 40)).any (fun r => decide (r.cutoff ≤ (s.advance 1).time) && !r.ready && !r.stopped
        && ((s.advance 1).group? r.group).isSome) = true) := by
  decide +kernel

/-- R365: a near port with its clock; a far port whose island has none, its timeouts running. -/
theorem witness_LinkClocks :
    up.linkClock 11 = true ∧ up.farLive 0 = up.farOn 0
      ∧ (let s : State := { farAt 1 id with now := 1999999999, wires := [] };
        s.farOn 0 = true ∧ s.farLive 0 = false ∧ s.fpState 0 = 1 ∧ (s.fport 0).since + 2000000000 ≤ s.now + 1) := by
  decide +kernel

/-! ### Ill-formed commands, one for every check -/

/-- None of the commands is well formed. -/
def refused (l : List Instr) : Bool := l.all fun c => !c.wf

/-- An offset that is not below 0x10000 is refused. -/
theorem test_illFormedOffset :
    refused [.mirrorWrite 0 0x10000 false 0, .recorderWindowRead 0 0x10000 false] = true := by
  decide +kernel

/-- A ring that is not below 8 is refused. -/
theorem test_illFormedRing :
    refused [.ringEnable 0 8 0, .ringDisable 0 8 0, .coalTimer 0 8, .sqHeadWriteback 0 8] = true := by
  decide +kernel

/-- An item of no ring is refused. -/
theorem test_illFormedItem :
    refused [.itemCompletion 0 (2 ^ 48), .promiseBreach 0 (2 ^ 48), .stageGapApply 0 (2 ^ 48), .reduceCutoff 0 (2 ^ 48),
      .itemStart 0 (2 ^ 48)] = true := by
  decide +kernel

/-- An offset that is not below 0x4000000 is refused. -/
theorem test_illFormedOffsetBar :
    refused [.registerWrite 0 0x4000000 false 0] = true := by
  decide +kernel

/-- A die that is not below 48 is refused. -/
theorem test_illFormedDie48 :
    refused [.vtDrop 0 48 0, .cobJbase 0 48 0, .bundleFetch 0 48, .load 0 48, .loadTurn 0 48, .store 0 48,
      .tileClear 0 48, .tileContinue 0 48, .tileRestore 0 48, .passOp 0 48, .spill 0 48 0, .overflowReplay 0 48,
      .drainRelease 0 48, .drainKeep 0 48, .issue 0 48, .awlElement 0 48, .combineAcc 0 48, .combineXs 0 48,
      .combineXiMax 0 48, .combineXiMin 0 48, .loopOp 0 48, .signal 0 48, .fence 0 48, .gate 0 48, .quiet 0 48,
      .endOp 0 48, .prgOverrun 0 48, .shardComplete 0 48, .entryCommit 0 48 0] = true := by
  decide +kernel

/-- A die that is not below 64 is refused. -/
theorem test_illFormedDie64 :
    refused [.islandClockLoss 0 (64, .control), .islandClockStable 0 (64, .control), .thermalTrip 0 64, .eccError 0 .hbm 64 0 false,
      .controlAccessTimeout 0 64 false, .coalesceExpiry 0 0 64 0] = true := by
  decide +kernel

/-- An island that its die does not have is refused. -/
theorem test_illFormedIsland :
    refused [.islandClockLoss 0 (47, .far), .islandClockStable 0 (48, .near)] = true := by
  decide +kernel

/-- A PROFILE voltage that is not below 2 ^ 16 is refused. -/
theorem test_illFormedProfilemv :
    refused [.inputEntersRating 0 (2 ^ 16)] = true := by
  decide +kernel

/-- A block that is not below 97 is refused. -/
theorem test_illFormedBlock :
    refused [.blockRelease 0 97] = true := by
  decide +kernel

/-- A hub that is not below 8 is refused. -/
theorem test_illFormedHub :
    refused [.hubInitialisationDone 0 8 false 0, .ftDayBucket 0 8] = true := by
  decide +kernel

/-- A capacity that is not below 2 ^ 16 is refused. -/
theorem test_illFormedRawgb :
    refused [.hubInitialisationDone 0 0 false (2 ^ 16)] = true := by
  decide +kernel

/-- A crossing that is not below 1024 is refused. -/
theorem test_illFormedCrossing :
    refused [.pair 0 1024 .clocked false, .pairAck 0 1024 .clocked false] = true := by
  decide +kernel

/-- A domain that is not below 96 is refused. -/
theorem test_illFormedPd :
    refused [.supplyGood 0 96, .domFault 0 96] = true := by
  decide +kernel

/-- A die that is not below 62 is refused. -/
theorem test_illFormedDie62 :
    refused [.sentinelReading 0 62 0 0, .sentinelMiss 0 62 0] = true := by
  decide +kernel

/-- A sentinel that is not below 4 is refused. -/
theorem test_illFormedSentinel :
    refused [.sentinelReading 0 0 4 0, .sentinelMiss 0 0 4] = true := by
  decide +kernel

/-- A reading that is not below 4096 is refused. -/
theorem test_illFormedReading :
    refused [.sentinelReading 0 0 0 4096] = true := by
  decide +kernel

/-- An entry that is not below 60 is refused. -/
theorem test_illFormedEntry :
    refused [.identityRead 0 60 .fail, .cagePresence 0 60, .cageRemoval 0 60] = true := by
  decide +kernel

/-- A tile that is not below 32 is refused. -/
theorem test_illFormedTile :
    refused [.spill 0 0 32] = true := by
  decide +kernel

/-- A source that is not below 48 is refused. -/
theorem test_illFormedSrc :
    refused [.remoteSignal 0 48 0 0, .faultNotice 0 48 0] = true := by
  decide +kernel

/-- A destination that is not below 48 is refused. -/
theorem test_illFormedDst :
    refused [.remoteSignal 0 0 48 0, .faultNotice 0 0 48] = true := by
  decide +kernel

/-- A semaphore that is not below 64 is refused. -/
theorem test_illFormedSem :
    refused [.remoteSignal 0 0 0 64] = true := by
  decide +kernel

/-- An entry that is not below 64 is refused. -/
theorem test_illFormedEntry2 :
    refused [.entryCommit 0 0 64] = true := by
  decide +kernel

/-- A port that is not below 12 is refused. -/
theorem test_illFormedNearPort :
    refused [.flitData 0 12 (zeros 256), .flitNak 0 12 (zeros 256), .flitHello 0 12 (zeros 256),
      .flitCredit 0 12 (zeros 256), .flitIdle 0 12 (zeros 256), .nearTrainingDone 0 12, .nearTrainingTimeout 0 12,
      .helloSend 0 12, .fecAlignLoss 0 12, .linkSilence 0 12, .nearRetrainTimer 0 12, .npRetrain 0 12] = true := by
  decide +kernel

/-- A flit that is not of 256 bytes is refused. -/
theorem test_illFormedFlit :
    refused [.flitData 0 0 (zeros 255), .flitNak 0 0 (zeros 255), .flitHello 0 0 (zeros 255),
      .flitCredit 0 0 (zeros 255), .flitIdle 0 0 (zeros 255)] = true := by
  decide +kernel

/-- A peer that is not below 512 is refused. -/
theorem test_illFormedPeer :
    refused [.e2eResend 0 512 0] = true := by
  decide +kernel

/-- A stitch that is not below 2 ^ 48 is refused. -/
theorem test_illFormedStitch :
    refused [.e2eResend 0 0 (2 ^ 48), .resendTimer 0 0 (2 ^ 48)] = true := by
  decide +kernel

/-- A port that is not below 6 is refused. -/
theorem test_illFormedFarPort :
    refused [.frameTransmit 0 6 0, .ngtDataFrame 0 6 [] 0, .ngtAck 0 6 [] 0, .probe 0 6 [] 0, .ackTimer 0 6,
      .resendTimer 0 6 0, .probeInterval 0 6, .overlapWindowEnd 0 6 0, .farPcsLock 0 6, .farTrainingTimeout 0 6,
      .farPcsLoss 0 6, .farFrameSilence 0 6, .farRetryTimer 0 6, .fpRetrain 0 6] = true := by
  decide +kernel

/-- A frame longer than 9,216 bytes is refused. -/
theorem test_illFormedFrame :
    refused [.ngtDataFrame 0 0 (zeros 9217) 0, .ngtAck 0 0 (zeros 9217) 0, .probe 0 0 (zeros 9217) 0] = true := by
  decide +kernel

/-- A slot that is not below 2 is refused. -/
theorem test_illFormedSlot :
    refused [.overlapWindowEnd 0 0 2] = true := by
  decide +kernel

/-- A round that is not below 2 ^ 32 is refused. -/
theorem test_illFormedRound :
    refused [.holdSend 0 (2 ^ 32), .manifestCutoff 0 (2 ^ 32) 0, .manifestTakeover 0 (2 ^ 32) 0,
      .fetchRetry 0 (2 ^ 32) 0 0, .anchorDigestWait 0 (2 ^ 32) 0] = true := by
  decide +kernel

/-- A shard that is not below 2 ^ 32 is refused. -/
theorem test_illFormedShard :
    refused [.manifestCutoff 0 0 (2 ^ 32), .manifestTakeover 0 0 (2 ^ 32), .fetchRetry 0 0 (2 ^ 32) 0,
      .anchorDigestWait 0 0 (2 ^ 32)] = true := by
  decide +kernel

/-- An origin that is not below 16 is refused. -/
theorem test_illFormedOrigin :
    refused [.fetchRetry 0 0 0 16] = true := by
  decide +kernel

/-- A unit that is not below 2 ^ 32 is refused. -/
theorem test_illFormedUnit :
    refused [.unitReadComplete 0 (2 ^ 32), .unitWriteComplete 0 (2 ^ 32)] = true := by
  decide +kernel

/-- A channel that is not below 256 is refused. -/
theorem test_illFormedChannel :
    refused [.parityError 0 256 0] = true := by
  decide +kernel

/-- A unit that is not below 64 is refused. -/
theorem test_illFormedUnit2 :
    refused [.parityError 0 0 64] = true := by
  decide +kernel

/-- A code that is not below 2 ^ 16 is refused. -/
theorem test_illFormedCode :
    refused [.coalesceExpiry 0 (2 ^ 16) 0 0] = true := by
  decide +kernel

/-- A sub that is not below 256 is refused. -/
theorem test_illFormedSub :
    refused [.coalesceExpiry 0 0 0 256] = true := by
  decide +kernel

/-- A sector that is not below 512 is refused. -/
theorem test_illFormedSector :
    refused [.sectorEraseDone 0 512] = true := by
  decide +kernel

/-- A group that is not below 2 ^ 16 is refused. -/
theorem test_illFormedGroup :
    refused [.digestReplyTimeout 0 (2 ^ 16) 0] = true := by
  decide +kernel

/-- A member that is not below 512 is refused. -/
theorem test_illFormedMember :
    refused [.digestReplyTimeout 0 0 512] = true := by
  decide +kernel

/-- Operands at the ends of their ranges are accepted. -/
theorem test_wellFormed :
    (.ringEnable 0 7 0 : Instr).wf = true ∧ (.spill 0 47 31 : Instr).wf = true ∧ (.flitData 0 11 (zeros 256) : Instr).wf = true
      ∧ (.ngtAck 0 5 [] 0 : Instr).wf = true ∧ (.sentinelReading 0 61 3 4095 : Instr).wf = true
      ∧ (.itemStart 0 (2 ^ 48 + 8 * 2 ^ 40) : Instr).wf = true ∧ (.entryCommit 0 47 63 : Instr).wf = true ∧ (.blockRelease 0 96 : Instr).wf = true := by
  decide +kernel

/-! ### Values that the manual or a standard it names works out -/

/-- Table FMT-5, worked H4 conversion: 3.0, 2.0, 1.0, 0.6, −1.5 and 0.25 of a block, at scale byte 129. -/
theorem test_h4Conversion :
    (let ws : List Word := [0x40400000, 0x40000000, 0x3F800000, 0x3F19999A, 0xBFC00000, 0x3E800000]
      let r := encodeRow false ((List.range 16).map fun i => ofBits (ws.getD i 0)) fun _ => none;
      r.1 = [0x56, 0x13, 0x0C, 0, 0, 0, 0, 0] ∧ r.2.1 = [129]) := by
  decide +kernel

/-- Chapter 2, example of R46: binary32 0x3F9D70A4 is G16 0x3F3B. -/
theorem test_g16Conversion : g16.write none (ofBits 0x3F9D70A4) = 0x3F3B := by
  decide +kernel

/-- Chapter 2, example of BS16: 20,000 + 15,000 raises the scale by one place, and 3 + 2 becomes 2. -/
theorem test_bs16Raise :
    (let a : Bs16 := ⟨130, 0, 1, [20000, 3] ++ List.replicate 62 0⟩
      let b : Bs16 := ⟨130, 0, 1, [15000, 2] ++ List.replicate 62 0⟩
      let r := (a.add b).1;
      r.s = 131 ∧ r.raised = 1 ∧ r.count = 2 ∧ r.ms.take 2 = [17500, 2]) := by
  decide +kernel

/-- Chapter 4, example of R105: with two active +∞ each of them gets 0.5; with the NaN active all is NaN. -/
theorem test_softmaxInf :
    (let ws : List Word := [0x40400000, 0x7F800000, 0x3F800000, 0x7FC00000, 0x7F800000, 0x40A00000, 0, 0xC0000000]
      let at_ (l : List Nat) : List (Nat × Word) := l.map fun i => (i, ws.getD i 0);
      softmaxSeg 8 (at_ [0, 1, 2, 4, 6, 7])
        = ([.zero, .word 0x3F000000, .zero, .zero, .word 0x3F000000, .zero, .zero, .zero], 0x7F800000, [7])
      ∧ (softmaxSeg 8 (at_ [0, 1, 2, 3, 4, 6, 7])).1 = List.replicate 8 (.word 0x7FC00000)) := by
  decide +kernel

/-- Chapter 5, example of R116: the slot 0x0FE4008081104302 is a PASS into tile 2, waiting on semaphore 3 and signalling 4. -/
theorem test_passSlot :
    (let o : SlotOp := ⟨0x0FE4008081104302, 0, 0, 0⟩;
      o.op = 2 ∧ o.wsem = 3 ∧ o.wcnt = 1 ∧ o.ssem = 4 ∧ o.sen = true ∧ o.recAddr = 0x40
        ∧ o.imm = 2 + 128 * 2 ^ 5 + 127 * 2 ^ 15) := by
  decide

/-- Chapter 6, example of Table BWD-4: a turned load of 512 rows of 256 H4 elements costs 208 tokens, one of G16 576. -/
theorem test_turnerCost :
    (movePlan false (opAt 1 0 16) (padTo 64 (moveRec 17 512 128 0x1000 0x30000000000))).toOption.map MovePlan.cost = some 208
      ∧ (movePlan false (opAt 1 0 16) (padTo 64 (moveRec 19 512 512 0x1000 0x30000000000))).toOption.map MovePlan.cost
        = some 576 := by
  decide +kernel

/-- Chapter 7, example of R181: half way through a COSINE segment from 3.0e−4 to 3.0e−5 the rate is 1.65e−4. -/
theorem test_cosineRate :
    (regs [(Reg.cobSched, 0x18000)] ((List.range 15).foldl (fun s i => s.writeHbm (0x18020 + 32 * i) (List.replicate 6 0xFF))
      (up.writeHbm 0x18000 (leBytes 6 1000 ++ leBytes 2 2 ++ leBytes 4 9000 ++ leBytes 4 0x399D4952 ++ leBytes 4 0x37FBA882)))).scheduleAt
        5500 = some 0x392D03DA := by
  decide +kernel

/-- Chapter 10, example of R270: the factor image of a 4,096 by 4,096 shard at rank 32 has 270,336 bytes, that of a vector of
4,096 elements 4,224. -/
theorem test_factorImage :
    (let x : FxShard :=
        { shard := 0, tensor := 0, row0 := 0, rows := 4096, col0 := 0, cols := 4096, rank := 32, stream := 0, delta := 0, anchor := 0,
          mom := 0, feedback := 0, send := 0, recv := 0, ohyper := 0 };
      x.planes.2 = 270336 ∧ { x with rows := 1, rank := 0 }.planes.2 = 4224) := by
  decide

/-- Chapter 12, example of R328: a gang of C09 is promised from t0 + 180,000 ns to t0 + 769,565 ns, at 1,092 ps and 54.9 W. -/
theorem test_promise :
    (let c : Cert := ⟨495744, 4000, [], 50331648, 0, 0, 0⟩
      let s := regs [(Reg.prgStatus 9, 1), (Reg.prmGuard, 3), (Reg.prmHbm 9, 1200), (Reg.prmPace, 1000), (Reg.vcore 9, 720), (Reg.pwrLimit, 4300)]
        (up.modDie 9 fun d => { d with codeBytes := 64, cert := c })
      let s := { s with
        sentinels := s.sentinels.set 9 (List.replicate 4 { ps := 1060, takenAt := some 5000000 })
        reservations := [(0, 5180000, 650), (0, 10 ^ 12, 42110 - s.baseDw)] };
      (s.judge progStartCheck { ring := 0, index := 0, bytes := desc 0x03 (leBytes 8 (2 ^ 9)) }).toOption.map (fun x =>
          (x.2.1 - s.time, x.2.2.1 - s.time, ceilDiv (s.tau x.1.gov) 100, x.2.2.2))
        = some (180000, 769565, 1092, 549)) := by
  decide +kernel

/-- Chapter 15, example of R399: an active cable with length byte 0b10_000111 has length 0x02BC and flags 0b110. -/
theorem test_cableLength :
    (surEntry 5 0x04 0x87 0 (zeros 16) (zeros 16) (zeros 16) (zeros 16)).take 7 = [1, 5, 1, 4, 0xBC, 0x02, 6] := by
  decide +kernel

/-- Chapter 17, examples: VT_HOLD1 of entry 3 of C20, and PRM_HBM of C09. -/
theorem test_registerOffsets : vtHold 20 3 1 = 0x002410E8 ∧ Reg.prmHbm 9 = 0x00020124 := by
  decide

/-- R101, Table AWL-6: the smaller of +0 and −0 is −0. -/
theorem test_fminZeros : (alu 0x16 0 0x80000000 0).1 = 0x80000000 := by
  decide +kernel

/-- FIPS 197, appendix C.3: AES-256 of one block. -/
theorem test_aes256 :
    Crypto.aesEnc (Crypto.roundKeys (List.range 32)) ((List.range 16).map (· * 17))
      = [0x8E, 0xA2, 0xB7, 0xCA, 0x51, 0x67, 0x45, 0xBF, 0xEA, 0xFC, 0x49, 0x90, 0x4B, 0x49, 0x60, 0x89] := by
  decide +kernel

/-- The check value of CRC-32 (R135). -/
theorem test_crc32 : Crypto.crc32 [0x31, 0x32, 0x33, 0x34, 0x35, 0x36, 0x37, 0x38, 0x39] = 0xCBF43926 := by
  decide +kernel

end Sys2Proof.Tests
end

/-! ## The matrix array (O47): replays, drains, and what they leave of the tiles -/

section
/-! ### A die, and a tile, that changes -/

namespace Sys2Proof.Machine

theorem State.die_modDie_same {s : State} {n : Nat} (f : Die → Die) (h : n < s.dies.length) :
    (s.modDie n f).die n = f (s.die n) :=
  (modAt_getD _ _ _ _ _ h).trans (if_pos rfl)

theorem Die.tile_modTile {d : Die} {k : Nat} (f : Tile → Tile) (h : k < d.tiles.length) (j : Nat) :
    (d.modTile k f).tile j = if k = j then f (d.tile k) else d.tile j :=
  modAt_getD _ _ _ _ _ h

theorem map_modAt_of_same {α β : Type} {g : α → β} {f : α → α} (h : ∀ a, g (f a) = g a) (l : List α) (i : Nat) :
    (modAt l i f).map g = l.map g := by
  apply List.ext_getElem? fun j => ?_
  by_cases e : i = j <;> cases hj : l[j]? <;> simp [modAt, e, hj, h]

end Sys2Proof.Machine
end

section
/-! ### What the array's work leaves of every die

A raw image, a deep sum or a replay changes stores, registers and parts of dies; `SameDies g` says that the part of each die
that `g` reads (its tiles, its run) is not among them. -/

namespace Sys2Proof.Machine

/-- Every die shows through `g` in `t` what it shows in `s`. -/
def State.SameDies {α : Type} (g : Die → α) (s t : State) : Prop := t.dies.map g = s.dies.map g

namespace State.SameDies

variable {α : Type} {g : Die → α} {s t u : State}

theorem refl (s : State) : SameDies g s s := rfl

theorem trans (h : SameDies g s t) (h' : SameDies g t u) : SameDies g s u := Eq.trans h' h

theorem of_dies (h : t.dies = s.dies) : SameDies g s t := congrArg (List.map g) h

theorem of_reports (h : s.OnlyReports t) : SameDies g s t := of_dies h.dies

theorem ite {c : Prop} [Decidable c] (h : SameDies g s t) (h' : SameDies g s u) : SameDies g s (if c then t else u) := by
  split
  · exact h
  · exact h'

theorem foldl {β : Type} {f : State → β → State} (h : ∀ s b, SameDies g s (f s b)) (l : List β) (s : State) :
    SameDies g s (l.foldl f s) := by
  induction l generalizing s with
  | nil => exact refl s
  | cons b l ih => exact (h s b).trans (ih _)

theorem modDie (s : State) (n : Nat) {f : Die → Die} (h : ∀ d, g (f d) = g d := by intro; rfl) :
    SameDies g s (s.modDie n f) :=
  map_modAt_of_same h s.dies n

theorem length_eq (h : SameDies g s t) : t.dies.length = s.dies.length := by
  simpa using congrArg List.length h

theorem die_eq (h : SameDies g s t) (n : Nat) : g (t.die n) = g (s.die n) := by
  have := congrArg (List.getD · n (g Die.reset)) h
  rwa [List.getD_map, List.getD_map] at this

end State.SameDies

/-! ### Writes: of what a die holds they change its loss board at most (R151) -/

section
variable {α : Type} {g : Die → α} (hg : ∀ (d : Die) (l : List (Nat × Bool)), g { d with losses := l } = g d)
include hg

theorem State.postSlot_sameDies (s : State) (n i : Nat) : SameDies g s (s.postSlot n i) := by
  unfold State.postSlot
  extract_lets base w fin
  split
  · exact (SameDies.modDie _ _ fun d => hg d _).trans (.of_reports (raise_only _ _ _))
  · exact .modDie _ _ fun d => hg d _

theorem State.postLosses_sameDies (s : State) (n off len : Nat) : SameDies g s (s.postLosses n off len) := by
  have hform (u : State) : SameDies g u u.formLocal := by
    unfold State.formLocal
    exact .ite (.refl _) (.ite (.of_dies rfl) (.ite (.of_dies rfl) (.refl _)))
  unfold State.postLosses
  exact .ite (.refl _) (.ite (.of_reports (raise_only _ _ _))
    ((SameDies.foldl (fun u i => State.postSlot_sameDies hg u n i) _ _).trans (hform _)))

theorem State.writeAt_sameDies (s : State) (n : Nat) (p : Place) (bs : List Byte) : SameDies g s (s.writeAt n p bs) := by
  unfold State.writeAt
  split
  · exact .of_dies rfl
  · unfold State.writeSram
    exact .ite (.refl _) ((SameDies.of_dies rfl).trans (State.postLosses_sameDies hg _ _ _ _))
  · exact .of_dies rfl
  · exact .refl _

theorem State.writeDeep_sameDies (s : State) (n : Nat) (t : Tile) (x l : Nat) (v : Int) :
    SameDies g s (s.writeDeep n t x l v) := State.writeAt_sameDies hg _ _ _ _

theorem State.foldDeep_sameDies (s : State) (n : Nat) (t : Tile) : SameDies g s (s.foldDeep n t) := by
  have hlanes := SameDies.foldl (g := g) (f := fun u (l : Nat × Int) =>
    u.writeDeep n t (l.1 / 2) (l.1 % 2) (l.2 + u.readDeep n t (l.1 / 2) (l.1 % 2)))
    (fun u l => State.writeDeep_sameDies hg u n t _ _ _) t.lanes s
  have htags (u : State) (x : Nat × Tag) : SameDies g u
      (if x.2 = .fin then u else (List.range t.nl).foldl (fun u l => u.writeDeep n t x.1 l 0) u) :=
    .ite (.refl _) (.foldl (fun u l => State.writeDeep_sameDies hg u n t _ _ _) _ _)
  exact (hlanes.trans (.foldl htags _ _)).trans (State.writeAt_sameDies hg _ _ _ _)

end

end Sys2Proof.Machine
end

section
/-! ### Overflow replay (Sequence ARY-1) -/

namespace Sys2Proof.Machine

theorem State.meter_sameRun (s : State) (n c : Nat) : SameDies Die.run s (s.meter n c) :=
  (SameDies.modDie s n).trans (.of_dies rfl)

theorem State.saturate_sameRun (s : State) (n k : Nat) : SameDies Die.run s (s.saturate n k) :=
  (SameDies.modDie s n).trans (.of_reports (raise_only _ _ _))

theorem State.restoreCheckpoint_sameRun (s : State) (n k : Nat) : SameDies Die.run s (s.restoreCheckpoint n k) := by
  unfold State.restoreCheckpoint
  extract_lets t deep s1 lost old s2
  have h1 : SameDies Die.run s s1 :=
    .foldl (fun u x => State.writeDeep_sameDies (fun _ _ => rfl) u n t _ _ _) deep s
  have h2 : SameDies Die.run s s2 := h1.trans (.modDie _ _)
  exact .ite (h2.trans (.of_reports (raise_only _ _ _))) h2

theorem State.runPass_sameRun (s : State) (n k : Nat) (p : PassRec) (o : Operands) :
    SameDies Die.run s (s.runPass n k p o) := by
  unfold State.runPass
  extract_lets t
  split
  next u idle _ =>
    extract_lets s1 s2
    have h1 : SameDies Die.run s s1 := .modDie _ _
    have h2 : SameDies Die.run s s2 := .ite h1 (h1.trans (.of_dies rfl))
    exact .ite (h2.trans (.of_reports (raise_only _ _ _))) h2

/-- A replay, whatever it does to the tile, leaves what each die's run bound at its start. -/
theorem State.replayGo_sameRun (n k : Nat) (l : List (PassRec × Operands)) (f i : Nat) (s : State) :
    SameDies Die.run s (State.replayGo n k l f i s) := by
  induction f generalizing i s with
  | zero => exact .refl s
  | succ f ih =>
    unfold State.replayGo
    extract_lets t cost short s1 s2 s3 s4 s5
    split
    · split
      · have h1 : SameDies Die.run s s1 := State.saturate_sameRun s n k
        have h2 : SameDies Die.run s s2 := .ite (h1.trans (.of_reports (raise_only _ _ _))) h1
        exact h2.trans (ih _ _)
      · have h4 : SameDies Die.run s s4 := (State.restoreCheckpoint_sameRun s n k).trans (.modDie _ _)
        have h5 : SameDies Die.run s s5 := (h4.trans (State.meter_sameRun s4 n cost)).trans
          (.of_reports ((count_only _ _ _).trans (raise_only _ _ _)))
        exact h5.trans (ih _ _)
    · split
      · exact (State.runPass_sameRun s n k _ _).trans (ih _ _)
      · exact .refl s

/-- A live die replays the first of its tiles that has marked elements. -/
theorem State.replayStep_of_marked {s : State} {n k : Nat} (hlive : s.live n = true)
    (hk : (List.range 32).find? (fun k => ((s.die n).tile k).marked != []) = some k) :
    s.replayStep n =
      let l := ((s.die n).tile k).passes.map fun p => (p, (s.operands n p).toOption.getD ⟨[], [], [], []⟩)
      let t := s.replayGo n k l ((l.length + 2) * 6) l.length
      (if t.prgState n = 2 then t else t.settleGang ((s.die n).run.elim 0 (·.item))).badHeads n := by
  simp [State.replayStep, hlive, hk, (State.replayGo_sameRun n k _ _ _ s).die_eq n]

end Sys2Proof.Machine
end

section
/-! ### Ops that issue, and drains (Sequence ARY-2) -/

namespace Sys2Proof.Machine

/-- The rule of issue (R117): an op at the head of its queue that is of the row, is ready, passes its checks and stays within
its certified total leaves the queue, is charged and has its effect. -/
theorem State.issueOp_issues {s : State} {n slot opc cost : Nat} {o : SlotOp} {rest : List SlotOp} {sel ready : SlotOp → Bool}
    {act : SlotOp → Except Nat (Nat × (State → State))} {f : State → State} (hd : s.heads n slot opc o rest)
    (hsel : sel o = true) (hready : ready o = true) (hact : act o = .ok (cost, f))
    (hcost : (s.die n).overCharge slot cost = false) :
    s.issueOp n slot opc sel ready act = (f (s.issued n slot cost o rest)).badHeads n := by
  obtain ⟨hq, hrun, hop, hsem⟩ := hd
  simp [State.issueOp, State.issued, hq, hrun, hop, hsem, hsel, hready, hact, hcost]

/-- A drain whose checks hold, and whose deep sums stay in i64, writes its rows or its image. -/
theorem State.drainStep_issues {s : State} {n : Nat} {o : SlotOp} {rest : List SlotOp}
    {places : List (Place × Option Place)} {t : Tile} (hd : s.heads n 1 3 o rest)
    (ht : (s.die n).tile (o.imm % 32) = t) (hmark : t.marked = []) (hspill : t.spillDue = false)
    (hdeep : t.deep = 0 ∨ s.deepOver n t = []) (hcheck : s.drainCheck n o (s.record n o) t = .ok places)
    (hcost : (s.die n).overCharge 1 t.rows = false) :
    s.drainStep (bitOf o.imm 5) n
      = ((s.issued n 1 t.rows o rest).drainInto n (bitOf o.imm 5) (o.imm % 32) o (s.record n o) t places).opEnds n 1 o := by
  have hq : (s.die n).qArray = o :: rest := hd.1
  unfold State.drainStep
  simp only [hq, ht]
  rw [if_neg]
  · exact State.issueOp_issues (f := fun u =>
        (u.drainInto n (bitOf o.imm 5) (o.imm % 32) o (s.record n o) t places).complete n 1 o)
      hd (by simp) (by simp [ht, hmark, hspill]) (by simp [ht, hcheck]) hcost
  · -- the fold before the drain takes no deep sum out of i64, so that none is marked for a replay (R74)
    rcases hdeep with h | h
    · simp [h]
    · split <;> simp [h]

/-- A drain, up to the release of its tile, leaves the tiles as they are. -/
theorem State.drainInto_tiles (s : State) (n k : Nat) (rel : Bool) (o : SlotOp) (r : List Byte) (t : Tile)
    (places : List (Place × Option Place)) :
    ∃ u, SameDies Die.tiles s u
      ∧ s.drainInto n rel k o r t places = if rel then u.modDie n fun d => d.modTile k fun _ => {} else u := by
  unfold State.drainInto
  extract_lets s1 f out s2 s3 word at_ s4 s5 s6
  refine ⟨s6, ?_, rfl⟩
  have hwrite (u : State) (p : Place) (bs : List Byte) : SameDies Die.tiles u (u.writeAt n p bs) :=
    State.writeAt_sameDies (fun _ _ => rfl) u n p bs
  have h1 : SameDies Die.tiles s s1 := .modDie _ _
  have h2 : SameDies Die.tiles s s2 := .ite (h1.trans (State.foldDeep_sameDies (fun _ _ => rfl) _ _ _)) h1
  have h3 : SameDies Die.tiles s s3 := by
    refine h2.trans (.foldl (fun u x => ?_) _ _)
    dsimp only
    split
    · exact (hwrite _ _ _).trans (hwrite _ _ _)
    · exact hwrite _ _ _
  have h4 : SameDies Die.tiles s s4 := .ite (h3.trans (.modDie _ _)) h3
  have h5 : SameDies Die.tiles s s5 := .ite (h4.trans (.of_reports (raise_only _ _ _))) h4
  exact .ite (h5.trans (.of_reports (raise_only _ _ _))) h5

/-- R69: a drain with RELEASE leaves its tile free. -/
theorem State.drainInto_release_tile {s : State} {n k : Nat} (hn : n < s.dies.length) (hk : k < (s.die n).tiles.length)
    (o : SlotOp) (r : List Byte) (t : Tile) (places : List (Place × Option Place)) :
    ((s.drainInto n true k o r t places).die n).tile k = {} := by
  obtain ⟨u, hu, he⟩ := s.drainInto_tiles n k true o r t places
  have hn' : n < u.dies.length := hu.length_eq ▸ hn
  have hk' : k < (u.die n).tiles.length := hu.die_eq n ▸ hk
  rw [he, if_pos rfl, State.die_modDie_same _ hn', Die.tile_modTile _ hk', if_pos rfl]

/-! ### CLEAR (R69) -/

/-- A CLEAR whose record names no deep-sum buffer changes one tile and nothing else. -/
theorem State.tileClear_without_deep {s : State} {n k : Nat} {r : List Byte} (h : fld r 4 6 = 0) :
    s.tileClear n k r = s.modDie n fun d => d.modTile k fun _ =>
      { status := .inProgress, a48 := bitOf (fld r 1 1) 0, twoLane := bitOf (fld r 1 1) 1, pelun := bitOf (fld r 1 1) 3,
        rows := fld r 2 2, deep := 0, e := signed 8 (fld r 0 1) } := by
  simp [State.tileClear, h]

end Sys2Proof.Machine
end

section
/-! ### The statement -/

namespace Sys2Proof.Machine

theorem exec_overflowReplay (dt n : Nat) (s : State) :
    exec (.overflowReplay dt n) s = s.finish dt ((s.advance dt).replayStep n) := rfl

/-- DRAIN_RELEASE and DRAIN_KEEP run one step, told apart by the RELEASE bit. -/
theorem exec_drain {dt n : Nat} {rel : Bool} {c : Instr}
    (hc : (rel, c) ∈ [(true, Instr.drainRelease dt n), (false, .drainKeep dt n)]) (s : State) :
    exec c s = s.finish dt ((s.advance dt).drainStep rel n) := by
  simp only [List.mem_cons, Prod.mk.injEq, List.not_mem_nil, or_false] at hc
  rcases hc with ⟨rfl, rfl⟩ | ⟨rfl, rfl⟩
  · rfl
  · rfl

/-- Settles O47: a replay and a drain are the steps of their sequences (`replayStep_of_marked`, `drainStep_issues`); a CLEAR
without a buffer sets its one tile, and no write of a drain touches a tile before its release. -/
theorem replaysAndDrains : Obligations.ReplaysAndDrains := by
  unfold Obligations.ReplaysAndDrains
  refine ⟨fun dt n s => ?_, fun s n k r hn hk => ⟨fun hdeep => ?_, fun o t pl =>
    State.drainInto_release_tile hn hk o r t pl⟩⟩
  · intro w
    have hdie : w.die n = s.die n := s.advance_die dt n
    refine ⟨fun k hlive hk _ => ?_, fun rel c o rest places hc hd hrel => ?_⟩
    · have hstep := State.replayStep_of_marked ((s.advance_live dt n).trans hlive) (hdie ▸ hk)
      rw [exec_overflowReplay, hstep, hdie]
    · have hrec : w.record n o = s.record n o := s.advance_record dt n o
      subst hrel
      intro k t hmark hspill hdeep hcheck hcost
      rw [exec_drain hc, State.drainStep_issues hd (by rw [hdie]) hmark hspill hdeep (by rw [hrec, hcheck])
        (by rw [hdie, hcost]), hrec]
  · rw [State.tileClear_without_deep hdeep]
    refine ⟨?_, rfl, rfl, fun j hj => ?_⟩
    · rw [State.die_modDie_same _ hn, Die.tile_modTile _ hk, if_pos rfl]
    · rw [State.die_modDie_same _ hn, Die.tile_modTile _ hk, if_neg hj.symm]

end Sys2Proof.Machine
end

/-! ## The Awl vector engine (O48): comparisons, ISSUE, and the operations that run -/

section
/-! ### Comparisons (R101, Table AWL-6) -/

namespace Sys2Proof.Machine

theorem Num.isNan_iff {x : Num} : x.isNan = true ↔ x = .nan := by
  cases x <;> simp [Num.isNan]

/-- A comparison with a NaN on either side is false, whatever it compares. -/
theorem fcmp_of_nan {f : Int → Int → Bool} {a b : Word} (h : (ofBits a).isNan = true ∨ (ofBits b).isNan = true) :
    fcmp f a b = 0 := by
  rcases h.imp Num.isNan_iff.mp Num.isNan_iff.mp with ha | hb
  · simp only [fcmp, ha]
  · cases ha : ofBits a with
    | nan => simp only [fcmp, ha]
    | inf neg => simp only [fcmp, ha, hb]
    | fin neg m e => simp only [fcmp, ha, hb]

theorem alu_fcmplt (a b c : Word) : (alu 0x1A a b c).1 = fcmp (fun x y => decide (x < y)) a b := rfl
theorem alu_fcmple (a b c : Word) : (alu 0x1B a b c).1 = fcmp (fun x y => decide (x ≤ y)) a b := rfl
theorem alu_fcmpeq (a b c : Word) : (alu 0x1C a b c).1 = fcmp (fun x y => x == y) a b := rfl

/-- +0 and −0 compare equal, in either order. -/
theorem fcmpeq_zeros :
    (alu 0x1C 0 0x80000000 0).1 = truth true ∧ (alu 0x1C 0x80000000 0 0).1 = truth true := by
  decide +kernel

/-- The smaller of the two zeros is −0 and the larger +0, in either order. -/
theorem fminFmax_zeros :
    (alu 0x16 0 0x80000000 0).1 = 0x80000000 ∧ (alu 0x16 0x80000000 0 0).1 = 0x80000000
      ∧ (alu 0x17 0 0x80000000 0).1 = 0 ∧ (alu 0x17 0x80000000 0 0).1 = 0 := by
  decide +kernel

end Sys2Proof.Machine
end

section
/-! ### ISSUE (R94, R129) -/

namespace Sys2Proof.Machine

/-- The rule of issue (R117) where the checks fail: the op at the head of its queue faults and has no other effect. -/
theorem State.issueOp_faults {s : State} {n slot opc c : Nat} {o : SlotOp} {rest : List SlotOp} {sel ready : SlotOp → Bool}
    {act : SlotOp → Except Nat (Nat × (State → State))} (hd : s.heads n slot opc o rest) (hsel : sel o = true)
    (hready : ready o = true) (hact : act o = .error c) :
    s.issueOp n slot opc sel ready act = s.faultDie n c slot o.bundle := by
  obtain ⟨hq, hrun, hop, hsem⟩ := hd
  simp [State.issueOp, hq, hrun, hop, hsem, hsel, hready, hact]

/-- The rule of issue (R132) where the charge would pass the certified total: the op faults and has no other effect. -/
theorem State.issueOp_overCharged {s : State} {n slot opc cost : Nat} {o : SlotOp} {rest : List SlotOp}
    {sel ready : SlotOp → Bool} {act : SlotOp → Except Nat (Nat × (State → State))} {f : State → State}
    (hd : s.heads n slot opc o rest) (hsel : sel o = true) (hready : ready o = true) (hact : act o = .ok (cost, f))
    (hcost : (s.die n).overCharge slot cost = true) :
    s.issueOp n slot opc sel ready act = s.faultDie n 0x08 slot o.bundle := by
  obtain ⟨hq, hrun, hop, hsem⟩ := hd
  simp [State.issueOp, hq, hrun, hop, hsem, hsel, hready, hact, hcost]

/-- AWL_FAULT is not read when an op issues. -/
theorem State.heads_setAwlFault {s : State} {n slot opc : Nat} {o : SlotOp} {rest : List SlotOp}
    (hd : s.heads n slot opc o rest) (v : Nat) : (s.setReg (Reg.awlFault n) v).heads n slot opc o rest := by
  obtain ⟨hq, hrun, hop, hsem⟩ := hd
  have hstate : (s.setReg (Reg.awlFault n) v).prgState n = s.prgState n :=
    State.regBits_setReg_ne s _ _ v 1 0 (by simp [Reg.awlFault, Reg.prgStatus])
  refine ⟨hq, ?_, hop, hsem⟩
  rw [← hrun, State.running, State.running, hstate]
  rfl

/-- Checks that pass hand the record on, and the op it came with (R110). -/
theorem State.awlCheck_ok {s : State} {n cost : Nat} {o : SlotOp} {a : AwlRun} (h : s.awlCheck n o = .ok (cost, a)) :
    a.record = s.record n o ∧ a.op = o := by
  unfold State.awlCheck at h
  extract_lets r at h
  split at h
  · cases h
  · split at h
    · -- an element operation
      split at h <;> cases h
      exact ⟨rfl, rfl⟩
    · split at h
      · -- a combine
        split at h <;> cases h
        exact ⟨rfl, rfl⟩
      · cases h

/-- What ISSUE makes of the op at the head of the AWL queue, by the verdict of its checks: a fault of the program, one
that the Awl finds and AWL_FAULT shows, or the operation in the Awl's hands, unless its charge passes the certified
total (R129). -/
def State.issuedBy (s : State) (n : Nat) (o : SlotOp) (rest : List SlotOp) : Except Nat (Nat × AwlRun) → State
  | .error c =>
    if 0x100 ≤ c then (s.setReg (Reg.awlFault n) (c % 256 + o.recAddr * 2 ^ 16)).faultDie n 0x09 2 o.bundle
    else s.faultDie n c 2 o.bundle
  | .ok (cost, a) =>
    if (s.die n).overCharge 2 cost then s.faultDie n 0x08 2 o.bundle
    else ((s.issued n 2 cost o rest).modDie n fun d => { d with awl := some a }).badHeads n

/-- An op that may issue is judged as soon as the Awl is free and what the op reads is settled (R94). -/
theorem State.issueStep_of_heads {s : State} {n : Nat} {o : SlotOp} {rest : List SlotOp} (hd : s.heads n 2 1 o rest)
    (hfree : (s.die n).awl = none) (hread : s.readsUnsettled n o = false) :
    s.issueStep n = s.issuedBy n o rest (s.awlCheck n o) := by
  have ⟨hq, hrun, hop, hsem⟩ := hd
  have hqAwl : (s.die n).qAwl = o :: rest := hq
  have hready : ((s.die n).awl.isNone && !s.readsUnsettled n o) = true := by simp [hfree, hread]
  have hcan : (s.running n && o.op == 1 && (s.die n).semReady o && (s.die n).awl.isNone && !s.readsUnsettled n o) = true := by
    simp [hrun, hop, hsem, hfree, hread]
  unfold State.issueStep
  simp only [hqAwl, hcan, Bool.true_and]
  cases hcheck : s.awlCheck n o with
  | error c =>
    by_cases hc : 0x100 ≤ c
    · simp only [State.issuedBy, hc, decide_true, if_true]
      exact State.issueOp_faults (State.heads_setAwlFault hd _) rfl hready (by simp [hcheck, hc])
    · simp only [State.issuedBy, hc, decide_false, Bool.false_eq_true, if_false]
      exact State.issueOp_faults hd rfl hready (by simp [hcheck, hc])
  | ok p =>
    obtain ⟨cost, a⟩ := p
    cases hcost : (s.die n).overCharge 2 cost with
    | false =>
      simp only [State.issuedBy, hcost, Bool.false_eq_true, if_false]
      exact State.issueOp_issues (f := fun u => u.modDie n fun d => { d with awl := some a }) hd rfl hready
        (by simp [hcheck]) hcost
    | true =>
      simp only [State.issuedBy, hcost, Bool.false_eq_true, if_false, if_true]
      exact State.issueOp_overCharged (f := fun u => u.modDie n fun d => { d with awl := some a }) hd rfl hready
        (by simp [hcheck]) hcost

end Sys2Proof.Machine
end

section
/-! ### An operation runs to its end (R94, R96, R107) -/

namespace Sys2Proof.Machine

/-- The operation in the Awl's hands, run by the row of its kind: its effect, its count, the end of its claims, its signal. -/
theorem State.awlStep_of_kind {s : State} {n kind sub : Nat} {a : AwlRun} (ha : (s.die n).awl = some a)
    (hlive : s.live n = true) (hkind : awlKind a.record = kind) (hsub : kind = 1 → (combRec a.record).kind = sub) :
    s.awlStep kind sub n =
      let u := if kind = 0 then s.elemRun n a.record
        else a.result.elim s fun q => s.combRun n (combRec a.record) a.parts q
      let v := ((u.count (Reg.awlOps n) 1).modDie n fun d => { d with awl := none }).complete n 2 a.op
      (if v.prgState n = 2 then v else v.settleGang ((v.die n).run.elim 0 (·.item))).badHeads n := by
  have hrow : ¬ (!s.live n ∨ awlKind a.record ≠ kind ∨ (kind = 1 ∧ (combRec a.record).kind ≠ sub)) := by
    simpa [hlive, hkind] using hsub
  unfold State.awlStep
  simp only [ha, if_neg hrow]
  cases a.result with
  | none => rfl
  | some q => rfl

end Sys2Proof.Machine
end

section
/-! ### The statement -/

namespace Sys2Proof.Machine

theorem exec_issue (dt n : Nat) (s : State) : exec (.issue dt n) s = s.finish dt ((s.advance dt).issueStep n) := rfl

/-- Every Awl row runs one step, told apart by its kind and, of a combine, its sub-kind. -/
theorem exec_awl {dt n kind sub : Nat} {c : Instr}
    (hc : (c, kind, sub) ∈ [(Instr.awlElement dt n, 0, 0), (.combineAcc dt n, 1, 0), (.combineXs dt n, 1, 1),
      (.combineXiMax dt n, 1, 2), (.combineXiMin dt n, 1, 3)]) (s : State) :
    exec c s = s.finish dt ((s.advance dt).awlStep kind sub n) := by
  simp only [List.mem_cons, Prod.mk.injEq, List.not_mem_nil, or_false] at hc
  rcases hc with ⟨rfl, rfl, rfl⟩ | ⟨rfl, rfl, rfl⟩ | ⟨rfl, rfl, rfl⟩ | ⟨rfl, rfl, rfl⟩ | ⟨rfl, rfl, rfl⟩ <;> rfl

/-- Settles O48: a NaN fails every comparison (`fcmp_of_nan`) and the zeros are computed; ISSUE answers by the verdict of the
checks (`issueStep_of_heads`), and a row of the operation's kind runs it to its end (`awlStep_of_kind`). -/
theorem awlOperationsRun : Obligations.AwlOperationsRun := by
  unfold Obligations.AwlOperationsRun
  refine ⟨⟨fun a b hnan => ?_, fcmpeq_zeros.1, fcmpeq_zeros.2, fminFmax_zeros⟩, fun dt n s => ?_⟩
  · rw [alu_fcmplt, alu_fcmple, alu_fcmpeq]
    exact ⟨fcmp_of_nan hnan, fcmp_of_nan hnan, fcmp_of_nan hnan⟩
  · intro w
    have hdie : w.die n = s.die n := s.advance_die dt n
    refine ⟨fun o rest hd hfree hread => ?_, fun a c kind sub hc ha hlive hkind hsub => ?_⟩
    · have hissue : exec (.issue dt n) s = s.finish dt (w.issuedBy n o rest (w.awlCheck n o)) := by
        rw [exec_issue, State.issueStep_of_heads hd (hdie ▸ hfree) hread]
      refine ⟨fun cost a hcheck => ?_, fun c hcheck hc => ?_, fun c hcheck hc => ?_⟩
      · have ⟨hrec, hop⟩ := State.awlCheck_ok hcheck
        refine ⟨hrec.trans (s.advance_record dt n o), hop, fun hcost => ?_⟩
        rw [hissue, hcheck, State.issuedBy, hdie, hcost, if_neg Bool.false_ne_true]
      · rw [hissue, hcheck, State.issuedBy, if_neg (Nat.not_le.mpr hc)]
      · rw [hissue, hcheck, State.issuedBy, if_pos hc]
    · rw [exec_awl hc, State.awlStep_of_kind (hdie ▸ ha) ((s.advance_live dt n).trans hlive) hkind hsub]

end Sys2Proof.Machine
end

/-! ## Programs (O42, O43, O44, O45, O46): fetch, control ops, signals and faults, moves, tile ops -/

section
/-! ### Fetch (R117) -/

namespace Sys2Proof.Machine

theorem exec_bundleFetch (dt n : Nat) (s : State) : exec (.bundleFetch dt n) s = s.finish dt ((s.advance dt).fetch n) := rfl

/-- The op that a slot of the bundle at the fetch address holds. -/
def State.slotOp (s : State) (n k : Nat) : SlotOp :=
  { bits := BitVec.ofNat 64 (fld (s.readIsram n ((s.die n).fetchAt * 32) 32) (8 * k) 8), bundle := (s.die n).fetchAt,
    i0 := ((s.die n).loops[0]?).elim 0 (·.index), i1 := ((s.die n).loops[1]?).elim 0 (·.index) }

/-- The slots 0 to 2 of the bundle that hold an op. -/
def State.usedSlots (s : State) (n : Nat) : List Nat := [0, 1, 2].filter fun k => (s.slotOp n k).op != 0

/-- The die once its bundle is taken. -/
def State.fetched (s : State) (n : Nat) : Die :=
  let d := (s.usedSlots n).foldl (fun d k => d.setQueue k (d.queue k ++ [s.slotOp n k])) (s.die n)
  if (s.slotOp n 3).op = 0 then d.advanceTo (d.fetchAt + 1) else { d with ctrl := some (s.slotOp n 3) }

/-- What BUNDLE_FETCH does at a die that fetches and has no CTRL op in hand, by the fetch address and the queues. -/
theorem State.fetch_of_fetching {s : State} {n : Nat} (hrun : s.running n = true) (hf : (s.die n).fetching = true)
    (hc : (s.die n).ctrl = none) :
    s.fetch n =
      if (s.die n).codeBytes / 32 ≤ (s.die n).fetchAt then s.faultDie n 0x01 3 ((s.die n).codeBytes / 32 - 1)
      else if (s.usedSlots n).any fun k => decide (8 ≤ ((s.die n).queue k).length) then s
      else (s.modDie n fun _ => s.fetched n).badHeads n := by
  unfold State.fetch
  simp only [hrun, hf, hc]
  rfl

/-- Settles O42: the three outcomes are the branches of a fetch (`fetch_of_fetching`), told apart by the end of the code and
by a full queue. -/
theorem bundlesAreFetchedWhole : Obligations.BundlesAreFetchedWhole := by
  unfold Obligations.BundlesAreFetchedWhole
  intro dt n s hrun hf hc d raw mk need
  have hdie : (s.advance dt).die n = d := s.advance_die dt n
  have hfetch := State.fetch_of_fetching ((s.advance_running dt n).trans hrun) (hdie ▸ hf) (hdie ▸ hc)
  have hslot : (s.advance dt).slotOp n = mk := by
    funext k
    rw [State.slotOp, hdie, s.advance_readIsram]
  have hneed : (s.advance dt).usedSlots n = need := by rw [State.usedSlots, hslot]
  rw [hdie, hneed, State.fetched, hneed, hslot, hdie] at hfetch
  rw [exec_bundleFetch, hfetch]
  refine ⟨fun hpast => by rw [if_pos hpast], fun hin => ⟨fun hfull => ?_, fun hroom => ?_⟩⟩
  · rw [if_neg (Nat.not_le.mpr hin), if_pos (by simpa using hfull)]
  · rw [if_neg (Nat.not_le.mpr hin), if_neg (by simpa using hroom)]

end Sys2Proof.Machine
end

section
/-! ### Moves (R121 to R123) -/

namespace Sys2Proof.Machine

/-- R123: an element kind of 5 to 15 is an undefined record. -/
theorem movePlan_of_kind {store : Bool} {o : SlotOp} {r : List Byte} (hk : 5 ≤ fld r 0 1 % 16) :
    movePlan store o r = .error 0x01 := by
  simp [movePlan, hk]

/-- The length fields that R123 faults: 0, past the longest row, or past what the Turner takes. -/
def badMoveLength (r : List Byte) : Prop :=
  fld r 2 2 = 0 ∨ fld r 4 4 = 0 ∨ 16777216 < fld r 4 4
    ∨ (16 ≤ fld r 0 1 ∧ (4096 < fld r 2 2 ∨ 4096 < elemsOf (fld r 0 1 % 16) (fld r 4 4)))

/-- R123: with every other field good, a length field out of its range is a length fault. -/
theorem movePlan_of_length {store : Bool} {o : SlotOp} {r : List Byte} (himm : o.imm < 112)
    (hcode : fld r 0 1 < if store then 16 else 32) (hk : fld r 0 1 % 16 < 5) (h1 : fld r 1 1 = 0)
    (hz : zeroIn r 40 48 = true) (hlen : badMoveLength r) : movePlan store o r = .error 0x04 := by
  have hturn : bitOf (fld r 0 1) 4 = decide (16 ≤ fld r 0 1) := by
    have : fld r 0 1 < 32 := by split at hcode <;> omega
    rw [Bool.eq_iff_iff]
    simp only [bitOf, beq_iff_eq, decide_eq_true_eq]
    omega
  -- the immediate names a die below 48, if any
  have hdie : ¬ (bitOf o.imm 6 = true ∧ 47 < bitsOf o.imm 5 0) := by
    simp only [bitOf, bitsOf, beq_iff_eq]
    omega
  have hgood : ¬ (128 ≤ o.imm ∨ 32 ≤ fld r 0 1 ∨ fld r 1 1 ≠ 0 ∨ !zeroIn r 40 48 ∨ 5 ≤ fld r 0 1 % 16
      ∨ (bitOf o.imm 6 ∧ 47 < bitsOf o.imm 5 0) ∨ (store ∧ bitOf (fld r 0 1) 4)) := by
    rintro (h | h | h | h | h | h | ⟨hs, h⟩)
    · omega
    · split at hcode <;> omega
    · exact h h1
    · simp [hz] at h
    · omega
    · exact hdie h
    · rw [if_pos hs] at hcode
      simp only [hturn, decide_eq_true_eq] at h
      omega
  unfold movePlan
  simp only [hturn] at hgood ⊢
  rw [if_neg hgood]
  split
  · rfl
  · next hrow =>
    rw [if_pos]
    unfold badMoveLength at hlen
    simp only [decide_eq_true_eq]
    omega

section
variable {s : State} {n : Nat} {store : Bool} {turn : Option Bool} {o : SlotOp} {rest : List SlotOp}
  (hd : s.heads n 0 (if store then 2 else 1) o rest)
  (hsel : (turn.all fun t => bitOf (fld (s.record n o) 0 1) 4 == t) = true) (hready : s.moveReady n store o = true)
include hd hsel hready

/-- A move whose record and ranges are good reads its sources and writes its destination. -/
theorem State.moveStep_issues {p : MovePlan} {a b : List Place} (hp : movePlan store o (s.record n o) = .ok p)
    (hr : s.moveRanges n store p = .ok (a, b)) (hcost : (s.die n).overCharge 0 p.cost = false) :
    s.moveStep store turn n = ((s.issued n 0 p.cost o rest).moveData n p a b).opEnds n 0 o :=
  State.issueOp_issues (f := fun u => (u.moveData n p a b).complete n 0 o) hd hsel hready (by simp [hp, hr]) hcost

theorem State.moveStep_overCharged {p : MovePlan} {a b : List Place} (hp : movePlan store o (s.record n o) = .ok p)
    (hr : s.moveRanges n store p = .ok (a, b)) (hcost : (s.die n).overCharge 0 p.cost = true) :
    s.moveStep store turn n = s.faultDie n 0x08 0 o.bundle :=
  State.issueOp_overCharged (f := fun u => (u.moveData n p a b).complete n 0 o) hd hsel hready (by simp [hp, hr]) hcost

theorem State.moveStep_badRecord {e : Nat} (hp : movePlan store o (s.record n o) = .error e) :
    s.moveStep store turn n = s.faultDie n e 0 o.bundle :=
  State.issueOp_faults hd hsel hready (by simp [hp])

theorem State.moveStep_badRanges {p : MovePlan} {e : Nat} (hp : movePlan store o (s.record n o) = .ok p)
    (hr : s.moveRanges n store p = .error e) : s.moveStep store turn n = s.faultDie n e 0 o.bundle :=
  State.issueOp_faults hd hsel hready (by simp [hp, hr])

end

theorem exec_load (dt n : Nat) (s : State) :
    exec (.load dt n) s = s.finish dt ((s.advance dt).moveStep false (some false) n) := rfl

theorem exec_loadTurn (dt n : Nat) (s : State) :
    exec (.loadTurn dt n) s = s.finish dt ((s.advance dt).moveStep false (some true) n) := rfl

theorem exec_store (dt n : Nat) (s : State) :
    exec (.store dt n) s = s.finish dt ((s.advance dt).moveStep true none n) := rfl

/-- Settles O45: the checks of a record are computed (`movePlan_of_kind`, `movePlan_of_length`), and each of the three rows
runs the one step of a move, which issues or faults by them and by the ranges. -/
theorem movesIssue : Obligations.MovesIssue := by
  unfold Obligations.MovesIssue
  refine ⟨fun store o r => ⟨movePlan_of_kind, fun himm hcode hk h1 hz hlen =>
    movePlan_of_length himm hcode hk h1 hz hlen⟩, ?_⟩
  intro dt n s o rest w go
  have hdie : w.die n = s.die n := s.advance_die dt n
  have hrec : w.record n o = s.record n o := s.advance_record dt n o
  have hgo {c : Instr} {store : Bool} {turn : Option Bool} (hc : exec c s = s.finish dt (w.moveStep store turn n))
      (hd : w.heads n 0 (if store then 2 else 1) o rest)
      (hsel : (turn.all fun t => bitOf (fld (w.record n o) 0 1) 4 == t) = true) : go c store := by
    intro hready
    rw [hc, ← hrec, ← hdie]
    refine ⟨fun p a b hp hr => ⟨fun hcost => ?_, fun hcost => ?_⟩, fun e hp => ?_, fun p e hp hr => ?_⟩
    · rw [State.moveStep_issues hd hsel hready hp hr hcost]
    · rw [State.moveStep_overCharged hd hsel hready hp hr hcost]
    · rw [State.moveStep_badRecord hd hsel hready hp]
    · rw [State.moveStep_badRanges hd hsel hready hp hr]
  refine ⟨fun hd hturn => hgo (exec_load dt n s) hd ?_, fun hd hturn => hgo (exec_loadTurn dt n s) hd ?_,
    fun hd => hgo (exec_store dt n s) hd rfl⟩
  · simp [hrec, hturn]
  · simp [hrec, hturn]

end Sys2Proof.Machine
end

section
/-! ### CTRL ops (R117, R130) -/

namespace Sys2Proof.Machine

/-- A charge changes what a die has been charged and what its meter counts. -/
theorem State.charge_sameDies {α : Type} {g : Die → α} (hsums : ∀ (d : Die) l, g { d with sums := l } = g d)
    (hmeter : ∀ (d : Die) a b, g { d with meterNs := a, busyTo := b } = g d) (s : State) (n slot tokens : Nat) :
    SameDies g s (s.charge n slot tokens) :=
  (SameDies.modDie s n fun d => hsums d _).trans ((SameDies.modDie _ n fun d => hmeter d _ _).trans (.of_dies rfl))

/-- A die with an op in hand is one of the module's. -/
theorem State.lt_of_ctrl {s : State} {n : Nat} {o : SlotOp} (h : (s.die n).ctrl = some o) : n < s.dies.length := by
  by_contra hn
  rw [State.die, List.getD_eq_default _ _ (Nat.not_lt.mp hn)] at h
  cases h

/-- The state of a CTRL op that has issued, before its wait is over. -/
def State.ctrlCharged (s : State) (n opc : Nat) (o : SlotOp) : State :=
  if (s.die n).ctrlIssued then s
  else (s.modDie n fun d => { d.takeUnits o with ctrlIssued := true }).charge n 3 (ctrlCost opc)

theorem State.ctrlIssued_eq (s : State) (n opc : Nat) (o : SlotOp) :
    s.ctrlIssued n opc o = (s.ctrlCharged n opc o).modDie n fun d => { d with ctrl := none, ctrlIssued := false } := rfl

theorem State.ctrlCharged_issued {s : State} {n opc : Nat} {o : SlotOp} (hn : n < s.dies.length) :
    ((s.ctrlCharged n opc o).die n).ctrlIssued = true := by
  unfold State.ctrlCharged
  split
  · assumption
  · have hflag := State.charge_sameDies (g := Die.ctrlIssued) (fun _ _ => rfl) (fun _ _ _ => rfl)
    rw [(hflag _ _ _ _).die_eq n, State.die_modDie_same _ hn]

/-- A CTRL op in hand that passes its row's checks issues. -/
theorem State.ctrlIssue_issues {s : State} {n opc immBits : Nat} {o : SlotOp} {chk : SlotOp → Option Nat}
    (h : s.inHand n opc immBits o) (hchk : chk o = none) :
    (if (s.die n).ctrlIssued then s else s.ctrlIssue n opc immBits chk o) = s.ctrlCharged n opc o := by
  obtain ⟨-, -, -, hissue⟩ := h
  unfold State.ctrlCharged
  split
  · rfl
  · next hnot =>
    obtain ⟨hsem, hrec, himm, hcost⟩ := hissue (Bool.not_eq_true _ ▸ hnot)
    rw [ctrlCost] at hcost
    simp [State.ctrlIssue, hsem, hrec, Nat.not_le.mpr himm, hchk, hcost, ctrlCost]

/-- The rule of the CTRL slot (R117): an op in hand that passes its row's checks and whose wait is over has its effect. -/
theorem State.ctrlOp_acts {s : State} {n opc immBits : Nat} {o : SlotOp} {chk : SlotOp → Option Nat}
    {ready : SlotOp → Bool} {act : SlotOp → State → State} (h : s.inHand n opc immBits o) (hchk : chk o = none)
    (hready : ready o = true) :
    s.ctrlOp n opc immBits chk ready act = (act o (s.ctrlIssued n opc o)).opEnds n 3 o := by
  have ⟨hctrl, hrun, hop, _⟩ := h
  have hflag : ((s.ctrlCharged n opc o).die n).ctrlIssued = true :=
    State.ctrlCharged_issued (State.lt_of_ctrl hctrl)
  unfold State.ctrlOp
  simp only [hctrl, hrun, hop, bne_self_eq_false, Bool.not_true, Bool.or_self, Bool.false_eq_true, if_false,
    State.ctrlIssue_issues h hchk]
  unfold State.ctrlFinish
  simp only [hflag, hready, Bool.and_self, if_true]
  rfl

/-! ### What a GATE and an END still see of the run (R156) -/

/-- A CTRL op that issues leaves the run of its die. -/
theorem State.ctrlIssued_sameRun (s : State) (n opc : Nat) (o : SlotOp) :
    SameDies Die.run s (s.ctrlIssued n opc o) := by
  have hcharged : SameDies Die.run s (s.ctrlCharged n opc o) :=
    .ite (.refl s) ((SameDies.modDie s n).trans
      (State.charge_sameDies (fun _ _ => rfl) (fun _ _ _ => rfl) _ _ _ _))
  exact hcharged.trans (.modDie _ n)

/-- The one register that a CTRL op changes as it issues is its die's meter. -/
theorem State.ctrlIssued_reg (s : State) (n opc : Nat) (o : SlotOp) {a : Nat} (ha : a ≠ Reg.prgMeter n) :
    (s.ctrlIssued n opc o).reg a = s.reg a := by
  show (s.ctrlCharged n opc o).reg a = s.reg a
  unfold State.ctrlCharged
  split
  · rfl
  · exact State.reg_setReg_ne _ _ _ _ ha

theorem State.ctrlIssued_pastVerdicts (s : State) (n opc : Nat) (o : SlotOp) :
    (s.ctrlIssued n opc o).pastVerdicts = s.pastVerdicts := by
  show (s.ctrlCharged n opc o).pastVerdicts = s.pastVerdicts
  unfold State.ctrlCharged
  split <;> rfl

theorem State.ctrlIssued_boundVerdict (s : State) (n opc : Nat) (o : SlotOp) :
    (s.ctrlIssued n opc o).boundVerdict n = s.boundVerdict n := by
  have hgate (h l : Nat) : (s.ctrlIssued n opc o).regBits Reg.gateStatus h l = s.regBits Reg.gateStatus h l :=
    State.regBits_congr (s.ctrlIssued_reg n opc o (by simp only [Reg.gateStatus, Reg.prgMeter]; omega)) h l
  simp only [State.boundVerdict, State.verdict, (s.ctrlIssued_sameRun n opc o).die_eq n, hgate,
    State.ctrlIssued_pastVerdicts]
  rfl

/-! ### The six rows -/

theorem exec_loopOp (dt n : Nat) (s : State) : exec (.loopOp dt n) s = s.finish dt ((s.advance dt).loopStep n) := rfl
theorem exec_signal (dt n : Nat) (s : State) : exec (.signal dt n) s = s.finish dt ((s.advance dt).signalStep n) := rfl
theorem exec_fence (dt n : Nat) (s : State) : exec (.fence dt n) s = s.finish dt ((s.advance dt).fenceStep n) := rfl
theorem exec_gate (dt n : Nat) (s : State) : exec (.gate dt n) s = s.finish dt ((s.advance dt).gateStep n) := rfl
theorem exec_quiet (dt n : Nat) (s : State) : exec (.quiet dt n) s = s.finish dt ((s.advance dt).quietStep n) := rfl
theorem exec_endOp (dt n : Nat) (s : State) : exec (.endOp dt n) s = s.finish dt ((s.advance dt).endStep n) := rfl

/-- R156: a GATE of a run whose sequence has its verdict goes on behind itself or at its target. -/
theorem State.gateStep_acts {s : State} {n : Nat} {o : SlotOp} {opened : Bool} (h : s.inHand n 4 16 o)
    (hset : s.settled n = true) (hverdict : s.boundVerdict n = some opened)
    (hnext : o.bundle + bitsOf o.imm 15 0 + 1 < (s.die n).codeBytes / 32) (hloops : (s.die n).loops = []) :
    s.gateStep n = (((s.ctrlIssued n 4 o).setField (Reg.prgStatus n) 2 2 (if opened then 0 else 1)).modDie n
      (Die.advanceTo (if opened then o.bundle + 1 else o.bundle + bitsOf o.imm 15 0 + 1))).opEnds n 3 o := by
  unfold State.gateStep
  rw [State.ctrlOp_acts h]
  · simp only [State.ctrlIssued_boundVerdict, hverdict, Option.getD_some]
  · simp [hloops, Nat.not_le.mpr hnext]
  · simp [hset, hverdict]

/-- Settles O43: each row is the rule of the CTRL slot (`ctrlOp_acts`) with its own checks, its wait and its effect. -/
theorem controlOpsTakeEffect : Obligations.ControlOpsTakeEffect := by
  unfold Obligations.ControlOpsTakeEffect
  intro dt n s o w
  have hdie : w.die n = s.die n := s.advance_die dt n
  have hsettled : w.settled n = s.settled n := s.advance_settled dt n
  refine ⟨fun h hcount hlen hdepth hnest => ?_, fun h hdst hunits => ?_, fun h hset => ?_,
    fun opened h hset hverdict hnext hloops => ?_, fun h hset => ?_, fun h hset => ?_⟩
  · rw [exec_loopOp]
    refine congrArg _ (State.ctrlOp_acts h (if_neg ?_) rfl)
    rw [hdie]
    -- the body ends within the loop around it, if there is one
    cases hl : (s.die n).loops with
    | nil => simp [hcount, hlen]
    | cons l rest =>
      have hin := hnest l (by rw [hl]; rfl)
      rw [hl] at hdepth
      simp only [hcount, hlen, decide_eq_true_eq, false_or]
      omega
  · rw [exec_signal]
    refine congrArg _ (State.ctrlOp_acts h (if_neg ?_) rfl)
    omega
  · rw [exec_fence]
    exact congrArg _ (State.ctrlOp_acts h rfl (hsettled.trans hset))
  · rw [exec_gate]
    exact congrArg _ (State.gateStep_acts h (hsettled.trans hset) ((s.advance_boundVerdict dt n).trans hverdict)
      (hdie ▸ hnext) (hdie ▸ hloops))
  · rw [exec_quiet]
    exact congrArg _ (State.ctrlOp_acts h rfl (hsettled.trans hset))
  · rw [exec_endOp, ← hdie, ← (w.ctrlIssued_sameRun n 6 o).die_eq n]
    exact congrArg _ (State.ctrlOp_acts h rfl (hsettled.trans hset))

end Sys2Proof.Machine
end

section
/-! ### Program faults (R138, R139) -/

namespace Sys2Proof.Machine

/-- What a program fault takes from its die: the CTRL op in hand, the queued ops, fetch. -/
def Die.stopped (d : Die) : Die :=
  { d with ctrl := none, ctrlIssued := false, qMove := [], qArray := [], qAwl := [], fetching := false }

/-- No word that the end of a run changes lies here: within its entry of the version table a register of the references or
holds has one of three places. -/
def apartFromVt (a : Nat) : Prop := a % 0x40 ∉ [0x14, 0x20, 0x28]

theorem State.showRefs_reg (s : State) (n e : Nat) {a : Nat} (ha : apartFromVt a) : (s.showRefs n e).reg a = s.reg a := by
  refine State.reg_setReg_ne _ _ _ _ fun h => ha ?_
  have hmod : a % 0x40 = 0x14 := by
    rw [h, Reg.vtState]
    omega
  simp [hmod]

/-- The holds of a slot lie at one of two places of its entry. -/
theorem vtHold_mod (n e slot : Nat) : vtHold n e slot % 0x40 = 0x20 ∨ vtHold n e slot % 0x40 = 0x28 := by
  unfold vtHold
  split
  · simp only [Reg.vtHold0]; omega
  · simp only [Reg.vtHold1]; omega

theorem State.setHold_reg (s : State) (n e slot v : Nat) {a : Nat} (ha : apartFromVt a) :
    (s.setReg (vtHold n e slot) v).reg a = s.reg a := by
  refine State.reg_setReg_ne _ _ _ _ fun h => ha ?_
  rcases vtHold_mod n e slot with hm | hm <;> simp [h, hm]

/-- Steps that each leave a register leave it together. -/
theorem State.reg_foldl {β : Type} {f : State → β → State} {a : Nat} (h : ∀ s b, (f s b).reg a = s.reg a) (l : List β)
    (s : State) : (l.foldl f s).reg a = s.reg a := by
  induction l generalizing s with
  | nil => rfl
  | cons b l ih => rw [List.foldl_cons, ih, h]

/-- R161: the end of a run changes holds and references, and no other register. -/
theorem State.releaseRun_reg (s : State) (n : Nat) {a : Nat} (ha : apartFromVt a) : (s.releaseRun n).reg a = s.reg a := by
  unfold State.releaseRun
  split
  · rfl
  · refine State.reg_foldl (fun s e => ?_) _ s
    dsimp only
    split
    · rw [State.showRefs_reg _ _ _ ha, State.setHold_reg _ _ _ _ _ ha]
    · exact State.showRefs_reg _ _ _ ha

theorem State.OnlyReports.foldl {β : Type} {f : State → β → State} (h : ∀ (s : State) b, s.OnlyReports (f s b)) (l : List β) (s : State) :
    s.OnlyReports (l.foldl f s) := by
  induction l generalizing s with
  | nil => exact .refl s
  | cons b l ih => exact (h s b).trans (ih _)

theorem State.releaseRun_only (s : State) (n : Nat) : s.OnlyReports (s.releaseRun n) := by
  unfold State.releaseRun
  split
  · exact .refl s
  · refine OnlyReports.foldl (fun s e => ?_) _ s
    dsimp only
    split
    · exact (State.setReg_only _ _ _).trans (State.setReg_only _ _ _)
    · exact State.setReg_only _ _ _

theorem State.settleGang_eq (s : State) (id : Nat) : ∃ l, s.settleGang id = { s with items := l } := by
  unfold State.settleGang
  split
  · exact ⟨_, rfl⟩
  · exact ⟨s.items, rfl⟩

theorem State.settleGang_reg (s : State) (id a : Nat) : (s.settleGang id).reg a = s.reg a := by
  obtain ⟨l, h⟩ := s.settleGang_eq id
  rw [h]
  rfl

/-- What a program fault changes: its die stops, its peers are told, its item carries the fault, and it is reported. -/
theorem State.faultDie_eq {s : State} {n : Nat} (hrun : s.prgState n = 2) (cause slot bundle : Nat) :
    ∃ r c p e i v, s.faultDie n cause slot bundle =
      { s with dies := modAt s.dies n Die.stopped, regs := r, recorder := c, pba := p, emitted := e, items := i,
               notices := v } := by
  unfold State.faultDie
  rw [if_neg (not_not.mpr hrun)]
  extract_lets d id s1 s2 s3 s4 s5 s6 w s7 s8
  obtain ⟨i, hi⟩ := s8.settleGang_eq id
  have h4 : s1.OnlyReports s4 :=
    ((State.setField_only _ _ _ _ _).trans (State.setReg_only _ _ _)).trans (State.releaseRun_only _ _)
  have h7 : s5.OnlyReports s7 := by
    refine .trans ?_ (State.detail_only _ _ _ _ _ _)
    unfold s6
    split
    · exact State.fireVector_only _ _
    · exact .refl _
  obtain ⟨r, c, p, e, h4⟩ := h4
  obtain ⟨r', c', p', e', h7⟩ := h7
  have h8 : s8 = { s7 with items := s8.items } := rfl
  refine ⟨r', c', p', e', i, s5.notices, ?_⟩
  rw [hi, h8, h7]
  show _ = _
  simp only [s5, h4]
  rfl

/-- A register that neither reporting nor the end of a run touches has, after a program fault, what the fault's own two
writes leave. -/
theorem State.faultDie_reg {s : State} {n : Nat} (hrun : s.prgState n = 2) (cause slot bundle : Nat) {a : Nat}
    (hrep : a ∉ State.reportRegs) (hvt : apartFromVt a) :
    (s.faultDie n cause slot bundle).reg a =
      ((s.setField (Reg.prgStatus n) 1 0 3).setReg (Reg.prgFault n)
        (cause + slot * 2 ^ 8 + bundle % 2 ^ 14 * 2 ^ 16)).reg a := by
  unfold State.faultDie
  rw [if_neg (not_not.mpr hrun)]
  extract_lets d id s1 s2 s3 s4 s5 s6 w s7 s8
  have h6 : s6.reg a = s5.reg a := by
    unfold s6
    split
    · exact State.fireVector_reg _ _ _
    · rfl
  calc (s8.settleGang id).reg a = s7.reg a := State.settleGang_reg _ _ _
    _ = s6.reg a := State.detail_reg _ _ _ _ _ _ _ hrep
    _ = s4.reg a := h6
    _ = s3.reg a := State.releaseRun_reg _ _ hvt

/-- The registers of a die's sequencer are not among those that reporting or the end of a run touches. -/
theorem prgStatus_apart (n : Nat) : Reg.prgStatus n ∉ State.reportRegs ∧ apartFromVt (Reg.prgStatus n) := by
  simp [State.reportRegs, apartFromVt, Reg.prgStatus, Reg.errEvents, Reg.recEvents, Reg.recLost]
  omega

theorem prgFault_apart (n : Nat) : Reg.prgFault n ∉ State.reportRegs ∧ apartFromVt (Reg.prgFault n) := by
  simp [State.reportRegs, apartFromVt, Reg.prgFault, Reg.errEvents, Reg.recEvents, Reg.recLost]
  omega

/-- R138: the die of a program fault is FAULTED. -/
theorem State.faultDie_prgState {s : State} {n : Nat} (hrun : s.prgState n = 2) (cause slot bundle : Nat) :
    (s.faultDie n cause slot bundle).prgState n = 3 := by
  have ⟨hrep, hvt⟩ := prgStatus_apart n
  rw [State.prgState, State.regBits_congr (State.faultDie_reg hrun cause slot bundle hrep hvt),
    State.regBits_setReg_ne _ _ _ _ _ _ (by simp [Reg.prgStatus, Reg.prgFault]),
    State.regBits_setField _ _ _ _ _ (by decide) (by decide)]
  rfl

/-- R138: PRG_FAULT shows the cause. -/
theorem State.faultDie_cause {s : State} {n cause : Nat} (hrun : s.prgState n = 2) (hcause : cause < 256)
    (slot bundle : Nat) : (s.faultDie n cause slot bundle).regBits (Reg.prgFault n) 7 0 = cause := by
  have ⟨hrep, hvt⟩ := prgFault_apart n
  rw [State.regBits_congr (State.faultDie_reg hrun cause slot bundle hrep hvt), State.regBits, State.reg_setReg_same,
    bitsOf_mod64 _ _ _ (by decide), bitsOf]
  omega

theorem State.die_modDie_ne (s : State) {m n : Nat} (f : Die → Die) (h : m ≠ n) : (s.modDie n f).die m = s.die m := by
  simp [State.die, State.modDie, modAt, h.symm]

theorem State.faultDie_die {s : State} {n : Nat} (hrun : s.prgState n = 2) (cause slot bundle m : Nat) :
    (s.faultDie n cause slot bundle).die m = (s.modDie n Die.stopped).die m := by
  obtain ⟨r, c, p, e, i, v, h⟩ := State.faultDie_eq hrun cause slot bundle
  rw [h]
  rfl

theorem Die.stopped_queue (d : Die) (k : Nat) : d.stopped.queue k = [] := by
  unfold Die.queue
  split
  · rfl
  · split <;> rfl

end Sys2Proof.Machine
end

section
/-! ### Signals, notices and overruns (R27, R120, R134, R138) -/

namespace Sys2Proof.Machine

theorem exec_remoteSignal (dt src dst sem : Nat) (s : State) :
    exec (.remoteSignal dt src dst sem) s = s.finish dt ((s.advance dt).signalArrives src dst sem) := rfl
theorem exec_faultNotice (dt src dst : Nat) (s : State) :
    exec (.faultNotice dt src dst) s = s.finish dt ((s.advance dt).noticeArrives src dst) := rfl
theorem exec_prgOverrun (dt n : Nat) (s : State) :
    exec (.prgOverrun dt n) s = s.finish dt ((s.advance dt).overrun n) := rfl

/-- A change of a die that gives it a set value is the change that computes the value from the die. -/
theorem State.modDie_const (s : State) (n : Nat) (f : Die → Die) : (s.modDie n fun _ => f (s.die n)) = s.modDie n f := by
  have hd : modAt s.dies n (fun _ => f (s.die n)) = modAt s.dies n f := by
    refine List.ext_getElem? fun i => ?_
    by_cases e : n = i
    · subst e
      cases hi : s.dies[n]? <;> simp [modAt, State.die, hi]
    · simp [modAt, e]
  simp only [State.modDie, hd]

/-- R27: the first signal of a pair, if it is for the semaphore, arrives, and leaves those behind it. -/
theorem State.signalArrives_of_first {s : State} {src dst sem : Nat} {x : Signal}
    (hx : (s.signals.find? fun y => y.src == src && y.dst == dst) = some x) :
    s.signalArrives src dst sem =
      if x.sem ≠ sem then s
      else if s.live dst ∧ (s.prgState dst = 1 ∨ s.prgState dst = 2) then
        if (s.die dst).sem sem + x.units ≤ 65535 then
          ({ s with signals := s.signals.erase x }.modDie dst fun d =>
            { d with sems := modAt d.sems sem fun v => v + BitVec.ofNat 16 x.units }).badHeads dst
        else { s with signals := s.signals.erase x }.faultDie src 0x11 x.slot x.bundle
      else { s with signals := s.signals.erase x }.faultDie src 0x12 x.slot x.bundle := by
  unfold State.signalArrives
  simp only [hx]
  refine ite_congr rfl (fun _ => rfl) fun _ => ite_congr rfl (fun _ => ?_) fun _ => rfl
  by_cases hroom : (s.die dst).sem sem + x.units ≤ 65535
  · have hsig : ({ s with signals := s.signals.erase x }.die dst).signal sem x.units = some _ := if_pos hroom
    rw [hsig, if_pos hroom]
    exact congrArg (State.badHeads dst) (State.modDie_const _ dst fun d =>
      { d with sems := modAt d.sems sem fun v => v + BitVec.ofNat 16 x.units })
  · have hsig : ({ s with signals := s.signals.erase x }.die dst).signal sem x.units = none := if_neg hroom
    rw [hsig, if_neg hroom]

end Sys2Proof.Machine
end

section
/-! ### The statement -/

namespace Sys2Proof.Machine

/-- Settles O44: the first signal of a pair has one of four outcomes (`signalArrives_of_first`), a notice and an overrun
one, and what a fault leaves is read off its frame (`faultDie_eq`) and its registers (`faultDie_reg`). -/
theorem signalsArriveAndFaultsStop : Obligations.SignalsArriveAndFaultsStop := by
  unfold Obligations.SignalsArriveAndFaultsStop
  refine ⟨fun dt src dst s => ⟨fun sem x hx hsem => ?_, fun sem x hx hsem => ?_, fun hnote hrun => ?_, fun hrun hover => ?_⟩,
    fun s n cause slot bundle hn hlen hrun hcause => ?_⟩
  · rw [exec_remoteSignal, State.signalArrives_of_first (by rw [s.advance_signals, hx]), if_pos hsem]
  · intro u
    have harrive := State.signalArrives_of_first (s := s.advance dt) (sem := sem) (by rw [s.advance_signals, hx])
    rw [if_neg (not_not.mpr hsem), s.advance_live, s.advance_prgState, s.advance_die, s.advance_signals] at harrive
    rw [exec_remoteSignal, harrive]
    refine ⟨fun hlive hst hroom => ?_, fun hlive hst hover => ?_, fun hout => ?_⟩
    · rw [if_pos ⟨hlive, hst⟩, if_pos hroom]
    · rw [if_pos ⟨hlive, hst⟩, if_neg (Nat.not_le.mpr hover)]
    · rw [if_neg]
      rintro ⟨hlive, hst⟩
      rcases hout with hdead | ⟨h1, h2⟩
      · exact absurd hlive (by simp [hdead])
      · exact hst.elim h1 h2
  · have hrun' : { s.advance dt with notices := s.notices.erase (src, dst) }.running dst = true :=
      (s.advance_running dt dst).trans hrun
    rw [exec_faultNotice, State.noticeArrives, s.advance_notices, if_pos hnote]
    dsimp only
    rw [if_pos hrun']
    exact congrArg (fun d : Die => s.finish dt (State.faultDie dst 0x15 3 d.fetchAt _)) (s.advance_die dt dst)
  · rw [exec_prgOverrun, State.overrun, s.advance_die, s.advance_running, s.advance_reg, if_pos (by simp [hrun, hover])]
  · intro t
    have hst : s.prgState n = 2 := by
      simp only [State.running, Bool.and_eq_true, beq_iff_eq] at hrun
      exact hrun.2
    have hdie : t.die n = (s.die n).stopped :=
      (State.faultDie_die hst cause slot bundle n).trans (State.die_modDie_same _ (hlen ▸ hn))
    obtain ⟨r, c, p, e, i, v, hframe⟩ := State.faultDie_eq hst cause slot bundle
    refine ⟨State.faultDie_prgState hst _ _ _, State.faultDie_cause hst hcause _ _, by rw [hdie]; rfl, by rw [hdie]; rfl,
      fun k => by rw [hdie, Die.stopped_queue], (congrArg State.hbm hframe).trans rfl, (congrArg State.sram hframe).trans rfl,
      (congrArg State.isram hframe).trans rfl, fun m hm => ?_⟩
    exact (State.faultDie_die hst cause slot bundle m).trans (State.die_modDie_ne s _ hm)

end Sys2Proof.Machine
end

section
/-! ### TILE ops (R69, R124) -/

namespace Sys2Proof.Machine

/-- The tokens that the start of a tile costs: its elements, where its mode reads them. -/
def tileCost (mode : Nat) (r : List Byte) : Nat :=
  if mode = 0 then 0 else fld r 2 2 * (if bitOf (fld r 1 1) 1 then 2 else 1)

section
variable {s : State} {n mode : Nat} {o : SlotOp} {rest : List SlotOp} (hd : s.heads n 1 1 o rest) (himm : o.imm < 128)
  (hmode : bitsOf o.imm 6 5 = mode) (hmark : ((s.die n).tile (o.imm % 32)).marked = [])
  (hspill : ((s.die n).tile (o.imm % 32)).spillDue = false)
include hd himm hmode hmark hspill

/-- A TILE op whose checks hold starts its tile by its mode. -/
theorem State.tileStep_issues {p : Option Place} (hp : s.tileCheck n mode (o.imm % 32) (s.record n o) = .ok p)
    (hcost : (s.die n).overCharge 1 (tileCost mode (s.record n o)) = false) :
    s.tileStep mode n
      = ((s.issued n 1 (tileCost mode (s.record n o)) o rest).tileStart mode n (o.imm % 32) (s.record n o) p).opEnds n 1 o :=
  State.issueOp_issues (f := fun u => (u.tileStart mode n (o.imm % 32) (s.record n o) p).complete n 1 o) hd
    (by simp [himm, hmode]) (by simp [hmark, hspill]) (by simp only [hp]; rfl) hcost

theorem State.tileStep_faults {e : Nat} (hp : s.tileCheck n mode (o.imm % 32) (s.record n o) = .error e) :
    s.tileStep mode n = s.faultDie n e 1 o.bundle :=
  State.issueOp_faults hd (by simp [himm, hmode]) (by simp [hmark, hspill]) (by simp only [hp])

end

/-- The three TILE rows run one step, told apart by the mode. -/
theorem exec_tile {dt n mode : Nat} {c : Instr}
    (hc : (mode, c) ∈ [(0, Instr.tileClear dt n), (1, .tileContinue dt n), (2, .tileRestore dt n)]) (s : State) :
    exec c s = s.finish dt ((s.advance dt).tileStep mode n) := by
  simp only [List.mem_cons, Prod.mk.injEq, List.not_mem_nil, or_false] at hc
  rcases hc with ⟨rfl, rfl⟩ | ⟨rfl, rfl⟩ | ⟨rfl, rfl⟩ <;> rfl

end Sys2Proof.Machine
end

section
/-! ### PASS ops (R64, R67, R125) -/

namespace Sys2Proof.Machine

/-- The tokens of a pass (R82): one that goes on from the pass before it, without a wait, hides its set-up. -/
def passCost (d : Die) (o : SlotOp) (p : PassRec) : Nat :=
  let c := if p.pair = 6 then 8 else 1
  if d.lastWasPass ∧ o.wcnt = 0 then max (c * p.ms) 128 else 128 + c * p.ms + 24

section
variable {s : State} {n : Nat} {o : SlotOp} {rest : List SlotOp} (hd : s.heads n 1 2 o rest)
  (hmark : ∀ t ∈ (s.die n).tiles, t.marked = []) (hspill : ((s.die n).tile (o.imm % 32)).spillDue = false)
  (hawl : (s.die n).awl = none)

omit hd in
include hmark hspill hawl in
/-- A pass goes on where no replay and no spill is due and the Awl is free (R73, R75, R94). -/
theorem State.passReady : ((s.die n).tiles.all (fun t => t.marked == []) && !((s.die n).tile (o.imm % 32)).spillDue
    && !(((s.die n).awl.map (·.claims)).getD []).any fun c =>
      meets (0x30020000000 + o.imm % 32 * 0x400000) 0x400000 c.1 c.2) = true := by
  simpa [hspill, hawl] using hmark

include hd hmark hspill hawl

theorem State.passStep_badRecord {e : Nat} (hp : passRec o (s.record n o) = .error e) :
    s.passStep n = s.faultDie n e 1 o.bundle :=
  State.issueOp_faults hd rfl (State.passReady hmark hspill hawl) (by simp only [hp])

variable {p : PassRec} (hp : passRec o (s.record n o) = .ok p)
include hp

/-- R125: a pass into a tile that does not suit it is PRG_TILE, whatever its operands. -/
theorem State.passStep_badTile (hbad : p.badFor ((s.die n).tile (o.imm % 32)) = true) :
    s.passStep n = s.faultDie n 0x05 1 o.bundle :=
  State.issueOp_faults hd rfl (State.passReady hmark hspill hawl) (by simp [hp, hbad])

variable (hgood : p.badFor ((s.die n).tile (o.imm % 32)) = false)
include hgood

theorem State.passStep_badOperands {e : Nat} (hops : s.operands n p = .error e) :
    s.passStep n = s.faultDie n e 1 o.bundle :=
  State.issueOp_faults hd rfl (State.passReady hmark hspill hawl) (by simp [hp, hgood, hops])

/-- A pass whose record, tile and operands are good adds its products to its tile. -/
theorem State.passStep_issues {ops : Operands} (hops : s.operands n p = .ok ops)
    (hcost : (s.die n).overCharge 1 (passCost (s.die n) o p) = false) :
    s.passStep n = ((s.issued n 1 (passCost (s.die n) o p) o rest).passInto n (o.imm % 32) p ops).opEnds n 1 o :=
  State.issueOp_issues (f := fun u => (u.passInto n (o.imm % 32) p ops).complete n 1 o) hd rfl
    (State.passReady hmark hspill hawl) (by simp only [hp, hgood, hops]; rfl) hcost

end

theorem exec_passOp (dt n : Nat) (s : State) : exec (.passOp dt n) s = s.finish dt ((s.advance dt).passStep n) := rfl

end Sys2Proof.Machine
end

section
/-! ### Spills (R72 to R74, R128) -/

namespace Sys2Proof.Machine

/-- A register that no post of a loss board touches: the gate's events are the only ones it raises (R151). -/
def apartFromGate (a : Nat) : Prop := a ∉ State.reportRegs ∧ a ≠ Reg.gateEvents

theorem prgStatus_apartFromGate (n : Nat) : apartFromGate (Reg.prgStatus n) := by
  refine ⟨(prgStatus_apart n).1, ?_⟩
  simp only [Reg.prgStatus, Reg.gateEvents]
  omega

section
variable {a : Nat} (ha : apartFromGate a)
include ha

theorem State.raiseGate_reg (s : State) (b : Nat) : (s.raise .gate b).reg a = s.reg a := by
  rw [State.raise_reg _ _ _ _ ha.1, if_neg (show a ≠ EvSrc.gate.off from ha.2)]

theorem State.postSlot_reg (s : State) (n i : Nat) : (s.postSlot n i).reg a = s.reg a := by
  unfold State.postSlot
  dsimp only
  split
  · exact State.raiseGate_reg ha _ _
  · rfl

omit ha in
theorem State.formLocal_reg (s : State) (a : Nat) : s.formLocal.reg a = s.reg a := by
  unfold State.formLocal
  split
  · rfl
  · split
    · rfl
    · split <;> rfl

theorem State.postLosses_reg (s : State) (n off len : Nat) : (s.postLosses n off len).reg a = s.reg a := by
  unfold State.postLosses
  dsimp only
  split
  · rfl
  · split
    · exact State.raiseGate_reg ha _ _
    · rw [State.formLocal_reg, State.reg_foldl fun s i => State.postSlot_reg ha s n i]

theorem State.writeAt_reg (s : State) (n : Nat) (p : Place) (bs : List Byte) : (s.writeAt n p bs).reg a = s.reg a := by
  unfold State.writeAt
  split
  · rfl
  · unfold State.writeSram
    split
    · rfl
    · exact State.postLosses_reg ha _ _ _ _
  · rfl
  · rfl

/-- R72: a spill writes its deep-sum buffer, which changes no register but those that a post of a loss board does. -/
theorem State.foldDeep_reg (s : State) (n : Nat) (t : Tile) : (s.foldDeep n t).reg a = s.reg a := by
  unfold State.foldDeep State.writeTagCopy State.writeDeep
  rw [State.writeAt_reg ha, State.reg_foldl fun s x => ?_, State.reg_foldl fun s l => State.writeAt_reg ha _ _ _ _]
  split
  · rfl
  · exact State.reg_foldl (fun s l => State.writeAt_reg ha _ _ _ _) _ _

end

/-- A charge changes one register, its die's meter. -/
theorem State.charge_reg {s : State} {n slot tokens a : Nat} (ha : a ≠ Reg.prgMeter n) :
    (s.charge n slot tokens).reg a = s.reg a :=
  State.reg_setReg_ne _ _ _ _ ha

theorem State.prgState_congr {s t : State} {n : Nat} (h : t.reg (Reg.prgStatus n) = s.reg (Reg.prgStatus n)) :
    t.prgState n = s.prgState n :=
  State.regBits_congr h 1 0

theorem exec_spill (dt n k : Nat) (s : State) : exec (.spill dt n k) s = s.finish dt ((s.advance dt).spillStep n k) := rfl

/-- A tile whose lanes have been folded into its deep-sum buffer starts a new chunk. -/
def Tile.spilledNow (t : Tile) : Tile :=
  { t.setChunk 0 with lanes := [], ckTags := t.tags, passes := [], spillDue := false, spilled := t.kcount }

section
variable {s : State} {n k : Nat} (hlive : s.live n = true) (hdue : ((s.die n).tile k).spillDue = true)
  (hmark : ((s.die n).tile k).marked = []) (hrun : s.prgState n = 2)
include hlive hdue hmark hrun

/-- R72: a spill on a tile whose deep sums stay in i64. -/
theorem State.spillStep_folds (hdeep : ((s.die n).tile k).deep ≠ 0) (hover : s.deepOver n ((s.die n).tile k) = []) :
    s.spillStep n k =
      (State.charge n 1 (((s.die n).tile k).rows * ((s.die n).tile k).nl)
        ((s.foldDeep n ((s.die n).tile k)).modDie n fun d => d.modTile k Tile.spilledNow)).badHeads n := by
  unfold State.spillStep
  simp only [hlive, hdue, hmark, hdeep, hover, bne_self_eq_false, Bool.not_true, Bool.or_self, Bool.false_eq_true,
    if_false, ne_eq, not_true_eq_false]
  -- neither the writes nor the charge stop the program
  have hreg := State.foldDeep_reg (prgStatus_apartFromGate n) s n ((s.die n).tile k)
  have hst := State.prgState_congr ((State.charge_reg (s := (s.foldDeep n ((s.die n).tile k)).modDie n fun d =>
    d.modTile k Tile.spilledNow) (n := n) (slot := 1) (tokens := ((s.die n).tile k).rows * ((s.die n).tile k).nl)
    (a := Reg.prgStatus n) (by simp [Reg.prgStatus, Reg.prgMeter])).trans hreg)
  exact congrArg (State.badHeads n) (if_pos (hst.trans hrun))

omit hrun in
/-- R128: a spill on a tile without a deep-sum buffer. -/
theorem State.spillStep_noDeep (hdeep : ((s.die n).tile k).deep = 0) :
    s.spillStep n k =
      ((s.modDie n fun d => d.modTile k fun t => { t with spillDue := false }).faultDie n 0x10 1
        ((((s.die n).tile k).passes.getLast?).elim 0 (·.bundle))).settleGang ((s.die n).run.elim 0 (·.item)) := by
  unfold State.spillStep
  simp [hlive, hdue, hmark, hdeep]

/-- R128: it stops the program, and the die keeps its tiles, but that the spill is due no more. -/
theorem State.spillStep_noDeep_faults (hdeep : ((s.die n).tile k).deep = 0) (hn : n < s.dies.length) :
    (s.spillStep n k).prgState n = 3 ∧ (s.spillStep n k).regBits (Reg.prgFault n) 7 0 = 0x10
      ∧ (s.spillStep n k).die n = ((s.die n).modTile k fun t => { t with spillDue := false }).stopped
      ∧ (s.spillStep n k).sram = s.sram ∧ (s.spillStep n k).hbm = s.hbm := by
  rw [State.spillStep_noDeep hlive hdue hmark hdeep]
  generalize (((s.die n).tile k).passes.getLast?).elim 0 (·.bundle) = b
  obtain ⟨l, hset⟩ := State.settleGang_eq (State.faultDie n 0x10 1 b
    (s.modDie n fun d => d.modTile k fun t => { t with spillDue := false })) ((s.die n).run.elim 0 (·.item))
  rw [hset]
  -- the end of the gang changes items alone
  have hrun' : (s.modDie n fun d => d.modTile k fun t => { t with spillDue := false }).prgState n = 2 := hrun
  obtain ⟨r, c, p, e, i, v, hframe⟩ := State.faultDie_eq hrun' 0x10 1 b
  refine ⟨State.faultDie_prgState hrun' _ _ _, State.faultDie_cause hrun' (by decide) _ _,
    (State.faultDie_die hrun' _ _ _ _).trans ?_, (congrArg State.sram hframe).trans rfl,
    (congrArg State.hbm hframe).trans rfl⟩
  rw [State.die_modDie_same _ ((modAt_length s.dies n _).symm ▸ hn), State.die_modDie_same _ hn]

end

end Sys2Proof.Machine
end

section
/-! ### The statement -/

namespace Sys2Proof.Machine

/-- Settles O46: a TILE op and a PASS issue or fault by the verdicts of their checks, in their order; a spill folds
(`spillStep_folds`) or stops the program (`spillStep_noDeep`), and a fault takes nothing from a tile. -/
theorem tileOpsIssue : Obligations.TileOpsIssue := by
  unfold Obligations.TileOpsIssue
  intro dt n s o rest w k r
  have hdie : w.die n = s.die n := s.advance_die dt n
  have hrec : w.record n o = r := s.advance_record dt n o
  have hlive' : w.live n = s.live n := s.advance_live dt n
  have hst' : w.prgState n = s.prgState n := s.advance_prgState dt n
  rw [← hdie, ← hrec, ← hlive', ← hst']
  refine ⟨fun mode c hc hd himm hmode hmark hspill => ⟨fun p hp => ?_, fun e hp => ?_⟩,
    fun hd hmark hspill hawl => ⟨fun e hp => ?_, fun p hp => ⟨fun hbad => ?_, fun hgood => ⟨fun e hops => ?_,
      fun ops hops => ?_⟩⟩⟩,
    fun hlive hdue hmark hdeep hover hrun => ?_, fun hn hlen hlive hrun hk hdue hmark hdeep => ?_⟩
  · intro cost hcost
    rw [exec_tile hc, State.tileStep_issues hd himm hmode hmark hspill hp hcost]
    rfl
  · rw [exec_tile hc, State.tileStep_faults hd himm hmode hmark hspill hp]
  · rw [exec_passOp, State.passStep_badRecord hd hmark hspill hawl hp]
  · rw [exec_passOp, State.passStep_badTile hd hmark hspill hawl hp hbad]
  · rw [exec_passOp, State.passStep_badOperands hd hmark hspill hawl hp hgood hops]
  · intro c cost hcost
    rw [exec_passOp, State.passStep_issues hd hmark hspill hawl hp hgood hops hcost]
    rfl
  · rw [exec_spill, State.spillStep_folds hlive hdue hmark hrun hdeep hover]
    rfl
  · have hnw : n < w.dies.length := by rw [s.advance_dies, hlen]; exact hn
    obtain ⟨hstate, hcause, hd, hsram, hhbm⟩ := State.spillStep_noDeep_faults hlive hdue hmark hrun hdeep hnw
    have htile : ((w.spillStep n k).die n).tile k = { (w.die n).tile k with spillDue := false } := by
      rw [hd]
      exact (Die.tile_modTile _ hk k).trans (if_pos rfl)
    exact ⟨_, (exec_spill dt n k s).trans (State.finish_next s dt _), hstate, hcause,
      (congrArg Tile.lanes htile).trans rfl, (congrArg Tile.tags htile).trans rfl, (congrArg Tile.word htile).trans rfl,
      hsram.trans (s.advance_sram dt), hhbm.trans (s.advance_hbm dt)⟩

end Sys2Proof.Machine
end

/-! ### A gang whose die goes off as it starts (O38)

A start that arms the gate first lets a due EPOCH set apply. Here the set takes dies 47 and 0 off: die 47 goes first, and its
QUIET set, which names the starting item as its own although that item is new, ends the gang with it. Die 0, then booked by
no item any more, is reset, and its run begins at bundle 0 in place of its program's entry bundle. -/

section
namespace Sys2Proof.Machine

/-- The descriptor of a PROG_START that arms the gate on die 0. -/
def armedStart : Taken := { ring := 0, index := 0, bytes := padTo 128 (leBytes 1 3 ++ zeros 31 ++ leBytes 8 1 ++ [1]) }

/-- An EPOCH set that takes the request of dies 0 and 47 off, due as soon as its item has started. -/
def epochOff : StagedSet :=
  { item := 7, cls := 2, die := 0, quietNo := 0, epoch := 2, round := 0, mask := 0
    entries := [(2, Reg.pwrEn, 2 ^ 64 - 1 - 2 ^ 47 - 1)] }

/-- The item of that set. -/
def epochItem : Item :=
  { id := 7, ring := 0, ticket := 0, cirq := false, desc := [], ts := 0, tp := 0, tauPs := 0, powerDw := 0, units := [],
    doms := [], checked := [], taus := [], govDie := 0, promised := false, deps := [] }

/-- A QUIET set of die 47 that names the item of `armedStart`. -/
def quietOfStart : StagedSet :=
  { item := itemId 0 0, cls := 0, die := 47, quietNo := 0, epoch := 0, round := 0, mask := 0, entries := [] }

/-- A module out of reset, its sentinels read and the clocks of L0 stable, with die 0 loaded: its entry is bundle 5. The
two sets are staged and the start waits for its decision. -/
def startUnderEpoch : State :=
  ({ State.reset with
      inputOk := true, held := [], on := [0, 47, 92, 93], wires := (islandsOf 56).map ((56, ·))
      sentinels := List.replicate 62 (List.replicate 4 { ps := 1000, takenAt := some 0 })
      taken := [armedStart], staged := [epochOff, quietOfStart], items := [epochItem] }.setReg (Reg.prgStatus 0) 1).modDie 0
    fun d => { d with entry := 5 }

/-- The item and the state in which the start takes effect. -/
def underEpoch : Option (Item × State) := (startUnderEpoch.advance 0).starts (0x03, 0) progStartCheck

theorem underEpoch_id : underEpoch.map (fun x => x.1.id) = some (itemId 0 0) := by decide +kernel

theorem underEpoch_gang : underEpoch.map (fun x => setBitsOf (fld x.1.desc 32 8) 48) = some [0] := by decide +kernel

/-- The run of die 0 begins at bundle 0. -/
theorem underEpoch_fetchAt : underEpoch.map (fun x => ((progStartStart x.1 x.2).die 0).fetchAt) = some 0 := by
  decide +kernel

theorem startUnderEpoch_item : startUnderEpoch.item? (itemId 0 0) = none := by decide +kernel

theorem startUnderEpoch_dies : startUnderEpoch.dies.length = 48 := by decide +kernel

theorem startUnderEpoch_entry : (startUnderEpoch.die 0).entry = 5 := by decide +kernel

/-- Refutes O38: in `startUnderEpoch` the start of a gang resets its own die, whose run then begins at bundle 0, while its
program's entry was bundle 5. -/
theorem not_gangsPagesAndReductionsBegin : ¬ Obligations.GangsPagesAndReductionsBegin := by
  unfold Obligations.GangsPagesAndReductionsBegin
  rintro ⟨starts, -⟩
  obtain ⟨⟨it, u⟩, hu, hid⟩ := Option.map_eq_some_iff.mp underEpoch_id
  have hgang : setBitsOf (fld it.desc 32 8) 48 = [0] := by simpa [hu] using underEpoch_gang
  have hfetch : ((progStartStart it u).die 0).fetchAt = 0 := by simpa [hu] using underEpoch_fetchAt
  have hnew : startUnderEpoch.item? it.id = none := hid ▸ startUnderEpoch_item
  obtain ⟨-, hdies⟩ := starts 0 startUnderEpoch it u hu hnew
  obtain ⟨-, hentry, -⟩ := hdies 0 (by simp [hgang]) startUnderEpoch_dies
  have : 0 = 5 := hfetch.symm.trans (hentry.trans startUnderEpoch_entry)
  contradiction

end Sys2Proof.Machine
end

section
/-! ### Verdicts of the gate (R152 to R154, R157, R178, R191, R247) -/

namespace Sys2Proof.Machine

theorem exec_gateLocalSend (dt : Nat) (s : State) :
    exec (.gateLocalSend dt) s = s.finish dt (s.advance dt).gateLocalSend := rfl
theorem exec_gateSelfVerdict (dt : Nat) (s : State) :
    exec (.gateSelfVerdict dt) s = s.finish dt (s.advance dt).gateSelf := rfl
theorem exec_gateLocal (dt : Nat) (s : State) : exec (.gateLocal dt) s = s.finish dt (s.advance dt).gateLocalIn := rfl
theorem exec_gateGroup (dt : Nat) (s : State) : exec (.gateGroup dt) s = s.finish dt (s.advance dt).gateGroupIn := rfl
theorem exec_gateLimit (dt : Nat) (s : State) : exec (.gateLimit dt) s = s.finish dt (s.advance dt).gateLimitPast := rfl
theorem exec_closedNoleader (dt : Nat) (s : State) :
    exec (.closedNoleader dt) s = s.finish dt (s.advance dt).closeAlone := rfl

namespace State

/-- The local verdict, and nothing else, is what is formed. -/
theorem formLocal_eq (s : State) : ∃ v, s.formLocal = { s with localVerdict := v } := by
  unfold formLocal
  split
  · exact ⟨s.localVerdict, rfl⟩
  · split
    · exact ⟨_, rfl⟩
    · split
      · exact ⟨_, rfl⟩
      · exact ⟨s.localVerdict, rfl⟩

/-- The message taken out leaves the others in hand. -/
theorem takeMsg_some {s u : State} {typ : Nat} {m : NearMsg} (h : s.takeMsg typ = some (m, u)) :
    u = { s with inbox := s.inbox.erase m } := by
  unfold takeMsg at h
  split at h
  · cases h
  · cases h; rfl

/-! ### What a verdict changes when it is taken -/

section
variable (s : State) (opened : Bool) (causes : List Nat) (clip : Option Word)

/-- c_k of a verdict, where the verdict brings one, is taken first (R178). -/
def takesClip : State := match clip with
  | some c => s.setReg Reg.cobClip c.toNat
  | none => s

theorem takesClip_only : s.OnlyReports (s.takesClip clip) := by
  cases clip with
  | none => exact .refl s
  | some c => exact setReg_only _ _ _

theorem takesClip_reg {a : Nat} (h : a ≠ Reg.cobClip) : (s.takesClip clip).reg a = s.reg a := by
  cases clip with
  | none => rfl
  | some c => exact reg_setReg_ne _ _ _ _ h

theorem takesClip_cobClip (c : Word) : (s.takesClip (some c)).reg Reg.cobClip = c.toNat :=
  (reg_setReg_same _ _ _).trans (Nat.mod_eq_of_lt (c.isLt.trans (by decide)))

theorem takeVerdict_open : s.takeVerdict true causes clip =
    ((s.takesClip clip).setField Reg.gateStatus 1 0 2).setReg Reg.cobStep
      ((((s.takesClip clip).setField Reg.gateStatus 1 0 2).reg Reg.cobStep + 1) % 2 ^ 48) := by
  cases clip <;> rfl

theorem takeVerdict_closed : s.takeVerdict false causes clip =
    causes.foldl (fun s b => s.raise .gate b)
      (((s.takesClip clip).setField Reg.gateStatus 1 0 3).count Reg.gateClosedCount 1) := by
  cases clip <;> rfl

theorem takeVerdict_only : s.OnlyReports (s.takeVerdict opened causes clip) := by
  have hfield (v : Nat) := (s.takesClip_only clip).trans (setField_only _ Reg.gateStatus 1 0 v)
  cases opened with
  | true => rw [takeVerdict_open]; exact (hfield 2).trans (setReg_only _ _ _)
  | false =>
    rw [takeVerdict_closed]
    exact ((hfield 3).trans (count_only _ _ _)).trans (.foldl (fun s b => raise_only s _ _) _ _)

/-- The causes of a CLOSED verdict leave every register but the gate's events and the recorder's. -/
theorem takeVerdict_closed_reg {a : Nat} (ha : apartFromGate a) : (s.takeVerdict false causes clip).reg a =
    (((s.takesClip clip).setField Reg.gateStatus 1 0 3).count Reg.gateClosedCount 1).reg a := by
  rw [takeVerdict_closed, reg_foldl fun s b => raiseGate_reg ha s b]

theorem takeVerdict_verdict : (s.takeVerdict opened causes clip).verdict = if opened then 2 else 3 := by
  unfold verdict
  cases opened with
  | true =>
    rw [takeVerdict_open, regBits_setReg_ne _ _ _ _ _ _ (by decide), regBits_setField _ _ _ _ _ (by decide) (by decide)]
    rfl
  | false =>
    rw [regBits_congr (s.takeVerdict_closed_reg causes clip ⟨by decide, by decide⟩), count,
      regBits_setReg_ne _ _ _ _ _ _ (by decide), regBits_setField _ _ _ _ _ (by decide) (by decide)]
    rfl

/-- R178: the verdict's c_k, and no other, is what COB_CLIP holds. -/
theorem takeVerdict_cobClip :
    (s.takeVerdict opened causes clip).reg Reg.cobClip = (s.takesClip clip).reg Reg.cobClip := by
  cases opened with
  | true => rw [takeVerdict_open, reg_setReg_ne _ _ _ _ (by decide), reg_setField_ne _ _ _ _ _ _ (by decide)]
  | false =>
    rw [s.takeVerdict_closed_reg causes clip ⟨by decide, by decide⟩, count, reg_setReg_ne _ _ _ _ (by decide),
      reg_setField_ne _ _ _ _ _ _ (by decide)]

/-- R191: an OPEN verdict advances COB_STEP, a CLOSED one leaves it. -/
theorem takeVerdict_cobStep : (s.takeVerdict opened causes clip).reg Reg.cobStep =
    if opened then (s.reg Reg.cobStep + 1) % 2 ^ 48 else s.reg Reg.cobStep := by
  cases opened with
  | true =>
    rw [takeVerdict_open, reg_setReg_same, reg_setField_ne _ _ _ _ _ _ (by decide), takesClip_reg _ _ (by decide),
      if_pos rfl]
    omega
  | false =>
    rw [s.takeVerdict_closed_reg causes clip ⟨by decide, by decide⟩, count, reg_setReg_ne _ _ _ _ (by decide),
      reg_setField_ne _ _ _ _ _ _ (by decide), takesClip_reg _ _ (by decide)]
    rfl

/-- R157: a CLOSED verdict counts. -/
theorem takeVerdict_closedCount : (s.takeVerdict false causes clip).reg Reg.gateClosedCount =
    min (s.reg Reg.gateClosedCount + 1) 0xFFFFFFFF := by
  rw [s.takeVerdict_closed_reg causes clip ⟨by decide, by decide⟩, reg_count, if_pos rfl,
    reg_setField_ne _ _ _ _ _ _ (by decide), takesClip_reg _ _ (by decide)]

/-- R157: the cause of a CLOSED verdict is a bit of GATE_EVENTS. -/
theorem takeVerdict_cause {b : Nat} (hb : b < 64) :
    bitOf ((s.takeVerdict false [b] clip).reg Reg.gateEvents) b = true := by
  rw [takeVerdict_closed]
  exact raise_sets _ .gate b hb (by decide)

end

/-! ### The branches of the gate's commands -/

/-- R152, R153: the local verdict of a group of one is its verdict. -/
theorem gateSelf_of_alone {s : State} {opened : Bool} (hlocal : s.formLocal.localVerdict = some opened)
    (hpend : s.formLocal.verdict = 1) (hidle : s.formLocal.updating = false) (hlive : s.formLocal.live 92 = true)
    (hg : s.formLocal.gateGroup = none) : s.gateSelf = s.formLocal.selfVerdict opened 0 := by
  unfold gateSelf
  simp only [hg, hlocal]
  exact if_neg (by simp [hpend, hidle, hlive])

/-- R153, R247: the local verdict of a module in a larger group, not sent before. -/
theorem gateLocalSend_of_group {s : State} {opened : Bool} {g : GroupRec}
    (hlocal : s.formLocal.localVerdict = some opened) (hpend : s.formLocal.verdict = 1)
    (hidle : s.formLocal.updating = false) (hlive : s.formLocal.live 92 = true) (hg : s.formLocal.gateGroup = some g)
    (hsent : s.formLocal.localSent = false) : s.gateLocalSend =
      let u := s.formLocal
      let v := { u with localSent := true }
      if g.self = 0 then v.takeReport g 0 opened u.normPartial.1 u.normPartial.2
      else v.sendNear 4 0 (g.member 0) g.id 0 0 (leBytes 2 (u.regBits Reg.gateStatus 31 16)
        ++ [if opened then 2 else 3, 0] ++ leBytes 6 u.normPartial.1 ++ zeros 6 ++ leBytes 80 (twos 640 u.normPartial.2)) := by
  unfold gateLocalSend
  simp only [hg, hlocal]
  exact if_neg (by simp [hpend, hsent, hidle, hlive])

/-- R153: a report that reaches the leader from a member of its group. -/
theorem gateLocalIn_of_member {s u : State} {m : NearMsg} {g : GroupRec} {i : Nat} (hm : s.takeMsg 4 = some (m, u))
    (hg : u.gateGroup = some g) (hlead : g.self = 0) (hi : g.members.idxOf? m.src = some i) : s.gateLocalIn =
      if fld m.body 0 2 = s.regBits Reg.gateStatus 31 16
      then u.takeReport g i (fld m.body 2 1 == 2) (fld m.body 4 6) (signed 640 (fld m.body 16 80))
      else u.count Reg.neaEpochDrops 1 := by
  have hseq : u.regBits Reg.gateStatus 31 16 = s.regBits Reg.gateStatus 31 16 := by rw [takeMsg_some hm]; rfl
  unfold gateLocalIn
  simp only [hm, hg, hi, hlead, hseq]
  by_cases h : fld m.body 0 2 = s.regBits Reg.gateStatus 31 16 <;> simp [h]

/-- R247: a group's verdict of another sequence is dropped and counted. -/
theorem gateGroupIn_of_other {s u : State} {m : NearMsg} (hm : s.takeMsg 5 = some (m, u))
    (hseq : fld m.body 0 2 ≠ u.regBits Reg.gateStatus 31 16) : s.gateGroupIn = u.count Reg.neaEpochDrops 1 := by
  unfold gateGroupIn
  simp only [hm]
  exact if_pos hseq

/-- R153: the group's verdict of the sequence armed, with c_k, at a module whose verdict is PENDING. -/
theorem gateGroupIn_of_same {s u : State} {m : NearMsg} (hm : s.takeMsg 5 = some (m, u))
    (hseq : fld m.body 0 2 = u.regBits Reg.gateStatus 31 16) (hpend : u.verdict = 1) : s.gateGroupIn =
      u.takeVerdict (fld m.body 2 1 == 2) ([0, 1].filter (bitOf (fld m.body 3 1)))
        (some (BitVec.ofNat 32 (fld m.body 4 4))) := by
  unfold gateGroupIn
  simp only [hm]
  rw [if_neg (not_not.mpr hseq), if_neg (not_not.mpr hpend)]

/-- R153: the limit has passed on a PENDING verdict of a group of one. -/
theorem gateLimitPast_of_alone {s : State} (hpend : s.verdict = 1) (hlive : s.live 92 = true)
    (hdue : s.armedAt + s.gateLimit ≤ s.now) (hg : s.gateGroup = none) : s.gateLimitPast = s.selfVerdict false 1 := by
  unfold gateLimitPast
  rw [if_neg (by simp [hpend, hlive, hdue])]
  simp only [hg]

/-- R153: the limit has passed on a leader's PENDING verdict. -/
theorem gateLimitPast_of_leader {s : State} {g : GroupRec} (hpend : s.verdict = 1) (hlive : s.live 92 = true)
    (hdue : s.armedAt + s.gateLimit ≤ s.now) (hg : s.gateGroup = some g) (hlead : g.self = 0) :
    s.gateLimitPast = s.groupVerdict g false 1 := by
  unfold gateLimitPast
  rw [if_neg (by simp [hpend, hlive, hdue])]
  simp only [hg]
  exact if_pos hlead

/-- R154: a member whose leader's verdict has not come two bounds after the limit. -/
theorem closeAlone_of_due {s : State} (hpend : s.verdict = 1) (hlive : s.live 92 = true) (hmember : s.leads = false)
    (hdue : s.armedAt + s.gateLimit + 2 * s.gateBound ≤ s.now) : s.closeAlone = s.takeVerdict false [4] none := by
  unfold closeAlone
  rw [if_neg (by simp [hpend, hlive, hmember, hdue])]

end State

/-- As many bytes as these make a number of as many digits in base 256. -/
theorem leNat_lt (l : List Byte) : leNat l < 256 ^ l.length := by
  induction l with
  | nil => decide
  | cons b l ih =>
    have hb : b.toNat < 256 := b.isLt
    rw [leNat, List.length_cons, pow_succ]
    omega

theorem fld_lt (l : List Byte) (o n : Nat) : fld l o n < 256 ^ n :=
  (leNat_lt _).trans_le (Nat.pow_le_pow_right (by decide) (List.length_take_le _ _))

/-- Settles O49: each command takes its branch by the lemmas above, and what a verdict changes when it is taken is said
once, of `takeVerdict`. -/
theorem verdictsAreFormedAndTaken : Obligations.VerdictsAreFormedAndTaken := by
  unfold Obligations.VerdictsAreFormedAndTaken
  refine ⟨fun dt s opened => ?_, fun dt s => ⟨fun m u g i hm hg hlead hi => ?_, fun m u hm => ?_, fun hpend hlive hdue => ?_,
    fun hpend hlive hmember hdue => ?_⟩⟩
  · intro u hlocal hpend hidle hlive
    obtain ⟨v, hu⟩ : ∃ v, u = { s.advance dt with localVerdict := v } := (s.advance dt).formLocal_eq
    have hlive' : u.live 92 = true := by rw [hu]; exact (s.advance_live dt 92).trans hlive
    have hreg (a : Nat) : u.reg a = s.reg a := by rw [hu]; exact s.advance_reg dt a
    refine ⟨fun hg => ?_, fun g hg hsent => ?_⟩
    · rw [exec_gateSelfVerdict, State.gateSelf_of_alone hlocal hpend hidle hlive' hg]
      have honly := u.takeVerdict_only opened [0] (some (u.clipOf u.normPartial.2))
      refine ⟨_, rfl, u.takeVerdict_verdict opened _ _, (u.takeVerdict_cobClip opened _ _).trans (u.takesClip_cobClip _),
        hreg Reg.cobStep ▸ u.takeVerdict_cobStep opened _ _, ?_, honly.hbm.trans ?_, honly.sram.trans ?_,
        honly.dies.trans ?_, honly.items.trans ?_⟩
      · rintro rfl
        exact ⟨hreg Reg.gateClosedCount ▸ u.takeVerdict_closedCount _ _, u.takeVerdict_cause _ (by decide)⟩
      all_goals rw [hu]; simp
    · rw [exec_gateLocalSend, State.gateLocalSend_of_group hlocal hpend hidle hlive' hg hsent]
  · rw [exec_gateLocal, State.gateLocalIn_of_member hm hg hlead hi, s.advance_regBits]
  · have hu := State.takeMsg_some hm
    have hseq : u.regBits Reg.gateStatus 31 16 = s.regBits Reg.gateStatus 31 16 := by
      rw [hu]; exact s.advance_regBits dt _ _ _
    refine ⟨fun h => ?_, fun h hpend => ?_⟩
    · rw [exec_gateGroup, State.gateGroupIn_of_other hm (hseq ▸ h)]
    · have hpend' : u.verdict = 1 := by rw [hu]; exact (s.advance_verdict dt).trans hpend
      rw [exec_gateGroup, State.gateGroupIn_of_same hm (hseq ▸ h) hpend']
      have honly := u.takeVerdict_only (fld m.body 2 1 == 2) ([0, 1].filter (bitOf (fld m.body 3 1)))
        (some (BitVec.ofNat 32 (fld m.body 4 4)))
      refine ⟨_, rfl, (u.takeVerdict_verdict _ _ _).trans (by simp), ?_, honly.inbox.trans ?_, honly.dies.trans ?_,
        honly.hbm.trans ?_⟩
      · refine ((u.takeVerdict_cobClip _ _ _).trans (u.takesClip_cobClip _)).trans ?_
        exact Nat.mod_eq_of_lt (fld_lt m.body 4 4)
      all_goals rw [hu]; simp
  · have hpend' := (s.advance_verdict dt).trans hpend
    have hlive' := (s.advance_live dt 92).trans hlive
    have hdue' : (s.advance dt).armedAt + (s.advance dt).gateLimit ≤ (s.advance dt).now := by simpa using hdue
    refine ⟨fun hg => ?_, fun g hg hlead => ?_⟩
    · rw [exec_gateLimit, State.gateLimitPast_of_alone hpend' hlive' hdue' hg]
    · rw [exec_gateLimit, State.gateLimitPast_of_leader hpend' hlive' hdue' hg hlead]
  · have hdue' : (s.advance dt).armedAt + (s.advance dt).gateLimit + 2 * (s.advance dt).gateBound ≤ (s.advance dt).now := by
      simpa using hdue
    rw [exec_closedNoleader, State.closeAlone_of_due ((s.advance_verdict dt).trans hpend)
      ((s.advance_live dt 92).trans hlive) hmember hdue']
    have honly := (s.advance dt).takeVerdict_only false [4] none
    have hreg (a : Nat) : (s.advance dt).reg a = s.reg a := s.advance_reg dt a
    exact ⟨_, rfl, (s.advance dt).takeVerdict_verdict false [4] none, (s.advance dt).takeVerdict_cause none (by decide),
      hreg Reg.gateClosedCount ▸ (s.advance dt).takeVerdict_closedCount [4] none,
      ((s.advance dt).takeVerdict_cobClip false [4] none).trans (hreg _),
      ((s.advance dt).takeVerdict_cobStep false [4] none).trans (hreg _),
      honly.dies.trans (s.advance_dies dt), honly.hbm.trans (s.advance_hbm dt)⟩

end Sys2Proof.Machine
end

section
/-! ### Register writes that act (R165, R190, R250, R285) -/

namespace Sys2Proof.Machine

theorem exec_vtDrop (dt : Nat) {n : Nat} (v : DWord) (s : State) (hn : n < 48) : exec (.vtDrop dt n v) s =
    s.finish dt ((s.advance dt).barWith (fun _ _ _ v s => s.dropHolds n v) (Reg.vtDrop n) true v.toNat) :=
  congrArg (s.finish dt) (if_pos hn)
theorem exec_cobJbase (dt : Nat) {n : Nat} (v : DWord) (s : State) (hn : n < 48) : exec (.cobJbase dt n v) s =
    s.finish dt ((s.advance dt).barWith (fun _ _ new _ s => s.jbaseWrite n new) (Reg.cobJbase n) true v.toNat) :=
  congrArg (s.finish dt) (if_pos hn)
theorem exec_npRetrain (dt : Nat) {p : Nat} (s : State) (hp : p < 12) : exec (.npRetrain dt p) s =
    s.finish dt ((s.advance dt).barWith (fun _ old new v s => s.regEffect false (Reg.npCtrl p) old new v) (Reg.npCtrl p)
      false ((s.advance dt).reg (Reg.npCtrl p) % 2 + 2)) :=
  congrArg (s.finish dt) (if_pos hp)
theorem exec_fpRetrain (dt : Nat) {k : Nat} (s : State) (hk : k < 6) : exec (.fpRetrain dt k) s =
    s.finish dt ((s.advance dt).barWith (fun _ old new v s => s.regEffect false (Reg.fpCtrl k) old new v) (Reg.fpCtrl k)
      false ((s.advance dt).reg (Reg.fpCtrl k) % 2 ^ 15 + 2 ^ 15)) :=
  congrArg (s.finish dt) (if_pos hk)

/-- The hold registers of a die are distinct. -/
theorem vtHold_inj {n e e' k k' : Nat} (hk : k < 2) (hk' : k' < 2) : vtHold n e k = vtHold n e' k' ↔ e = e' ∧ k = k' := by
  unfold vtHold
  split <;> split <;> simp only [Reg.vtHold0, Reg.vtHold1] <;> omega

namespace State

/-! ### VT_DROP (R165) -/

/-- The holds of the tags in a word are released in one entry. -/
def dropEntry (n v : Nat) (s : State) (e : Nat) : State :=
  if s.reg (vtHold n e 0) = 0 ∧ s.reg (vtHold n e 1) = 0 then s
  else
    let s := s.setReg (vtHold n e 0) (s.reg (vtHold n e 0) &&& (2 ^ 64 - 1 - v))
    let s := s.setReg (vtHold n e 1) (s.reg (vtHold n e 1) &&& (2 ^ 64 - 1 - v))
    s.showRefs n e

theorem dropHolds_eq (n v : Nat) (s : State) : s.dropHolds n v = (List.range 64).foldl (dropEntry n v) s := rfl

theorem dropEntry_only (n v : Nat) (s : State) (e : Nat) : s.OnlyReports (s.dropEntry n v e) := by
  unfold dropEntry
  split
  · exact .refl s
  · exact ((setReg_only _ _ _).trans (setReg_only _ _ _)).trans (setReg_only _ _ _)

/-- The reference counts that VT_STATE shows are no holds. -/
theorem showRefs_hold (n e e' k : Nat) (s : State) : (s.showRefs n e).reg (vtHold n e' k) = s.reg (vtHold n e' k) := by
  refine reg_setReg_ne _ _ _ _ fun h => ?_
  have := vtHold_mod n e' k
  simp only [h, Reg.vtState] at this
  omega

/-- A word that masks a register's fits a register. -/
theorem reg_and_mod (s : State) (a m : Nat) : (s.reg a &&& m) % 2 ^ 64 = s.reg a &&& m :=
  Nat.mod_eq_of_lt (Nat.and_le_left.trans_lt (s.reg_lt a))

theorem dropEntry_hold (n v : Nat) (s : State) (e e' : Nat) {k : Nat} (hk : k < 2) :
    (s.dropEntry n v e).reg (vtHold n e' k) =
      if e' = e then s.reg (vtHold n e' k) &&& (2 ^ 64 - 1 - v) else s.reg (vtHold n e' k) := by
  unfold dropEntry
  split
  · next hnone =>
    have hzero : s.reg (vtHold n e k) = 0 := by
      obtain rfl | rfl : k = 0 ∨ k = 1 := by omega
      · exact hnone.1
      · exact hnone.2
    split
    · next h => rw [h, hzero, Nat.zero_and]
    · rfl
  · have h1 : (1 : Nat) < 2 := by decide
    simp only [showRefs_hold, reg_setReg, reg_and_mod, vtHold_inj hk Nat.zero_lt_two, vtHold_inj hk h1,
      vtHold_inj h1 Nat.zero_lt_two, Nat.one_ne_zero, and_false, if_false]
    obtain rfl | rfl : k = 0 ∨ k = 1 := by omega
    · by_cases he : e' = e <;> simp [he]
    · by_cases he : e' = e <;> simp [he]

/-- The entries of a list lose the holds of the tags written; the others keep theirs. -/
theorem foldl_dropEntry_hold (n v : Nat) (l : List Nat) (s : State) (e : Nat) {k : Nat} (hk : k < 2) :
    (l.foldl (dropEntry n v) s).reg (vtHold n e k) =
      if e ∈ l then s.reg (vtHold n e k) &&& (2 ^ 64 - 1 - v) else s.reg (vtHold n e k) := by
  induction l generalizing s with
  | nil => rfl
  | cons x l ih =>
    rw [List.foldl_cons, ih, dropEntry_hold n v s x e hk]
    by_cases hx : e = x <;> by_cases hl : e ∈ l <;> simp [hx, hl]

theorem dropHolds_hold (s : State) (n v : Nat) {e k : Nat} (he : e < 64) (hk : k < 2) :
    (s.dropHolds n v).reg (vtHold n e k) = s.reg (vtHold n e k) &&& (2 ^ 64 - 1 - v) := by
  rw [dropHolds_eq, foldl_dropEntry_hold n v _ s e hk, if_pos (List.mem_range.mpr he)]

theorem dropHolds_only (s : State) (n v : Nat) : s.OnlyReports (s.dropHolds n v) :=
  .foldl (dropEntry_only n v) _ s

/-! ### The retrain bits (R250, R285) -/

/-- A register of a link die's block acts as a port register does. -/
theorem regEffect_of_port (s : State) (staged : Bool) {off : Nat} (old new raw : Nat) (hlo : 0x480000 ≤ off)
    (hhi : off < 0x4E0000) : s.regEffect staged off old new raw = s.portRegEffect staged off new raw := by
  have hring : ringOf off = none := if_neg (by omega)
  have hne {a : Nat} (ha : a < 0x480000) : off ≠ a := by omega
  unfold regEffect
  rw [if_neg (hne (by decide)), if_neg (hne (by decide)), if_neg (hne (by decide)), if_neg (hne (by decide)),
    if_neg (hne (by decide)), if_neg (hne (by decide)), if_neg (hne (by decide)), if_neg (hne (by decide)),
    if_neg (hne (by decide)), if_neg (hne (by decide)), if_neg (by simp only [Reg.prmHbm]; omega)]
  simp only [hring]
  rw [if_neg (by omega), if_pos ⟨hlo, hhi⟩]

/-- R250: RETRAIN written 1 in NP_CTRL, after the register has its new word. -/
theorem regEffect_npRetrain (s : State) {p raw : Nat} (old new : Nat) (hp : p < 12) (hbit : bitOf raw 1 = true) :
    s.regEffect false (Reg.npCtrl p) old new raw = (s.setReg (Reg.npCtrl p) new).nearRetrain p := by
  rw [regEffect_of_port _ _ _ _ _ (by simp only [Reg.npCtrl]; omega) (by simp only [Reg.npCtrl]; omega)]
  have hport : 2 * ((Reg.npCtrl p - 0x480000) / 0x10000) + (Reg.npCtrl p - 0x480000) % 0x10000 / 0x100 = p := by
    simp only [Reg.npCtrl]; omega
  unfold portRegEffect
  dsimp only
  rw [if_neg (by simp only [Reg.npCtrl]; omega), if_pos (by simp only [Reg.npCtrl]; omega), hport, if_pos (by simp [hbit])]

/-- R285: RETRAIN written 1 in FP_CTRL, after the register has its new word. -/
theorem regEffect_fpRetrain (s : State) {k raw : Nat} (old new : Nat) (hk : k < 6) (hbit : bitOf raw 15 = true) :
    s.regEffect false (Reg.fpCtrl k) old new raw = (s.setReg (Reg.fpCtrl k) new).farRetrain k := by
  rw [regEffect_of_port _ _ _ _ _ (by simp only [Reg.fpCtrl]; omega) (by simp only [Reg.fpCtrl]; omega)]
  have hport : (Reg.fpCtrl k - 0x480000) / 0x10000 = k := by simp only [Reg.fpCtrl]; omega
  unfold portRegEffect
  dsimp only
  rw [if_neg (by simp only [Reg.fpCtrl]; omega), if_neg (by simp only [Reg.fpCtrl]; omega),
    if_pos (by simp only [Reg.fpCtrl]; omega), hport, if_pos (by simp [hbit])]

end State

/-- Settles O40: a write that is taken has the effect of its register (`barWith_takes`): VT_DROP masks every hold of its die
(`dropHolds_hold`), and the retrain bits reach their ports (`regEffect_npRetrain`, `regEffect_fpRetrain`). -/
theorem actingRegisterWrites : Obligations.ActingRegisterWrites := by
  unfold Obligations.ActingRegisterWrites
  intro dt s
  refine ⟨fun n v r old new hn h => ?_, fun n v r old new hn h => ?_, fun p r old new hp h => ?_,
    fun k r old new hk h => ?_⟩ <;> rw [← s.advance_barTakes dt] at h
  · rw [exec_vtDrop dt v s hn, State.barWith_takes _ _ _ _ _ _ _ _ h]
    have honly := (s.advance dt).dropHolds_only n v.toNat
    have hhold (e k : Nat) (he : e < 64) (hk : k < 2) := (s.advance dt).dropHolds_hold n v.toNat he hk
    simp only [s.advance_reg] at hhold
    generalize (s.advance dt).dropHolds n v.toNat = u at honly hhold
    exact ⟨_, rfl, hhold, honly.dies.trans (s.advance_dies dt), honly.hbm.trans (s.advance_hbm dt),
      honly.sram.trans (s.advance_sram dt), honly.items.trans (s.advance_items dt)⟩
  · rw [exec_cobJbase dt v s hn, State.barWith_takes _ _ _ _ _ _ _ _ h]
  · rw [exec_npRetrain dt s hp, s.advance_reg, State.barWith_takes _ _ _ _ _ _ _ _ h,
      State.regEffect_npRetrain _ _ _ hp (by simp [bitOf])]
  · rw [exec_fpRetrain dt s hk, s.advance_reg, State.barWith_takes _ _ _ _ _ _ _ _ h,
      State.regEffect_fpRetrain _ _ _ hk (by simp [bitOf])]

end Sys2Proof.Machine
end

section
/-! ### Updates and commits (R188, R242) -/

namespace Sys2Proof.Machine

theorem exec_entryCommit (dt n e : Nat) (s : State) :
    exec (.entryCommit dt n e) s = s.finish dt ((s.advance dt).commitEntry n e) := rfl

/-- R242: SHARD_COMPLETE at a die out of reset. -/
theorem exec_shardComplete {dt n : Nat} {s : State} (hn : n < 48) (hlive : (s.advance dt).live n = true) :
    exec (.shardComplete dt n) s = s.finish dt ((s.advance dt).cobRun n) :=
  congrArg (s.finish dt) (if_pos ⟨hn, hlive⟩)

namespace State

theorem cobRun_of_run {s : State} {n : Nat} {c : CobRun} (h : (s.die n).cob = some c) :
    s.cobRun n = (iter (State.cobStep n) (c.plans.length - c.next) s).cobEnd n := by
  unfold cobRun
  rw [h]

theorem setVtSt_dies (s : State) (n e slot v : Nat) : (s.setVtSt n e slot v).dies = s.dies := by
  unfold setVtSt
  split <;> rfl

theorem makeCurrent_dies (s : State) (n e slot version : Nat) : (s.makeCurrent n e slot version).dies = s.dies := by
  unfold makeCurrent
  simp only [setReg_dies, setField_dies, setVtSt_dies]
  split
  · split
    · rfl
    · exact setVtSt_dies ..
  · rfl

/-- Sequence COB-1 step 8, R244: the target slot of an entry has become CURRENT, and the reduce items gathered for the
entry are done. -/
def committed (s : State) (n e : Nat) : State :=
  let u := s.makeCurrent n e (s.targetSlot n e) (s.currentVersion n e + 1)
  { u with reduces := u.reduces.map fun (r : Reduce) =>
      if r ∈ s.gathersOf n e then { r with committed := true, gathered := [], lost := [] } else r }

theorem committed_die (s : State) (n e m : Nat) : (s.committed n e).die m = s.die m :=
  congrArg (fun l : List Die => l.getD m Die.reset) (s.makeCurrent_dies n e _ (s.currentVersion n e + 1))

/-- R188: an entry of a die with no run is committed; the step ends there once no slot of the die is FILLING (log 88). -/
theorem commitEntry_of_noRun {s : State} {n e : Nat} (hn : n < 48) (hlive : s.live n = true)
    (hvalid : s.entryValid n e = true) (hfill : s.vtSt n e (s.targetSlot n e) = 3) (hcob : (s.die n).cob = none)
    (hin : ∀ r ∈ s.gathersOf n e, s.gatheredAll r = true ∧ s.ownLeft r = false) : s.commitEntry n e =
      let v := s.committed n e
      if (List.range 64).any fun x => v.vtSt n x 0 == 3 || v.vtSt n x 1 == 3 then v else v.stepEnd n := by
  have hgathers : (s.gathersOf n e).any (fun r => !s.gatheredAll r || s.ownLeft r) = false := by
    simpa using hin
  have hrun : ((s.committed n e).die n).cob = none := by rw [committed_die, hcob]
  have hguard : ¬(48 ≤ n ∨ !s.live n ∨ !s.entryValid n e ∨ s.vtSt n e (s.targetSlot n e) ≠ 3 ∨ false
      ∨ (s.gathersOf n e).any (fun r => !s.gatheredAll r || s.ownLeft r)) := by
    simp [hn, hlive, hvalid, hfill, hgathers]
  unfold commitEntry
  simp only [hcob]
  rw [if_neg hguard]
  split
  next c hc => exact absurd (hrun.symm.trans hc) nofun
  next => rfl

end State

/-- Settles O50: the run of a die's Cobbler goes on as `cobRun` does (`cobRun_of_run`), and a commit on a die without a
run passes every guard of `commitEntry` and meets no run afterwards (`commitEntry_of_noRun`). -/
theorem updatesGoOnAndCommit : Obligations.UpdatesGoOnAndCommit := by
  unfold Obligations.UpdatesGoOnAndCommit
  intro dt n s hn hlive
  have hlive' : (s.advance dt).live n = true := (s.advance_live dt n).trans hlive
  refine ⟨fun c hc => ?_, fun e hvalid hfill hcob hin => ?_⟩
  · have hc' : ((s.advance dt).die n).cob = some c := (s.advance_die dt n).symm ▸ hc
    rw [exec_shardComplete hn hlive', State.cobRun_of_run hc']
  · have hcob' : ((s.advance dt).die n).cob = none := (s.advance_die dt n).symm ▸ hcob
    rw [exec_entryCommit, State.commitEntry_of_noRun hn hlive' (by simpa using hvalid) (by simpa using hfill) hcob' hin]
    simp only [State.committed, s.advance_targetSlot, s.advance_currentVersion]

end Sys2Proof.Machine
end

section
/-! ### Hubs and flash channels come into service (R202, R206, R374) -/

namespace Sys2Proof.Machine

theorem exec_hubInitialisationDone (dt j : Nat) (crcOk : Bool) (gb : Nat) (s : State) :
    exec (.hubInitialisationDone dt j crcOk gb) s = s.finish dt ((s.advance dt).hubInit j crcOk gb) := rfl
theorem exec_ftDayBucket (dt j : Nat) (s : State) :
    exec (.ftDayBucket dt j) s = s.finish dt ((s.advance dt).dayBucket j) := rfl

namespace State

/-- The registers of the hubs' blocks lie apart from those that every report may change. -/
theorem hubWord_apart {a : Nat} (h : 0x400000 ≤ a) : a ∉ reportRegs := by
  simp only [reportRegs, Reg.errEvents, Reg.recEvents, Reg.recLost, List.mem_cons, List.not_mem_nil, or_false]
  omega

theorem ftState_congr {s t : State} {j : Nat} (h : t.reg (Reg.ftStatus j) = s.reg (Reg.ftStatus j)) :
    t.ftState j = s.ftState j := regBits_congr h 1 0

theorem ftState_setField (s : State) (j v : Nat) : (s.setField (Reg.ftStatus j) 1 0 v).ftState j = v % 4 :=
  regBits_setField s _ 1 0 v (by decide) (by decide)

/-- An event of a channel leaves its state. -/
theorem ftState_raise (s : State) (j b : Nat) : (s.raise (.ft j) b).ftState j = s.ftState j :=
  ftState_congr ((raise_reg s (.ft j) b _ (hubWord_apart (Nat.le_add_right _ _))).trans
    (if_neg (by simp only [EvSrc.off, Reg.ftEvents]; omega)))

theorem showWear_only (s : State) (j : Nat) : s.OnlyReports (s.showWear j) :=
  ((setReg_only _ _ _).trans (setReg_only _ _ _)).trans (setReg_only _ _ _)

/-- The wear figures stand in three registers of the channel. -/
theorem showWear_reg (s : State) (j a : Nat) (hw : a ≠ Reg.ftWritten j) (hd : a ≠ Reg.ftDay j) (hl : a ≠ Reg.ftLife j) :
    (s.showWear j).reg a = s.reg a := by
  unfold showWear
  rw [reg_setReg_ne _ _ _ _ hl, reg_setReg_ne _ _ _ _ hd, reg_setReg_ne _ _ _ _ hw]

section
variable {s : State} {j : Nat} (hj : j < 8) (hhub : s.live (pdHub j) = true) (hphy : s.live (pdPhy j) = true)
include hj hhub hphy

/-- R374: with the flash pair off the hub serves, and its channel stays OFF. -/
theorem hubInit_of_pairOff (hpair : s.live (pdFlash j) = false) (crcOk : Bool) (gb : Nat) :
    s.hubInit j crcOk gb = { s with initialised := addTo s.initialised j } := by
  have hpair' : State.live { s with initialised := addTo s.initialised j } (pdFlash j) = false := hpair
  unfold hubInit
  rw [if_neg (by simp [hj, hhub, hphy]), if_pos (by simp [hpair'])]

/-- R202: the parameter page decides between FAILED and the state that the channel's wear gives. -/
theorem hubInit_of_pairLive (hpair : s.live (pdFlash j) = true) (hoff : s.ftState j = 0) (crcOk : Bool) (gb : Nat) :
    s.hubInit j crcOk gb =
      let u := { s with initialised := addTo s.initialised j }
      if crcOk = false ∨ gb < 4000 then (u.setField (Reg.ftStatus j) 1 0 3).raise (.ft j) 4
      else ((u.setField (Reg.ftStatus j) 1 0 (if 1000 ≤ s.nandLife.getD j 0 then 2 else 1)).setReg (Reg.ftCapacity j)
        flashBlocks).showWear j := by
  have hpair' : State.live { s with initialised := addTo s.initialised j } (pdFlash j) = true := hpair
  have hoff' : State.ftState { s with initialised := addTo s.initialised j } j = 0 := hoff
  unfold hubInit
  rw [if_neg (by simp [hj, hhub, hphy]), if_neg (by simp [hpair', hoff'])]
  simp

/-- R202, R374: a channel whose parameter page is bad comes up FAILED. -/
theorem hubInit_badPage {crcOk : Bool} {gb : Nat} (hpair : s.live (pdFlash j) = true) (hoff : s.ftState j = 0)
    (hbad : crcOk = false ∨ gb < 4000) :
    let t := s.hubInit j crcOk gb
    j ∈ t.initialised ∧ t.ftState j = 3 ∧ bitOf (t.reg (Reg.ftEvents j)) 4 = true ∧ t.hbm = s.hbm ∧ t.flash = s.flash := by
  rw [hubInit_of_pairLive hj hhub hphy hpair hoff]
  dsimp only
  rw [if_pos hbad]
  have honly := raise_only (setField { s with initialised := addTo s.initialised j } (Reg.ftStatus j) 1 0 3) (.ft j) 4
  refine ⟨honly.initialised ▸ (mem_addTo _ _ _).2 (.inl rfl), ?_, ?_, honly.hbm, honly.flash⟩
  · rw [ftState_raise, ftState_setField]
  · exact raise_sets _ (.ft j) 4 (by decide) (by simp only [EvSrc.off, Reg.ftEvents, Reg.recLost]; omega)

/-- R202, R374: a channel whose parameter page is good comes up READY, or READ_ONLY where its life is spent. -/
theorem hubInit_goodPage {crcOk : Bool} {gb : Nat} (hpair : s.live (pdFlash j) = true) (hoff : s.ftState j = 0)
    (hcrc : crcOk = true) (hgb : 4000 ≤ gb) :
    let t := s.hubInit j crcOk gb
    j ∈ t.initialised ∧ t.ftState j = (if 1000 ≤ s.nandLife.getD j 0 then 2 else 1)
      ∧ t.reg (Reg.ftCapacity j) = flashBlocks ∧ t.hbm = s.hbm ∧ t.flash = s.flash := by
  rw [hubInit_of_pairLive hj hhub hphy hpair hoff]
  dsimp only
  rw [if_neg (by simp [hcrc, hgb])]
  generalize hst : (if 1000 ≤ s.nandLife.getD j 0 then 2 else 1) = st
  have hst4 : st % 4 = st := by split at hst <;> omega
  have honly := showWear_only ((setField { s with initialised := addTo s.initialised j } (Reg.ftStatus j) 1 0 st).setReg
    (Reg.ftCapacity j) flashBlocks) j
  refine ⟨honly.initialised ▸ (mem_addTo _ _ _).2 (.inl rfl), ?_, ?_, honly.hbm, honly.flash⟩
  · rw [ftState_congr (showWear_reg _ _ _ _ _ _), ftState_congr (reg_setReg_ne _ _ _ _ _), ftState_setField, hst4]
    all_goals simp only [Reg.ftStatus, Reg.ftCapacity, Reg.ftWritten, Reg.ftDay, Reg.ftLife]; omega
  · rw [showWear_reg, reg_setReg_same, show flashBlocks % 2 ^ 64 = flashBlocks from rfl]
    all_goals simp only [Reg.ftCapacity, Reg.ftWritten, Reg.ftDay, Reg.ftLife]; omega

end

/-- R206: the trailing day of a channel in service opens a new bucket. -/
theorem dayBucket_of_service {s : State} {j : Nat} (hj : j < 8) (hlive : s.hubLive j = true)
    (hst : s.ftState j = 1 ∨ s.ftState j = 2) :
    s.dayBucket j = State.showWear j { s with dayBuckets := modAt s.dayBuckets j fun l => (0 :: l).take 24 } := by
  unfold dayBucket
  rw [if_neg (by simpa [hj, hlive, or_iff_not_imp_left] using hst)]

end State

end Sys2Proof.Machine
end

section
/-! ### The row pager's READs and write-backs (R205, R211) -/

namespace Sys2Proof.Machine

theorem exec_unitReadComplete (dt u : Nat) (s : State) :
    exec (.unitReadComplete dt u) s = s.finish dt ((s.advance dt).unitRead u) := rfl
theorem exec_unitWriteComplete (dt u : Nat) (s : State) :
    exec (.unitWriteComplete dt u) s = s.finish dt ((s.advance dt).unitWrite u) := rfl

namespace State

/-- A register below the hubs' blocks that no report changes keeps its word while a channel reports an event. -/
theorem raise_ft_reg (s : State) (j b : Nat) {a : Nat} (ha : a < 0x400000) (hr : a ∉ reportRegs) :
    (s.raise (.ft j) b).reg a = s.reg a :=
  (raise_reg s (.ft j) b a hr).trans (if_neg (by simp only [EvSrc.off, Reg.ftEvents]; omega))

theorem showWear_reg_below (s : State) (j : Nat) {a : Nat} (ha : a < 0x400000) : (s.showWear j).reg a = s.reg a := by
  apply showWear_reg
  all_goals simp only [Reg.ftWritten, Reg.ftDay, Reg.ftLife]; omega

/-- R206: what a channel's wear shows and reports lies in its hub's block. -/
theorem wear_reg (s : State) (j n : Nat) {a : Nat} (ha : a < 0x400000) (hr : a ∉ reportRegs) :
    (s.wear j n).reg a = s.reg a := by
  unfold wear
  extract_lets day life total life' s1 s2 s3 s4
  have h2 : s2.reg a = s.reg a := showWear_reg_below s1 j ha
  have h3 : s3.reg a = s.reg a := by
    unfold s3
    split
    · rw [raise_ft_reg _ _ _ ha hr, h2]
    · exact h2
  have h4 : s4.reg a = s.reg a := by
    unfold s4
    split
    · rw [raise_ft_reg _ _ _ ha hr, h3]
    · exact h3
  split
  · rw [raise_ft_reg _ _ _ ha hr, reg_setField_ne _ _ _ _ _ _ (by simp only [Reg.ftStatus]; omega), h4]
  · exact h4

theorem writeFlash_reg (s : State) (l : Locator) (bs : List Byte) {a : Nat} (ha : a < 0x400000) (hr : a ∉ reportRegs) :
    (s.writeFlash l bs).reg a = s.reg a := by
  unfold writeFlash
  split
  · rfl
  · exact wear_reg _ _ _ ha hr

/-- R211, R205: the READ of a LOADING unit fills its line and makes it RESIDENT, or fails and makes it ABSENT again. -/
theorem unitRead_of_loading {s : State} {u : Nat} (hu : u < s.regBits Reg.rtCount 24 0) (hst : s.unitState u = 1)
    (hlive : s.hubLive (s.unitHub u) = true) (hissued : s.readIssued u = true) :
    s.unitRead u =
      let l := s.unitLoc u
      let r := s.flashDeliver l (s.unitBlocks u)
      let v := { s with drawCount := s.drawCount + 1 }
      let w := (State.writeHbm (s.unitLine u) r.1 (v.flashReadError l (s.unitBlocks u))).setLine u 0 0
      if r.2 then ((s.pagesOf u).foldl (fun (s : State) i => s.itemDone i.id Code.flashRead [])
          { w with pinOrder := w.pinOrder.filter (· != u) }).resumeRuns
        else ((s.pagesOf u).foldl (fun s i => s.settlePage i)
          ((State.writeHbm (s.unitLine u) r.1 v).setUnitState u 2)).resumeRuns := by
  unfold unitRead
  rw [if_neg (by simp [hu, hst, hlive, hissued])]
  rfl

/-- A write-back in flight whose hubs are live lands its image at its locator; a unit still WRITING is then RESIDENT. -/
theorem unitWrite_of_inFlight {s : State} {u : Nat} {x : WriteBack}
    (hx : (s.unitWrites.find? fun y => y.unit == u) = some x) (hhub : s.hubLive x.hub = true)
    (hloc : s.hubLive (bitsOf x.locator 32 30) = true) :
    s.unitWrite u =
      let v := State.writeFlash (Locator.parse x.locator) x.image
        { s with unitWrites := s.unitWrites.filter fun y => y.unit != u }
      if u < s.regBits Reg.rtCount 24 0 ∧ v.unitState u = 4 then v.setUnitState u 2 else v := by
  have hland : s.landWrite u = State.writeFlash (Locator.parse x.locator) x.image
      { s with unitWrites := s.unitWrites.filter fun y => y.unit != u } := by
    simp only [landWrite, hx]
  have hcount : (s.landWrite u).regBits Reg.rtCount 24 0 = s.regBits Reg.rtCount 24 0 := by
    rw [hland]
    exact regBits_congr (writeFlash_reg _ _ _ (by decide) (by decide)) _ _
  simp only [unitWrite, hx, hhub, hloc, hcount, Bool.not_true, Bool.or_self, Bool.false_eq_true, if_false]
  rw [hland]

end State

/-- Settles O41: initialisation decides the channel's state by its pair and its parameter page (`hubInit_of_pairOff`,
`hubInit_badPage`, `hubInit_goodPage`); a READ and a write-back end as R211 gives (`unitRead_of_loading`,
`unitWrite_of_inFlight`), and what lands on flash leaves RT_COUNT. -/
theorem flashAndPagerServe : Obligations.FlashAndPagerServe := by
  unfold Obligations.FlashAndPagerServe
  refine ⟨fun dt j s hj hhub hphy => ?_, fun dt u s hlive => ⟨fun hu hst hissued => ?_, fun x hx hxhub hxloc => ?_⟩⟩
  · have hhub' := (s.advance_live dt (pdHub j)).trans hhub
    have hphy' := (s.advance_live dt (pdPhy j)).trans hphy
    refine ⟨fun crcOk gb hpair hoff => ?_, fun crcOk gb hpair => ?_, fun hinit hst => ?_⟩
    · have hpair' := (s.advance_live dt (pdFlash j)).trans hpair
      have hoff' := (s.advance_ftState dt j).trans hoff
      refine ⟨fun hbad => ?_, fun hcrc hgb => ?_⟩
      · obtain ⟨hin, hstate, hbit, hhbm, hflash⟩ := State.hubInit_badPage hj hhub' hphy' hpair' hoff' hbad
        exact ⟨_, rfl, hin, hstate, hbit, hhbm.trans (s.advance_hbm dt), hflash.trans (s.advance_flash dt)⟩
      · obtain ⟨hin, hstate, hcap, hhbm, hflash⟩ := State.hubInit_goodPage hj hhub' hphy' hpair' hoff' hcrc hgb
        rw [s.advance_nandLife] at hstate
        exact ⟨_, rfl, hin, hstate, hcap, hhbm.trans (s.advance_hbm dt), hflash.trans (s.advance_flash dt)⟩
    · rw [exec_hubInitialisationDone,
        State.hubInit_of_pairOff hj hhub' hphy' ((s.advance_live dt (pdFlash j)).trans hpair), s.advance_initialised]
    · have hserves : (s.advance dt).hubLive j = true := by simp [State.hubLive, hhub, hphy, hinit]
      rw [exec_ftDayBucket, State.dayBucket_of_service hj hserves (by simpa using hst)]
      exact ⟨_, rfl, congrArg (modAt · j _) (s.advance_dayBuckets dt), s.advance_hbm dt, s.advance_flash dt,
        s.advance_items dt⟩
  · rw [exec_unitReadComplete, State.unitRead_of_loading (by simpa using hu) (by simpa using hst) (by simpa using hlive)
      (by simpa using hissued)]
    simp only [s.advance_unitLoc, s.advance_unitBlocks, s.advance_unitLine, s.advance_flashDeliver, s.advance_pagesOf,
      s.advance_drawCount]
  · rw [exec_unitWriteComplete, State.unitWrite_of_inFlight (by simpa using hx) (by simpa using hxhub)
      (by simpa using hxloc)]
    simp only [s.advance_unitWrites, s.advance_regBits]

end Sys2Proof.Machine
end

section
/-! ### Near ports: training, silence and loss (R229, Sequence NEA-1) -/

namespace Sys2Proof.Machine

theorem exec_nearTrainingDone (dt p : Nat) (s : State) :
    exec (.nearTrainingDone dt p) s = s.finish dt ((s.advance dt).trainingDone p) := rfl
theorem exec_nearTrainingTimeout (dt p : Nat) (s : State) :
    exec (.nearTrainingTimeout dt p) s = s.finish dt ((s.advance dt).trainingTimeout p) := rfl
theorem exec_helloSend (dt p : Nat) (s : State) :
    exec (.helloSend dt p) s = s.finish dt ((s.advance dt).helloSend p) := rfl
theorem exec_fecAlignLoss (dt p : Nat) (s : State) :
    exec (.fecAlignLoss dt p) s = s.finish dt ((s.advance dt).upDown p 5) := rfl
theorem exec_linkSilence (dt p : Nat) (s : State) :
    exec (.linkSilence dt p) s = s.finish dt ((s.advance dt).silence p) := rfl
theorem exec_nearRetrainTimer (dt p : Nat) (s : State) :
    exec (.nearRetrainTimer dt p) s = s.finish dt ((s.advance dt).retrainTimer p) := rfl

namespace State

/-! ### The fields of NP_STATUS (Table NEA-11) -/

/-- STATE is the low part of the field that STATE and CAUSE make together. -/
theorem npState_of_stateCause (s : State) (p : Nat) : s.npState p = s.regBits (Reg.npStatus p) 5 0 % 8 := by
  unfold npState regBits bitsOf
  omega

/-- CAUSE is the high part of that field. -/
theorem npCause_of_stateCause (s : State) (p : Nat) :
    s.regBits (Reg.npStatus p) 5 3 = s.regBits (Reg.npStatus p) 5 0 / 8 := by
  unfold regBits bitsOf
  omega

/-- A port that was FAILED with a cause shows both. -/
theorem npStatus_failed (s : State) (p : Nat) {cause : Nat} (h : cause < 8) :
    (s.setField (Reg.npStatus p) 5 0 (4 + cause * 8)).npState p = 4
      ∧ (s.setField (Reg.npStatus p) 5 0 (4 + cause * 8)).regBits (Reg.npStatus p) 5 3 = cause := by
  rw [npState_of_stateCause, npCause_of_stateCause, regBits_setField _ _ _ _ _ (by decide) (by decide)]
  omega

theorem fecLock_alignFec (s : State) (p : Nat) : (s.setField (Reg.npStatus p) 6 6 1).fecLock p = true := by
  unfold fecLock
  rw [regBits_setField _ _ _ _ _ (by decide) (by decide)]
  rfl

theorem npState_alignFec (s : State) (p : Nat) : (s.setField (Reg.npStatus p) 6 6 1).npState p = s.npState p :=
  regBits_setField_other _ _ _ _ _ _ _ (by decide) (by decide) (by decide)

theorem setField_nport (s : State) (a hi lo v p : Nat) : (s.setField a hi lo v).nport p = s.nport p := rfl

theorem nport_modNport_same {s : State} {p : Nat} (f : NearPort → NearPort) (h : p < s.nearPorts.length) :
    (s.modNport p f).nport p = f (s.nport p) :=
  (modAt_getD _ _ _ _ _ h).trans (if_pos rfl)

/-! ### The branches of the bring-up's commands -/

theorem nearLive_of_live {s : State} {p : Nat} (hp : p < 12) (hport : s.live (pdNear p) = true)
    (hlink : s.live (pdLink (p / 2)) = true) : s.nearLive p = true := by
  simp [nearLive, hp, hport, hlink]

section
variable {s : State} {p : Nat} (hlive : s.nearLive p = true)
include hlive

/-- Steps 2 and 3: FEC locks in the 500 ms of the training. -/
theorem trainingDone_in_time (hclock : s.linkClock p = true) (htrain : s.npState p = 1) (hfec : s.fecLock p = false)
    (hin : s.now ≤ (s.nport p).since + 500000000) :
    s.trainingDone p = (s.setField (Reg.npStatus p) 6 6 1).modNport p fun q => { q with since := s.now } := by
  unfold trainingDone
  exact if_neg (by simp [ms, hlive, hclock, htrain, hfec, hin])

/-- A port without FEC lock 500 ms after its training began. -/
theorem trainingTimeout_of_unlocked (htrain : s.npState p = 1) (hfec : s.fecLock p = false)
    (hlate : (s.nport p).since + 500000000 ≤ s.now) :
    s.trainingTimeout p = s.setField (Reg.npStatus p) 5 0 (4 + 2 * 8) := by
  unfold trainingTimeout
  exact if_pos (by simp [ms, hlive, htrain, hfec, hlate])

/-- A port that has heard no HELLO 10 ms after its FEC lock. -/
theorem trainingTimeout_of_unheard (htrain : s.npState p = 1) (hfec : s.fecLock p = true)
    (hunheard : (s.nport p).wired = false) (hlate : (s.nport p).since + 10000000 ≤ s.now) :
    s.trainingTimeout p = s.setField (Reg.npStatus p) 5 0 (4 + 2 * 8) := by
  unfold trainingTimeout
  exact if_pos (by simp [ms, hlive, htrain, hfec, hunheard, hlate])

theorem helloSend_of_locked (htrain : s.npState p = 1) (hfec : s.fecLock p = true) (hclock : s.linkClock p = true) :
    s.helloSend p = s.emit (.flit p (flitBytes 3 0 0 0 (s.helloBytes p))) := by
  unfold helloSend
  exact if_pos (by simp [hlive, htrain, hfec, hclock])

theorem upDown_of_up (hup : s.nearUp p = true) (cause : Nat) : s.upDown p cause = s.nearDown p cause := by
  unfold upDown
  exact if_pos (by simp [hlive, hup])

/-- An UP port that has heard no flit for 100 µs. -/
theorem silence_of_silent (hup : s.nearUp p = true) (hsilent : (s.nport p).since + 100000 ≤ s.now) :
    s.silence p = s.nearDown p 6 := by
  unfold silence
  rw [if_neg (not_lt.mpr hsilent), upDown_of_up hlive hup]

/-- A DOWN port, a second after it went DOWN. -/
theorem retrainTimer_of_due (hdown : s.npState p = 3) (hdue : (s.nport p).since + 1000000000 ≤ s.now) :
    s.retrainTimer p = s.nearStart p := by
  unfold retrainTimer
  exact if_pos (by simp [secNs, hlive, hdown, hdue])

end

end State

/-- Settles O51: each command takes its branch by the lemmas above on the state with its time passed; what the branch leaves
in NP_STATUS is said of the two field updates (`npStatus_failed`, `fecLock_alignFec`, `npState_alignFec`). -/
theorem nearPortsTrainAndGoDown : Obligations.NearPortsTrainAndGoDown := by
  unfold Obligations.NearPortsTrainAndGoDown
  intro dt p s hp hport hlink
  have hlive : (s.advance dt).nearLive p = true :=
    (s.advance_nearLive dt p).trans (State.nearLive_of_live hp hport hlink)
  refine ⟨fun htrain hfec => ?_, fun htrain hfec => ?_, fun hup => ?_, fun hdown hdue => ?_⟩
  · have htrain' := (s.advance_npState dt p).trans htrain
    have hfec' := (s.advance_fecLock dt p).trans hfec
    refine ⟨fun hin hclock => ?_, fun hlate => ?_⟩
    · rw [exec_nearTrainingDone, State.trainingDone_in_time hlive ((s.advance_linkClock dt p).trans hclock) htrain' hfec'
        (by simpa using hin)]
      refine ⟨_, rfl, State.fecLock_alignFec _ p, (State.npState_alignFec _ p).trans htrain', fun hlen => ?_,
        s.advance_emitted dt⟩
      have hlen' : p < (s.advance dt).nearPorts.length := by rwa [s.advance_nearPorts]
      refine (State.nport_modNport_same (s := (s.advance dt).setField (Reg.npStatus p) 6 6 1) _ hlen').trans ?_
      rw [State.setField_nport, s.advance_nport, s.advance_now]
    · rw [exec_nearTrainingTimeout, State.trainingTimeout_of_unlocked hlive htrain' hfec' (by simpa using hlate)]
      obtain ⟨hfailed, hcause⟩ := (s.advance dt).npStatus_failed p (cause := 2) (by decide)
      exact ⟨_, rfl, hfailed, hcause, s.advance_emitted dt⟩
  · have htrain' := (s.advance_npState dt p).trans htrain
    have hfec' := (s.advance_fecLock dt p).trans hfec
    refine ⟨fun hclock => ?_, fun hunheard hlate => ?_⟩
    · rw [exec_helloSend, State.helloSend_of_locked hlive htrain' hfec' ((s.advance_linkClock dt p).trans hclock),
        s.advance_helloBytes]
      exact ⟨_, rfl, congrArg _ (s.advance_emitted dt), s.advance_regs dt⟩
    · rw [exec_nearTrainingTimeout, State.trainingTimeout_of_unheard hlive htrain' hfec' (by simpa using hunheard)
        (by simpa using hlate)]
      obtain ⟨hfailed, hcause⟩ := (s.advance dt).npStatus_failed p (cause := 2) (by decide)
      exact ⟨_, rfl, hfailed, hcause⟩
  · have hup' := (s.advance_nearUp dt p).trans hup
    refine ⟨?_, fun hsilent => ?_⟩
    · rw [exec_fecAlignLoss, State.upDown_of_up hlive hup']
    · rw [exec_linkSilence, State.silence_of_silent hlive hup' (by simpa using hsilent)]
  · rw [exec_nearRetrainTimer, State.retrainTimer_of_due hlive ((s.advance_npState dt p).trans hdown) (by simpa using hdue)]

end Sys2Proof.Machine
end

section
/-! ### Flits (R227, R228, R365) -/

namespace Sys2Proof.Machine

theorem exec_flitIdle (dt p : Nat) (f : List Byte) (s : State) :
    exec (.flitIdle dt p f) s = s.finish dt (State.flitIn p 0 f id (s.advance dt)) := rfl
theorem exec_flitData (dt p : Nat) (f : List Byte) (s : State) :
    exec (.flitData dt p f) s = s.finish dt (State.flitIn p 1 f (State.dataIn p f) (s.advance dt)) := rfl
theorem exec_flitNak (dt p : Nat) (f : List Byte) (s : State) :
    exec (.flitNak dt p f) s = s.finish dt (State.flitIn p 2 f (State.nakIn p f) (s.advance dt)) := rfl
theorem exec_flitHello (dt p : Nat) (f : List Byte) (s : State) :
    exec (.flitHello dt p f) s = s.finish dt (State.flitIn p 3 f (State.helloIn p (f.drop 8)) (s.advance dt)) := rfl
theorem exec_flitCredit (dt p : Nat) (f : List Byte) (s : State) :
    exec (.flitCredit dt p f) s = s.finish dt (State.flitIn p 4 f id (s.advance dt)) := rfl

namespace State

/-- NP_CRC_ERR is not NP_STATUS: counting in it leaves the port's state. -/
theorem npState_countCrcErr (s : State) (p n : Nat) : (s.count (Reg.npCrcErr p) n).npState p = s.npState p :=
  regBits_setReg_ne _ _ _ _ _ _ (by simp only [Reg.npStatus, Reg.npCrcErr]; omega)

section
variable {s : State} {p : Nat} {f : List Byte} (hlive : s.nearLive p = true) (hclock : s.linkClock p = true)
  (hlen : f.length = 256) (hstate : s.npState p = 1 ∨ s.npState p = 2)
include hlive hclock hlen hstate

/-- A port in training or UP, with its clock, hears a flit of 256 bytes. -/
theorem hears_flit :
    (!s.nearLive p || !s.linkClock p || f.length != 256 || (s.npState p != 1 && s.npState p != 2)) = false := by
  rcases hstate with h | h <;> simp [hlive, hclock, hlen, h]

/-- R227: a flit with a good CRC, of the command's kind, is taken after what its head does. -/
theorem flitIn_of_goodCrc (hcrc : Crypto.crc32 (f.take 252) = fld f 252 4) {kind : Nat} (hkind : fld f 4 1 % 8 = kind)
    (act : State → State) : flitIn p kind f act s = act (s.flitHead p f) := by
  unfold flitIn
  rw [hears_flit hlive hclock hlen hstate, if_neg Bool.false_ne_true, if_neg (not_not.mpr hcrc), if_neg (not_not.mpr hkind)]

/-- R228: a flit with a bad CRC, whatever the command's kind, counts, and an UP port answers with a NAK. -/
theorem flitIn_of_badCrc (hcrc : Crypto.crc32 (f.take 252) ≠ fld f 252 4) (kind : Nat) (act : State → State) :
    flitIn p kind f act s =
      if s.npState p = 2 then (s.count (Reg.npCrcErr p) 1).sendNak p else s.count (Reg.npCrcErr p) 1 := by
  unfold flitIn
  rw [hears_flit hlive hclock hlen hstate, if_neg Bool.false_ne_true, if_pos hcrc]
  simp only [nearUp, npState_countCrcErr, beq_iff_eq]

end

end State

/-- Settles O52: every row of a flit is `flitIn` with its own kind and its own effect. -/
theorem flitsAreTakenByKind : Obligations.FlitsAreTakenByKind := by
  unfold Obligations.FlitsAreTakenByKind
  intro dt p f s hp hport hlink hclock hlen hstate
  have hlive : (s.advance dt).nearLive p = true :=
    (s.advance_nearLive dt p).trans (State.nearLive_of_live hp hport hlink)
  have hclock' := (s.advance_linkClock dt p).trans hclock
  have hstate' : (s.advance dt).npState p = 1 ∨ (s.advance dt).npState p = 2 := by rwa [s.advance_npState]
  refine ⟨fun hcrc => ?_, fun hcrc => ?_⟩
  · have htaken {kind : Nat} (hkind : fld f 4 1 % 8 = kind) (act : State → State) :=
      congrArg (s.finish dt) (State.flitIn_of_goodCrc hlive hclock' hlen hstate' hcrc hkind act)
    rw [exec_flitIdle, exec_flitData, exec_flitNak, exec_flitHello, exec_flitCredit]
    exact ⟨fun h => htaken h _, fun h => htaken h _, fun h => htaken h _, fun h => htaken h _, fun h => htaken h _⟩
  · have hbad := State.flitIn_of_badCrc hlive hclock' hlen hstate' hcrc
    simp only [s.advance_npState] at hbad
    have hcounted (kind : Nat) (act : State → State) := congrArg (s.finish dt) (hbad kind act)
    simp only [List.forall_mem_cons, exec_flitIdle, exec_flitData, exec_flitNak, exec_flitHello, exec_flitCredit]
    exact ⟨hcounted _ _, hcounted _ _, hcounted _ _, hcounted _ _, hcounted _ _, List.forall_mem_nil _⟩

end Sys2Proof.Machine
end

section
/-! ### Kept messages and the comparison of replicas (R194, R195, R234, R248) -/

namespace Sys2Proof.Machine

theorem exec_e2eAck (dt : Nat) (s : State) : exec (.e2eAck dt) s = s.finish dt (s.advance dt).e2eAck := rfl
theorem exec_e2eResend (dt peer stitch : Nat) (s : State) :
    exec (.e2eResend dt peer stitch) s = s.finish dt ((s.advance dt).e2eResend peer stitch) := rfl
theorem exec_digestRoots (dt : Nat) (s : State) : exec (.digestRoots dt) s = s.finish dt (s.advance dt).rootsIn := rfl
theorem exec_digestQuery (dt : Nat) (s : State) : exec (.digestQuery dt) s = s.finish dt (s.advance dt).queryIn := rfl
theorem exec_digestNodes (dt : Nat) (s : State) : exec (.digestNodes dt) s = s.finish dt (s.advance dt).nodesIn := rfl
theorem exec_digestReplyTimeout (dt group member : Nat) (s : State) :
    exec (.digestReplyTimeout dt group member) s = s.finish dt ((s.advance dt).replyTimeout group member) := rfl

/-- A running maximum stays below what bounds its start and all it is taken over. -/
theorem foldl_max_le {α : Type} (f : α → Nat) {b : Nat} (l : List α) (h : ∀ x ∈ l, f x ≤ b) {a : Nat} (ha : a ≤ b) :
    l.foldl (fun a x => max a (f x)) a ≤ b := by
  induction l generalizing a with
  | nil => exact ha
  | cons x l ih =>
    exact ih (fun y hy => h y (List.mem_cons_of_mem x hy)) (max_le ha (h x List.mem_cons_self))

namespace State

/-! ### Kept messages (R234) -/

/-- Taking a message out leaves the flows. -/
theorem takeMsg_flow {s u : State} {typ : Nat} {m : NearMsg} (h : s.takeMsg typ = some (m, u)) (peer : Nat) :
    u.flow peer = s.flow peer := by
  rw [takeMsg_some h]; rfl

/-- An acknowledgement of a message that is kept. -/
theorem e2eAck_of_kept {s u : State} {a : NearMsg} {k : Kept} (ha : s.takeMsg 9 = some (a, u))
    (hk : ((u.flow a.src).kept.find? fun (x : Kept) => x.msg.stitch == bitsOf a.operand.toNat 47 0) = some k) :
    s.e2eAck = (u.modFlow a.src fun f =>
      { f with kept := f.kept.filter fun (x : Kept) => x.msg.stitch != bitsOf a.operand.toNat 47 0 }).settleCopy k.msg := by
  unfold e2eAck
  simp only [ha, hk]

/-- A message that is kept: left alone for 50 µs after its last sending, then sent again four times, then given up. -/
theorem e2eResend_of_kept {s : State} {peer stitch : Nat} {k : Kept}
    (hk : ((s.flow peer).kept.find? fun (x : Kept) => x.msg.stitch == stitch) = some k) :
    s.e2eResend peer stitch =
      if s.now < k.sentAt + 50000 then s
      else if k.resends < 4 then s.resendNear peer stitch
      else (s.modFlow peer fun f =>
        { f with kept := f.kept.filter fun (x : Kept) => x.msg.stitch != stitch }).unreachable k.msg := by
  unfold e2eResend
  simp only [hk]

/-! ### The exchange of digests (R248) -/

/-- Roots that reach member 0 from a member of the group. -/
theorem rootsIn_of_member {s u : State} {m : NearMsg} {g : GroupRec} {i : Nat} (hm : s.takeMsg 6 = some (m, u))
    (hg : u.msgGroup m = some (g, i)) (hself : g.self = 0) : s.rootsIn =
      u.holdRoots g i ((List.range (m.body.length / 16)).map fun k =>
        (fld m.body (16 * k) 2, fld m.body (16 * k + 4) 4, BitVec.ofNat 64 (fld m.body (16 * k + 8) 8))) := by
  unfold rootsIn
  simp only [hm, hg]
  exact if_neg (not_not.mpr hself)

/-- A query that comes from a member of the group. -/
theorem queryIn_of_member {s u : State} {m : NearMsg} {g : GroupRec} {i : Nat} (hm : s.takeMsg 7 = some (m, u))
    (hg : u.msgGroup m = some (g, i)) : s.queryIn =
      if m.node.2.1 = 0 then u.sendRepair g m.node.1 m.node.2.2 [m.position]
      else u.sendNear 8 0 m.src g.id 0 (nodeOperand m.node.1 m.node.2.1 m.node.2.2)
        ((u.ownNodes g m.node.1 m.node.2.1 m.node.2.2).flatMap fun v => leBytes 8 v.toNat) := by
  unfold queryIn
  simp only [hm, hg]

/-- A notice of level 0 for an entry that the group has here. -/
theorem nodesIn_of_notice {s u : State} {m : NearMsg} {g : GroupRec} {i n e : Nat} (hm : s.takeMsg 8 = some (m, u))
    (hg : u.msgGroup m = some (g, i)) (hlevel : m.node.2.1 = 0) (he : g.entry? m.node.1 = some (e, n)) :
    s.nodesIn = u.markSuspect n e m.node.2.2 := by
  unfold nodesIn
  simp only [hm, hg, he, hlevel, if_true]

/-- R248: past the cutoffs of its group, a member whose roots are missing counts as holding no value. -/
theorem replyTimeout_of_owing {s : State} {g : GroupRec} {member : Nat} (hg : s.group? g.id = some g) (hself : g.self = 0)
    (hpos : 0 < member) (hsize : member < g.size) (hcut : ∀ r ∈ s.reduces, r.group = g.id → r.cutoff ≤ s.time)
    (hheld : ∃ r ∈ s.digestRoots, r.group = g.id) (howes : ∀ r ∈ s.digestRoots, r.group = g.id → r.member ≠ member) :
    s.replyTimeout g.id member =
      let u := { s with digestSilent := (g.id, member) :: s.digestSilent.filter (· != (g.id, member)) }
      (((u.digestRoots.filter (·.group == g.id)).map (·.entry)).dedup.foldl (fun s e => s.compareRoots g e) u).settleNodes
        g := by
  have hpast : ¬ s.time < (s.reduces.filter (·.group == g.id)).foldl (fun a r => max a r.cutoff) 0 :=
    not_lt.mpr (foldl_max_le _ _ (fun r hr => by
      obtain ⟨hmem, hgroup⟩ := List.mem_filter.mp hr
      exact hcut r hmem (beq_iff_eq.mp hgroup)) (Nat.zero_le _))
  have hany : s.digestRoots.any (·.group == g.id) = true := by simpa using hheld
  have hnone : (s.digestRoots.any fun r => r.group == g.id && r.member == member) = false := by simpa using howes
  unfold replyTimeout
  simp only [hg, hany, hnone]
  exact if_neg (by simp [hself, hpast, hsize, Nat.pos_iff_ne_zero.mp hpos])

end State

/-- Settles O53: a kept message meets its acknowledgement or its timer (`e2eAck_of_kept`, `e2eResend_of_kept`), and each
digest message, and the timeout of a member, has the one effect of its lemma. -/
theorem messagesAreKeptAndReplicasCompared : Obligations.MessagesAreKeptAndReplicasCompared := by
  unfold Obligations.MessagesAreKeptAndReplicasCompared
  refine ⟨fun dt s => ⟨fun a u k ha hk => ?_, fun peer stitch k hk => ?_⟩, fun dt s => ⟨fun m u g i hm hg hself => ?_,
    fun m u g i hm hg => ?_, fun m u g i n e hm hg hlevel he => ?_, fun g member hg hself hpos hsize hcut hheld howes => ?_⟩⟩
  · rw [← s.advance_flow dt, ← State.takeMsg_flow ha] at hk
    rw [exec_e2eAck, State.e2eAck_of_kept ha hk]
  · rw [← s.advance_flow dt] at hk
    rw [exec_e2eResend, State.e2eResend_of_kept hk, s.advance_now]
    refine ⟨fun hearly => ?_, fun hdue hagain => ?_, fun hdue hlast => ?_⟩
    · rw [if_pos hearly]
    · rw [if_neg (not_lt.mpr hdue), if_pos hagain]
    · rw [if_neg (not_lt.mpr hdue), if_neg (not_lt.mpr hlast)]
  · rw [exec_digestRoots, State.rootsIn_of_member hm hg hself]
  · rw [exec_digestQuery, State.queryIn_of_member hm hg]
  · rw [exec_digestNodes, State.nodesIn_of_notice hm hg hlevel he]
  · rw [← s.advance_reduces dt] at hcut
    rw [← s.advance_digestRoots dt] at hheld howes
    intro u
    rw [exec_digestReplyTimeout, State.replyTimeout_of_owing hg hself hpos hsize hcut hheld howes, s.advance_digestSilent]

end Sys2Proof.Machine
end

section
/-! ### Messages that reduce, gather and copy (R157, R238 to R246) -/

namespace Sys2Proof.Machine

theorem exec_reduceMsg (dt : Nat) (s : State) : exec (.reduceMsg dt) s = s.finish dt (s.advance dt).reduceMsg := rfl
theorem exec_gather (dt : Nat) (s : State) : exec (.gather dt) s = s.finish dt (s.advance dt).gatherIn := rfl
theorem exec_copyMsg (dt : Nat) (s : State) : exec (.copyMsg dt) s = s.finish dt (s.advance dt).copyMsg := rfl
theorem exec_reduceCutoff (dt item : Nat) (s : State) :
    exec (.reduceCutoff dt item) s = s.finish dt ((s.advance dt).reduceCutoff item) := rfl

namespace State

/-! ### REDUCE (R238 to R241) -/

/-- The blocks of a REDUCE message come in one after another: the state after them, and the blocks that go on. -/
def blocksIn (g : GroupRec) (r : Reduce) (m : NearMsg) (s : State) : State × List (Nat × Bs16) :=
  (List.range (m.body.length / 132)).foldl (fun a i =>
    let t := a.1.blockIn g r.item (s.bucketAt r.record) m.position (bitsOf m.operand.toNat 63 32 + i)
      (Bs16.parse ((m.body.drop (132 * i)).take 132))
    (t.1, a.2 ++ t.2)) (s, [])

section
variable {s v : State} {m : NearMsg} (hm : s.takeMsgIf 1 s.canReduce = some (m, v))
include hm

/-- A REDUCE of a bucket that is not admitted here. -/
theorem reduceMsg_of_unadmitted (hr : (v.payCredit m).reduceOf m.group m.bucket = none) :
    s.reduceMsg = (v.payCredit m).raise .nea 3 := by
  unfold reduceMsg
  simp only [hm, hr]

variable {r : Reduce} {g : GroupRec} (hr : (v.payCredit m).reduceOf m.group m.bucket = some r)
  (hg : (v.payCredit m).group? m.group = some g)
include hr hg

/-- R241: a REDUCE that comes after its cutoff. -/
theorem reduceMsg_of_late (hstop : r.stopped = true) :
    s.reduceMsg = (v.payCredit m).count Reg.neaLate (m.body.length / 132) := by
  unfold reduceMsg
  simp only [hm, hr, hg]
  exact if_pos hstop

/-- R238: a REDUCE in time. -/
theorem reduceMsg_in_time (hstop : r.stopped = false) (hpos : m.position < g.size) :
    s.reduceMsg =
      let u := v.payCredit m
      let b := u.bucketAt r.record
      let a := u.blocksIn g r m
      (a.1.sendBlocks g b m.position (g.after b (g.myPos b)) a.2.length a.2).settleReduce r.item := by
  unfold reduceMsg
  simp only [hm, hr, hg]
  rw [if_neg (Bool.eq_false_iff.mp hstop), if_neg (not_le.mpr hpos)]
  rfl

end

/-! ### GATHER (R244) -/

section
variable {s u : State} {m : NearMsg} (hm : s.takeMsgIf 2 s.canGather = some (m, u))
include hm

/-- A GATHER of a bucket that is not admitted here. -/
theorem gatherIn_of_unadmitted (hr : u.reduceOf m.group m.bucket = none) : s.gatherIn = u.raise .nea 3 := by
  unfold gatherIn
  simp only [hm, hr]

/-- A GATHER of a part that is neither lost nor late, of an entry that can take it. -/
theorem gatherIn_of_part {r : Reduce} {g : GroupRec} {n e : Nat} (hr : u.reduceOf m.group m.bucket = some r)
    (hg : u.group? m.group = some g) (he : u.gatherEntry (u.bucketAt r.record) = some (n, e)) (hpos : m.position < g.size)
    (hlost : m.position ∉ r.lost) (hlive : u.live n = true) (hvalid : u.entryValid n e = true)
    (hlate : ¬(r.committed = true ∧ bitsOf m.operand.toNat 63 32 = u.currentVersion n e)) :
    s.gatherIn =
      let skip := (if r.committed then none else r.part m.position).elim 0 (·.2.2)
      let v := (scatter ((u.bucketAt r.record).geom.segments ((u.bucketAt r.record).rect g.size m.position)) skip
        m.body).foldl (fun s x => s.writeSlot n e x.1 x.2) ((u.openGathers n e).claimSlot n e)
      v.modReduce r.item fun r =>
        { r with gathered := (m.position, bitsOf m.operand.toNat 63 32, skip + m.body.length)
            :: r.gathered.filter (·.1 != m.position) } := by
  unfold gatherIn
  simp only [hm, hr, hg, he]
  exact if_neg (by simpa [hpos, hlost, hlive, hvalid] using hlate)

end

/-! ### COPY (R246) -/

/-- A COPY, not a repair, to a range of the module that is powered. -/
theorem copyMsg_of_range {s u : State} {m : NearMsg} {pl : Place} (hm : s.takeMsg 3 = some (m, u))
    (hrepair : bitOf m.flags 2 = false) (hpl : moduleRange m.operand.toNat m.body.length = some pl)
    (hpower : u.placePowered 0xFF pl m.body.length = true) :
    s.copyMsg = (u.writeAt 0xFF pl m.body).notePlace pl m.body.length := by
  unfold copyMsg
  simp only [hm, hrepair, hpl, hpower, if_true, Bool.false_eq_true, if_false]

/-! ### The cutoff (R157, R241, R245) -/

section
variable {s : State} {item : Nat} {r : Reduce} {g : GroupRec} (hr : s.reduce? item = some r)
  (hg : s.group? r.group = some g) (hdue : r.cutoff ≤ s.time)
include hr hg hdue

/-- R157: the bucket is not complete, and the sequence is CLOSED. -/
theorem reduceCutoff_of_closed (hready : r.ready = false) (hstop : r.stopped = false) (hclosed : s.verdict = 3) :
    s.reduceCutoff item = s.noBucket item := by
  unfold reduceCutoff
  simp only [hr, hg]
  rw [if_neg (not_lt.mpr hdue), if_pos (by simp [hready, hstop, hclosed])]

/-- R241: the cutoff of a reduction that goes on stops it, and, where its item is done, loses the parts of the all-gather
that have not come (log 39). -/
theorem reduceCutoff_of_going (hbucket : r.ready = true ∨ s.verdict ≠ 3) (hstop : r.stopped = false) :
    s.reduceCutoff item =
      if (s.item? item).any (fun i => !i.done) then s.stopReduce r g (s.bucketAt r.record)
      else (s.stopReduce r g (s.bucketAt r.record)).loseGathers r g (s.bucketAt r.record) := by
  unfold reduceCutoff
  simp only [hr, hg]
  rw [if_neg (not_lt.mpr hdue), if_neg (by rcases hbucket with h | h <;> simp [h])]
  simp only [hstop, Bool.not_false, Bool.and_true, Bool.false_eq_true, if_false]

/-- R245: a cutoff that finds the reduction stopped. -/
theorem reduceCutoff_of_stopped (hstop : r.stopped = true) :
    s.reduceCutoff item = s.loseGathers r g (s.bucketAt r.record) := by
  unfold reduceCutoff
  simp only [hr, hg]
  rw [if_neg (not_lt.mpr hdue), if_neg (by simp [hstop])]
  simp only [hstop, Bool.not_true, Bool.and_false, Bool.false_eq_true, if_false, if_true]

end

/-- The record of an item is the same after time has passed. -/
theorem advance_reduce? (s : State) (dt item : Nat) : (s.advance dt).reduce? item = s.reduce? item := by
  unfold reduce?
  rw [advance_reduces]

end State

/-- Settles O54: each message, and each cutoff, takes its branch by the lemmas above. -/
theorem messagesReduceGatherAndCopy : Obligations.MessagesReduceGatherAndCopy := by
  unfold Obligations.MessagesReduceGatherAndCopy
  intro dt s
  refine ⟨fun m v hm => ⟨fun hr => ?_, fun r g hr hg => ⟨fun hstop => ?_, fun hstop hpos => ?_⟩⟩,
    fun m u hm => ⟨fun hr => ?_, fun r g n e hr hg he hpos hlost hlive hvalid hlate => ?_⟩,
    fun m u pl hm hrepair hpl hpower => ?_, fun item r g hr hg hdue => ?_⟩
  · rw [exec_reduceMsg, State.reduceMsg_of_unadmitted hm hr]
  · rw [exec_reduceMsg, State.reduceMsg_of_late hm hr hg hstop]
  · rw [exec_reduceMsg, State.reduceMsg_in_time hm hr hg hstop hpos]
    rfl
  · rw [exec_gather, State.gatherIn_of_unadmitted hm hr]
  · rw [exec_gather, State.gatherIn_of_part hm hr hg he hpos hlost hlive hvalid hlate]
  · rw [exec_copyMsg, State.copyMsg_of_range hm hrepair hpl hpower]
  · rw [← s.advance_reduce? dt] at hr
    rw [exec_reduceCutoff, ← s.advance_verdict dt, ← s.advance_item? dt]
    refine ⟨fun hready hstop hclosed => ?_, fun hbucket hstop hitem => ?_, fun hbucket hstop hitem => ?_, fun hstop => ?_⟩
    · rw [State.reduceCutoff_of_closed hr hg hdue hready hstop hclosed]
    · rw [State.reduceCutoff_of_going hr hg hdue hbucket hstop, if_pos]
      obtain ⟨it, hit, hgoing⟩ := hitem
      simp [hit, hgoing]
    · rw [State.reduceCutoff_of_going hr hg hdue hbucket hstop, if_neg]
      simpa [Option.any_eq_true] using hitem
    · rw [State.reduceCutoff_of_stopped hr hg hdue hstop]

end Sys2Proof.Machine
end

section
/-! ### Far ports: training, silence, loss and retry (R252, R253, R289, R365, Sequence FEX-1) -/

namespace Sys2Proof.Machine

theorem exec_farPcsLock (dt k : Nat) (s : State) :
    exec (.farPcsLock dt k) s = s.finish dt ((s.advance dt).farPcsLock k) := rfl
theorem exec_farTrainingTimeout (dt k : Nat) (s : State) :
    exec (.farTrainingTimeout dt k) s = s.finish dt ((s.advance dt).farTimeout k) := rfl
theorem exec_farPcsLoss (dt k : Nat) (s : State) :
    exec (.farPcsLoss dt k) s = s.finish dt ((s.advance dt).farPcsLoss k) := rfl
theorem exec_farFrameSilence (dt k : Nat) (s : State) :
    exec (.farFrameSilence dt k) s = s.finish dt ((s.advance dt).farSilence k) := rfl
theorem exec_farRetryTimer (dt k : Nat) (s : State) :
    exec (.farRetryTimer dt k) s = s.finish dt ((s.advance dt).farRetry k) := rfl

namespace State

theorem farOn_iff (s : State) (k : Nat) :
    s.farOn k = true ↔ k < 6 ∧ s.live (pdFar k) = true ∧ s.live (pdLink k) = true := by
  simp [farOn, and_assoc]

theorem farLive_iff (s : State) (k : Nat) :
    s.farLive k = true ↔ s.farOn k = true ∧ s.wire (56 + k) .far = true ∧ s.crossUp (farCrossing k) = true := by
  simp [farLive, and_assoc]

/-! ### The fields of FP_STATUS (Table FEX-9) -/

/-- STATE is the low part of the field that STATE and CAUSE make together. -/
theorem fpState_setStatus (s : State) (k v : Nat) :
    (s.setField (Reg.fpStatus k) 5 0 v).fpState k = v % 8 := by
  have hfield := s.regBits_setField (Reg.fpStatus k) 5 0 v (by decide) (by decide)
  unfold fpState
  unfold regBits bitsOf at hfield ⊢
  omega

/-- CAUSE is the high part of that field. -/
theorem fpCause_setStatus (s : State) (k : Nat) {v : Nat} (h : v < 64) :
    (s.setField (Reg.fpStatus k) 5 0 v).regBits (Reg.fpStatus k) 5 3 = v / 8 := by
  have hfield := s.regBits_setField (Reg.fpStatus k) 5 0 v (by decide) (by decide)
  unfold regBits bitsOf at hfield ⊢
  omega

/-- SPEED is beside STATE. -/
theorem fpState_setSpeed (s : State) (k v : Nat) : (s.setField (Reg.fpStatus k) 6 6 v).fpState k = s.fpState k :=
  regBits_setField_other _ _ _ _ _ _ _ (by decide) (by decide) (by decide)

/-! ### NOKEY is beside the fields that it shows (Table SEC-8) -/

theorem bitOf_eq_bitsOf (v i : Nat) : bitOf v i = (bitsOf v i i == 1) := by
  simp [bitOf, bitsOf]

/-- A field of SEC_PORT_STATUS below NOKEY. -/
theorem regBits_showNoKey (s : State) (k : Nat) {hi lo : Nat} (h : hi < 7) :
    (s.showNoKey k).regBits (Reg.secPortStatus k) hi lo = s.regBits (Reg.secPortStatus k) hi lo :=
  regBits_setField_other _ _ _ _ _ _ _ (by decide) (by omega) (by omega)

theorem sealed_showNoKey (s : State) (k : Nat) : (s.showNoKey k).sealed k = s.sealed k := by
  have hmode := s.regBits_showNoKey k (hi := 0) (lo := 0) (by decide)
  unfold regBits at hmode
  unfold sealed
  rw [bitOf_eq_bitsOf, bitOf_eq_bitsOf, hmode]

theorem txSlot_showNoKey (s : State) (k : Nat) : (s.showNoKey k).txSlot k = s.txSlot k :=
  s.regBits_showNoKey k (by decide)

theorem txSlot_lt (s : State) (k : Nat) : s.txSlot k < 2 := bitsOf_lt _ _ _

theorem slotState_showNoKey (s : State) (k : Nat) {slot : Nat} (h : slot < 2) :
    (s.showNoKey k).slotState k slot = s.slotState k slot := s.regBits_showNoKey k (by omega)

/-- FP_CTRL is not SEC_PORT_STATUS. -/
theorem fpCtrl_showNoKey (s : State) (k : Nat) : (s.showNoKey k).reg (Reg.fpCtrl k) = s.reg (Reg.fpCtrl k) :=
  reg_setField_ne _ _ _ _ _ _ (by simp only [Reg.fpCtrl, Reg.secPortStatus]; omega)

/-! ### Sequence FEX-1 from its start -/

theorem setField_fport (s : State) (a hi lo v k : Nat) : (s.setField a hi lo v).fport k = s.fport k := rfl

theorem fport_modFport_same {s : State} {k : Nat} (f : FarPort → FarPort) (h : k < s.farPorts.length) :
    (s.modFport k f).fport k = f (s.fport k) :=
  (modAt_getD _ _ _ _ _ h).trans (if_pos rfl)

/-- A port beyond the module's reads as a port at reset. -/
theorem fport_of_le {s : State} {k : Nat} (h : s.farPorts.length ≤ k) : s.fport k = {} := by
  unfold fport
  exact List.getD_eq_default _ _ h

/-- A port that is set to train anew has no lock. -/
theorem lock_modFport_unlocked (s : State) (k since : Nat) :
    ((s.modFport k fun q => { q with since := since, lock := false }).fport k).lock = false := by
  by_cases h : k < s.farPorts.length
  · rw [fport_modFport_same _ h]
  · have hnone : (s.modFport k fun q => { q with since := since, lock := false }).farPorts.length ≤ k := by
      simpa [modFport] using h
    rw [fport_of_le hnone]

@[simp] theorem showNoKey_emitted (s : State) (k : Nat) : (s.showNoKey k).emitted = s.emitted := rfl
@[simp] theorem showNoKey_items (s : State) (k : Nat) : (s.showNoKey k).items = s.items := rfl

/-- The start of a far port sends nothing and leaves the items. -/
theorem farStart_leaves (s : State) (k : Nat) :
    (s.farStart k).emitted = s.emitted ∧ (s.farStart k).items = s.items := by
  unfold farStart
  dsimp only
  split
  · simp
  · split
    · simp
    · split <;> simp

section
variable {s : State} {k : Nat} (hlive : s.farLive k = true) (hen : bitOf (s.reg (Reg.fpCtrl k)) 0 = true)
include hlive hen

/-- Where a far port that is on, clocked and enabled starts: SEALED without a key it stays OFF (R289); else it trains if
its module is usable, and is FAILED if not (R252). -/
theorem farStart_of_enabled : s.farStart k =
    if s.sealed k = true ∧ s.slotState k (s.txSlot k) = 0 then (s.showNoKey k).setField (Reg.fpStatus k) 5 0 0
    else
      let t := (s.showNoKey k).modFport k fun q => { q with since := s.now, lock := false }
      match s.moduleSpeed k with
      | none => t.setField (Reg.fpStatus k) 5 0 (4 + 1 * 8)
      | some speed => (t.setField (Reg.fpStatus k) 5 0 1).setField (Reg.fpStatus k) 6 6 speed := by
  obtain ⟨hon, hwire, -⟩ := (s.farLive_iff k).mp hlive
  obtain ⟨-, hfar, hlink⟩ := (s.farOn_iff k).mp hon
  have hfar' : (s.showNoKey k).live (pdFar k) = true := hfar
  have hlink' : (s.showNoKey k).live (pdLink k) = true := hlink
  have hwire' : (s.showNoKey k).wire (56 + k) .far = true := hwire
  unfold farStart
  dsimp only
  rw [fpCtrl_showNoKey, sealed_showNoKey, txSlot_showNoKey, slotState_showNoKey s k (s.txSlot_lt k), hfar', hlink', hwire',
    hen]
  simp only [Bool.not_true, Bool.or_false, Bool.false_eq_true, if_false, Bool.and_eq_true, beq_iff_eq]
  rfl

theorem fpState_farStart : (s.farStart k).fpState k =
    if s.sealed k = true ∧ s.slotState k (s.txSlot k) = 0 then 0 else if (s.moduleSpeed k).isSome then 1 else 4 := by
  rw [farStart_of_enabled hlive hen]
  split
  · exact fpState_setStatus _ k _
  · cases s.moduleSpeed k with
    | none => exact fpState_setStatus _ k _
    | some speed => exact (fpState_setSpeed _ k speed).trans (fpState_setStatus _ k _)

/-- A port that trains anew has yet to lock. -/
theorem lock_farStart (htrain : (s.farStart k).fpState k = 1) : ((s.farStart k).fport k).lock = false := by
  rw [farStart_of_enabled hlive hen] at htrain ⊢
  split at htrain
  · exact absurd ((fpState_setStatus _ k _).symm.trans htrain) (by decide)
  · next hkeyed =>
    rw [if_neg hkeyed]
    cases s.moduleSpeed k <;> simp only [setField_fport, lock_modFport_unlocked]

end

/-! ### The branches of the bring-up's commands -/

/-- Step 2: PCS locks in the 2 s of the training, and the port sends a PROBE. -/
theorem farPcsLock_in_time {s : State} {k : Nat} (hlive : s.farLive k = true) (htrain : s.fpState k = 1)
    (hlock : (s.fport k).lock = false) (hin : s.now ≤ (s.fport k).since + 2000000000) :
    s.farPcsLock k = (s.modFport k fun q => { q with lock := true, since := s.now }).sendProbe k := by
  obtain ⟨hon, hwire, -⟩ := (s.farLive_iff k).mp hlive
  have hlive' : (s.modFport k fun q => { q with lock := true, since := s.now }).farLive k = true := hlive
  unfold farPcsLock
  rw [if_neg (by simp [secNs, hon, hwire, htrain, hlock, hin])]
  exact if_pos hlive'

section
variable {s : State} {k : Nat} (hon : s.farOn k = true)
include hon

/-- A port without lock 2 s after its training began, or without a PROBE 1 s after its lock. -/
theorem farTimeout_of_due (htrain : s.fpState k = 1)
    (hdue : (s.fport k).since + (if (s.fport k).lock = true then 1000000000 else 2000000000) ≤ s.now) :
    s.farTimeout k = s.setField (Reg.fpStatus k) 5 0 (4 + 2 * 8) := by
  unfold farTimeout
  exact if_pos (by simpa [secNs, hon, htrain] using hdue)

theorem farPcsLoss_of_up (hup : s.fpState k = 2) : s.farPcsLoss k = s.farDown k 2 := by
  unfold farPcsLoss
  exact if_pos (by simp [hon, hup])

/-- An UP port that has heard no frame for 5 ms. -/
theorem farSilence_of_silent (hup : s.fpState k = 2) (hsilent : (s.fport k).since + 5000000 ≤ s.now) :
    s.farSilence k = s.farDown k 2 := by
  unfold farSilence
  rw [if_neg (by simpa [ms] using hsilent), farPcsLoss_of_up hon hup]

/-- A DOWN port whose EN is set, 100 ms after it went DOWN. -/
theorem farRetry_of_due (hdown : s.fpState k = 3) (hen : bitOf (s.reg (Reg.fpCtrl k)) 0 = true)
    (hdue : (s.fport k).since + 100000000 ≤ s.now) : s.farRetry k = s.farStart k := by
  unfold farRetry
  exact if_pos (by simpa [ms, hon, hdown, hen] using hdue)

end

end State

/-- Settles O55: each command takes its branch by the lemmas above on the state with its time passed; what a failure leaves
in FP_STATUS is said of the field (`fpState_setStatus`, `fpCause_setStatus`), what a retry leaves of the start of Sequence
FEX-1 (`fpState_farStart`, `lock_farStart`, `farStart_leaves`). -/
theorem farPortsTrainAndGoDown : Obligations.FarPortsTrainAndGoDown := by
  unfold Obligations.FarPortsTrainAndGoDown
  intro dt k s hon
  have hon' := (s.advance_farOn dt k).trans hon
  refine ⟨fun htrain hlock => ⟨fun hlive hin => ?_, fun hlate => ?_⟩, fun htrain hlock hlate => ?_,
    fun hup => ⟨?_, fun hsilent => ?_⟩, fun hlive hdown hen hdue => ?_⟩
  · rw [exec_farPcsLock, State.farPcsLock_in_time ((s.advance_farLive dt k).trans hlive)
      ((s.advance_fpState dt k).trans htrain) (by simpa using hlock) (by simpa using hin), s.advance_now]
  · rw [exec_farTrainingTimeout, State.farTimeout_of_due hon' ((s.advance_fpState dt k).trans htrain)
      (by simpa [hlock] using hlate)]
    exact ⟨_, rfl, (s.advance dt).fpState_setStatus k _, (s.advance dt).fpCause_setStatus k (by decide),
      s.advance_farPorts dt, s.advance_emitted dt⟩
  · rw [exec_farTrainingTimeout, State.farTimeout_of_due hon' ((s.advance_fpState dt k).trans htrain)
      (by simpa [hlock] using hlate)]
    exact ⟨_, rfl, (s.advance dt).fpState_setStatus k _, (s.advance dt).fpCause_setStatus k (by decide)⟩
  · rw [exec_farPcsLoss, State.farPcsLoss_of_up hon' ((s.advance_fpState dt k).trans hup)]
  · rw [exec_farFrameSilence, State.farSilence_of_silent hon' ((s.advance_fpState dt k).trans hup) (by simpa using hsilent)]
  · have hlive' := (s.advance_farLive dt k).trans hlive
    have hen' : bitOf ((s.advance dt).reg (Reg.fpCtrl k)) 0 = true := by rwa [s.advance_reg]
    have hstate := State.fpState_farStart hlive' hen'
    simp only [s.advance_sealed, s.advance_slotState, s.advance_txSlot, s.advance_moduleSpeed] at hstate
    have hlock := State.lock_farStart hlive' hen'
    obtain ⟨hemitted, hitems⟩ := (s.advance dt).farStart_leaves k
    rw [exec_farRetryTimer, State.farRetry_of_due hon' ((s.advance_fpState dt k).trans hdown) hen' (by simpa using hdue)]
    exact ⟨_, rfl, hstate, hlock, hemitted.trans (s.advance_emitted dt), hitems.trans (s.advance_items dt)⟩

end Sys2Proof.Machine
end

section
/-! ### Frames, acknowledgements, probes and resends go out (R260, R261, R263, R284, R299) -/

namespace Sys2Proof.Machine

theorem exec_frameTransmit (dt k miss : Nat) (s : State) :
    exec (.frameTransmit dt k miss) s = s.finish dt ((s.advance dt).frameTransmit k miss) := rfl
theorem exec_ackTimer (dt k : Nat) (s : State) : exec (.ackTimer dt k) s = s.finish dt ((s.advance dt).ackTimer k) := rfl
theorem exec_resendTimer (dt k stitch : Nat) (s : State) :
    exec (.resendTimer dt k stitch) s = s.finish dt ((s.advance dt).farResend k stitch) := rfl
theorem exec_probeInterval (dt k : Nat) (s : State) :
    exec (.probeInterval dt k) s = s.finish dt ((s.advance dt).probeInterval k) := rfl

/-- R299: a DRAINING slot whose window has ended. -/
theorem exec_overlapWindowEnd_of_ended {dt k slot e : Nat} {s : State} (hk : k < 6) (hslot : slot < 2)
    (hdraining : s.slotState k slot = 3) (hwindow : (s.keySlot k slot).windowEnd = some e) (hended : e ≤ s.now + dt) :
    exec (.overlapWindowEnd dt k slot) s = s.finish dt ((s.advance dt).zeroise k slot) :=
  congrArg (s.finish dt) (if_pos (by simp [hk, hslot, hdraining, hwindow, hended]))

namespace State

/-- Two changes of a port that agree on it are one. -/
theorem modFport_congr {s : State} {k : Nat} {f g : FarPort → FarPort} (h : f (s.fport k) = g (s.fport k)) :
    s.modFport k f = s.modFport k g := by
  unfold fport at h
  have hports : modAt s.farPorts k f = modAt s.farPorts k g := by
    refine List.ext_getElem? fun j => ?_
    by_cases hj : k = j
    · subst hj
      cases hport : s.farPorts[k]? with
      | none => simp [modAt, hport]
      | some q => simpa [modAt, hport, List.getD] using h
    · simp [modAt, hj]
  unfold modFport
  rw [hports]

section
variable {s : State} {k : Nat} (hlive : s.farLive k = true) (hup : s.fpState k = 2)
include hlive hup

section
variable (hseal : s.canSeal k = true) (hfree : (s.fport k).freeAt ≤ s.now)
include hseal hfree

/-- A port that is UP, may send, and whose wire is free. -/
theorem may_transmit :
    (!s.farLive k || s.fpState k != 2 || !s.canSeal k || decide (s.now < (s.fport k).freeAt)) = false := by
  simp [hlive, hup, hseal, hfree]

/-- R261: a frame that is due again goes first. -/
theorem frameTransmit_of_due {f : FarFrame} (hdue : s.pickDue k = some f) (miss : Nat) :
    s.frameTransmit k miss = (s.modFport k fun q =>
      { q with unacked := q.unacked.map fun (x : FarFrame) => if x.stitch = f.stitch
          then { f with due := false, resent := true, sentAt := s.now, resends := f.resends + 1 } else x }).sendData k
        { f with due := false, resent := true, sentAt := s.now, resends := f.resends + 1 } true miss := by
  unfold frameTransmit
  simp only [may_transmit hlive hup hseal hfree, hdue]
  rfl

/-- R261: else the next frame within the window goes, with the next stitch. -/
theorem frameTransmit_of_next {f : FarFrame} (hdue : s.pickDue k = none) (hnext : s.pick k = some f)
    (hwindow : (s.fport k).unacked.length < s.regBits (Reg.fpWindow k) 20 0)
    (hstitch : (s.fport k).nextStitch < 2 ^ 48 - 1) (miss : Nat) :
    s.frameTransmit k miss = (s.modFport k fun q =>
      { q with sendQueue := q.sendQueue.erase f
               unacked := q.unacked ++ [{ f with stitch := q.nextStitch, sentAt := s.now }]
               nextStitch := q.nextStitch + 1 }).sendData k
        { f with stitch := (s.fport k).nextStitch, sentAt := s.now } false miss := by
  unfold frameTransmit
  simp only [may_transmit hlive hup hseal hfree, hdue, hnext]
  rw [if_neg Bool.false_ne_true, if_neg (not_le.mpr hwindow), if_neg (not_le.mpr hstitch)]
  exact congrArg (fun t => State.sendData k _ false miss t) (modFport_congr rfl)

end

/-- R260: DATA frames came, and 64 of them or 50 µs have passed since the last ACK. -/
theorem ackTimer_of_due (hdata : 0 < (s.fport k).dataSinceAck)
    (hdue : 64 ≤ (s.fport k).dataSinceAck ∨ (s.fport k).ackedAt + 50000 ≤ s.now) : s.ackTimer k = s.sendFarAck k := by
  unfold ackTimer
  exact if_pos (by simp [hlive, hup, hdata, hdue])

/-- R263: no DATA frame went out in the interval. -/
theorem probeInterval_of_silent (hsilent : (s.fport k).sentDataAt ≠ some s.interval) :
    s.probeInterval k = s.sendProbe k := by
  unfold probeInterval
  exact if_pos (by simp [hlive, hup, hsilent])

end

/-- R261: the timer of a frame has run out. -/
theorem farResend_of_up {s : State} {k : Nat} (hon : s.farOn k = true) (hup : s.fpState k = 2) (stitch : Nat) :
    s.farResend k stitch = s.modFport k fun q =>
      { q with unacked := q.unacked.map fun (f : FarFrame) =>
          if f.stitch = stitch ∧ f.sentAt + s.rto k ≤ s.now then { f with due := true } else f } := by
  unfold farResend
  exact if_neg (by simp [hon, hup])

end State

/-- Settles O56: each command takes its branch by the lemmas above on the state with its time passed; the frame that goes out
takes the port's next stitch inside the change of the port or beside it (`modFport_congr`). -/
theorem farFramesGoOut : Obligations.FarFramesGoOut := by
  unfold Obligations.FarFramesGoOut
  intro dt k s hon
  have hon' := (s.advance_farOn dt k).trans hon
  refine ⟨fun hlive hup hseal hfree => ?_, fun hlive hup hdata hdue => ?_, fun hup stitch => ?_,
    fun hlive hup hsilent => ?_, fun slot e hslot hdraining hwindow hended => ?_⟩
  · have hlive' := (s.advance_farLive dt k).trans hlive
    have hup' := (s.advance_fpState dt k).trans hup
    have hseal' := (s.advance_canSeal dt k).trans hseal
    have hfree' : ((s.advance dt).fport k).freeAt ≤ (s.advance dt).now := by simpa using hfree
    refine ⟨fun miss f hdue => ?_, fun miss f hdue hnext hwindow hstitch => ?_⟩
    · rw [exec_frameTransmit, State.frameTransmit_of_due hlive' hup' hseal' hfree' hdue, s.advance_now]
    · rw [exec_frameTransmit, State.frameTransmit_of_next hlive' hup' hseal' hfree' hdue hnext (by simpa using hwindow)
        (by simpa using hstitch), s.advance_now, s.advance_fport]
  · rw [exec_ackTimer, State.ackTimer_of_due ((s.advance_farLive dt k).trans hlive) ((s.advance_fpState dt k).trans hup)
      (by simpa using hdata) (by simpa using hdue)]
  · rw [exec_resendTimer, State.farResend_of_up hon' ((s.advance_fpState dt k).trans hup), s.advance_now, s.advance_rto]
  · rw [exec_probeInterval, State.probeInterval_of_silent ((s.advance_farLive dt k).trans hlive)
      ((s.advance_fpState dt k).trans hup) (by simpa [State.interval] using hsilent)]
  · obtain ⟨hk, -, -⟩ := (s.farOn_iff k).mp hon
    exact exec_overlapWindowEnd_of_ended hk hslot hdraining hwindow hended

end Sys2Proof.Machine
end

section
/-! ### Voids, reviews and delay samples leave the state of a far port (R263 to R265) -/

namespace Sys2Proof.Machine

namespace State

/-- The registers that the voiding of items and transfers may change. -/
def voidRegs : List Nat := [Reg.prmVoids, Reg.prmEvents, Reg.errEvents, Reg.recEvents, Reg.recLost]

section
variable {a : Nat} (ha : a ∉ voidRegs)
include ha

/-- One PROMISE_VOID: counted, raised and recorded. -/
theorem reg_promiseVoid (s : State) (c v d u : Nat) (l : List Byte) :
    (((s.count Reg.prmVoids 1).raise .prm 1).detail c v d u l).reg a = s.reg a := by
  simp only [voidRegs, List.mem_cons, List.not_mem_nil, or_false, not_or] at ha
  obtain ⟨hvoids, hevents, herr, hrec, hlost⟩ := ha
  have hreport : a ∉ reportRegs := by simp [reportRegs, herr, hrec, hlost]
  rw [detail_reg _ _ _ _ _ _ _ hreport, raise_reg _ _ _ _ hreport, if_neg (show a ≠ EvSrc.prm.off from hevents), reg_count,
    if_neg hvoids]

theorem reg_voidGo (n c : Nat) (l : List Nat) (s : State) : (voidGo n c l s).reg a = s.reg a := by
  induction n generalizing l s with
  | zero => rfl
  | succ n ih =>
    unfold voidGo
    extract_lets hit t deps
    split
    · rfl
    · rw [ih]
      refine reg_foldl (fun u i => ?_) hit s
      dsimp only
      rw [reg_promiseVoid ha]
      rfl

theorem reg_voidItems (s : State) (c : Nat) (l : List Nat) : (s.voidItems c l).reg a = s.reg a := reg_voidGo ha _ c l s

theorem reg_voidTransfers (s : State) (c : Nat) (hit : Transfer → Bool) : (s.voidTransfers c hit).reg a = s.reg a := by
  unfold voidTransfers
  exact reg_foldl (fun u _ => reg_promiseVoid ha u _ _ _ _ _) _ _

theorem reg_reviewItem (s : State) (k id : Nat) : (s.reviewItem k id).reg a = s.reg a := by
  unfold reviewItem
  split
  · rfl
  · dsimp only
    rw [apply_ite (reg · a), reg_voidItems ha, ite_self]

theorem reg_reviewPort (s : State) (k : Nat) : (s.reviewPort k).reg a = s.reg a := by
  unfold reviewPort
  split
  · rfl
  · split
    · rfl
    · exact (reg_voidTransfers ha _ 1 _).trans (reg_foldl (fun u id => reg_reviewItem ha u k id) _ s)

end

/-- FP_STATUS is none of the registers of the voids and reports. -/
theorem fpStatus_notVoid {k : Nat} : Reg.fpStatus k ∉ voidRegs := by
  simp only [voidRegs, Reg.fpStatus, Reg.prmVoids, Reg.prmEvents, Reg.errEvents, Reg.recEvents, Reg.recLost, List.mem_cons,
    List.not_mem_nil, or_false]
  omega

theorem fpStatus_notReport {k : Nat} : Reg.fpStatus k ∉ reportRegs := by
  simp only [reportRegs, Reg.fpStatus, Reg.errEvents, Reg.recEvents, Reg.recLost, List.mem_cons, List.not_mem_nil, or_false]
  omega

/-- FP_DREF is not FP_STATUS. -/
theorem reg_setDref (s : State) (k v : Nat) : (s.setReg (Reg.fpDref k) v).reg (Reg.fpStatus k) = s.reg (Reg.fpStatus k) :=
  reg_setReg_ne _ _ _ _ (by simp only [Reg.fpStatus, Reg.fpDref]; omega)

/-- R264: a new path changes FP_DREF, FP_PATH_CHANGES and what reports it. -/
theorem fpState_pathChange (s : State) (k : Nat) (x : Int) : (s.pathChange k x).fpState k = s.fpState k := by
  refine regBits_congr ?_ 2 0
  unfold pathChange
  dsimp only
  rw [reg_reviewPort fpStatus_notVoid, reg_count, if_neg (by simp only [Reg.fpStatus, Reg.fpPathChanges]; omega),
    raise_reg _ _ _ _ fpStatus_notReport, if_neg (by simp only [EvSrc.off, Reg.fpStatus, Reg.fpEvents]; omega), reg_setDref]
  rfl

theorem fpState_modFport (s : State) (j k : Nat) (f : FarPort → FarPort) : (s.modFport j f).fpState k = s.fpState k := rfl

theorem fpState_setDref (s : State) (k v : Nat) : (s.setReg (Reg.fpDref k) v).fpState k = s.fpState k :=
  regBits_congr (s.reg_setDref k v) 2 0

/-- R263: a delay sample. -/
theorem fpState_delaySample (s : State) (k txtime : Nat) : (s.delaySample k txtime).fpState k = s.fpState k := by
  unfold delaySample
  dsimp only
  split
  · rfl
  · split
    · exact fpState_setDref _ k _
    · simp only [apply_ite (fpState · k), fpState_setDref, fpState_pathChange, fpState_modFport, ite_self]

end State

end Sys2Proof.Machine
end

section
/-! ### Frames that arrive (R254 to R258) -/

namespace Sys2Proof.Machine

theorem exec_ngtDataFrame (dt k : Nat) (f : List Byte) (miss : Nat) (s : State) :
    exec (.ngtDataFrame dt k f miss) s
      = s.finish dt (State.farFrameIn k 1 f miss (fun h p t => t.farData k h p) (s.advance dt)) := rfl
theorem exec_ngtAck (dt k : Nat) (f : List Byte) (miss : Nat) (s : State) :
    exec (.ngtAck dt k f miss) s
      = s.finish dt (State.farFrameIn k 2 f miss (fun h p t => t.farAck k h p) (s.advance dt)) := rfl
theorem exec_probe (dt k : Nat) (f : List Byte) (miss : Nat) (s : State) :
    exec (.probe dt k f miss) s
      = s.finish dt (State.farFrameIn k 3 f miss (fun h p t => t.probeIn k h p) (s.advance dt)) := rfl

namespace State

/-- A PROBE at a port that is UP has had its effect with its delay sample. -/
theorem probeIn_of_up {s : State} {k : Nat} (hup : s.fpState k = 2) (h : NgtHead) (p : List Byte) : s.probeIn k h p = s := by
  unfold probeIn
  exact if_neg (by simp [hup])

section
variable {s : State} {k : Nat} {f : List Byte} (hlive : s.farLive k = true) (hup : s.fpState k = 2)
include hlive hup

/-- An UP port hears a frame. -/
theorem hears_frame :
    (!s.farLive k || !(s.fpState k == 2 || (s.fpState k == 1 && (s.fport k).lock))) = false := by
  simp [hlive, hup]

/-- R254, R255: a frame that cannot be unwrapped counts. -/
theorem farFrameIn_of_foreign (hunwrap : s.unwrapFrame k f = none) (typ miss : Nat)
    (act : NgtHead → List Byte → State → State) :
    farFrameIn k typ f miss act s = (s.modFport k fun q => { q with since := s.now }).farBad k := by
  have hunwrap' : (s.modFport k fun q => { q with since := s.now }).unwrapFrame k f = none := hunwrap
  unfold farFrameIn
  rw [hears_frame hlive hup, if_neg Bool.false_ne_true, if_pos hup]
  simp only [hunwrap']

/-- A frame that can be unwrapped is looked at as an NGT frame. -/
theorem farFrameIn_of_ngt {b : List Byte} (hunwrap : s.unwrapFrame k f = some (some b)) (typ miss : Nat)
    (act : NgtHead → List Byte → State → State) :
    farFrameIn k typ f miss act s = (s.modFport k fun q => { q with since := s.now }).ngtIn k typ b miss act := by
  have hunwrap' : (s.modFport k fun q => { q with since := s.now }).unwrapFrame k f = some (some b) := hunwrap
  unfold farFrameIn
  rw [hears_frame hlive hup, if_neg Bool.false_ne_true, if_pos hup]
  simp only [hunwrap']

end

section
variable {s : State} {k : Nat} {b : List Byte} {h : NgtHead} {p : List Byte} (hhead : NgtHead.parse (b.take 64) = h)
  (hbody : (b.drop 64).take h.paylen = p) (hseal : s.sealed k = false) (hlen : b.length = 80 + h.paylen)
  (hpay : payloadOk h.typ h.paylen = true) (hres : ngtReserved (b.take 64) = false) (hplain : bitOf h.flags 0 = false)
include hhead hbody hseal hlen hpay hres hplain

/-- R256, R257: a plain frame of good lengths at an unsealed port stands or falls with its trailer. -/
theorem ngtIn_of_plain (typ miss : Nat) (act : NgtHead → List Byte → State → State) :
    s.ngtIn k typ b miss act =
      if plainTrailer (b.take 64) p (b.drop (64 + h.paylen)) = true then s.goodFrame k typ h p act else s.farBad k := by
  subst hhead hbody
  unfold ngtIn
  dsimp only
  rw [if_neg (by simp [hlen, hpay, hres]), if_neg (by simp [hplain, hseal]), hseal, if_neg Bool.false_ne_true]
  cases plainTrailer (b.take 64) ((b.drop 64).take (NgtHead.parse (b.take 64)).paylen)
    (b.drop (64 + (NgtHead.parse (b.take 64)).paylen)) <;> rfl

/-- R256: its CRC is bad. -/
theorem ngtIn_of_badCrc (hcrc : fld b (64 + h.paylen) 4 ≠ Crypto.crc32 (b.take 64 ++ p)) (typ miss : Nat)
    (act : NgtHead → List Byte → State → State) : s.ngtIn k typ b miss act = s.farBad k := by
  rw [ngtIn_of_plain hhead hbody hseal hlen hpay hres hplain]
  exact if_neg (by simpa [plainTrailer, fld] using fun hgood => absurd hgood hcrc)

/-- R256 to R258: its trailer is good, and so are its plane and epoch. It gives its delay sample, and acts where it is of
the command's type. -/
theorem ngtIn_of_goodFrame (hcrc : fld b (64 + h.paylen) 4 = Crypto.crc32 (b.take 64 ++ p))
    (hzero : zeroIn (b.drop (64 + h.paylen)) 4 16 = true) (hup : s.fpState k = 2) (hok : s.frameOk k h p = true)
    (miss : Nat) (act : NgtHead → List Byte → State → State) :
    s.ngtIn k h.typ b miss act = act h p (s.delaySample k h.txtime) := by
  have htrailer : plainTrailer (b.take 64) p (b.drop (64 + h.paylen)) = true := by
    unfold plainTrailer
    rw [hzero, Bool.and_true, beq_iff_eq, ← hcrc]
    rfl
  have hnote : s.noteCounter k h = s := if_pos (Or.inr (by simp [hplain]))
  rw [ngtIn_of_plain hhead hbody hseal hlen hpay hres hplain, if_pos htrailer]
  unfold goodFrame
  simp only [hok, hnote, hup, Bool.not_true, Bool.false_eq_true, if_false, if_true]

end

end State

/-- Settles O57: the frame ends the silence and is unwrapped (`farFrameIn_of_foreign`, `farFrameIn_of_ngt`); its trailer is
judged and it acts (`ngtIn_of_badCrc`, `ngtIn_of_goodFrame`). A PROBE adds nothing to its delay sample, which leaves the
port UP (`fpState_delaySample`). -/
theorem farFramesAreCheckedAndTaken : Obligations.FarFramesAreCheckedAndTaken := by
  unfold Obligations.FarFramesAreCheckedAndTaken
  intro dt k f b miss s hlive hup hseal w h p g
  have hlive' := (s.advance_farLive dt k).trans hlive
  have hup' := (s.advance_fpState dt k).trans hup
  have hupw : w.fpState k = 2 := hup'
  have hsealw : w.sealed k = false := (s.advance_sealed dt k).trans hseal
  have hw : ((s.advance dt).modFport k fun q => { q with since := (s.advance dt).now }) = w := by rw [s.advance_now]
  refine ⟨fun hunwrap => ?_, fun hunwrap hlen hpay hres hplain => ?_⟩
  · have hforeign := State.farFrameIn_of_foreign hlive' hup' ((s.advance_unwrapFrame dt k f).trans hunwrap)
    simp only [hw] at hforeign
    simp only [List.forall_mem_cons, exec_ngtDataFrame, exec_ngtAck, exec_probe, hforeign]
    exact ⟨trivial, trivial, trivial, List.forall_mem_nil _⟩
  · have hngt := State.farFrameIn_of_ngt hlive' hup' ((s.advance_unwrapFrame dt k f).trans hunwrap)
    simp only [hw] at hngt
    refine ⟨fun hcrc => ?_, fun hcrc hzero hok => ?_⟩
    · have hbad := State.ngtIn_of_badCrc rfl rfl hsealw hlen hpay hres hplain hcrc
      simp only [List.forall_mem_cons, exec_ngtDataFrame, exec_ngtAck, exec_probe, hngt, hbad]
      exact ⟨trivial, trivial, trivial, List.forall_mem_nil _⟩
    · have hgood := State.ngtIn_of_goodFrame rfl rfl hsealw hlen hpay hres hplain hcrc hzero hupw hok
      have htaken {typ : Nat} (htyp : h.typ = typ) (act : NgtHead → List Byte → State → State) :
          State.farFrameIn k typ f miss act (s.advance dt) = act h p g := by
        rw [hngt, ← htyp, hgood]
      rw [exec_ngtDataFrame, exec_ngtAck, exec_probe]
      refine ⟨fun htyp => ?_, fun htyp => ?_, fun htyp => ?_⟩
      · rw [htaken htyp]
      · rw [htaken htyp]
      · rw [htaken htyp, State.probeIn_of_up ((State.fpState_delaySample _ _ _).trans hupw)]

end Sys2Proof.Machine
end

section
/-! ### What a gateway knows of a round and shard (R262, R273, R276) -/

namespace Sys2Proof.Machine

/-- What is put in place of the members that pass a test, and passes it, is the member found by it. -/
theorem find?_replace_same {α : Type} {p : α → Bool} {a : α} (ha : p a = true) (l : List α) :
    (l.filter (fun x => !p x) ++ [a]).find? p = some a := by
  have hnone : (l.filter fun x => !p x).find? p = none := by simp [List.find?_filter]
  rw [List.find?_append, hnone]
  simp [ha]

/-- A test that fails of what is replaced, and of what is put in its place, finds what it found. -/
theorem find?_replace_other {α : Type} {p q : α → Bool} {a : α} (hq : ∀ x, q x = true → p x = false)
    (ha : q a = false) (l : List α) : (l.filter (fun x => !p x) ++ [a]).find? q = l.find? q := by
  have hkept : (l.filter fun x => !p x).find? q = l.find? q := by
    rw [List.find?_filter]
    congr 1
    funext x
    cases hx : q x
    · simp
    · simp [hq x hx]
  rw [List.find?_append, hkept]
  simp [ha]

namespace State

/-- A message that is taken leaves the inbox, and nothing else changes. -/
theorem takeFar_some {s u : State} {kind : Nat} {ok : FarMsg → Bool} {m : FarMsg} (h : s.takeFar kind ok = some (m, u)) :
    u = { s with farInbox := s.farInbox.erase m } := by
  unfold takeFar at h
  split at h
  · cases h
  · split at h <;> cases h
    rfl

/-! ### Receive slots -/

/-- What is found under a key bears it. -/
theorem recvSlot_key (s : State) (round origin shard : Nat) :
    (s.recvSlot round origin shard).round = round ∧ (s.recvSlot round origin shard).origin = origin
      ∧ (s.recvSlot round origin shard).shard = shard := by
  unfold recvSlot
  cases h : s.recvSlots.find? _ with
  | none => exact ⟨rfl, rfl, rfl⟩
  | some r => simpa [and_assoc] using List.find?_some h

theorem recvSlot_congr {s t : State} (h : t.recvSlots = s.recvSlots) (round origin shard : Nat) :
    t.recvSlot round origin shard = s.recvSlot round origin shard := by
  unfold recvSlot
  rw [h]

/-- A slot that was put is found under its key. -/
theorem recvSlot_putSlot {r : RecvSlot} {round origin shard : Nat}
    (h : r.round = round ∧ r.origin = origin ∧ r.shard = shard) (s : State) :
    (s.putSlot r).recvSlot round origin shard = r := by
  obtain ⟨rfl, rfl, rfl⟩ := h
  have hfind := find?_replace_same
    (p := fun (x : RecvSlot) => x.round == r.round && x.origin == r.origin && x.shard == r.shard) (a := r) (by simp)
    s.recvSlots
  exact congrArg (fun o => o.getD
    { round := r.round, origin := r.origin, shard := r.shard, ranges := [], complete := false }) hfind

/-! ### Exchanges -/

theorem exch_key (s : State) (round shard : Nat) :
    (s.exch round shard).round = round ∧ (s.exch round shard).shard = shard := by
  unfold exch
  cases h : s.exchanges.find? _ with
  | none => exact ⟨rfl, rfl⟩
  | some e => simpa using List.find?_some h

/-- What is known of a round and shard, after a change that keeps its key. -/
theorem exch_modExch_same {s : State} {round shard : Nat} {f : Exchange → Exchange}
    (hround : (f (s.exch round shard)).round = (s.exch round shard).round)
    (hshard : (f (s.exch round shard)).shard = (s.exch round shard).shard) :
    (s.modExch round shard f).exch round shard = f (s.exch round shard) := by
  obtain ⟨hr, hs⟩ := s.exch_key round shard
  rw [hr] at hround
  rw [hs] at hshard
  have hfind := find?_replace_same (p := fun (e : Exchange) => e.round == round && e.shard == shard)
    (a := f (s.exch round shard)) (by simp [hround, hshard]) s.exchanges
  exact congrArg (fun o => o.getD { round := round, shard := shard }) hfind

/-- What is known of another round of the shard. -/
theorem exch_modExch_ne {s : State} {round round' shard : Nat} {f : Exchange → Exchange}
    (hround : (f (s.exch round shard)).round = (s.exch round shard).round) (hne : round' ≠ round) :
    (s.modExch round shard f).exch round' shard = s.exch round' shard := by
  obtain ⟨hr, -⟩ := s.exch_key round shard
  have hfind := find?_replace_other (p := fun (e : Exchange) => e.round == round && e.shard == shard)
    (q := fun (e : Exchange) => e.round == round' && e.shard == shard) (a := f (s.exch round shard))
    (fun e he => by simp at he; simp [he, hne]) (by simp [hround, hr, hne.symm]) s.exchanges
  exact congrArg (fun o => o.getD { round := round', shard := shard }) hfind

end State

end Sys2Proof.Machine
end

section
/-! ### Contributions, HOLDs, MANIFESTs and FETCHes (R262, R273, R275 to R278) -/

namespace Sys2Proof.Machine

/-- The fetches of an origin's contribution end. -/
def Exchange.endFetches (origin : Nat) (e : Exchange) : Exchange :=
  { e with fetches := e.fetches.filter (·.1 != origin) }

theorem exec_contribMsg (dt : Nat) (s : State) : exec (.contribMsg dt) s = s.finish dt (s.advance dt).contribMsg := rfl
theorem exec_hold (dt : Nat) (s : State) : exec (.hold dt) s = s.finish dt (s.advance dt).holdIn := rfl
theorem exec_manifest (dt : Nat) (s : State) : exec (.manifest dt) s = s.finish dt (s.advance dt).manifestIn := rfl
theorem exec_fetch (dt : Nat) (s : State) : exec (.fetch dt) s = s.finish dt (s.advance dt).fetchIn := rfl

namespace State

/-! ### Late contributions (R276) -/

theorem fxEvent_only (s : State) (bit : Nat) : s.OnlyReports (s.fxEvent bit) := raiseAt_only _ _ _ _ _

theorem fxEvent_reg (s : State) (bit : Nat) {a : Nat} (hfx : a ≠ Reg.fxEvents) (hreport : a ∉ reportRegs) :
    (s.fxEvent bit).reg a = s.reg a :=
  (raiseAt_reg _ _ _ _ _ _ hreport).trans (if_neg hfx)

theorem fxEvent_sets (s : State) {bit : Nat} (h : bit < 64) : bitOf ((s.fxEvent bit).reg Reg.fxEvents) bit = true :=
  raiseAt_sets s .fx bit _ _ h (by decide)

/-- A contribution that has come sets its event at most. -/
theorem noteLate_cases (s : State) (round origin shard : Nat) :
    s.noteLate round origin shard = s ∨ s.noteLate round origin shard = s.fxEvent 6 := by
  unfold noteLate
  split
  · split
    · exact .inl rfl
    · exact .inr rfl
  · exact .inl rfl

theorem noteLate_only (s : State) (round origin shard : Nat) : s.OnlyReports (s.noteLate round origin shard) := by
  rcases s.noteLate_cases round origin shard with h | h <;> rw [h]
  · exact .refl s
  · exact s.fxEvent_only 6

theorem noteLate_reg (s : State) (round origin shard : Nat) {a : Nat} (hfx : a ≠ Reg.fxEvents)
    (hreport : a ∉ reportRegs) : (s.noteLate round origin shard).reg a = s.reg a := by
  rcases s.noteLate_cases round origin shard with h | h <;> rw [h]
  exact s.fxEvent_reg 6 hfx hreport

/-- Log 58: neither the manifest of its round nor the next one's late mask takes it. -/
theorem noteLate_of_dropped {s : State} {round origin shard a b : Nat} {p q : Nat × List Nat × Nat}
    (hown : (s.exch round shard).manifest = some (a, p)) (hnext : (s.exch (round + 1) shard).manifest = some (b, q))
    (hontime : bitOf a origin = false) (hlate : bitOf q.1 origin = false) :
    s.noteLate round origin shard = s.fxEvent 6 := by
  unfold noteLate
  simp only [hown, hnext]
  exact if_neg (by simp [hontime, hlate])

/-! ### CONTRIB_MSG (R262, R273) -/

/-- A contribution is held: its fetches and its transfer end. -/
def holdContrib (m : FarMsg) (s : State) : State :=
  ((s.putSlot { s.recvSlot m.round m.origin m.shard with held := true }).modExch m.round m.shard
    (Exchange.endFetches m.origin)).endTransfer m.round m.shard m.origin

section
variable {s u : State} {m : FarMsg} {x : FxShard} (hm : s.takeFar 1 (fun _ => true) = some (m, u))
  (hx : u.fxShard? m.shard = some x) (hcomplete : (u.recvSlot m.round m.origin m.shard).complete = true)
  (hround : u.roundOk m.round = true)
include hm hx hcomplete hround

theorem contribMsg_of_good (hgood : x.malformed (u.readHbm (x.slot m.round m.origin) x.size) = false) :
    s.contribMsg = (u.holdContrib m).noteLate m.round m.origin m.shard := by
  unfold contribMsg
  simp only [hm, hx]
  rw [if_neg (by simp [hcomplete, hround]), if_neg (by simp [hgood])]
  rfl

theorem contribMsg_of_malformed (hbad : x.malformed (u.readHbm (x.slot m.round m.origin) x.size) = true) :
    s.contribMsg = u.putSlot { u.recvSlot m.round m.origin m.shard with ranges := [], complete := false } := by
  unfold contribMsg
  simp only [hm, hx]
  rw [if_neg (by simp [hcomplete, hround]), if_pos hbad]

end

theorem recvSlot_holdContrib (s : State) (m : FarMsg) : (s.holdContrib m).recvSlot m.round m.origin m.shard =
    { s.recvSlot m.round m.origin m.shard with held := true } :=
  s.recvSlot_putSlot (r := { s.recvSlot m.round m.origin m.shard with held := true }) (s.recvSlot_key _ _ _)

/-- Its manifests are as they were. -/
theorem manifest_holdContrib (s : State) (m : FarMsg) :
    ((s.holdContrib m).exch m.round m.shard).manifest = (s.exch m.round m.shard).manifest
      ∧ ((s.holdContrib m).exch (m.round + 1) m.shard).manifest = (s.exch (m.round + 1) m.shard).manifest := by
  have hown := congrArg Exchange.manifest (exch_modExch_same
    (s := s.putSlot { s.recvSlot m.round m.origin m.shard with held := true }) (round := m.round) (shard := m.shard)
    (f := Exchange.endFetches m.origin) rfl rfl)
  have hnext := congrArg Exchange.manifest (exch_modExch_ne
    (s := s.putSlot { s.recvSlot m.round m.origin m.shard with held := true }) (round := m.round) (shard := m.shard)
    (f := Exchange.endFetches m.origin) rfl (Nat.succ_ne_self m.round))
  exact ⟨hown, hnext⟩

/-! ### HOLD, MANIFEST, FETCH (R275, R277, R278) -/

/-- A HOLD of a round that is not past. -/
theorem holdIn_of_message {s u : State} {m : FarMsg} (hm : s.takeFar 2 (fun _ => true) = some (m, u))
    (hround : u.notPast m.round = true) : s.holdIn = (List.range (m.body.length / 8)).foldl (fun s i =>
      let r := (m.body.drop (8 * i)).take 8
      if (s.fxShard? (fld r 0 4)).isNone then s
      else s.modExch m.round (fld r 0 4) fun e =>
        { e with holds := (m.origin, fld r 4 2, fld r 6 2) :: e.holds.filter (·.1 != m.origin) }) u := by
  unfold holdIn
  simp only [hm, hround]
  rfl

theorem manifestIn_of_message {s u : State} {m : FarMsg} (hm : s.takeFar 3 (fun _ => true) = some (m, u)) :
    s.manifestIn = (List.range ((m.body.length - 8) / 16)).foldl (fun s i =>
      s.manifestRecord m.round (fld m.body 0 1) ((m.body.drop (8 + 16 * i)).take 16)) u := by
  unfold manifestIn
  simp only [hm]

/-- A FETCH of a contribution that is held here. -/
theorem fetchIn_of_held {s u : State} {m : FarMsg} {x : FxShard} (hm : s.takeFar 4 (fun _ => true) = some (m, u))
    (hx : u.fxShard? m.shard = some x) (hheld : u.memberHeld m.round (fld m.body 0 1) m.shard = true) :
    s.fetchIn = u.sendTo
      { kind := 1, mirror := false, dst := m.origin, origin := fld m.body 0 1, round := m.round, shard := m.shard
        offset := 0, msglen := 0, payload := .hbm (u.memberAt x m.round (fld m.body 0 1)) x.size, item := none
        relay := true } := by
  unfold fetchIn
  simp only [hm, hx, hheld]
  rfl

end State

/-- Settles O58: each message takes its branch by the lemmas above. Of a contribution that is held, its slot is the one put
(`recvSlot_holdContrib`), and what its lateness reports leaves all but the events (`noteLate_cases`, `fxEvent_only`,
`fxEvent_reg`). -/
theorem contributionsAreHeldAndFetched : Obligations.ContributionsAreHeldAndFetched := by
  unfold Obligations.ContributionsAreHeldAndFetched
  refine fun dt s => ⟨fun m u x hm hx hcomplete hround => ⟨fun hgood => ?_, fun hbad => ?_⟩, fun m u hm hround => ?_,
    fun m u hm => ?_, fun m u x hm hx hheld => ?_⟩
  · rw [exec_contribMsg, State.contribMsg_of_good hm hx hcomplete hround hgood]
    have honly := (u.holdContrib m).noteLate_only m.round m.origin m.shard
    have hreg := fun a => (u.holdContrib m).noteLate_reg m.round m.origin m.shard (a := a)
    have hslot := u.recvSlot_holdContrib m
    obtain ⟨hown, hnext⟩ := u.manifest_holdContrib m
    obtain rfl := State.takeFar_some hm
    refine ⟨_, rfl, ?_, honly.hbm.trans (s.advance_hbm dt), honly.items.trans (s.advance_items dt), fun a ha => ?_,
      fun a b p q htaken hafter hontime hlate => ?_⟩
    · exact congrArg RecvSlot.held ((State.recvSlot_congr honly.recvSlots _ _ _).trans hslot)
    · rw [List.mem_cons, not_or] at ha
      exact (hreg a ha.1 ha.2).trans (s.advance_reg dt a)
    · rw [State.noteLate_of_dropped (hown.trans ((congrArg Exchange.manifest (s.advance_exch dt _ _)).trans htaken))
        (hnext.trans ((congrArg Exchange.manifest (s.advance_exch dt _ _)).trans hafter)) hontime hlate]
      exact State.fxEvent_sets _ (by decide)
  · rw [exec_contribMsg, State.contribMsg_of_malformed hm hx hcomplete hround hbad]
    have hslot := u.recvSlot_putSlot
      (r := { u.recvSlot m.round m.origin m.shard with ranges := [], complete := false }) (u.recvSlot_key _ _ _)
    obtain rfl := State.takeFar_some hm
    exact ⟨_, rfl, congrArg RecvSlot.complete hslot, congrArg RecvSlot.ranges hslot, s.advance_hbm dt, s.advance_regs dt⟩
  · rw [exec_hold, State.holdIn_of_message hm hround]
  · rw [exec_manifest, State.manifestIn_of_message hm]
  · rw [exec_fetch, State.fetchIn_of_held hm hx hheld]

end Sys2Proof.Machine
end

section
/-! ### Manifests, fetches and roots in time (R275 to R278, R280) -/

namespace Sys2Proof.Machine

theorem exec_manifestCutoff (dt round shard : Nat) (s : State) :
    exec (.manifestCutoff dt round shard) s = s.finish dt ((s.advance dt).manifestCutoff round shard) := rfl
theorem exec_manifestTakeover (dt round shard : Nat) (s : State) :
    exec (.manifestTakeover dt round shard) s = s.finish dt ((s.advance dt).takeover round shard) := rfl
theorem exec_holdSend (dt round : Nat) (s : State) :
    exec (.holdSend dt round) s = s.finish dt ((s.advance dt).holdSend round) := rfl
theorem exec_fetchRetry (dt round shard origin : Nat) (s : State) :
    exec (.fetchRetry dt round shard origin) s = s.finish dt ((s.advance dt).fetchRetry round shard origin) := rfl
theorem exec_anchorDigestWait (dt round shard : Nat) (s : State) :
    exec (.anchorDigestWait dt round shard) s = s.finish dt ((s.advance dt).digestWait round shard) := rfl

namespace State

/-- The record of a shard is the same after time has passed. -/
theorem advance_fxShard? (s : State) (dt shard : Nat) : (s.advance dt).fxShard? shard = s.fxShard? shard := by
  unfold fxShard?
  rw [advance_fxShards]

/-! ### The manifest (R276, R277) -/

/-- The rank of the manifest that this site forms in place of a coordinator that has not; 0: none. -/
def takeoverRank (s : State) (round shard : Nat) : Nat :=
  if s.rotation (round + 1) = s.site
      ∧ (s.exch round shard).past s.now (s.regBits Reg.fxCutoff 23 0 + s.regBits Reg.fxMwait 23 0) = true then 1
  else if s.rotation (round + 2) = s.site
      ∧ (s.exch round shard).past s.now (s.regBits Reg.fxCutoff 23 0 + 2 * s.regBits Reg.fxMwait 23 0) = true then 2
  else 0

section
variable {s : State} {round shard : Nat} (hgate : s.gateway = true) (hshard : (s.fxShard? shard).isSome = true)
  (hpast : s.notPast round = true) (hnone : (s.exch round shard).manifest = none)
include hgate hshard hpast hnone

/-- The coordinating gateway, at its cutoff. -/
theorem manifestCutoff_of_due (hsite : s.rotation round = s.site)
    (hdue : (s.exch round shard).past s.now (s.regBits Reg.fxCutoff 23 0) = true) :
    s.manifestCutoff round shard = s.makeManifest (s.exch round shard) 0 := by
  unfold manifestCutoff
  exact if_pos (by simp [hgate, hshard, hpast, hnone, hsite, hdue])

/-- A site whose turn it is to take over. -/
theorem takeover_of_rank {rank : Nat} (hrank : s.takeoverRank round shard = rank) (hpos : rank ≠ 0) :
    s.takeover round shard = (s.makeManifest { s.exch round shard with holds := [] } rank).fxEvent 0 := by
  subst hrank
  exact if_pos (by simpa [hgate, hshard, hpast, hnone, takeoverRank] using hpos)

end

/-- The next site of the rotation, one FX_MWAIT after the cutoff. -/
theorem takeoverRank_of_next {s : State} {round shard : Nat} (hsite : s.rotation (round + 1) = s.site)
    (hdue : (s.exch round shard).past s.now (s.regBits Reg.fxCutoff 23 0 + s.regBits Reg.fxMwait 23 0) = true) :
    s.takeoverRank round shard = 1 := if_pos ⟨hsite, hdue⟩

/-- The site after that one, two FX_MWAIT after the cutoff. -/
theorem takeoverRank_of_second {s : State} {round shard : Nat} (hother : s.rotation (round + 1) ≠ s.site)
    (hsite : s.rotation (round + 2) = s.site)
    (hdue : (s.exch round shard).past s.now (s.regBits Reg.fxCutoff 23 0 + 2 * s.regBits Reg.fxMwait 23 0) = true) :
    s.takeoverRank round shard = 2 :=
  (if_neg fun h => hother h.1).trans (if_pos ⟨hsite, hdue⟩)

/-! ### HOLD_SEND (R275) -/

/-- A message that goes to a site leaves the exchange table. -/
theorem rotation_tell (s : State) (kind dst round shard : Nat) (body : List Byte) (i : Nat) :
    (s.tell kind dst round shard body).rotation i = s.rotation i := by
  unfold tell sendTo queueFar
  split <;> rfl

/-- The coordinator to whom bodies go one after another stays the same. -/
theorem foldl_tell_rotation (round : Nat) (l : List (List Byte)) (s : State) :
    l.foldl (fun v b => v.tell 2 (v.rotation round) round 0 b) s
      = l.foldl (fun v b => v.tell 2 (s.rotation round) round 0 b) s := by
  induction l generalizing s with
  | nil => rfl
  | cons b l ih => rw [List.foldl_cons, List.foldl_cons, ih, rotation_tell]

/-- The first holdings of a round that are any. -/
theorem holdSend_of_first {s : State} {round : Nat} (hgate : s.gateway = true) (hpast : s.notPast round = true)
    (hsite : s.rotation round ≠ s.site) (hrecords : s.holdRecords round ≠ [])
    (hfirst : s.lastHold.find? (·.1 == round) = none)
    (hany : ((s.holdRecords round).any fun r => !zeroIn r 4 8) = true) :
    s.holdSend round = (bodiesOf (s.holdRecords round).length (s.holdRecords round)).foldl
      (fun v b => v.tell 2 (s.rotation round) round 0 b)
      { s with lastHold := (round, s.now, (s.holdRecords round).flatten)
                 :: s.lastHold.filter fun x => x.1 != round && s.notPast x.1 } := by
  unfold holdSend
  simp only [hfirst, hany]
  rw [if_neg (by simp [hgate, hpast, hsite, hrecords])]
  exact foldl_tell_rotation round _ _

/-! ### FETCH_RETRY (R278) -/

/-- A FETCH that has not been answered in time. -/
theorem fetchRetry_of_due {s : State} {round shard origin n t : Nat} (hgate : s.gateway = true)
    (hfetch : (s.exch round shard).fetches.find? (·.1 == origin) = some (origin, n, t))
    (hheld : s.memberHeld round origin shard = false)
    (hdue : t + 2 * s.rttEnv (min (s.portTo ((s.fetchCycle (s.namedHolder round shard origin) origin).getD
      ((n - 1) % max 1 (s.fetchCycle (s.namedHolder round shard origin) origin).length) 0)) 5) ≤ s.now) :
    s.fetchRetry round shard origin =
      (if n = 8 then s.fxEvent 2 else s).sendFetch (s.namedHolder round shard origin) round shard origin := by
  unfold fetchRetry
  simp only [hfetch]
  exact if_neg (by simpa [hgate, hheld] using hdue)

/-! ### ANCHOR_DIGEST_WAIT (R280) -/

/-- The wait for a majority of roots has ended. -/
theorem digestWait_of_due {s : State} {round shard : Nat} (hgate : s.gateway = true)
    (hmerged : (s.exch round shard).merged = true) (hproceed : (s.exch round shard).proceed = false)
    (hheld : (s.exch round shard).held = false) (hasked : (s.exch round shard).asked = [])
    (hdue : ((s.exch round shard).ownRoot.any fun x => decide (x.2 + s.regBits Reg.fxMwait 23 0 * 1000 ≤ s.now)) = true) :
    s.digestWait round shard =
      let v := s.judgeRoots round shard
      if (v.exch round shard).proceed || (v.exch round shard).asked != [] then v
      else (v.modExch round shard fun e => { e with held := true }).fxEvent 4 := by
  unfold digestWait
  exact if_neg (by simp [hgate, hmerged, hproceed, hheld, hasked, hdue])

end State

/-- Settles O59: each command takes its branch by the lemmas above on the state with its time passed; the HOLD bodies all go
to the coordinator of the state before them (`foldl_tell_rotation`). -/
theorem manifestsComeInTime : Obligations.ManifestsComeInTime := by
  unfold Obligations.ManifestsComeInTime
  intro dt round shard s hgate w e
  have hgate' := (s.advance_gateway dt).trans hgate
  refine ⟨fun hshard hpast hnone => ?_, fun hpast hsite hrecords hfirst hany => ?_, fun origin n t hfetch hheld hdue => ?_,
    fun hmerged hproceed hheld hasked hdue => ?_⟩
  · have hshard' := (congrArg Option.isSome (s.advance_fxShard? dt shard)).trans hshard
    have hpast' := (s.advance_notPast dt round).trans hpast
    have hnone' := (congrArg Exchange.manifest (s.advance_exch dt round shard)).trans hnone
    refine ⟨fun hsite hdue => ?_, fun hsite hdue => ?_, fun hother hsite hdue => ?_⟩
    · rw [exec_manifestCutoff, State.manifestCutoff_of_due hgate' hshard' hpast' hnone' (by simpa using hsite)
        (by simpa using hdue), s.advance_exch]
    · have hrank := State.takeoverRank_of_next (s := s.advance dt) (by simpa using hsite) (by simpa using hdue)
      rw [exec_manifestTakeover, State.takeover_of_rank hgate' hshard' hpast' hnone' hrank (by decide), s.advance_exch]
    · have hrank := State.takeoverRank_of_second (s := s.advance dt) (by simpa using hother) (by simpa using hsite)
        (by simpa using hdue)
      rw [exec_manifestTakeover, State.takeover_of_rank hgate' hshard' hpast' hnone' hrank (by decide), s.advance_exch]
  · refine ⟨_, rfl, ?_⟩
    rw [exec_holdSend, State.holdSend_of_first hgate' ((s.advance_notPast dt round).trans hpast) (by simpa using hsite)
      (by simpa using hrecords) (by simpa using hfirst) (by simpa using hany)]
    simp only [s.advance_holdRecords, s.advance_rotation, s.advance_notPast, s.advance_now, s.advance_lastHold, w]
  · have hheld' := (s.advance_memberHeld dt round origin shard).trans hheld
    rw [exec_fetchRetry, State.fetchRetry_of_due hgate' (by simpa using hfetch) hheld' (by simpa using hdue),
      s.advance_namedHolder]
  · rw [exec_anchorDigestWait, State.digestWait_of_due hgate' (by simpa using hmerged) (by simpa using hproceed)
      (by simpa using hheld) (by simpa using hasked) (by simpa using hdue)]

end Sys2Proof.Machine
end

section
/-! ### Roots, queries, snapshots and joins (R280 to R282) -/

namespace Sys2Proof.Machine

theorem exec_digest (dt : Nat) (s : State) : exec (.digest dt) s = s.finish dt (s.advance dt).digestIn := rfl
theorem exec_dquery (dt : Nat) (s : State) : exec (.dquery dt) s = s.finish dt (s.advance dt).dqueryIn := rfl
theorem exec_dnodes (dt : Nat) (s : State) : exec (.dnodes dt) s = s.finish dt (s.advance dt).dnodesIn := rfl
theorem exec_snapReq (dt : Nat) (s : State) : exec (.snapReq dt) s = s.finish dt (s.advance dt).snapReqIn := rfl
theorem exec_snapshot (dt : Nat) (s : State) : exec (.snapshot dt) s = s.finish dt (s.advance dt).snapshotIn := rfl
theorem exec_joinMsg (dt : Nat) (s : State) : exec (.joinMsg dt) s = s.finish dt (s.advance dt).joinIn := rfl

namespace State

/-! ### Anchor digests (R280) -/

/-- A DIGEST of one record: a root of an anchor of this site's. -/
theorem digestIn_of_root {s u : State} {m : FarMsg} (hm : s.takeFar 5 (fun _ => true) = some (m, u))
    (hlen : m.body.length = 16) (hround : m.round ≠ 0) (hshard : (u.fxShard? (fld m.body 0 4)).isSome = true) :
    s.digestIn = (u.modExch (m.round - 1) (fld m.body 0 4) fun e =>
      { e with roots := (m.origin, BitVec.ofNat 64 (fld m.body 8 8)) :: e.roots.filter (·.1 != m.origin) }).judgeRoots
        (m.round - 1) (fld m.body 0 4) := by
  have hrecord : (m.body.drop (16 * 0)).take 16 = m.body := List.take_of_length_le hlen.le
  unfold digestIn
  simp only [hm, hlen, Nat.div_self (Nat.succ_pos 15), List.range_one, List.foldl_cons, List.foldl_nil, hrecord]
  exact if_neg (by simp [hround, Option.isSome_iff_ne_none.mp hshard])

theorem dqueryIn_of_shard {s u : State} {m : FarMsg} {x : FxShard} (hm : s.takeFar 6 (fun _ => true) = some (m, u))
    (hx : u.fxShard? m.shard = some x) : s.dqueryIn = u.tell 7 m.origin m.round m.shard (leBytes 8 (fld m.body 0 8)
      ++ (childDigests (u.anchorLeaves x) (bitsOf (fld m.body 0 8) 23 16) (bitsOf (fld m.body 0 8) 63 24)).flatMap
        (leBytes 8)) := by
  unfold dqueryIn
  simp only [hm, hx]

/-- Child digests that were asked for. -/
theorem dnodesIn_of_asked {s u : State} {m : FarMsg} {x : FxShard} (hm : s.takeFar 7 (fun _ => true) = some (m, u))
    (hx : u.fxShard? m.shard = some x) (hround : m.round ≠ 0) {level node : Nat}
    (hlevel : bitsOf (fld m.body 0 8) 23 16 = level) (hnode : bitsOf (fld m.body 0 8) 63 24 = node) (habove : level ≠ 0)
    (hasked : (m.origin, level, node) ∈ (u.exch (m.round - 1) m.shard).asked) :
    s.dnodesIn =
      let own := childDigests (u.anchorLeaves x) level node
      let theirs := (List.range ((m.body.length - 8) / 8)).map fun i => fld m.body (8 + 8 * i) 8
      (State.askNodes (m.round - 1) m.shard
        (((List.range own.length).filter fun i => own.getD i 0 != theirs.getD i 0).map fun i =>
          (m.origin, level - 1, 64 * node + i))
        (u.modExch (m.round - 1) m.shard fun e => { e with asked := e.asked.erase (m.origin, level, node) })).settleRepair
          (m.round - 1) m.shard := by
  unfold dnodesIn
  simp only [hm, hx, hlevel, hnode]
  exact if_neg (by simp [hround, habove, hasked])

/-! ### Snapshots (R282) -/

/-- A request for an anchor or a momentum whose round has its majority. -/
theorem snapReqIn_of_majority {s u : State} {m : FarMsg} {x : FxShard}
    (hm : s.takeFar 9 (fun m => m.round != 0 && (s.exch (m.round - 1) m.shard).proceed) = some (m, u))
    (hx : u.fxShard? m.shard = some x) (hitem : fld m.body 0 1 = 4 ∨ fld m.body 0 1 = 5) :
    s.snapReqIn =
      let img := u.shardImage x (fld m.body 0 1) m.round
      u.sendTo { u.ownMsg 10 m.origin m.round m.shard
        (if fld m.body 8 4 = 0 then img else (img.drop (fld m.body 4 4)).take (fld m.body 8 4)) with relay := true } := by
  unfold snapReqIn
  simp only [hm, hx]
  exact if_neg (by omega)

section
variable {s u : State} {m : FarMsg} (hm : (s.takeFar 10 fun m => (s.snapItem m).all fun it =>
  !s.exportHeld it.id (fld it.desc 44 6) m.body.length) = some (m, u))
include hm

/-- A whole image that a fetch waits for, within its capacity. -/
theorem snapshotIn_of_fetch {it : Item} (hit : u.snapItem m = some it) (hblock : u.blockAsked m = none)
    (hfits : m.body.length ≤ fld it.desc 52 4) :
    s.snapshotIn = ((u.writeHbm (fld it.desc 44 6) m.body).itemDone it.id Code.ok it.farDetail).reportTransfers it.id
      m.round m.shard := by
  unfold snapshotIn
  simp only [hm, hit, hblock]
  rw [if_pos (.inr rfl), if_neg (not_lt.mpr hfits)]

/-- A block of the anchor that was asked for. -/
theorem snapshotIn_of_block {b : Nat} (hit : u.snapItem m = none) (hblock : u.blockAsked m = some b) :
    s.snapshotIn = u.putBlock m b := by
  unfold snapshotIn
  simp only [hm, hit, hblock]

end

/-! ### Joining (R281) -/

section
variable {s u : State} {m : FarMsg} (hm : s.takeFar 8 (fun _ => true) = some (m, u))
include hm

/-- An answer: the joiner is told its round. -/
theorem joinIn_of_answer (htold : fld m.body 4 4 ≠ 0) :
    s.joinIn = { u with joining := assoc u.joining (fld m.body 0 1) (fld m.body 4 4) }.fxEvent 8 := by
  unfold joinIn
  simp only [hm]
  exact if_pos htold

/-- Log 61: the first request of a site, from the site itself. -/
theorem joinIn_of_joiner (htold : fld m.body 4 4 = 0) (hfirst : look u.joining (fld m.body 0 1) = none)
    (hhop : m.hop = fld m.body 0 1) :
    s.joinIn =
      let site := fld m.body 0 1
      let round := u.reg Reg.fxRound + 2
      let v := { u with joining := assoc u.joining site round }.fxEvent 8
      State.cast 8 0 0 m.body (v.queueFar m.port
        (cutMessage (v.ownMsg 8 site 0 0 (leBytes 1 site ++ zeros 3 ++ leBytes 4 round)))) := by
  unfold joinIn
  simp only [hm, hfirst]
  rw [if_neg (not_not.mpr htold)]
  exact if_neg (not_not.mpr hhop)

end

end State

/-- Settles O60: each message takes its branch by the lemmas above. -/
theorem anchorsAreComparedAndServed : Obligations.AnchorsAreComparedAndServed := by
  unfold Obligations.AnchorsAreComparedAndServed
  refine fun dt s => ⟨fun m u hm hlen hround hshard => ?_, fun m u x hm hx => ?_,
    fun m u x hm hx hround => ?_, fun m u x hm hx hitem => ?_,
    fun m u hm => ⟨fun it hit hblock hfits => ?_, fun b hit hblock => ?_⟩,
    fun m u hm => ?_⟩
  · rw [exec_digest, State.digestIn_of_root hm hlen hround hshard]
  · rw [exec_dquery, State.dqueryIn_of_shard hm hx]
  · intro level node habove hasked
    rw [exec_dnodes, State.dnodesIn_of_asked hm hx hround rfl rfl habove hasked]
  · rw [exec_snapReq, State.snapReqIn_of_majority hm hx hitem]
  · rw [exec_snapshot, State.snapshotIn_of_fetch hm hit hblock hfits]
  · rw [exec_snapshot, State.snapshotIn_of_block hm hit hblock]
  · have hu := State.takeFar_some hm
    have hjoining : u.joining = s.joining := by rw [hu]; exact s.advance_joining dt
    have hreg : u.reg Reg.fxRound = s.reg Reg.fxRound := by rw [hu]; exact s.advance_reg dt _
    refine ⟨fun htold => ?_, fun htold hfirst hhop => ?_⟩
    · rw [exec_joinMsg, State.joinIn_of_answer hm htold]
    · rw [← hjoining] at hfirst
      rw [exec_joinMsg, State.joinIn_of_joiner hm htold hfirst hhop, hreg]

end Sys2Proof.Machine
end

/-! ## Link security and critical commands (O4, O5, O7, O31, O36): fuses, keys, seal modes, lockouts -/

section
/-! ### Fuses (R304, R305, R369) -/

namespace Sys2Proof.Machine

/-- A bit of the four-bit masks of Table CLK-5, after one bit was ORed in. -/
theorem bitOf_or_slot (x : BitVec 4) (slot : Nat) {n : Nat} (hn : n < 4) :
    bitOf (x ||| BitVec.ofNat 4 (2 ^ slot)).toNat n = (bitOf x.toNat n || decide (slot = n)) := by
  rw [bitOf_eq, bitOf_eq, BitVec.toNat_or, BitVec.toNat_ofNat, Nat.testBit_or, Nat.testBit_mod_two_pow, Nat.testBit_two_pow]
  simp [hn]

theorem ofNat_slot_of_le {slot : Nat} (h : 4 ≤ slot) : BitVec.ofNat 4 (2 ^ slot) = 0 := by
  apply BitVec.eq_of_toNat_eq
  rw [BitVec.toNat_ofNat]
  exact Nat.mod_eq_zero_of_dvd (pow_dvd_pow 2 h)

theorem and_or_self_left {w : Nat} (x y : BitVec w) : x &&& (x ||| y) = x := by
  ext i
  simp only [BitVec.getElem_and, BitVec.getElem_or]
  cases x[i] <;> rfl

namespace Fuses

theorem rootSlot_isSome (f : Fuses) : f.rootSlot.isSome = true ↔
    ∃ n, n < 4 ∧ bitOf f.programmed.toNat n = true ∧ bitOf f.revoked.toNat n = false := by
  simp [rootSlot, List.find?_isSome]

theorem usable_iff (f : Fuses) (slot : Nat) : f.usable slot = true ↔
    ∃ n, n < 4 ∧ n ≠ slot ∧ bitOf f.programmed.toNat n = true ∧ bitOf f.revoked.toNat n = false := by
  simp [usable, and_assoc]

theorem Within.refl (f : Fuses) : f.Within f := by simp [Within]

/-- What a change of the fuses may do: it clears none, and leaves a sound module sound. -/
def Grows (f g : Fuses) : Prop := (f.Sound → g.Sound) ∧ f.Within g

theorem Grows.refl (f : Fuses) : f.Grows f := ⟨id, .refl f⟩

/-- A value ORed into one root key clears no bit of any. -/
theorem orks_within (l : List (BitVec 256)) (slot : Nat) (v : BitVec 256) (n : Nat) :
    l.getD n 0 &&& (modAt l slot (· ||| v)).getD n 0 = l.getD n 0 := by
  by_cases hslot : slot < l.length
  · rw [modAt_getD l slot n _ 0 hslot]
    split
    · next h => rw [h, and_or_self_left]
    · exact BitVec.and_self
  · have hout : modAt l slot (· ||| v) = l := List.modify_eq_self (by omega)
    rw [hout, BitVec.and_self]

theorem program_within (field slot : Nat) (v : BitVec 256) (f : Fuses) : f.Within (f.program field slot v) := by
  unfold program Within
  split
  · simpa [and_or_self_left] using orks_within f.orks slot v
  split
  · simp [and_or_self_left]
  split <;> simp [and_or_self_left]

/-- A root key programmed: its slot becomes the root of an UNOWNED module, and an OWNED one keeps the root slot it had. -/
theorem program_ork_sound (slot : Nat) (v : BitVec 256) {f : Fuses} (h : f.Sound) : (f.program 0 slot v).Sound := by
  have hprog : (f.program 0 slot v).programmed = f.programmed ||| BitVec.ofNat 4 (2 ^ slot) := rfl
  have hrev : (f.program 0 slot v).revoked = f.revoked := rfl
  rcases h with ⟨hp, hr⟩ | hroot
  · by_cases hslot : slot < 4
    · refine .inr ((rootSlot_isSome _).2 ⟨slot, hslot, ?_, ?_⟩)
      · rw [hprog, bitOf_or_slot _ _ hslot]; simp
      · rw [hrev, hr]; simp [bitOf_eq]
    · refine .inl ⟨?_, hrev.trans hr⟩
      rw [hprog, hp, ofNat_slot_of_le (by omega)]; rfl
  · obtain ⟨n, hn, hset, hclear⟩ := (rootSlot_isSome f).1 hroot
    refine .inr ((rootSlot_isSome _).2 ⟨n, hn, ?_, hrev ▸ hclear⟩)
    rw [hprog, bitOf_or_slot _ _ hn, hset]; rfl

theorem program_grows (field slot : Nat) (v : BitVec 256) (f : Fuses) : f.Grows (f.program field slot v) := by
  refine ⟨fun h => ?_, program_within field slot v f⟩
  by_cases hork : field = 0
  · subst hork; exact program_ork_sound slot v h
  · have hclock : (f.program field slot v).programmed = f.programmed ∧ (f.program field slot v).revoked = f.revoked := by
      unfold program
      rw [if_neg hork]
      split
      · exact ⟨rfl, rfl⟩
      split <;> exact ⟨rfl, rfl⟩
    unfold Sound rootSlot at h ⊢
    rw [hclock.1, hclock.2]
    exact h

/-- A slot revoked while another is usable: that other one stays a root. -/
theorem revoke_grows {f : Fuses} {slot : Nat} (h : f.usable slot = true) :
    f.Grows { f with revoked := f.revoked ||| BitVec.ofNat 4 (2 ^ slot) } := by
  obtain ⟨n, hn, hne, hset, hclear⟩ := (usable_iff f slot).1 h
  refine ⟨fun _ => .inr ((rootSlot_isSome _).2 ⟨n, hn, hset, ?_⟩), ?_⟩
  · show bitOf (f.revoked ||| BitVec.ofNat 4 (2 ^ slot)).toNat n = false
    rw [bitOf_or_slot _ _ hn, hclear]
    simp [hne.symm]
  · simp [Within, and_or_self_left]

end Fuses

namespace State

/-! ### What a decision does to the fuses: what the start of its item does -/

section
variable {R : Fuses → Fuses → Prop} {start : ItemStart}

theorem startItem_fuses (hrefl : ∀ f, R f f) (hstart : ∀ it (u : State), R u.fuses (start it u).fuses) (s : State) (id : Nat) :
    R s.fuses (s.startItem start id).fuses := by
  unfold startItem
  split
  · next it _ =>
    split
    · exact hrefl _
    · exact hstart it (s.modItem id fun i => { i with started := true })
  · exact hrefl _

theorem refuse_fuses (s : State) (t : Taken) (r : Refuse) : (s.refuse t r).fuses = s.fuses := (refuse_records s t r).fuses

theorem decideTaken_fuses (hrefl : ∀ f, R f f) (hstart : ∀ it (u : State), R u.fuses (start it u).fuses) (s : State)
    (check : ItemCheck) (t : Taken) : R s.fuses (s.decideTaken check start t).fuses := by
  have hauth := (authed_only s t.bytes).fuses
  unfold decideTaken
  split
  · next u c h =>
    rw [h] at hauth
    rw [refuse_fuses, hauth]
    exact hrefl _
  · next u h =>
    rw [h] at hauth
    split
    · rw [refuse_fuses, hauth]
      exact hrefl _
    · next p ts tp dw _ =>
      rw [← hauth, ← (accept_only u t p ts tp dw).fuses]
      exact startItem_fuses hrefl hstart _ _

theorem flushBad_fuses (n : Nat) (s : State) : (flushBad n s).fuses = s.fuses := by
  induction n generalizing s with
  | zero => rfl
  | succ n ih =>
    unfold flushBad
    split
    · next t rest _ =>
      split
      · rfl
      · rw [ih]
        exact decideTaken_fuses (R := fun f g => g = f) (fun _ => rfl) (fun _ _ => rfl) { s with taken := rest } _ _
    · rfl

theorem decideRow_fuses (hrefl : ∀ f, R f f) (hstart : ∀ it (u : State), R u.fuses (start it u).fuses) (s : State)
    (kind : Nat × Nat) (check : ItemCheck) : R s.fuses (decideRow kind check start s).fuses := by
  unfold decideRow
  split
  · exact hrefl _
  split
  · next t rest _ =>
    split
    · rw [flushBad_fuses]
      exact decideTaken_fuses hrefl hstart (s.setTaken rest) check t
    · exact hrefl _
  · exact hrefl _

end

theorem itemDone_fuses (s : State) (id c : Nat) (l : List Byte) : (s.itemDone id c l).fuses = s.fuses := rfl

theorem fuseStart_grows (it : Item) (s : State) : s.fuses.Grows (fuseStart it s).fuses := by
  unfold fuseStart
  dsimp only
  split
  · exact .refl _
  · exact Fuses.program_grows _ _ _ _

theorem revokeStart_grows (it : Item) (s : State) : s.fuses.Grows (revokeStart it s).fuses := by
  unfold revokeStart
  dsimp only
  split
  · exact .refl _
  · next h => exact Fuses.revoke_grows (by simpa using h)

theorem fuseItemStart_grows (s : State) (id : Nat) : s.fuses.Grows (s.fuseItemStart id).fuses := by
  unfold fuseItemStart
  split
  · exact .refl _
  · refine startItem_fuses Fuses.Grows.refl (fun it u => ?_) s id
    split
    · exact fuseStart_grows it u
    · exact revokeStart_grows it u

end State

theorem exec_fuseProgram (dt : Nat) (s : State) :
    exec (.fuseProgram dt) s = s.finishFuses dt (State.decideRow (0x45, 0) fuseCheck fuseStart (s.advance dt)) := rfl
theorem exec_fuseRevoke (dt : Nat) (s : State) :
    exec (.fuseRevoke dt) s = s.finishFuses dt (State.decideRow (0x45, 1) revokeCheck revokeStart (s.advance dt)) := rfl
theorem exec_itemStart_fuse {dt id : Nat} {s : State} (h : s.isFuseItem id = true) :
    exec (.itemStart dt id) s = s.finishFuses dt ((s.advance dt).fuseItemStart id) := by
  have h' : (s.advance dt).isFuseItem id = true := by simpa [State.isFuseItem] using h
  exact if_pos h'
theorem exec_itemStart_other {dt id : Nat} {s : State} (h : s.isFuseItem id = false) :
    exec (.itemStart dt id) s = s.finish dt ((s.advance dt).itemStart id) := by
  have h' : ¬ (s.advance dt).isFuseItem id = true := by simpa [State.isFuseItem] using h
  exact if_neg h'

/-- R369: every command but the three that may change fuses ends in `finish`, which keeps them. -/
theorem exec_finishes {c : Instr} {s : State} (hfuse : ∀ dt, c ≠ .fuseProgram dt ∧ c ≠ .fuseRevoke dt)
    (hstart : ∀ dt id, c = .itemStart dt id → s.isFuseItem id = false) : ∃ dt t, exec c s = s.finish dt t := by
  cases c
  case fuseProgram dt => exact absurd rfl (hfuse dt).1
  case fuseRevoke dt => exact absurd rfl (hfuse dt).2
  case itemStart dt id => exact ⟨_, _, exec_itemStart_other (hstart dt id rfl)⟩
  all_goals exact ⟨_, _, rfl⟩

theorem exec_keepsFuses {c : Instr} {s t : State} (hfuse : ∀ dt, c ≠ .fuseProgram dt ∧ c ≠ .fuseRevoke dt)
    (hstart : ∀ dt id, c = .itemStart dt id → s.isFuseItem id = false) (h : exec c s = .next t) : t.fuses = s.fuses := by
  obtain ⟨dt, u, hu⟩ := exec_finishes hfuse hstart
  rw [hu, State.finish_next] at h
  cases h
  rfl

theorem finishFuses_grows {s t u : State} {dt : Nat} (hu : s.fuses.Grows u.fuses) (h : s.finishFuses dt u = .next t) :
    s.fuses.Grows t.fuses := by
  rw [State.finishFuses_next] at h
  cases h
  exact hu

/-- R304, R305: no command clears a fuse or leaves an OWNED module without a usable root slot. -/
theorem exec_growsFuses {c : Instr} {s t : State} (h : exec c s = .next t) : s.fuses.Grows t.fuses := by
  by_cases hprog : ∃ dt, c = .fuseProgram dt
  · obtain ⟨dt, rfl⟩ := hprog
    refine finishFuses_grows ?_ (exec_fuseProgram dt s ▸ h)
    rw [← s.advance_fuses dt]
    exact State.decideRow_fuses Fuses.Grows.refl State.fuseStart_grows _ _ _
  by_cases hrev : ∃ dt, c = .fuseRevoke dt
  · obtain ⟨dt, rfl⟩ := hrev
    refine finishFuses_grows ?_ (exec_fuseRevoke dt s ▸ h)
    rw [← s.advance_fuses dt]
    exact State.decideRow_fuses Fuses.Grows.refl State.revokeStart_grows _ _ _
  by_cases hitem : ∃ dt id, c = .itemStart dt id ∧ s.isFuseItem id = true
  · obtain ⟨dt, id, rfl, hid⟩ := hitem
    refine finishFuses_grows ?_ (exec_itemStart_fuse hid ▸ h)
    rw [← s.advance_fuses dt]
    exact State.fuseItemStart_grows _ _
  · rw [exec_keepsFuses (fun dt => ⟨fun e => hprog ⟨dt, e⟩, fun e => hrev ⟨dt, e⟩⟩)
      (fun dt id e => by simpa using fun hid => hitem ⟨dt, id, e, hid⟩) h]
    exact .refl _

/-- Settles O4: every command ends in `finish`, which keeps the fuses, but the two rows of FUSE_PROGRAM and the ITEM_START of
such an item; those change fuses by the start of their item alone, which ORs bits in and revokes no last usable slot. -/
theorem fusesStaySound : Obligations.FusesStaySound := by
  unfold Obligations.FusesStaySound
  intro s t hsound hstep
  unfold step at hstep
  split at hstep
  · next hempty =>
    cases hstep
    refine ⟨hsound, .refl _, fun c rest hc => ?_⟩
    rw [hempty] at hc
    cases hc
  · next c rest hpending =>
    have hgrows : s.fuses.Grows t.fuses := exec_growsFuses (s := { s with pending := rest }) hstep
    refine ⟨hgrows.1 hsound, hgrows.2, fun c' rest' hc hfuse hitem => ?_⟩
    rw [hpending] at hc
    cases hc
    refine exec_keepsFuses (s := { s with pending := rest }) hfuse (fun dt id he => ?_) hstep
    show (s.item? id).any (fun i => dType i.desc == 0x45) = false
    rw [Option.any_eq_false]
    exact fun it hit => by simpa using hitem dt id he it hit

end Sys2Proof.Machine
end

section
/-! ### Decisions (R312, R317, R344) -/

namespace Sys2Proof.Machine

/-- The id of the item that the descriptor at the head would become. -/
def State.headId (s : State) : Nat := (s.taken.head?.map fun t => itemId t.ring t.index).getD 0

/-- A row of `decisionRows` decides the descriptor at the head; what follows the decision (R221) is for that one's item. -/
theorem exec_decisionRow : ∀ r ∈ decisionRows, ∀ (dt : Nat) (s : State),
    exec (r.cmd dt) s
      = s.finish dt (r.after (s.advance dt).headId (State.decideRow r.kind r.check r.start (s.advance dt))) := by
  unfold decisionRows
  simp only [List.forall_mem_cons, List.not_mem_nil, false_implies, implies_true, and_true]
  and_intros
  all_goals exact fun _ _ => rfl

/-- The item that starts is that of the descriptor at the head. -/
theorem State.starts_headId {s u : State} {kind : Nat × Nat} {check : ItemCheck} {it : Item}
    (h : s.starts kind check = some (it, u)) : it.id = s.headId := by
  obtain ⟨d, hd, -, -, -, v, p, ts, tp, dw, -, -, hit, -⟩ := starts_spec s kind check it u h
  have hid : it.id = itemId d.ring d.index := by simpa [item?] using List.find?_some hit
  rw [hid, headId, hd]
  rfl

/-- Settles O5: the row's command is `decideRow`, which takes the descriptor and runs its item's start on the state that the
decision leaves. -/
theorem decisionRowsStartTheirItem : Obligations.DecisionRowsStartTheirItem := by
  unfold Obligations.DecisionRowsStartTheirItem
  intro r hr dt s it u h
  obtain ⟨-, -, -, -, hdecides, -⟩ := State.starts_spec _ _ _ _ _ h
  refine ⟨?_, State.starts_taken _ _ _ _ _ h, hdecides⟩
  rw [exec_decisionRow r hr, State.decideRow_starts _ _ _ _ _ _ h, State.starts_headId h]

end Sys2Proof.Machine
end

section
/-! ### Lockouts and the noise source (R308, R313) -/

namespace Sys2Proof.Machine

theorem exec_lockoutEnd (dt : Nat) (s : State) : exec (.lockoutEnd dt) s = s.finish dt (s.advance dt).lockoutEnd := rfl
theorem exec_entropyHealthFailure (dt : Nat) (lasting : Bool) (s : State) :
    exec (.entropyHealthFailure dt lasting) s = s.finish dt ((s.advance dt).entropyFail lasting) := rfl

namespace State

theorem lockoutEnd_of_due {s : State} {t0 : Nat} (h : s.lockoutAt = some t0) (hdue : t0 + 1000000000 ≤ s.now) :
    s.lockoutEnd = { s with lockoutAt := none }.setField Reg.secStatus 13 13 0 := by
  unfold lockoutEnd
  simp only [h, hdue, if_true]

theorem lockoutEnd_of_early {s : State} {t0 : Nat} (h : s.lockoutAt = some t0) (hearly : s.now < t0 + 1000000000) :
    s.lockoutEnd = s := by
  unfold lockoutEnd
  simp only [h, Nat.not_le.2 hearly, if_false]

theorem entropyFail_of_live {s : State} (h : s.live 94 = true) (lasting : Bool) :
    s.entropyFail lasting = ({ s with noiseFault := lasting }.setField Reg.secStatus 1 0 2).raise .sec 2 := if_pos h

/-- Raising an event of the security block leaves SEC_STATUS. -/
theorem raise_sec_status (s : State) (b : Nat) : (s.raise .sec b).reg Reg.secStatus = s.reg Reg.secStatus := by
  rw [raise_reg _ _ _ _ (by decide), if_neg (by decide)]

/-- The health state, put as FAILED, reads as FAILED in its upper bit. -/
theorem regBits_failed (s : State) : (s.setField Reg.secStatus 1 0 2).regBits Reg.secStatus 1 1 = 1 := by
  have hfield : bitsOf ((s.setField Reg.secStatus 1 0 2).reg Reg.secStatus) 1 0 = 2 :=
    s.regBits_setField Reg.secStatus 1 0 2 (by decide) (by decide)
  unfold regBits bitsOf at *
  omega

end State

/-- Settles O31: the boundary instant is the end of the lockout, and the events of the security block leave SEC_STATUS. -/
theorem lockoutsEndAndNoiseFails : Obligations.LockoutsEndAndNoiseFails := by
  unfold Obligations.LockoutsEndAndNoiseFails
  intro dt s
  refine ⟨fun t0 h hdue => ?_, fun t0 h hearly => ?_, fun lasting hlive => ?_⟩
  · have hend := State.lockoutEnd_of_due (s := s.advance dt) (by simpa using h) (by simpa using hdue)
    refine ⟨_, exec_lockoutEnd dt s, ?_⟩
    rw [hend]
    refine ⟨rfl, State.regBits_setField _ Reg.secStatus 13 13 0 (by decide) (by decide), ?_, ?_, ?_⟩
    · exact (State.reg_setField_ne _ _ _ _ _ _ (by decide)).trans (s.advance_reg dt _)
    · exact (State.reg_setField_ne _ _ _ _ _ _ (by decide)).trans (s.advance_reg dt _)
    · exact s.advance_cak dt
  · rw [exec_lockoutEnd, State.lockoutEnd_of_early (by simpa using h) (by simpa using hearly)]
  · have hfail := State.entropyFail_of_live (s := s.advance dt) (by simpa using hlive) lasting
    refine ⟨_, exec_entropyHealthFailure dt lasting s, ?_⟩
    rw [hfail]
    have hraise := State.raise_only ({ s.advance dt with noiseFault := lasting }.setField Reg.secStatus 1 0 2) .sec 2
    refine ⟨?_, State.raise_sets _ .sec 2 (by decide) (by decide), hraise.noiseFault, hraise.cak.trans (s.advance_cak dt)⟩
    exact (State.regBits_congr (State.raise_sec_status _ 2) 1 1).trans (State.regBits_failed _)

end Sys2Proof.Machine
end

section
/-! ### Key slots and seal modes (R288, R298, R299, Tables SEC-1 and SEC-2) -/

namespace Sys2Proof.Machine

theorem secPortStatus_ne_fpStatus (j k : Nat) : Reg.secPortStatus j ≠ Reg.fpStatus k := by
  simp only [Reg.secPortStatus, Reg.fpStatus]; omega

theorem secPortStatus_ne {j k : Nat} (h : j ≠ k) : Reg.secPortStatus j ≠ Reg.secPortStatus k := by
  simp only [Reg.secPortStatus]; omega

theorem txctr_ne_secPortStatus (k slot j : Nat) : txctr k slot ≠ Reg.secPortStatus j := by
  unfold txctr
  split <;> simp only [Reg.secPortStatus, Reg.secTxctr0, Reg.secTxctr1] <;> omega

theorem txctr_ne_fpStatus (k slot j : Nat) : txctr k slot ≠ Reg.fpStatus j := by
  unfold txctr
  split <;> simp only [Reg.fpStatus, Reg.secTxctr0, Reg.secTxctr1] <;> omega

namespace State

/-! ### The fields of SEC_PORT_STATUS -/

theorem slotState_setSlotState_same (s : State) (k : Nat) {slot v : Nat} (hslot : slot < 2) (hv : v < 4) :
    (s.setSlotState k slot v).slotState k slot = v := by
  unfold slotState setSlotState
  rw [regBits_setField _ _ _ _ _ (by omega) (by omega), show 4 + 2 * slot + 1 - (3 + 2 * slot) = 2 by omega]
  exact Nat.mod_eq_of_lt hv

theorem reg_setSlotState_ne (s : State) (k slot v : Nat) {a : Nat} (h : a ≠ Reg.secPortStatus k) :
    (s.setSlotState k slot v).reg a = s.reg a := reg_setField_ne _ _ _ _ _ _ h

/-- A field of the port beside the slot's state. -/
theorem regBits_setSlotState (s : State) (k : Nat) {slot v hi lo : Nat} (hhi : hi < 64)
    (hbeside : hi < 3 + 2 * slot ∨ 4 + 2 * slot < lo) :
    (s.setSlotState k slot v).regBits (Reg.secPortStatus k) hi lo = s.regBits (Reg.secPortStatus k) hi lo :=
  regBits_setField_other _ _ _ _ _ _ _ (by omega) hhi (by omega)

theorem slotState_setSlotState_other (s : State) (k : Nat) {slot slot' v : Nat} (hslot : slot' < 2) (hne : slot' ≠ slot) :
    (s.setSlotState k slot v).slotState k slot' = s.slotState k slot' :=
  s.regBits_setSlotState k (by omega) (by omega)

/-- The receive and the transmit slot, and the mode, lie below the slots' states. -/
theorem slotState_setField_low (s : State) (k : Nat) {slot hi lo v : Nat} (hslot : slot < 2) (hle : lo ≤ hi) (h : hi < 3) :
    (s.setField (Reg.secPortStatus k) hi lo v).slotState k slot = s.slotState k slot :=
  regBits_setField_other _ _ _ _ _ _ _ hle (by omega) (by omega)

/-! ### A key slot of a port -/

theorem keySlot_congr {s t : State} (h : t.farPorts = s.farPorts) (k slot : Nat) : t.keySlot k slot = s.keySlot k slot := by
  unfold keySlot fport
  rw [h]

theorem regBits_modKey (s : State) (k slot : Nat) (f : KeySlot → KeySlot) (a hi lo : Nat) :
    (s.modKey k slot f).regBits a hi lo = s.regBits a hi lo := rfl

theorem keySlot_modKey_same (s : State) {k slot : Nat} (f : KeySlot → KeySlot) (hk : k < s.farPorts.length)
    (hslot : slot < (s.fport k).keys.length) : (s.modKey k slot f).keySlot k slot = f (s.keySlot k slot) := by
  unfold keySlot modKey
  rw [fport_modFport_same _ hk]
  exact (modAt_getD _ _ _ _ _ hslot).trans (if_pos rfl)

/-! ### What the start of a port leaves -/

/-- What holds after the start of a far port: what NOKEY and the fields of FP_STATUS leave, and the port's own timer and lock. -/
theorem farStart_induct {P : State → Prop} {s : State} {k : Nat} (hkey : P (s.showNoKey k))
    (hstatus : ∀ t hi lo v, P t → P (t.setField (Reg.fpStatus k) hi lo v))
    (hport : ∀ t since, P t → P (t.modFport k fun q => { q with since := since, lock := false })) : P (s.farStart k) := by
  unfold farStart
  dsimp only
  split
  · exact hkey
  split
  · exact hstatus _ _ _ _ hkey
  split
  · exact hstatus _ _ _ _ (hport _ _ hkey)
  · exact hstatus _ _ _ _ (hstatus _ _ _ _ (hport _ _ hkey))

theorem farStart_regBits (s : State) (k : Nat) {hi lo : Nat} (h : hi < 7) :
    (s.farStart k).regBits (Reg.secPortStatus k) hi lo = s.regBits (Reg.secPortStatus k) hi lo :=
  farStart_induct (P := fun t => t.regBits (Reg.secPortStatus k) hi lo = s.regBits (Reg.secPortStatus k) hi lo)
    (s.regBits_showNoKey k h)
    (fun _ _ _ _ ht => (regBits_setField_ne _ _ _ _ _ _ _ _ (secPortStatus_ne_fpStatus k k)).trans ht)
    (fun _ _ ht => ht)

theorem farStart_reg (s : State) {k a : Nat} (hsec : a ≠ Reg.secPortStatus k) (hfp : a ≠ Reg.fpStatus k) :
    (s.farStart k).reg a = s.reg a :=
  farStart_induct (P := fun t => t.reg a = s.reg a) (reg_setField_ne _ _ _ _ _ _ hsec)
    (fun _ _ _ _ ht => (reg_setField_ne _ _ _ _ _ _ hfp).trans ht) (fun _ _ ht => ht)

theorem modFport_keys (s : State) (k j : Nat) {f : FarPort → FarPort} (hf : ∀ q, (f q).keys = q.keys) :
    ((s.modFport k f).fport j).keys = (s.fport j).keys := by
  unfold fport modFport
  by_cases hk : k < s.farPorts.length
  · rw [modAt_getD _ _ _ _ _ hk]
    split
    · next h => rw [hf, h]
    · rfl
  · rw [modAt, List.modify_eq_self (by omega)]

theorem farStart_keySlot (s : State) (k j slot : Nat) : (s.farStart k).keySlot j slot = s.keySlot j slot := by
  have hkeys : ((s.farStart k).fport j).keys = (s.fport j).keys :=
    farStart_induct (P := fun t => (t.fport j).keys = (s.fport j).keys) rfl (fun _ _ _ _ ht => ht)
      (fun t since ht =>
        (t.modFport_keys k j (f := fun q => { q with since := since, lock := false }) fun _ => rfl).trans ht)
  unfold keySlot
  rw [hkeys]

/-- What follows a change of a port's keys or of its mode: NOKEY shows it, and a port that is OFF starts. -/
def settlePort (k : Nat) (s : State) : State :=
  if (s.showNoKey k).fpState k = 0 then (s.showNoKey k).farStart k else s.showNoKey k

section
variable (s : State) (k : Nat)

theorem settlePort_regBits {hi lo : Nat} (h : hi < 7) :
    (s.settlePort k).regBits (Reg.secPortStatus k) hi lo = s.regBits (Reg.secPortStatus k) hi lo := by
  unfold settlePort
  split
  · rw [farStart_regBits _ _ h, regBits_showNoKey _ _ h]
  · exact regBits_showNoKey _ _ h

theorem settlePort_reg {a : Nat} (hsec : a ≠ Reg.secPortStatus k) (hfp : a ≠ Reg.fpStatus k) :
    (s.settlePort k).reg a = s.reg a := by
  unfold settlePort
  split
  · rw [farStart_reg _ hsec hfp, showNoKey, reg_setField_ne _ _ _ _ _ _ hsec]
  · rw [showNoKey, reg_setField_ne _ _ _ _ _ _ hsec]

theorem settlePort_slotState {slot : Nat} (h : slot < 2) : (s.settlePort k).slotState k slot = s.slotState k slot :=
  s.settlePort_regBits k (by omega)

theorem settlePort_keySlot (slot : Nat) : (s.settlePort k).keySlot k slot = s.keySlot k slot := by
  unfold settlePort
  split
  · exact farStart_keySlot _ _ _ _
  · rfl

end

/-! ### LOAD (Table SEC-2) -/

/-- A port without a key in either slot. -/
def keyless (s : State) (k : Nat) : Bool := s.slotState k 0 == 0 && s.slotState k 1 == 0

/-- The slot that a LOAD fills. -/
def loadedSlot (s : State) (d : List Byte) : KeySlot :=
  { key := (s.loadedKey d).getD 0, txSalt := BitVec.ofNat 32 (fld d 36 4), rxSalt := BitVec.ofNat 32 (fld d 40 4)
    transmitted := s.keyless (keyPort d) }

/-- LOAD up to the slot's state; `first`: the key is the port's first. -/
def fillSlot (k slot : Nat) (x : KeySlot) (first : Bool) (s : State) : State :=
  ((s.modKey k slot fun _ => x).setReg (txctr k slot) 1).setSlotState k slot (if first then 2 else 1)

/-- The slot of the port's first key both transmits and receives. -/
def useSlot (k slot : Nat) (first : Bool) (s : State) : State :=
  if first then s.setField (Reg.secPortStatus k) 2 1 (3 * slot) else s

theorem loadSlot_eq (s : State) (d : List Byte) : s.loadSlot d =
    ((s.fillSlot (keyPort d) (keySlotOf d) (s.loadedSlot d) (s.keyless (keyPort d))).useSlot (keyPort d) (keySlotOf d)
      (s.keyless (keyPort d))).settlePort (keyPort d) := rfl

section
variable (s : State) (k : Nat) {slot : Nat} (x : KeySlot) (first : Bool)

theorem useSlot_slotState (hslot : slot < 2) (slot' : Nat) :
    (s.useSlot k slot' first).slotState k slot = s.slotState k slot := by
  unfold useSlot
  split
  · exact slotState_setField_low _ _ hslot (by decide) (by decide)
  · rfl

theorem useSlot_reg (slot : Nat) {a : Nat} (h : a ≠ Reg.secPortStatus k) : (s.useSlot k slot first).reg a = s.reg a := by
  unfold useSlot
  split
  · exact reg_setField_ne _ _ _ _ _ _ h
  · rfl

theorem useSlot_keySlot (slot slot' : Nat) : (s.useSlot k slot first).keySlot k slot' = s.keySlot k slot' := by
  unfold useSlot
  split <;> rfl

theorem fillSlot_keySlot (hk : k < s.farPorts.length) (hslot : slot < (s.fport k).keys.length) :
    (s.fillSlot k slot x first).keySlot k slot = x := s.keySlot_modKey_same (fun _ => x) hk hslot

theorem fillSlot_txctr : (s.fillSlot k slot x first).reg (txctr k slot) = 1 := by
  unfold fillSlot
  rw [reg_setSlotState_ne _ _ _ _ (txctr_ne_secPortStatus _ _ _), reg_setReg_same]
  rfl

theorem fillSlot_slotState (hslot : slot < 2) :
    (s.fillSlot k slot x first).slotState k slot = if first then 2 else 1 := by
  unfold fillSlot
  exact slotState_setSlotState_same _ _ hslot (by split <;> decide)

theorem fillSlot_otherState (hslot : slot < 2) :
    (s.fillSlot k slot x first).slotState k (1 - slot) = s.slotState k (1 - slot) := by
  unfold fillSlot
  rw [slotState_setSlotState_other _ _ (by omega) (by omega)]
  unfold slotState
  rw [regBits_setReg_ne _ _ _ _ _ _ (txctr_ne_secPortStatus _ _ _).symm]
  rfl

end

section
variable {s : State} {d : List Byte} (hslot : keySlotOf d < 2)

theorem loadSlot_key {key : BitVec 256} (hk : keyPort d < s.farPorts.length)
    (hlen : keySlotOf d < (s.fport (keyPort d)).keys.length) (hkey : s.loadedKey d = some key) :
    ((s.loadSlot d).keySlot (keyPort d) (keySlotOf d)).key = key := by
  rw [loadSlot_eq, settlePort_keySlot, useSlot_keySlot, fillSlot_keySlot _ _ _ _ hk hlen, loadedSlot, hkey]
  rfl

theorem loadSlot_txctr : (s.loadSlot d).reg (txctr (keyPort d) (keySlotOf d)) = 1 := by
  rw [loadSlot_eq, settlePort_reg _ _ (txctr_ne_secPortStatus _ _ _) (txctr_ne_fpStatus _ _ _),
    useSlot_reg _ _ _ _ (txctr_ne_secPortStatus _ _ _), fillSlot_txctr]

include hslot

theorem loadSlot_slotState :
    (s.loadSlot d).slotState (keyPort d) (keySlotOf d) = if s.keyless (keyPort d) then 2 else 1 := by
  rw [loadSlot_eq, settlePort_slotState _ _ hslot, useSlot_slotState _ _ _ hslot, fillSlot_slotState _ _ _ _ hslot]

theorem loadSlot_otherState :
    (s.loadSlot d).slotState (keyPort d) (1 - keySlotOf d) = s.slotState (keyPort d) (1 - keySlotOf d) := by
  have hother : 1 - keySlotOf d < 2 := by omega
  rw [loadSlot_eq, settlePort_slotState _ _ hother, useSlot_slotState _ _ _ hother, fillSlot_otherState _ _ _ _ hslot]

end

/-! ### ERASE (Table SEC-2) -/

theorem zeroise_keySlot (s : State) {k slot : Nat} (hk : k < s.farPorts.length) (hslot : slot < (s.fport k).keys.length) :
    (s.zeroise k slot).keySlot k slot = {} := by
  have hports : (s.zeroise k slot).farPorts = (s.modKey k slot fun _ => {}).farPorts := by
    simp [zeroise, showNoKey, setSlotState]
  rw [keySlot_congr hports, keySlot_modKey_same _ _ hk hslot]

theorem zeroise_slotState (s : State) (k : Nat) {slot : Nat} (hslot : slot < 2) :
    (s.zeroise k slot).slotState k slot = 0 := by
  unfold zeroise
  rw [slotState_showNoKey _ _ hslot, slotState_setSlotState_same _ _ hslot (by decide)]

theorem zeroise_otherState (s : State) (k : Nat) {slot : Nat} (hslot : slot < 2) :
    (s.zeroise k slot).slotState k (1 - slot) = s.slotState k (1 - slot) := by
  unfold zeroise
  rw [slotState_showNoKey _ _ (by omega), slotState_setSlotState_other _ _ (by omega) (by omega)]
  unfold slotState
  rw [regBits_setReg_ne _ _ _ _ _ _ (txctr_ne_secPortStatus _ _ _).symm]
  rfl

/-! ### SWITCH (R299, Table SEC-2) -/

/-- SWITCH before the old slot's state: a new slot transmits. -/
def switchTo (k new : Nat) (s : State) : State :=
  ((s.setField (Reg.secPortStatus k) 1 1 new).setSlotState k new 2).modKey k new fun x => { x with transmitted := true }

/-- The old slot drains unless frames come in under it. -/
def leaveSlot (k old : Nat) (s : State) : State := if s.rxSlot k = old then s else s.drainSlot k old s.now

theorem switchTx_eq (s : State) (k : Nat) :
    s.switchTx k = ((s.switchTo k (1 - s.txSlot k)).leaveSlot k (s.txSlot k)).showNoKey k := rfl

section
variable (s : State) (k : Nat) {new old hi lo : Nat}

/-- A field of the port beside the state of the new slot is as the choice of that slot leaves it. -/
theorem switchTo_regBits (hhi : hi < 64) (hbeside : hi < 3 + 2 * new ∨ 4 + 2 * new < lo) :
    (s.switchTo k new).regBits (Reg.secPortStatus k) hi lo
      = (s.setField (Reg.secPortStatus k) 1 1 new).regBits (Reg.secPortStatus k) hi lo := by
  rw [switchTo, regBits_modKey, regBits_setSlotState _ _ hhi hbeside]

theorem switchTo_txSlot (hnew : new < 2) : (s.switchTo k new).txSlot k = new := by
  unfold txSlot
  rw [switchTo_regBits _ _ (by decide) (by omega), regBits_setField _ _ _ _ _ (by decide) (by decide)]
  exact Nat.mod_eq_of_lt hnew

theorem switchTo_rxSlot : (s.switchTo k new).rxSlot k = s.rxSlot k := by
  unfold rxSlot
  rw [switchTo_regBits _ _ (by decide) (by omega),
    regBits_setField_other _ _ _ _ _ _ _ (by decide) (by decide) (by decide)]

theorem switchTo_newState (hnew : new < 2) : (s.switchTo k new).slotState k new = 2 := by
  unfold slotState
  rw [switchTo, regBits_modKey]
  exact slotState_setSlotState_same _ _ hnew (by decide)

theorem switchTo_oldState (hold : old < 2) (hne : old ≠ new) :
    (s.switchTo k new).slotState k old = s.slotState k old := by
  unfold slotState
  rw [switchTo_regBits _ _ (by omega) (by omega)]
  exact slotState_setField_low _ _ hold (by decide) (by decide)

/-- A field of the port beside the state of the old slot is as it was. -/
theorem leaveSlot_regBits (hhi : hi < 64) (hbeside : hi < 3 + 2 * old ∨ 4 + 2 * old < lo) :
    (s.leaveSlot k old).regBits (Reg.secPortStatus k) hi lo = s.regBits (Reg.secPortStatus k) hi lo := by
  unfold leaveSlot
  split
  · rfl
  · rw [drainSlot, regBits_modKey, regBits_setSlotState _ _ hhi hbeside]

theorem leaveSlot_oldState (hold : old < 2) :
    (s.leaveSlot k old).slotState k old = if s.rxSlot k = old then s.slotState k old else 3 := by
  unfold leaveSlot
  split
  · rfl
  · unfold slotState
    rw [drainSlot, regBits_modKey]
    exact slotState_setSlotState_same _ _ hold (by decide)

theorem switchTx_txSlot : (s.switchTx k).txSlot k = 1 - s.txSlot k := by
  rw [switchTx_eq, txSlot_showNoKey, txSlot, leaveSlot_regBits _ _ (by decide) (by omega)]
  exact switchTo_txSlot s k (by omega)

theorem switchTx_rxSlot : (s.switchTx k).rxSlot k = s.rxSlot k := by
  rw [switchTx_eq, rxSlot, regBits_showNoKey _ _ (by decide), leaveSlot_regBits _ _ (by decide) (by omega)]
  exact switchTo_rxSlot s k

theorem switchTx_newState : (s.switchTx k).slotState k (1 - s.txSlot k) = 2 := by
  have hold := s.txSlot_lt k
  rw [switchTx_eq, slotState_showNoKey _ _ (by omega), slotState, leaveSlot_regBits _ _ (by omega) (by omega)]
  exact switchTo_newState s k (by omega)

theorem switchTx_oldState : (s.switchTx k).slotState k (s.txSlot k) =
    if s.rxSlot k = s.txSlot k then s.slotState k (s.txSlot k) else 3 := by
  have hold := s.txSlot_lt k
  rw [switchTx_eq, slotState_showNoKey _ _ hold, leaveSlot_oldState _ _ hold, switchTo_rxSlot,
    switchTo_oldState _ _ hold (by omega)]

end

/-! ### SEAL_MODE (R288) -/

/-- The mode of a port, in both registers that show it. -/
def putMode (k : Nat) (plain : Bool) (s : State) : State :=
  (s.setField (Reg.secPortStatus k) 0 0 (if plain then 1 else 0)).setField (Reg.fpStatus k) 7 7 (if plain then 0 else 1)

theorem setSeal_eq (s : State) (k : Nat) (plain : Bool) : s.setSeal k plain = (s.putMode k plain).settlePort k := rfl

theorem setSeal_sealed (s : State) (k : Nat) (plain : Bool) : (s.setSeal k plain).sealed k = !plain := by
  have hmode : (s.setSeal k plain).regBits (Reg.secPortStatus k) 0 0 = if plain then 1 else 0 := by
    rw [setSeal_eq, settlePort_regBits _ _ (by decide), putMode,
      regBits_setField_ne _ _ _ _ _ _ _ _ (secPortStatus_ne_fpStatus k k), regBits_setField _ _ _ _ _ (by decide) (by decide)]
    cases plain <;> rfl
  unfold regBits at hmode
  unfold sealed
  rw [bitOf_eq_bitsOf, hmode]
  cases plain <;> rfl

theorem setSeal_other (s : State) {k j : Nat} (plain : Bool) (h : j ≠ k) : (s.setSeal k plain).sealed j = s.sealed j := by
  have hsec := secPortStatus_ne h
  have hfp := secPortStatus_ne_fpStatus j k
  unfold sealed
  rw [setSeal_eq, settlePort_reg _ _ hsec hfp, putMode, reg_setField_ne _ _ _ _ _ _ hfp, reg_setField_ne _ _ _ _ _ _ hsec]

end State

end Sys2Proof.Machine
end

section
/-! ### MERGE_HOLD and MERGE_RELEASE (R280): what is known of a round and shard -/

namespace Sys2Proof.Machine

namespace State

/-! ### Messages and transfers leave the exchanges -/

theorem pumpOne_exchanges (s : State) (p : Nat) : (s.pumpOne p).exchanges = s.exchanges := by
  unfold pumpOne
  dsimp only
  split
  · rfl
  split
  · rfl
  split <;> rfl

theorem pumpGo_exchanges (p n : Nat) (s : State) : (pump.go p n s).exchanges = s.exchanges := by
  induction n generalizing s with
  | zero => rfl
  | succ n ih => exact (ih _).trans (s.pumpOne_exchanges p)

theorem exchanges_foldl {α : Type} {f : State → α → State} (h : ∀ s a, (f s a).exchanges = s.exchanges) (l : List α)
    (s : State) : (l.foldl f s).exchanges = s.exchanges := by
  induction l generalizing s with
  | nil => rfl
  | cons a l ih => exact (ih _).trans (h s a)

theorem sendWaiting_exchanges (s : State) (p : Nat) : (s.sendWaiting p).exchanges = s.exchanges := by
  unfold sendWaiting
  split
  · exact exchanges_foldl (f := fun s x => s.emitCtl p x) (fun _ _ => rfl) _ _
  · rfl

theorem pump_exchanges (s : State) (p : Nat) : (s.pump p).exchanges = s.exchanges :=
  (pumpGo_exchanges p _ _).trans (s.sendWaiting_exchanges p)

theorem routeMsg_exchanges (s : State) (m : NearMsg) (vc : Nat) (arrived : Option Nat) :
    (s.routeMsg m vc arrived).exchanges = s.exchanges := by
  unfold routeMsg
  extract_lets spent s1
  have hdraw : s1.exchanges = s.exchanges := by
    unfold s1
    split <;> rfl
  split
  · exact hdraw
  · exact (pump_exchanges _ _).trans hdraw

theorem sendCopies_exchanges (dst a n : Nat) (bs : List Byte) (s : State) :
    (sendCopies dst a n bs s).exchanges = s.exchanges := by
  induction n generalizing a bs s with
  | zero => rfl
  | succ n ih =>
    unfold sendCopies
    split
    · rfl
    · exact (ih _ _ _).trans (routeMsg_exchanges _ _ _ _)

theorem copyStart_exchanges (it : Item) (s : State) : (copyStart it s).exchanges = s.exchanges := by
  unfold copyStart
  dsimp only
  split
  · rfl
  split
  · rfl
  split
  · rfl
  · exact sendCopies_exchanges _ _ _ _ _

theorem resumeCopies_exchanges (s : State) : s.resumeCopies.exchanges = s.exchanges :=
  exchanges_foldl (fun s i => copyStart_exchanges i s) _ _

theorem queueFar_exchanges (s : State) (k : Nat) (l : List FarFrame) : (s.queueFar k l).exchanges = s.exchanges := by
  unfold queueFar
  split <;> rfl

theorem tell_exchanges (s : State) (kind dst round shard : Nat) (body : List Byte) :
    (s.tell kind dst round shard body).exchanges = s.exchanges := s.queueFar_exchanges _ _

theorem beginTransfer_exchanges (s : State) (t : Transfer) : (s.beginTransfer t).exchanges = s.exchanges := by
  unfold beginTransfer
  split
  · rfl
  · unfold admitTransfer
    split <;> rfl

theorem askBlock_exchanges (s : State) (round shard site block : Nat) :
    (s.askBlock round shard site block).exchanges = s.exchanges :=
  (tell_exchanges _ _ _ _ _ _).trans (s.beginTransfer_exchanges _)

theorem exch_congr {s t : State} (h : t.exchanges = s.exchanges) (round shard : Nat) :
    t.exch round shard = s.exch round shard := by
  unfold exch
  rw [h]

/-! ### What step 8 and a bisection make of an exchange -/

section
variable (s : State) (round shard : Nat)

theorem openStep8_exch : (s.openStep8 round shard).exch round shard =
    { s.exch round shard with proceed := true, held := false, asked := [] } := by
  unfold openStep8
  rw [exch_congr (resumeCopies_exchanges _), exch_modExch_same rfl rfl]

theorem askNodes_exch (l : List (Nat × Nat × Nat)) : (s.askNodes round shard l).exch round shard =
    { s.exch round shard with asked := (s.exch round shard).asked ++ l } := by
  unfold askNodes
  extract_lets busy s1 s2
  have hasked : s2.exch round shard = { s.exch round shard with asked := (s.exch round shard).asked ++ l } := by
    rw [exch_congr (exchanges_foldl (fun _ _ => tell_exchanges _ _ _ _ _ _) _ s1)]
    exact exch_modExch_same rfl rfl
  split
  · split
    · exact hasked
    · rw [exch_congr (askBlock_exchanges _ _ _ _ _), hasked]
  · exact hasked

theorem bisect_held (site : Nat) : ((s.bisect round shard site).exch round shard).held = (s.exch round shard).held := by
  unfold bisect
  split
  · rfl
  · rw [askNodes_exch]

/-- The hold that an operator set. -/
theorem mergeHoldStart_held (it : Item) :
    ((mergeHoldStart it s).exch (fld it.desc 32 4) (fld it.desc 36 4)).held = true := by
  have h := exch_modExch_same (s := s) (round := fld it.desc 32 4) (shard := fld it.desc 36 4)
    (f := fun e => { e with held := true }) rfl rfl
  exact congrArg Exchange.held h

/-- The release of a hold. -/
def unhold : State := s.modExch round shard fun e => { e with held := false }

theorem unhold_exch : (s.unhold round shard).exch round shard = { s.exch round shard with held := false } :=
  exch_modExch_same rfl rfl

/-- What a release does beside: nothing where step 8 is open or the shard is not merged; else it opens step 8 for the own
anchor, or bisects against the named site's. -/
def release (winner : Nat) : State :=
  if !(s.exch round shard).merged || (s.exch round shard).proceed then s
  else if winner = 0xFF ∨ winner = s.site then s.openStep8 round shard
  else if (s.exch round shard).asked != [] then s else s.bisect round shard winner

theorem mergeReleaseStart_eq (it : Item) : mergeReleaseStart it s =
    ((s.unhold (fld it.desc 32 4) (fld it.desc 36 4)).release (fld it.desc 32 4) (fld it.desc 36 4)
      (fld it.desc 41 1)).itemDone it.id Code.ok [] := rfl

theorem release_held (winner : Nat) (h : (s.exch round shard).held = false) :
    ((s.release round shard winner).exch round shard).held = false := by
  unfold release
  split
  · exact h
  split
  · rw [openStep8_exch]
  split
  · exact h
  · rw [bisect_held, h]

theorem release_proceed {winner : Nat} (hmerged : (s.exch round shard).merged = true)
    (hown : winner = 0xFF ∨ winner = s.site) : ((s.release round shard winner).exch round shard).proceed = true := by
  unfold release
  cases hopen : (s.exch round shard).proceed with
  | true => simp [hmerged, hopen]
  | false =>
    rw [if_neg (by simp [hmerged]), if_pos hown, openStep8_exch]

end

end State

end Sys2Proof.Machine
end

section
/-! ### RECORDER_CLEAR, POWER_LIMIT (R386, R412) -/

namespace Sys2Proof.Machine

namespace State

/-- The registers and the clear thresholds are the same, whatever the recorder has written. -/
def SameThresholds (s t : State) : Prop := t.regs = s.regs ∧ t.recorder.thresholds = s.recorder.thresholds

section
variable {s t u : State}

theorem SameThresholds.refl (s : State) : s.SameThresholds s := ⟨rfl, rfl⟩

theorem SameThresholds.trans (h : s.SameThresholds t) (g : t.SameThresholds u) : s.SameThresholds u :=
  ⟨g.1.trans h.1, g.2.trans h.2⟩

/-- A change of the recorder that keeps its thresholds. -/
theorem SameThresholds.modRec (h : s.SameThresholds t) {f : Recorder → Recorder}
    (hf : ∀ c, (f c).thresholds = c.thresholds) : s.SameThresholds (t.modRec f) :=
  h.trans ⟨rfl, hf t.recorder⟩

theorem SameThresholds.program (h : s.SameThresholds t) (a : Nat) (bs : List Byte) : s.SameThresholds (t.program a bs) :=
  h.trans ⟨rfl, rfl⟩

end

section
variable (s : State)

theorem eraseNow_sameThresholds (sector : Nat) : s.SameThresholds (s.eraseNow sector) := by
  unfold eraseNow eraseSector
  extract_lets a pass cleared
  have hcleared : s.SameThresholds cleared := ⟨rfl, rfl⟩
  exact (((hcleared.program _ _).program _ _).program _ _).modRec fun _ => rfl

/-- The sector is opened where a unit is its first. -/
theorem opened_sameThresholds (c : Prop) [Decidable c] (sector p : Nat) :
    s.SameThresholds (if c then (s.eraseNow sector, p + 1) else (s, p)).1 := by
  split
  · exact s.eraseNow_sameThresholds sector
  · exact .refl s

theorem setPos_thresholds (a : RecArea) (p : Nat) (c : Recorder) : (c.setPos a p).thresholds = c.thresholds := by
  unfold Recorder.setPos
  split
  · rfl
  split
  · rfl
  split <;> rfl

theorem recordAt_sameThresholds (a : RecArea) (p : Nat) (r : EventRec) : s.SameThresholds (s.recordAt a p r) := by
  have hprog : s.SameThresholds (s.programRecord a p r) :=
    ((SameThresholds.refl s).program _ _ |>.program _ _).modRec fun c =>
      setPos_thresholds a _ { c with nextSeq := c.nextSeq + 1 }
  unfold recordAt
  dsimp only
  split
  · exact hprog.modRec fun _ => rfl
  · exact hprog

theorem recordNow_sameThresholds (r : EventRec) : s.SameThresholds (s.recordNow r) := by
  unfold recordNow
  exact (s.opened_sameThresholds _ _ _).trans (recordAt_sameThresholds _ _ _ _)

theorem counterEntry_sameThresholds (clean : Bool) : s.SameThresholds (s.counterEntry clean) := by
  unfold counterEntry
  extract_lets a p
  have hopened := s.opened_sameThresholds (p % a.per = 0) (p / a.per) p
  generalize (if p % a.per = 0 then (s.eraseNow (p / a.per), p + 1) else (s, p)) = x at hopened ⊢
  obtain ⟨t, q⟩ := x
  have hwritten := ((hopened.program (a.addr q + 1) (t.counterBytes clean)).program (a.addr q) [0xA5]).modRec
    (f := fun c => { c with posCounter := (q + 1) % (2 * a.per), lastCounterMs := c.opMs, entryDue := false }) fun _ => rfl
  dsimp only
  split
  · exact hwritten.modRec fun _ => rfl
  · exact hwritten

theorem clearRecords_sameThresholds (mask : Nat) : s.SameThresholds (s.clearRecords mask) := by
  unfold clearRecords
  dsimp only
  split
  · exact (counterEntry_sameThresholds _ _).trans (recordNow_sameThresholds _ _)
  split
  · exact (SameThresholds.refl s).modRec fun _ => rfl
  · exact .refl s

end

/-- Each threshold register shows its threshold. -/
theorem showThresholds_reg (s : State) {i : Nat} (hi : i < 3) :
    s.showThresholds.reg (Reg.recClear i) = s.recorder.thresholds.getD i 0 % 2 ^ 64 := by
  have hthree : i = 0 ∨ i = 1 ∨ i = 2 := by omega
  unfold showThresholds
  rcases hthree with rfl | rfl | rfl <;> simp [List.range_succ, reg_setReg]

end State

/-- A value stays in a list where places are set to it. -/
theorem getD_foldl_set_of_eq (l : List RecArea) {i v : Nat} {t : List Nat} (hi : i < t.length) (h : t.getD i 0 = v) :
    (l.foldl (fun t a => t.set a.clearIndex v) t).getD i 0 = v := by
  induction l generalizing t with
  | nil => exact h
  | cons b l ih =>
    refine ih (by rwa [List.length_set]) ?_
    by_cases hb : b.clearIndex = i
    · simp [List.getD, hb, hi]
    · simpa [List.getD, hb] using h

/-- The thresholds of the areas of a mask, set in turn. -/
theorem getD_foldl_set (l : List RecArea) (v : Nat) {a : RecArea} (ha : a ∈ l) {t : List Nat} (hi : a.clearIndex < t.length) :
    (l.foldl (fun t a => t.set a.clearIndex v) t).getD a.clearIndex 0 = v := by
  induction l generalizing t with
  | nil => cases ha
  | cons b l ih =>
    have hlen : a.clearIndex < (t.set b.clearIndex v).length := by rwa [List.length_set]
    rcases List.mem_cons.1 ha with rfl | hin
    · exact getD_foldl_set_of_eq l hlen (by simp [List.getD, hi])
    · exact ih hin hlen

theorem clearIndex_of_mem {a : RecArea} {mask : Nat} (h : a ∈ areasOf mask) : a.clearIndex < 3 := by
  have harea : a = areaEvents ∨ a = areaFault ∨ a = areaPower := by
    unfold areasOf at h
    simp only [List.mem_append] at h
    rcases h with (h | h) | h <;> split at h <;> simp_all
  rcases harea with rfl | rfl | rfl <;> decide

namespace State

/-- The first sequence number beyond every record written or waiting to be cleared. -/
def clearThreshold (s : State) : BitVec 32 :=
  s.recorder.nextSeq + BitVec.ofNat 32 (s.recorder.queue.takeWhile EventRec.isClear).length

/-- The thresholds of the areas of a mask are set. -/
def raiseThresholds (mask : Nat) (s : State) : State :=
  s.modRec fun c =>
    { c with thresholds := (areasOf mask).foldl (fun l a => l.set a.clearIndex s.clearThreshold.toNat) c.thresholds }

theorem clearAreas_eq (s : State) (mask : Nat) : s.clearAreas mask =
    (let t := (s.raiseThresholds mask).showThresholds.clearRecords mask
    (t.modRec fun c =>
      { c with clearing := ((areasOf mask).flatMap fun a => t.clearedSectors a s.clearThreshold).foldl addTo c.clearing
        }).showErasing) := rfl

theorem showErasing_keeps (s : State) : s.showErasing.recorder = s.recorder
    ∧ ∀ i, s.showErasing.reg (Reg.recClear i) = s.reg (Reg.recClear i) :=
  ⟨rfl, fun _ => reg_setField_ne _ _ _ _ _ _ (by simp only [Reg.recClear, Reg.recStatus]; omega)⟩

theorem showThresholds_recorder (s : State) : s.showThresholds.recorder = s.recorder := rfl

/-- After a clear the thresholds are those that it raised, and their registers show them. -/
theorem clearAreas_thresholds (s : State) (mask : Nat) :
    (s.clearAreas mask).recorder.thresholds = (s.raiseThresholds mask).recorder.thresholds
      ∧ ∀ i, i < 3 → (s.clearAreas mask).reg (Reg.recClear i)
        = (s.raiseThresholds mask).recorder.thresholds.getD i 0 % 2 ^ 64 := by
  rw [clearAreas_eq]
  extract_lets t
  have ht : (s.raiseThresholds mask).showThresholds.SameThresholds t := clearRecords_sameThresholds _ _
  clear_value t
  generalize (areasOf mask).flatMap (fun a => t.clearedSectors a s.clearThreshold) = sectors
  have hcleared := ht.modRec (f := fun c => { c with clearing := sectors.foldl addTo c.clearing }) fun _ => rfl
  obtain ⟨hrec, hreg⟩ := showErasing_keeps (t.modRec fun c => { c with clearing := sectors.foldl addTo c.clearing })
  refine ⟨?_, fun i hi => ?_⟩
  · rw [hrec, hcleared.2, showThresholds_recorder]
  · rw [hreg, reg_congr hcleared.1, showThresholds_reg _ hi]

end State

end Sys2Proof.Machine
end

section
/-! ### The statement -/

namespace Sys2Proof.Machine

/-! ### The end of an item leaves registers and ports -/

section
variable (s : State) (id c : Nat) (l : List Byte)

theorem itemDone_reg (a : Nat) : (s.itemDone id c l).reg a = s.reg a := State.reg_congr rfl a

theorem itemDone_regBits (a hi lo : Nat) : (s.itemDone id c l).regBits a hi lo = s.regBits a hi lo :=
  State.regBits_congr (itemDone_reg s id c l a) hi lo

theorem itemDone_slotState (k slot : Nat) : (s.itemDone id c l).slotState k slot = s.slotState k slot :=
  itemDone_regBits s id c l _ _ _

theorem itemDone_txSlot (k : Nat) : (s.itemDone id c l).txSlot k = s.txSlot k := itemDone_regBits s id c l _ _ _

theorem itemDone_rxSlot (k : Nat) : (s.itemDone id c l).rxSlot k = s.rxSlot k := itemDone_regBits s id c l _ _ _

theorem itemDone_sealed (k : Nat) : (s.itemDone id c l).sealed k = s.sealed k := by
  unfold State.sealed
  rw [itemDone_reg]

theorem itemDone_keySlot (k slot : Nat) : (s.itemDone id c l).keySlot k slot = s.keySlot k slot :=
  State.keySlot_congr rfl k slot

end

/-! ### Each start, by its rule -/

/-- The lock flag of a block that answers is set (R429). -/
theorem lockStart_locked (it : Item) {s : State} {b : Nat} (hb : b ∈ lockBlocks) (hlive : s.blockLive b = true) :
    b ∈ (lockStart it s).locked := by
  show b ∈ lockBlocks.filter fun b => s.blockLive b || decide (b ∈ s.locked)
  simp [hb, hlive]

section
variable {it : Item} {s : State} (hport : keyPort it.desc < s.farPorts.length)
include hport

/-- A LOAD that is not refused puts its key into its slot, with the counter at 1 (R298, Table SEC-2). -/
theorem keyLoadStart_of_good (hslot : keySlotOf it.desc < 2)
    (hlen : keySlotOf it.desc < (s.fport (keyPort it.desc)).keys.length) (hgood : s.loadRefusal it.desc = none)
    {key : BitVec 256} (hkey : s.loadedKey it.desc = some key) :
    let k := keyPort it.desc
    let slot := keySlotOf it.desc
    ((keyLoadStart it s).keySlot k slot).key = key ∧ (keyLoadStart it s).reg (txctr k slot) = 1
      ∧ (keyLoadStart it s).slotState k slot = (if s.keyless k then 2 else 1)
      ∧ (keyLoadStart it s).slotState k (1 - slot) = s.slotState k (1 - slot) := by
  have hstart : keyLoadStart it s =
      (s.loadSlot it.desc).itemDone it.id Code.ok (keyCheckValue ((s.loadedKey it.desc).getD 0)) := by
    unfold keyLoadStart
    rw [hgood]
  intro k slot
  rw [hstart, itemDone_keySlot, itemDone_reg, itemDone_slotState, itemDone_slotState]
  exact ⟨State.loadSlot_key hport hlen hkey, State.loadSlot_txctr, State.loadSlot_slotState hslot,
    State.loadSlot_otherState hslot⟩

/-- An ERASE that is not refused empties its slot and zeroises its key (R298). -/
theorem eraseStart_of_good (hslot : keySlotOf it.desc < 2)
    (hlen : keySlotOf it.desc < (s.fport (keyPort it.desc)).keys.length) (hgood : s.eraseRefusal it.desc = none) :
    let k := keyPort it.desc
    let slot := keySlotOf it.desc
    (eraseStart it s).keySlot k slot = {} ∧ (eraseStart it s).slotState k slot = 0
      ∧ (eraseStart it s).slotState k (1 - slot) = s.slotState k (1 - slot) := by
  have hstart : eraseStart it s = (s.zeroise (keyPort it.desc) (keySlotOf it.desc)).itemDone it.id Code.ok [] := by
    unfold eraseStart
    rw [hgood]
  intro k slot
  rw [hstart, itemDone_keySlot, itemDone_slotState, itemDone_slotState]
  exact ⟨s.zeroise_keySlot hport hlen, s.zeroise_slotState k hslot, s.zeroise_otherState k hslot⟩

omit hport in
/-- A SWITCH that is not refused transmits under the other slot; the old one drains unless frames come in under it (R299). -/
theorem switchStart_of_good (hgood : s.switchRefusal it.desc = none) :
    let k := keyPort it.desc
    (switchStart it s).txSlot k = 1 - s.txSlot k ∧ (switchStart it s).slotState k (1 - s.txSlot k) = 2
      ∧ (switchStart it s).rxSlot k = s.rxSlot k
      ∧ (switchStart it s).slotState k (s.txSlot k)
        = (if s.rxSlot k = s.txSlot k then s.slotState k (s.txSlot k) else 3) := by
  have hstart : switchStart it s = (s.switchTx (keyPort it.desc)).itemDone it.id Code.ok [] := by
    unfold switchStart
    rw [hgood]
  intro k
  rw [hstart, itemDone_txSlot, itemDone_slotState, itemDone_rxSlot, itemDone_slotState]
  exact ⟨s.switchTx_txSlot k, s.switchTx_newState k, s.switchTx_rxSlot k, s.switchTx_oldState k⟩

end

theorem sealBusy_of_idle {s : State} {k : Nat} (h : s.fpState k = 0 ∨ s.fpState k = 4) : s.sealBusy k = false := by
  unfold State.sealBusy
  rcases h with h | h <;> rw [h] <;> rfl

theorem sealedStart_of_idle {it : Item} {s : State} (h : s.fpState (keyPort it.desc) = 0 ∨ s.fpState (keyPort it.desc) = 4) :
    sealedStart it s = (s.setSeal (keyPort it.desc) false).itemDone it.id Code.ok [] :=
  if_neg (by simp [sealBusy_of_idle h])

theorem plainStart_of_idle {it : Item} {s : State} (h : s.fpState (keyPort it.desc) = 0 ∨ s.fpState (keyPort it.desc) = 4) :
    plainStart it s = (s.setSeal (keyPort it.desc) true).itemDone it.id Code.ok [] :=
  if_neg (by simp [sealBusy_of_idle h])

/-- The limit against which the base power is checked is not changed by the check. -/
theorem checkBase_pwrLimit (s : State) : s.checkBase.reg Reg.pwrLimit = s.reg Reg.pwrLimit := by
  unfold State.checkBase
  split
  · rfl
  · dsimp only
    rw [State.reg_setField_ne _ _ _ _ _ _ (by decide)]
    split
    · rw [State.raise_reg _ _ _ _ (by decide), if_neg (by decide)]
    · rfl

theorem powerLimitStart_pwrLimit (it : Item) (s : State) :
    (powerLimitStart it s).reg Reg.pwrLimit = fld it.desc 32 4 := by
  have hput : (powerLimitStart it s).reg Reg.pwrLimit = fld it.desc 32 4 % 2 ^ 64 :=
    (checkBase_pwrLimit _).trans (s.reg_setReg_same _ _)
  rw [hput]
  exact Nat.mod_eq_of_lt (Nat.lt_of_lt_of_le (fld_lt it.desc 32 4) (by decide))

/-- A RECORDER_CLEAR raises the thresholds of its areas above every record, in the recorder and in their registers (R412). -/
theorem recorderClearStart_thresholds (it : Item) {s : State} {a : RecArea} (ha : a ∈ areasOf (fld it.desc 32 1))
    (hlen : s.recorder.thresholds.length = 3) :
    (recorderClearStart it s).recorder.thresholds.getD a.clearIndex 0 = s.clearThreshold.toNat
      ∧ (recorderClearStart it s).reg (Reg.recClear a.clearIndex) = s.clearThreshold.toNat := by
  have hindex := clearIndex_of_mem ha
  have hraised : (s.raiseThresholds (fld it.desc 32 1)).recorder.thresholds.getD a.clearIndex 0 = s.clearThreshold.toNat :=
    getD_foldl_set _ _ ha (by omega)
  obtain ⟨hkept, hshown⟩ := s.clearAreas_thresholds (fld it.desc 32 1)
  refine ⟨(congrArg (·.getD a.clearIndex 0) hkept).trans hraised, (hshown _ hindex).trans ?_⟩
  rw [hraised]
  exact Nat.mod_eq_of_lt (Nat.lt_trans s.clearThreshold.isLt (by decide))

/-- Settles O7: each clause is the effect of its start, whose item then only ends. -/
theorem criticalCommandsTakeEffect : Obligations.CriticalCommandsTakeEffect := by
  unfold Obligations.CriticalCommandsTakeEffect
  intro it u d k slot
  refine ⟨fun b hb hlive => lockStart_locked it hb hlive, ?load,
    fun _ hslot hport hlen hgood => eraseStart_of_good hport hslot hlen hgood, ?mode, rfl, powerLimitStart_pwrLimit it u,
    ?reset, fun _ _ hgood => switchStart_of_good hgood, u.mergeHoldStart_held it, ?releaseHeld, ?releaseProceed,
    fun a ha hlen => recorderClearStart_thresholds it ha hlen⟩
  case load =>
    intro key _ hslot hport hlen hgood hkey
    simpa [State.keyless] using keyLoadStart_of_good hport hslot hlen hgood hkey
  case mode =>
    intro _ hidle
    rw [sealedStart_of_idle hidle, plainStart_of_idle hidle, itemDone_sealed, itemDone_sealed]
    refine ⟨u.setSeal_sealed k false, u.setSeal_sealed k true, fun j _ hj => ?_⟩
    rw [itemDone_sealed, itemDone_sealed]
    exact ⟨u.setSeal_other false hj, u.setSeal_other true hj⟩
  case reset =>
    obtain ⟨-, -, hmem, -⟩ := (u.itemDone it.id Code.ok []).assertSource_spec
      { cause := resetCause (fld d 32 1), reach := fld d 32 1, kind := fld d 33 1, index := fld d 34 2, since := u.now }
    exact hmem
  case releaseHeld =>
    rw [State.mergeReleaseStart_eq]
    exact State.release_held _ _ _ _ (by rw [State.unhold_exch])
  case releaseProceed =>
    intro hmerged hown
    rw [State.mergeReleaseStart_eq]
    exact State.release_proceed _ _ _ (by rw [State.unhold_exch]; exact hmerged) hown

end Sys2Proof.Machine
end

/-! ### A revocation whose item has the id of an older one (O36)

The decision starts the item of the descriptor's id, which it looks up among all that are admitted. Where an older item still has
that id, the older one starts in its place, and nothing has judged its descriptor in this state. Here a revocation of slot 0 is
accepted, which leaves slot 1; the item of its id is an older revocation of slot 1, the last usable root, which is refused. -/

section
namespace Sys2Proof.Machine

/-- A FUSE_REVOKE of a root slot but for its tag, the first critical command of its session. -/
def revokeOf (slot : Nat) : List Byte :=
  padTo 96 (leBytes 1 0x45 ++ zeros 32 ++ leBytes 1 slot ++ leBytes 1 1) ++ leBytes 8 1 ++ leBytes 1 5 ++ zeros 7

/-- The waiting descriptor: a revocation of slot 0, with its tag under a command key of 0. -/
def authenticRevoke : Taken :=
  { ring := 0, index := 0
    bytes := revokeOf 0 ++ [10, 112, 154, 63, 165, 181, 79, 72, 114, 23, 71, 48, 157, 134, 165, 174] }

/-- An older item of the same id: a revocation of slot 1 that has not started. -/
def olderRevoke : Item :=
  { id := itemId 0 0, ring := 0, ticket := 0, cirq := false, desc := revokeOf 1, ts := 0, tp := 0, tauPs := 0, powerDw := 0,
    units := [], doms := [], checked := [], taus := [], govDie := 0, promised := false, deps := [] }

/-- An OWNED module whose only root is slot 1, with a session open and the clocks of L0 stable. -/
def revokeUnderOlder : State :=
  { State.reset with
      inputOk := true, held := [], on := [92, 93, 94], wires := (islandsOf 56).map ((56, ·))
      fuses := { programmed := 2 }, taken := [authenticRevoke], items := [olderRevoke] }.setReg Reg.secStatus 1

/-- The item and the state in which the start takes effect. -/
def underOlder : Option (Item × State) := (revokeUnderOlder.advance 0).starts (0x45, 1) revokeCheck

theorem underOlder_desc : underOlder.map (fun x => x.1.desc) = some (revokeOf 1) := by decide +kernel

theorem revokeUnderOlder_unusable : revokeUnderOlder.fuses.usable (fld (revokeOf 1) 33 1) = false := by decide +kernel

/-- Refutes O36: in `revokeUnderOlder` the item that starts is an older one of the descriptor's id, which revokes the last usable
slot, so no other one remains. The statement does not ask that the id be new, as O38 does, and no run is claimed to reach this
state. -/
theorem not_fuseRowsProgramFuses : ¬ Obligations.FuseRowsProgramFuses := by
  unfold Obligations.FuseRowsProgramFuses
  intro h
  obtain ⟨⟨it, u⟩, hu, hdesc⟩ := Option.map_eq_some_iff.mp underOlder_desc
  obtain ⟨-, hrevoke⟩ := h 0 revokeUnderOlder it u
  obtain ⟨t, -, husable, -⟩ := hrevoke hu
  rw [show it.desc = revokeOf 1 from hdesc, revokeUnderOlder_unusable] at husable
  exact Bool.false_ne_true husable

end Sys2Proof.Machine
end

/-! ## The delivery promise (O39, O29): the life of an item, the sentinels -/

section
/-! ### An item by its id -/

namespace Sys2Proof.Machine

namespace State

/-- An item that changes and keeps its id is found as changed. -/
theorem item?_modItem {s : State} {id : Nat} {it : Item} {f : Item → Item} (h : s.item? id = some it)
    (hid : ∀ i, (f i).id = i.id) : (s.modItem id f).item? id = some (f it) := by
  have hkey : (fun i : Item => i.id == id) ∘ (fun i => if i.id == id then f i else i) = fun i => i.id == id := by
    funext i
    simp only [Function.comp_apply]
    split
    · rw [hid]
    · rfl
  have hit : it.id = id := by simpa using List.find?_some h
  have hfind : s.items.find? (fun i => i.id == id) = some it := h
  unfold item? modItem
  rw [List.find?_map, hkey, hfind]
  simp [hit]

theorem item?_itemDone {s : State} {id : Nat} {it : Item} (h : s.item? id = some it) (hdone : it.done = false) (code : Nat)
    (detail : List Byte) :
    (s.itemDone id code detail).item? id = some { it with done := true, code := code, detail := detail } := by
  unfold itemDone
  rw [item?_modItem h (fun i => by split <;> rfl), hdone]
  rfl

/-- R315: an item whose record is written is gone. -/
theorem item?_completeItem (s : State) (id : Nat) : (s.completeItem id).item? id = none := by
  have hgone : (s.items.filter (·.id != id)).find? (·.id == id) = none := by simp
  unfold completeItem
  split
  · assumption
  · extract_lets u
    have hu : u.items = s.items.filter (·.id != id) := rfl
    unfold item?
    split
    · rw [(orphanRecord_only u).items, hu, hgone]
    · rw [(emitRecord_only u _ _ _).items, hu, hgone]

end State

end Sys2Proof.Machine
end

section
/-! ### Starts and completions (R315, R317) -/

namespace Sys2Proof.Machine

theorem exec_itemCompletion (dt id : Nat) (s : State) :
    exec (.itemCompletion dt id) s = s.finish dt ((s.advance dt).itemCompletion id) := rfl

namespace State

theorem isFuseItem_of_item? {s : State} {id : Nat} {it : Item} (h : s.item? id = some it) :
    s.isFuseItem id = (dType it.desc == 0x45) := by
  simp [isFuseItem, h]

theorem isFuseItem_of_none {s : State} {id : Nat} (h : s.item? id = none) : s.isFuseItem id = false := by
  simp [isFuseItem, h]

theorem itemStart_of_none {s : State} {id : Nat} (h : s.item? id = none) : s.itemStart id = s := by
  simp [itemStart, h]

theorem itemStart_of_startOf {s : State} {id : Nat} {it : Item} {f : ItemStart} (h : s.item? id = some it)
    (hf : startOf it.desc = some f) : s.itemStart id = (s.startItem f id).reducesReady := by
  simp [itemStart, h, hf]

theorem startItem_of_ready {s : State} {id : Nat} {it : Item} {f : ItemStart} (h : s.item? id = some it)
    (hready : s.startWaits it = false) :
    s.startItem f id = f it (s.modItem id fun i => { i with started := true }) := by
  simp [startItem, h, hready]

theorem startItem_of_waits {s : State} {id : Nat} {it : Item} {f : ItemStart} (h : s.item? id = some it)
    (hwaits : s.startWaits it = true) : s.startItem f id = s := by
  simp [startItem, h, hwaits]

/-- R317: an item that has started, that is done, or whose T_s has not come does not start. -/
theorem startWaits_of_early {s : State} {it : Item} (h : it.started = true ∨ it.done = true ∨ s.time < it.ts) :
    s.startWaits it = true := by
  unfold startWaits
  rcases h with h | h | h
  · simp [h]
  · simp [h]
  · simp [h]

theorem windowEnd_of_due {s : State} {it : Item} (hkind : dType it.desc = 0x11) (hstart : it.started = true)
    (hdue : it.tp ≤ s.time) : s.windowEnd it = s.itemDone it.id Code.ok (leBytes 4 it.evals) :=
  if_pos ⟨hkind, hstart, hdue⟩

/-- Only a started WINDOW whose T_p has come ends by itself. -/
theorem windowEnd_of_not {s : State} {it : Item} (h : dType it.desc ≠ 0x11 ∨ it.started = false ∨ s.time < it.tp) :
    s.windowEnd it = s := by
  refine if_neg ?_
  rintro ⟨hkind, hstart, hdue⟩
  rcases h with h | h | h
  · exact h hkind
  · exact Bool.false_ne_true (h.symm.trans hstart)
  · omega

theorem itemCompletion_of_none {s : State} {id : Nat} (h : s.item? id = none) : s.itemCompletion id = s := by
  simp [itemCompletion, h]

/-- The item, after the end of its window if it is one, is done: its record is written. -/
theorem itemCompletion_of_done {s : State} {id : Nat} {it j : Item} (h : s.item? id = some it)
    (hj : (s.windowEnd it).item? id = some j) (hdone : j.done = true) :
    s.itemCompletion id = ((s.windowEnd it).completeItem id).settleOffs.checkBase.resumeRuns.reducesReady := by
  simp [itemCompletion, h, hj, hdone]

theorem itemCompletion_of_undone {s : State} {id : Nat} {it : Item} (h : s.item? id = some it) (hw : s.windowEnd it = s)
    (hdone : it.done = false) : s.itemCompletion id = s := by
  simp [itemCompletion, h, hw, hdone]

end State

end Sys2Proof.Machine
end

section
/-! ### Breaches (R330) -/

namespace Sys2Proof.Machine

theorem exec_promiseBreach (dt id : Nat) (s : State) :
    exec (.promiseBreach dt id) s = s.finish dt ((s.advance dt).promiseBreach id) := rfl

namespace State

theorem endedBreach_of_none {s : State} {id : Nat} (h : ∀ x ∈ s.ended, x.1 ≠ id) : s.endedBreach id = s := by
  have hfind : s.ended.find? (fun x => x.1 == id && decide (x.2.1 ≤ s.time)) = none := by
    rw [List.find?_eq_none]
    intro x hx
    simp [h x hx]
  simp [endedBreach, hfind]

theorem promiseBreach_of_none {s : State} {id : Nat} (h : s.item? id = none) : s.promiseBreach id = s.endedBreach id := by
  simp [promiseBreach, h]

theorem promiseBreach_of_early {s : State} {id : Nat} {it : Item} (h : s.item? id = some it) (hearly : s.time < it.tp) :
    s.promiseBreach id = s := by
  simp [promiseBreach, h, hearly]

/-- What PROMISE_BREACH may breach: a promised item, neither voided nor breached, that is no WINDOW, and no SNAP_FETCH that
has not come, in a module that is not fatal. -/
structure Breachable (s : State) (it : Item) : Prop where
  promised : it.promised = true
  voided : it.voided = false
  breached : it.breached = false
  window : dType it.desc ≠ 0x11
  fetched : dType it.desc = 0x0E → it.done = true
  fatal : s.fatal = none

theorem promiseBreach_of_due {s : State} {id : Nat} {it : Item} (h : s.item? id = some it) (hb : s.Breachable it)
    (hdue : it.tp ≤ s.time) : s.promiseBreach id = (s.breachItem it).deadline id := by
  have hfetch : ¬ (dType it.desc = 0x0E ∧ (!it.done) = true) := by simpa using hb.fetched
  have hbreach : (!it.promised || it.voided || it.breached || decide (s.time < it.tp) || dType it.desc == 0x11
      || s.fatal.isSome) = false := by
    simp [hb.promised, hb.voided, hb.breached, hb.window, hb.fatal, hdue]
  unfold promiseBreach
  simp only [h, hbreach, Bool.false_eq_true, if_false, if_neg hfetch]

/-- A breach that no gang runs for stops no die. -/
theorem deadline_of_no_gang {s : State} {id : Nat} (h : s.gangOf id = []) : s.deadline id = s := by
  simp [deadline, h]

/-- A breach is told by counters, event bits and a record. -/
theorem noteBreach_only (s : State) (id gov tp : Nat) : s.OnlyReports (s.noteBreach id gov tp) := by
  unfold noteBreach
  extract_lets u v
  have hv : s.OnlyReports v := ((count_only s _ _).trans (raise_only _ _ _)).trans (detail_only u _ _ _ _ _)
  split
  · exact hv.trans (setReg_only v _ _)
  · exact hv

/-- Naming the governing die changes PRM_BREACH_DIE alone. -/
theorem reg_noteBreach {a : Nat} (ha : a ≠ Reg.prmBreachDie) (s : State) (id gov tp : Nat) :
    ∃ l, (s.noteBreach id gov tp).reg a
      = ((((s.count Reg.prmBreaches 1).raise .prm 2).detail 0x0C81 2 gov 0xFF l).reg a) := by
  unfold noteBreach
  extract_lets u v
  refine ⟨leBytes 6 id ++ leBytes 1 gov ++ [0] ++ leBytes 8 tp ++ leBytes 8 u.time, ?_⟩
  split
  · exact reg_setReg_ne v _ _ _ ha
  · rfl

theorem noteBreach_prmBreaches (s : State) (id gov tp : Nat) :
    (s.noteBreach id gov tp).reg Reg.prmBreaches = min (s.reg Reg.prmBreaches + 1) 0xFFFFFFFF := by
  obtain ⟨l, hl⟩ := reg_noteBreach (a := Reg.prmBreaches) (by decide) s id gov tp
  rw [hl, detail_reg _ _ _ _ _ _ _ (by decide), raise_reg _ _ _ _ (by decide), if_neg (by decide), reg_count, if_pos rfl]

theorem noteBreach_prmEvents (s : State) (id gov tp : Nat) :
    bitOf ((s.noteBreach id gov tp).reg Reg.prmEvents) 2 = true := by
  obtain ⟨l, hl⟩ := reg_noteBreach (a := Reg.prmEvents) (by decide) s id gov tp
  rw [hl]
  exact detail_bit _ _ _ _ _ _ _ _ (by decide) (raise_sets _ .prm 2 (by decide) (by decide))

theorem breachItem_gangOf (s : State) (it : Item) (id : Nat) : (s.breachItem it).gangOf id = s.gangOf id := by
  have hdies : (s.breachItem it).dies = s.dies := (noteBreach_only _ _ _ _).dies
  simp [gangOf, die, hdies]

end State

end Sys2Proof.Machine
end

section
/-! ### The statement (O39) -/

namespace Sys2Proof.Machine

/-- Settles O39: the rows run `itemStart`, `itemCompletion` and `promiseBreach`, whose cases are told apart by the item found,
by what it waits for and by its T_p; what a breach changes is its mark and what tells of it (`noteBreach_only`). -/
theorem itemsStartEndAndBreach : Obligations.ItemsStartEndAndBreach := by
  unfold Obligations.ItemsStartEndAndBreach
  refine ⟨fun dt id s hnone => ?noItem, fun dt s it hit => ?item⟩
  case noItem =>
    have hnone' : (s.advance dt).item? id = none := (s.advance_item? dt id).trans hnone
    refine ⟨?_, ?_, fun hended => ?_⟩
    · rw [exec_itemStart_other (State.isFuseItem_of_none hnone), State.itemStart_of_none hnone']
    · rw [exec_itemCompletion, State.itemCompletion_of_none hnone']
    · rw [exec_promiseBreach, State.promiseBreach_of_none hnone', State.endedBreach_of_none (by simpa using hended)]
  case item =>
    have hit' : (s.advance dt).item? it.id = some it := (s.advance_item? dt it.id).trans hit
    refine ⟨fun f hf hkind => ⟨fun hready => ?ready, fun hwaits => ?waits, State.startWaits_of_early⟩,
      fun hdone hkind => ⟨?done, State.item?_completeItem _ _⟩, fun hdone hnot => ?undone,
      fun hdone hkind hstart hdue => ?window,
      fun hprom hvoid hbreach hkinds hfetch hgang hfatal => ⟨fun hdue => ?breach, fun hearly => ?early⟩⟩
    case ready =>
      rw [exec_itemStart_other (by simp [State.isFuseItem_of_item? hit, hkind]), State.itemStart_of_startOf hit' hf,
        State.startItem_of_ready hit' hready]
    case waits =>
      rw [exec_itemStart_other (by simp [State.isFuseItem_of_item? hit, hkind]), State.itemStart_of_startOf hit' hf,
        State.startItem_of_waits hit' hwaits]
    case done =>
      have hw : (s.advance dt).windowEnd it = s.advance dt := State.windowEnd_of_not (.inl hkind)
      rw [exec_itemCompletion, State.itemCompletion_of_done hit' (hw.symm ▸ hit') hdone, hw]
    case undone =>
      rw [exec_itemCompletion, State.itemCompletion_of_undone hit' (State.windowEnd_of_not hnot) hdone]
    case window =>
      have hw := State.windowEnd_of_due hkind hstart hdue
      have hended := State.item?_itemDone hit' hdone Code.ok (leBytes 4 it.evals)
      rw [exec_itemCompletion, State.itemCompletion_of_done hit' (hw.symm ▸ hended) rfl, hw]
    case breach =>
      simp only [List.mem_cons, List.not_mem_nil, or_false, not_or] at hkinds
      have hb : (s.advance dt).Breachable it :=
        ⟨hprom, hvoid, hbreach, hkinds.2, hfetch, (s.advance_fatal dt).trans hfatal⟩
      have hgang' : ((s.advance dt).breachItem it).gangOf it.id = [] := by
        rw [State.breachItem_gangOf, s.advance_gangOf, hgang]
      refine ⟨_, exec_promiseBreach dt it.id s, ?_⟩
      rw [State.promiseBreach_of_due hit' hb hdue, State.deadline_of_no_gang hgang']
      have honly := State.noteBreach_only ((s.advance dt).modItem it.id fun i => { i with breached := true })
        it.id it.govDie it.tp
      refine ⟨?_, ?_, State.noteBreach_prmEvents _ _ _ _, ?_, ?_, ?_⟩
      · exact honly.items.trans (by rw [State.modItem, s.advance_items])
      · exact (State.noteBreach_prmBreaches _ _ _ _).trans (by rw [State.reg_congr (State.modItem_regs _ _ _), s.advance_reg])
      · exact honly.dies.trans (s.advance_dies dt)
      · exact honly.hbm.trans (s.advance_hbm dt)
      · exact honly.bookings.trans (s.advance_bookings dt)
    case early =>
      rw [exec_promiseBreach, State.promiseBreach_of_early hit' hearly]

end Sys2Proof.Machine
end

section
/-! ### A sentinel that changes (R318, R365) -/

namespace Sys2Proof.Machine

theorem exec_sentinelReading (dt die i ps : Nat) (s : State) :
    exec (.sentinelReading dt die i ps) s = s.finish dt ((s.advance dt).sentinelReading die i ps) := rfl
theorem exec_sentinelMiss (dt die i : Nat) (s : State) :
    exec (.sentinelMiss dt die i) s = s.finish dt ((s.advance dt).sentinelMiss die i) := rfl

namespace State

theorem sentinel_congr {s t : State} (h : t.sentinels = s.sentinels) (d k : Nat) : t.sentinel d k = s.sentinel d k := by
  simp [sentinel, h]

/-- The die has the sentinel. -/
structure HasSentinel (s : State) (die i : Nat) : Prop where
  onDie : die < s.sentinels.length
  inRow : i < (s.sentinels.getD die []).length

/-- From `s` to `t` one sentinel becomes `x`, and no other changes. -/
structure SentinelTo (s t : State) (die i : Nat) (x : Sentinel) : Prop where
  becomes : t.sentinel die i = x
  others : ∀ d k, (d, k) ≠ (die, i) → t.sentinel d k = s.sentinel d k

variable {s : State} {die i : Nat}

theorem modSentinel_sentinel (h : s.HasSentinel die i) (f : Sentinel → Sentinel) :
    SentinelTo s (s.modSentinel die i f) die i (f (s.sentinel die i)) := by
  obtain ⟨hdie, hi⟩ := h
  refine ⟨?_, fun d k hne => ?_⟩ <;> unfold sentinel modSentinel
  · rw [modAt_getD _ _ _ _ _ hdie, if_pos rfl, modAt_getD _ _ _ _ _ hi, if_pos rfl]
  · rw [modAt_getD _ _ _ _ _ hdie]
    split
    · next hd =>
      subst hd
      have hk : i ≠ k := fun hk => hne (by rw [hk])
      rw [modAt_getD _ _ _ _ _ hi, if_neg hk]
    · rfl

theorem hasSentinel_modSentinel (h : s.HasSentinel die i) (f : Sentinel → Sentinel) :
    (s.modSentinel die i f).HasSentinel die i := by
  obtain ⟨hdie, hi⟩ := h
  refine ⟨by simpa [modSentinel] using hdie, ?_⟩
  rw [modSentinel, modAt_getD _ _ _ _ _ hdie, if_pos rfl]
  simpa using hi

/-- R318: a fault marks its sentinel, keeps its readings, and changes no other. -/
theorem faultSentinel_sentinel (h : s.HasSentinel die i) :
    SentinelTo s (s.faultSentinel die i) die i { s.sentinel die i with faulted := true } := by
  unfold faultSentinel
  split
  · next hfaulted => exact ⟨by rw [← hfaulted], fun _ _ _ => rfl⟩
  · extract_lets u
    obtain ⟨hu, hother⟩ : SentinelTo s u die i { s.sentinel die i with faulted := true } := modSentinel_sentinel h _
    split
    · have hkeep := sentinel_congr (raise_only u .prm 3).sentinels
      exact ⟨(hkeep die i).trans hu, fun d k hne => (hkeep d k).trans (hother d k hne)⟩
    · exact ⟨hu, hother⟩

theorem SentinelTo.trans {t u : State} {x y : Sentinel} (h : SentinelTo s t die i x) (g : SentinelTo t u die i y) :
    SentinelTo s u die i y :=
  ⟨g.becomes, fun d k hne => (g.others d k hne).trans (h.others d k hne)⟩

end State

end Sys2Proof.Machine
end

section
/-! ### The hold of a core voltage (R320) -/

namespace Sys2Proof.Machine

namespace State

variable {s t : State} {n : Nat}

/-- What K1's hold reads: the items' promises, the die's sentinels, the guard band and the breaches. -/
theorem aboveHold_congr (hitems : t.items = s.items) (hsen : t.sentinels = s.sentinels)
    (hguard : t.reg Reg.prmGuard = s.reg Reg.prmGuard) (hbreach : t.reg Reg.prmBreachDie = s.reg Reg.prmBreachDie) :
    t.aboveHold n = s.aboveHold n := by
  have htau : t.tauFloor n = s.tauFloor n := by rw [tauFloor, hitems, tauFloor]
  have hps : t.sentinelPs n = s.sentinelPs n := by rw [sentinelPs, hsen, sentinelPs]
  have hpct : t.guardPct n = s.guardPct n := by rw [guardPct, regBits_congr hguard, hbreach, guardPct]
  rw [aboveHold, htau, hps, hpct, aboveHold]

theorem raiseVcore_sentinels (n : Nat) (s : State) : (s.raiseVcore n).sentinels = s.sentinels := by
  unfold raiseVcore
  split <;> rfl

theorem raiseVcore_reg_ne {a : Nat} (h : a ≠ Reg.vcore n) : (s.raiseVcore n).reg a = s.reg a := by
  unfold raiseVcore
  split
  · exact reg_setReg_ne _ _ _ _ h
  · rfl

theorem raiseVcore_aboveHold (n : Nat) (s : State) : (s.raiseVcore n).aboveHold n = s.aboveHold n := by
  have hitems : (s.raiseVcore n).items = s.items := by unfold raiseVcore; split <;> rfl
  exact aboveHold_congr hitems (raiseVcore_sentinels n s)
    (raiseVcore_reg_ne (by simp only [Reg.prmGuard, Reg.vcore]; omega))
    (raiseVcore_reg_ne (by simp only [Reg.prmBreachDie, Reg.vcore]; omega))

/-- Without a compute die's reading above its hold nothing is raised. -/
theorem raiseVcore_of_not (h : 48 ≤ n ∨ s.aboveHold n = false) : s.raiseVcore n = s := by
  refine if_neg ?_
  rintro ⟨hn, habove, -⟩
  rcases h with h | h
  · omega
  · exact Bool.false_ne_true (h.symm.trans habove)

/-- A reading above the hold raises the voltage, whatever the free value of the step (log 137), to 900 mV at most. -/
theorem raiseVcore_raises (hn : n < 48) (hk1 : blkK1 ∉ s.held) (habove : s.aboveHold n = true) :
    (s.raiseVcore n).reg (Reg.vcore n) ≤ 900
      ∧ (s.reg (Reg.vcore n) < 900 → s.reg (Reg.vcore n) < (s.raiseVcore n).reg (Reg.vcore n)) := by
  unfold raiseVcore
  rw [if_pos ⟨hn, habove, by simpa using hk1⟩]
  extract_lets v
  rw [reg_setReg_same]
  omega

end State

end Sys2Proof.Machine
end

section
/-! ### Readings and misses (R318, R365) -/

namespace Sys2Proof.Machine

namespace State

/-- The state with a reading of a sentinel stored. -/
def withReading (die i ps : Nat) (s : State) : State :=
  s.modSentinel die i fun x => { x with ps := min ps 4095, takenAt := some s.now, misses := 0 }

/-- The state with a missed interval of a sentinel counted. -/
def withMiss (die i : Nat) (s : State) : State := s.modSentinel die i fun x => { x with misses := x.misses + 1 }

variable {s : State} {die i : Nat}

theorem sentinelReading_of_heard (hdie : die < 62) (h : s.HasSentinel die i) (hlive : s.live (sentinelPd die) = true)
    (hctl : s.controlOk die = true) (ps : Nat) :
    s.sentinelReading die i ps
      = (if ps < 500 ∨ 3000 < ps then (s.withReading die i ps).faultSentinel die i else s.withReading die i ps).raiseVcore
        die := by
  have hheard : ¬ (62 ≤ die || (s.sentinels.getD die []).length ≤ i || !s.live (sentinelPd die)
      || !s.controlOk die) := by
    simpa [hlive, hctl] using ⟨hdie, h.inRow⟩
  exact if_neg hheard

theorem sentinelMiss_of_live (hdie : die < 62) (h : s.HasSentinel die i) (hlive : s.live (sentinelPd die) = true) :
    s.sentinelMiss die i
      = if 2 ≤ ((s.withMiss die i).sentinel die i).misses then (s.withMiss die i).faultSentinel die i
        else s.withMiss die i := by
  have hmissed : ¬ (62 ≤ die || (s.sentinels.getD die []).length ≤ i || !s.live (sentinelPd die)) := by
    simpa [hlive] using ⟨hdie, h.inRow⟩
  exact if_neg hmissed

/-- A reading is stored with its instant, and ends a row of misses. -/
theorem withReading_sentinel (h : s.HasSentinel die i) {ps : Nat} (hps : ps ≤ 4095) :
    SentinelTo s (s.withReading die i ps) die i
      { s.sentinel die i with ps := ps, takenAt := some s.now, misses := 0 } := by
  have hstored : SentinelTo s (s.withReading die i ps) die i
      { s.sentinel die i with ps := min ps 4095, takenAt := some s.now, misses := 0 } := modSentinel_sentinel h _
  rwa [Nat.min_eq_left hps] at hstored

/-- A reading outside its range is stored, and its sentinel is faulted. -/
theorem fault_withReading_sentinel (h : s.HasSentinel die i) (ps : Nat) :
    SentinelTo s ((s.withReading die i ps).faultSentinel die i) die i
      { (s.withReading die i ps).sentinel die i with faulted := true } :=
  (modSentinel_sentinel h _).trans (faultSentinel_sentinel (hasSentinel_modSentinel h _))

/-- A miss counts, and the second in a row faults the sentinel. -/
theorem sentinelMiss_sentinel (hdie : die < 62) (h : s.HasSentinel die i) (hlive : s.live (sentinelPd die) = true) :
    SentinelTo s (s.sentinelMiss die i) die i
      { s.sentinel die i with
        misses := (s.sentinel die i).misses + 1
        faulted := (s.sentinel die i).faulted || decide (1 ≤ (s.sentinel die i).misses) } := by
  have hmiss : SentinelTo s (s.withMiss die i) die i
      { s.sentinel die i with misses := (s.sentinel die i).misses + 1 } := modSentinel_sentinel h _
  have hfault := hmiss.trans (faultSentinel_sentinel (hasSentinel_modSentinel h _))
  rw [sentinelMiss_of_live hdie h hlive, hmiss.becomes]
  by_cases hsecond : 1 ≤ (s.sentinel die i).misses
  · rw [if_pos (Nat.succ_le_succ hsecond)]
    rw [hmiss.becomes] at hfault
    simpa [hsecond] using hfault
  · rw [if_neg (fun h2 => hsecond (Nat.le_of_succ_le_succ h2))]
    simpa [hsecond] using hmiss

end State

end Sys2Proof.Machine
end

section
/-! ### The statement (O29) -/

namespace Sys2Proof.Machine

/-- What a command's `finish` adds to a state leaves the sentinels. -/
theorem State.SentinelTo.finished {s u t : State} {dt die i : Nat} {x : Sentinel} (h : (s.advance dt).SentinelTo u die i x)
    (ht : t.sentinels = u.sentinels) : s.SentinelTo t die i x :=
  ⟨(State.sentinel_congr ht _ _).trans h.becomes,
    fun d k hne => (State.sentinel_congr ht d k).trans ((h.others d k hne).trans (s.advance_sentinel ..))⟩

/-- Settles O29: a reading and a miss change their one sentinel (`SentinelTo`), a fault marks it, and beside these only the
die's core voltage is raised, where the hold asks for it (`raiseVcore_of_not`, `raiseVcore_raises`). -/
theorem sentinelsReadAndFault : Obligations.SentinelsReadAndFault := by
  unfold Obligations.SentinelsReadAndFault
  intro dt die i s hdie hlen hi hlive hctl
  have hhas : (s.advance dt).HasSentinel die i := by
    constructor <;> rw [s.advance_sentinels]
    · omega
    · exact hi
  have hlive' : (s.advance dt).live (sentinelPd die) = true := (s.advance_live dt _).trans hlive
  have hreading := State.sentinelReading_of_heard hdie hhas hlive' ((s.advance_controlOk dt die).trans hctl)
  refine ⟨fun ps hlo hhi => ?inRange, fun ps hout => ?outOfRange, ?miss⟩
  case inRange =>
    have hin : ¬ (ps < 500 ∨ 3000 < ps) := by omega
    have hstored := (State.withReading_sentinel hhas (ps := ps) (by omega)).finished rfl
    rw [s.advance_sentinel, s.advance_now] at hstored
    refine ⟨_, exec_sentinelReading dt die i ps s, ?_⟩
    rw [hreading, if_neg hin]
    generalize hw : (s.advance dt).withReading die i ps = w at hstored ⊢
    have hregs : w.regs = s.regs := by rw [← hw]; exact s.advance_regs dt
    have hheld : w.held = s.held := by rw [← hw]; exact s.advance_held dt
    have hsen := State.raiseVcore_sentinels die w
    have habove := State.raiseVcore_aboveHold die w
    refine ⟨?_, ?_, ?_, ?_, ?_⟩
    · exact (State.sentinel_congr hsen die i).trans hstored.becomes
    · exact fun d k hne => (State.sentinel_congr hsen d k).trans (hstored.others d k hne)
    · exact fun a ha => (State.raiseVcore_reg_ne ha).trans (State.reg_congr hregs a)
    · intro hnot
      have hkeep := State.raiseVcore_of_not (s := w) (hnot.imp_right habove.symm.trans)
      exact (congrArg State.regs hkeep).trans hregs
    · intro hcompute hk1 h
      rw [← State.reg_congr hregs]
      exact State.raiseVcore_raises hcompute (hheld ▸ hk1) (habove.symm.trans h)
  case outOfRange =>
    have hfault := (State.fault_withReading_sentinel hhas ps).finished (State.raiseVcore_sentinels die _)
    refine ⟨_, exec_sentinelReading dt die i ps s, ?_⟩
    rw [hreading, if_pos hout]
    exact ⟨congrArg Sentinel.faulted hfault.becomes, hfault.others⟩
  case miss =>
    have hmiss := (State.sentinelMiss_sentinel hdie hhas hlive').finished rfl
    rw [s.advance_sentinel] at hmiss
    refine ⟨_, exec_sentinelMiss dt die i s, congrArg Sentinel.misses hmiss.becomes, fun hsecond => ?_, hmiss.others⟩
    exact (congrArg Sentinel.faulted hmiss.becomes).trans (by simp [hsecond])

end Sys2Proof.Machine
end

/-! ## The host interface (O6, O12, O13, O14, O37): refusals, rings, doorbells, function states, staged sets -/

section
/-! ### What a refusal leaves (R312, R313, R343, R344) -/

namespace Sys2Proof.Machine

namespace State

/-- Authentication changes, beside what a report may, the registers of R312 and R313 alone. -/
theorem authenticate_reg (s : State) (d : List Byte) {a : Nat} (hreport : a ∉ reportRegs) (hauth : a ∉ authRegs) :
    (s.authenticate d).1.reg a = s.reg a := by
  simp only [authRegs, List.mem_cons, List.not_mem_nil, or_false, not_or] at hauth
  obtain ⟨hctr, hfail, hevents, hstatus⟩ := hauth
  have hcount : ((s.count Reg.secAuthfail 1).raise .sec 0).reg a = s.reg a := by
    rw [raise_reg _ _ _ _ hreport, if_neg (show a ≠ EvSrc.sec.off from hevents), reg_count, if_neg hfail]
  unfold authenticate
  split
  · rfl
  split
  · rfl
  split
  · rfl
  split
  · rfl
  split
  · dsimp only
    split
    · rw [raise_reg _ _ _ _ hreport, if_neg (show a ≠ EvSrc.sec.off from hevents), reg_setField_ne _ _ _ _ _ _ hstatus]
      exact hcount
    · exact hcount
  · exact reg_setReg_ne s _ _ _ hctr

theorem authed_of_not_critical (s : State) {d : List Byte} (h : isCritical d = false) : s.authed d = (s, none) := by
  simp [authed, h]

theorem authed_reg (s : State) (d : List Byte) {a : Nat} (hreport : a ∉ reportRegs)
    (hauth : isCritical d = true → a ∉ authRegs) : (s.authed d).1.reg a = s.reg a := by
  unfold authed
  split
  · next h => exact authenticate_reg s d hreport (hauth (Bool.and_eq_true_iff.mp h).1)
  · rfl

/-- The registers that a refusal leaves are none of those its report and its record touch. -/
theorem refusalReg_eq_false {a : Nat} (h : refusalReg a = false) :
    a ∉ reportRegs ∧ a ≠ Reg.prmRefused ∧ a ≠ Reg.prmEvents ∧ a ≠ Reg.hifEvents ∧ a ≠ Reg.hifOrphans ∧ ¬ isRingWord a := by
  simp only [refusalReg, reportRegs, isRingWord, List.mem_cons, List.not_mem_nil, or_false, Bool.or_eq_false_iff,
    decide_eq_false_iff_not, Bool.and_eq_false_iff, not_or] at h ⊢
  omega

theorem refuse_reg (s : State) (t : Taken) (r : Refuse) {a : Nat} (h : refusalReg a = false) :
    (s.refuse t r).reg a = s.reg a := by
  obtain ⟨hreport, hrefused, hprm, hhif, horphans, hring⟩ := refusalReg_eq_false h
  have hraise : ∀ (u : State) (p : Prop) [Decidable p] (e : EvSrc) (b : Nat), a ≠ e.off →
      (if p then u.raise e b else u).reg a = u.reg a := by
    intro u p _ e b he
    split
    · rw [raise_reg _ _ _ _ hreport, if_neg he]
    · rfl
  unfold refuse
  extract_lets id decided counted paced windowed reserved
  rw [emitRecord_reg _ _ _ _ _ hreport horphans hhif hring]
  calc windowed.reg a = paced.reg a := hraise paced _ .hif 2 hhif
    _ = counted.reg a := hraise counted _ .prm 0 hprm
    _ = s.reg a := reg_setReg_ne decided _ _ _ hrefused

/-- R343: a refusal after authentication, in the state that the authentication leaves. -/
theorem leavesRefusal_of_authed {s u : State} {d : Taken} {c : Option Nat} (r : Refuse)
    (h : (s.setTaken []).authed d.bytes = (u, c)) : s.LeavesRefusal d (u.refuse d r) := by
  obtain ⟨fails, lockout, hreports⟩ := authed_reports (s.setTaken []) d.bytes
  have htaken := authed_taken (s.setTaken []) d.bytes
  have hreg := fun a => authed_reg (s.setTaken []) d.bytes (a := a)
  rw [h] at hreports htaken hreg
  have hrecords := refuse_records u d r
  have hdecided : u.decided = s.decided := hreports.decided
  refine ⟨?_, hrecords.taken.trans htaken, ?_, ?_, ?_⟩
  · by_cases hcrit : isCritical d.bytes = true
    · have hauthed : OnlyRecords
          { s with
            authFails := fails, lockoutAt := lockout, taken := []
            decided := (itemId d.ring d.index, Decision.refused) :: u.decided.take 65535 }
          { u with decided := (itemId d.ring d.index, Decision.refused) :: u.decided.take 65535 } := by
        obtain ⟨_, _, _, _, rfl⟩ := hreports
        exact ⟨_, _, _, _, _, _, _, rfl⟩
      exact ⟨fails, lockout, ⟨_, _, hauthed.trans hrecords⟩, fun h => absurd (hcrit.symm.trans h) (by decide)⟩
    · have hsame := authed_of_not_critical (s.setTaken []) (Bool.eq_false_iff.mpr hcrit)
      rw [h] at hsame
      cases hsame
      exact ⟨s.authFails, s.lockoutAt, refuse_refuses s [] d r, fun _ => ⟨rfl, rfl⟩⟩
  · rw [hrecords.decided, ← hdecided]
  · rw [refuse_prmRefused, hreg _ (by decide) (fun _ => by decide)]
    rfl
  · intro a ha hauth
    rw [refuse_reg u d r ha]
    exact hreg a (refusalReg_eq_false ha).1 hauth

/-- A refusal admits no item and ends none. -/
theorem LeavesRefusal.items {s t : State} {d : Taken} (h : s.LeavesRefusal d t) : t.items = s.items := by
  obtain ⟨⟨_, _, ⟨_, _, hrecords⟩, -⟩, -⟩ := h
  exact hrecords.items

theorem LeavesRefusal.fuses {s t : State} {d : Taken} (h : s.LeavesRefusal d t) : t.fuses = s.fuses := by
  obtain ⟨⟨_, _, ⟨_, _, hrecords⟩, -⟩, -⟩ := h
  exact hrecords.fuses

theorem noteExport_of_none {s : State} {id : Nat} (h : s.item? id = none) : s.noteExport id = s := by
  simp [noteExport, h]

theorem noteEval_of_none {s : State} {id : Nat} (h : s.item? id = none) : s.noteEval id = s := by
  simp [noteEval, h]

end State

theorem exec_progStart (dt : Nat) (s : State) : exec (.progStart dt) s = s.finish dt (s.advance dt).progStart := rfl
theorem exec_reduce (dt : Nat) (s : State) : exec (.reduce dt) s = s.finish dt (s.advance dt).reduceRow := rfl
theorem exec_pageIn (dt : Nat) (s : State) : exec (.pageIn dt) s = s.finish dt (s.advance dt).pageIn := rfl

namespace State

/-! The rows that look at their item after the decision, where the decision leaves none of its id. -/

section
variable {s t : State} (h : t.item? s.headId = none)
include h

theorem progStart_of_decided (ht : decideRow (0x03, 0) progStartCheck progStartStart s = t) : s.progStart = t := by
  unfold progStart
  dsimp only
  rw [ht]
  split
  · rfl
  · exact noteEval_of_none h

theorem reduceRow_of_decided (ht : decideRow (0x05, 0) reduceCheck (fun _ s => s) s = t) : s.reduceRow = t := by
  unfold reduceRow
  dsimp only
  rw [ht, show t.item? ((s.taken.head?.map fun t => itemId t.ring t.index).getD 0) = none from h, ite_self]

theorem pageIn_of_decided (ht : decideRow (0x08, 0) pageInCheck pageInStart s = t) : s.pageIn = t := by
  unfold pageIn
  dsimp only
  rw [ht, show t.item? ((s.taken.head?.map fun t => itemId t.ring t.index).getD 0) = none from h, ite_self]

end

end State

/-- A decision of one of `refusingRows` that its start has no part in is the whole effect of the row's command, where no item of
the descriptor's id is found after it and the fuses are as before. -/
theorem exec_refusingRow {r : RefusingRow} (hr : r ∈ refusingRows) {dt : Nat} {s t : State}
    (hdecide : ∀ start, State.decideRow r.2.1 r.2.2 start (s.advance dt) = t) (hfuses : t.fuses = s.fuses)
    (hitem : r.2.1 ∈ lookingKinds → t.item? (s.advance dt).headId = none) : exec (r.1 dt) s = s.finish dt t := by
  have hfinish : s.finishFuses dt t = s.finish dt t := by
    rw [State.finishFuses_next, State.finish_next, ← hfuses]
  rcases List.mem_append.mp hr with hrow | hrow
  · obtain ⟨row, hmem, rfl⟩ := List.mem_map.mp hrow
    rw [exec_decisionRow row hmem, hdecide row.start, DecisionRow.after]
    split
    · next hkind => rw [State.noteExport_of_none (hitem (by simp [lookingKinds, hkind]))]
    · rfl
  · simp only [List.mem_cons, List.not_mem_nil, or_false] at hrow
    rcases hrow with rfl | rfl | rfl | rfl | rfl
    · rw [exec_fuseProgram, hdecide, hfinish]
    · rw [exec_fuseRevoke, hdecide, hfinish]
    · rw [exec_progStart, State.progStart_of_decided (hitem (by decide)) (hdecide _)]
    · rw [exec_reduce, State.reduceRow_of_decided (hitem (by decide)) (hdecide _)]
    · rw [exec_pageIn, State.pageIn_of_decided (hitem (by decide)) (hdecide _)]

/-- A row that leaves a refusal of the one waiting descriptor, whichever its start. -/
theorem exec_refusingRow_refuses {r : RefusingRow} (hr : r ∈ refusingRows) {dt : Nat} {s t : State} {d : Taken}
    (hdecide : ∀ start, State.decideRow r.2.1 r.2.2 start (s.advance dt) = t) (hwaits : (s.advance dt).taken = [d])
    (hrefusal : (s.advance dt).LeavesRefusal d t)
    (hitem : r.2.1 ∈ lookingKinds → s.item? (itemId d.ring d.index) = none) : exec (r.1 dt) s = s.finish dt t := by
  refine exec_refusingRow hr hdecide (hrefusal.fuses.trans (s.advance_fuses dt)) fun hkind => ?_
  have hid : (s.advance dt).headId = itemId d.ring d.index := by rw [State.headId, hwaits]; rfl
  rw [hid, State.item?, hrefusal.items, State.advance_items]
  exact hitem hkind

/-- Settles O6: a refused or unauthentic descriptor is refused in the state that its authentication leaves, and what that
leaves is said once, of both (`State.leavesRefusal_of_authed`). -/
theorem refusedCommandsHaveNoEffect : Obligations.RefusedCommandsHaveNoEffect := by
  unfold Obligations.RefusedCommandsHaveNoEffect
  refine ⟨fun r hr dt s d e u h hitem => ?refused, fun r hr dt s d c u h hitem => ?unauthentic⟩
  case refused =>
    obtain ⟨hwaits, -, -, hauth, -⟩ := State.refusal_spec _ _ _ _ _ _ h
    have hleaves := State.leavesRefusal_of_authed e hauth
    exact ⟨_, exec_refusingRow_refuses hr (fun start => (State.decideRow_refusal _ _ _ start _ _ _ h).1) hwaits hleaves hitem,
      hleaves⟩
  case unauthentic =>
    obtain ⟨hwaits, -, -, hauth⟩ := State.unauthentic_spec _ _ _ _ _ h
    have hleaves := State.leavesRefusal_of_authed { code := c } hauth
    exact ⟨_, exec_refusingRow_refuses hr (fun start => (State.decideRow_unauthentic _ _ _ start _ _ _ h).1) hwaits hleaves
      hitem, hleaves⟩

end Sys2Proof.Machine
end

section
/-! ### Rings and their registers (Tables SCO-4, HIF-9) -/

namespace Sys2Proof.Machine

/-- A bit of the word after a write (Table SCO-4). -/
theorem RegRow.written_testBit (r : RegRow) (locked : Bool) (old v i : Nat) :
    (r.written locked old v).testBit i = (decide (i < 64)
      && (if bitOf (r.rw ||| r.stk ||| (if locked then 0 else r.rwl)) i then bitOf v i else bitOf old i)
      && !(bitOf r.w1c i && bitOf v i)) := by
  have hstep : ∀ m, (fun a i => if bitOf m i then (if bitOf v i then a + 2 ^ i else a) else if bitOf old i then a + 2 ^ i else a)
      = fun a i => if (if bitOf m i then bitOf v i else bitOf old i) then a + 2 ^ i else a := by
    intro m
    funext a i
    cases bitOf m i <;> rfl
  unfold RegRow.written
  dsimp only
  rw [hstep, Nat.and_assoc, sub_and_testBit, (foldl_bits_testBit _ 64 i).1, Nat.testBit_and, bitOf_eq r.w1c, bitOf_eq v]

theorem RegRow.written_lt (r : RegRow) (locked : Bool) (old v : Nat) : r.written locked old v < 2 ^ 64 := by
  apply Nat.lt_pow_two_of_testBit
  intro i hi
  rw [RegRow.written_testBit]
  simp [Nat.not_lt.mpr hi]

theorem bitOf_putBits_zero (v x : Nat) : bitOf (putBits v 0 0 x) 0 = bitOf x 0 := by
  rw [bitOf_eq, putBits_testBit _ _ _ _ _ (Nat.le_refl 0), bitOf_eq]
  simp

/-- A word in which EN alone takes the value of another has its EN. -/
theorem bitOf_putBits_en (old new : Nat) : bitOf (putBits old 0 0 (bitsOf new 0 0) % 2 ^ 64) 0 = bitOf new 0 := by
  rw [bitOf_eq, bitOf_eq, Nat.testBit_mod_two_pow, putBits_testBit _ _ _ _ _ (Nat.le_refl 0), bitsOf_testBit]
  simp

/-- The registers of a ring that more than one fact tells apart. -/
theorem ringReg_ne (n : Nat) : Reg.ringCtrl n ≠ Reg.ringStatus n ∧ Reg.ringHead n ≠ Reg.ringStatus n
    ∧ Reg.ringWritten n ≠ Reg.ringStatus n ∧ Reg.ringHead n ≠ Reg.hifTaken := by
  unfold Reg.ringCtrl Reg.ringHead Reg.ringWritten Reg.ringStatus Reg.hifTaken
  omega

namespace State

/-- No ring register is one that a report touches. -/
theorem ringWord_not_reported {a : Nat} (h : isRingWord a) : a ∉ reportRegs := by
  unfold isRingWord at h
  simp only [reportRegs, Reg.errEvents, Reg.recEvents, Reg.recLost, List.mem_cons, List.not_mem_nil, or_false]
  omega

theorem ring_modRing {s : State} {n : Nat} (hn : n < s.rings.length) (f : Ring → Ring) : (s.modRing n f).ring n = f (s.ring n) := by
  unfold ring modRing
  rw [modAt_getD _ _ _ _ _ hn, if_pos rfl]

theorem reg_modRing (s : State) (n : Nat) (f : Ring → Ring) (a : Nat) : (s.modRing n f).reg a = s.reg a :=
  reg_congr (s.modRing_regs n f) a

theorem ringState_setStatus (s : State) (n v : Nat) (h : v < 4) :
    (s.setField (Reg.ringStatus n) 1 0 v).ringState n = v :=
  (regBits_setField _ _ _ _ _ (by decide) (by decide)).trans (Nat.mod_eq_of_lt h)

end State

end Sys2Proof.Machine
end

section
/-! ### Rings turn on and off (R340) -/

namespace Sys2Proof.Machine

/-- RING_CTRL.EN is a RW bit. -/
theorem ringCtrl_en : ∀ n < 8, ∀ r ∈ regRowAt (Reg.ringCtrl n), bitOf r.rw 0 = true ∧ bitOf r.w1c 0 = false := by
  decide +kernel

theorem exec_ringEnable (dt n : Nat) (v : Word) (s : State) :
    exec (.ringEnable dt n v) s = s.finish dt ((s.advance dt).ringWrite n true v.toNat) := rfl
theorem exec_ringDisable (dt n : Nat) (v : Word) (s : State) :
    exec (.ringDisable dt n v) s = s.finish dt ((s.advance dt).ringWrite n false v.toNat) := rfl

namespace State

/-- EN after a write of RING_CTRL that is taken is EN as written. -/
theorem barTakes_ringCtrl {s : State} {n v : Nat} {r : RegRow} {old new : Nat} (hn : n < 8)
    (h : s.barTakes (Reg.ringCtrl n) false v = some (r, old, new)) : new < 2 ^ 64 ∧ bitOf new 0 = bitOf v 0 := by
  obtain ⟨-, -, hrow, -, -, -, -, -, -, -, rfl⟩ := barTakes_spec s _ _ _ _ _ _ h
  obtain ⟨hrw, hw1c⟩ := ringCtrl_en n hn r hrow
  rw [bitOf_eq] at hrw
  refine ⟨RegRow.written_lt _ _ _ _, ?_⟩
  rw [bitOf_eq, RegRow.written_testBit, hw1c, bitOf_eq (_ ||| _), Nat.testBit_or, Nat.testBit_or, hrw]
  simp

theorem ringWrite_takes {s : State} {n en : Nat} {on : Bool} {v : Word} {r : RegRow} {old new : Nat} (hn : n < 8)
    (hen : (if on then 1 else 0) = en) (h : s.barTakes (Reg.ringCtrl n) false (putBits v.toNat 0 0 en) = some (r, old, new)) :
    s.ringWrite n on v.toNat = s.ringCtrl n old new := by
  unfold ringWrite
  rw [if_pos hn, Nat.mod_eq_of_lt v.isLt, hen, barWith_takes _ _ _ _ _ _ _ _ h]

/-- R340: the checks that turn a ring on. -/
def RingFits (s : State) (n : Nat) : Prop :=
  6 ≤ s.sqLog n ∧ s.sqLog n ≤ 16 ∧ 6 ≤ s.cqLog n ∧ s.cqLog n ≤ 17
    ∧ s.hostRangeOk (s.regBits (Reg.ringSqBase n) 63 12 * 4096) (128 * 2 ^ s.sqLog n) = true
    ∧ s.hostRangeOk (s.regBits (Reg.ringCqBase n) 63 12 * 4096) (64 * 2 ^ s.cqLog n) = true
    ∧ s.hostRangeOk (s.dbAddr n) 16 = true

/-- The checks of a host range read the host windows, which lie below the ring registers. -/
theorem hostRangeOk_congr {s t : State} (h : ∀ a < 0x10000, t.reg a = s.reg a) (a n : Nat) :
    t.hostRangeOk a n = s.hostRangeOk a n := by
  unfold hostRangeOk regBits
  congr 1
  rw [Bool.eq_iff_iff, List.any_eq_true, List.any_eq_true]
  refine exists_congr fun w => and_congr_right fun hw => ?_
  have hw4 : w < 4 := List.mem_range.mp hw
  rw [h (Reg.hifHostwinBase w) (by unfold Reg.hifHostwinBase; omega),
    h (Reg.hifHostwinLimit w) (by unfold Reg.hifHostwinLimit; omega)]

/-- Of the ring's registers the checks read its bases and its sizes. -/
theorem ringFits_congr {s t : State} {n : Nat} (h : ∀ a, a ≠ Reg.ringCtrl n → t.reg a = s.reg a) :
    t.RingFits n ↔ s.RingFits n := by
  have hrange := hostRangeOk_congr fun a ha => h a (by unfold Reg.ringCtrl; omega)
  have hsize : t.reg (Reg.ringSize n) = s.reg (Reg.ringSize n) := h _ (by unfold Reg.ringSize Reg.ringCtrl; omega)
  have hsq : t.reg (Reg.ringSqBase n) = s.reg (Reg.ringSqBase n) := h _ (by unfold Reg.ringSqBase Reg.ringCtrl; omega)
  have hcq : t.reg (Reg.ringCqBase n) = s.reg (Reg.ringCqBase n) := h _ (by unfold Reg.ringCqBase Reg.ringCtrl; omega)
  have hdb : t.reg (Reg.ringDbAddr n) = s.reg (Reg.ringDbAddr n) := h _ (by unfold Reg.ringDbAddr Reg.ringCtrl; omega)
  simp only [RingFits, sqLog, cqLog, dbAddr, regBits, hrange, hsize, hsq, hcq, hdb]

/-- A ring that turns ON: every count of it is 0. -/
def startRing (n : Nat) (s : State) : State :=
  let s := (s.setReg (Reg.ringHead n) 0).setReg (Reg.ringWritten n) 0
  let s := s.modRing n fun _ => {}
  let s := { s with decided := s.decided.filter fun x => x.1 % 2 ^ 48 / 2 ^ 40 != n + 1 }
  s.setField (Reg.ringStatus n) 1 0 1

theorem ringOn_of_fits {s : State} {n : Nat} (h : s.RingFits n) : s.ringOn n = s.startRing n := by
  obtain ⟨hsq, hsq', hcq, hcq', hwinSq, hwinCq, hwinDb⟩ := h
  unfold ringOn
  extract_lets sq cq sizeOk winOk w head counts decided
  have hwin : winOk = true := by simp only [winOk, sq, cq, hwinSq, hwinCq, hwinDb, Bool.and_self]
  have hsize : sizeOk = true := by simp [sizeOk, sq, cq, hsq, hsq', hcq, hcq']
  have hw : w = s := if_pos hwin
  rw [hsize, hwin, Bool.and_self, if_pos rfl]
  simp only [decided, counts, head, hw]
  rfl

/-- The registers that the start of a ring sets. -/
theorem startRing_reg (s : State) (n a : Nat) (hstatus : a ≠ Reg.ringStatus n) :
    (s.startRing n).reg a = if a = Reg.ringWritten n ∨ a = Reg.ringHead n then 0 else s.reg a := by
  unfold startRing
  dsimp only
  rw [reg_setField_ne _ _ _ _ _ _ hstatus]
  have hdecided : ∀ (u : State) (d : List (Nat × Decision)), State.reg { u with decided := d } a = u.reg a :=
    fun u _ => reg_congr (s := u) rfl a
  rw [hdecided, reg_modRing, reg_setReg, reg_setReg, Nat.zero_mod, ← ite_or]

theorem startRing_rings (s : State) (n : Nat) : (s.startRing n).rings = s.rings.set n {} :=
  (List.set_eq_modify ({} : Ring) n s.rings).symm

/-- A ring that does not fit is in CFG_ERR; a range outside every window is reported. -/
theorem ringOn_of_not_fits {s : State} {n : Nat} (h : ¬ s.RingFits n) :
    ∃ w, s.OnlyReports w ∧ (∀ a, isRingWord a → w.reg a = s.reg a) ∧ s.ringOn n = w.setField (Reg.ringStatus n) 1 0 3 := by
  unfold ringOn
  extract_lets sq cq sizeOk winOk w head counts decided
  have hnot : ¬ (sizeOk && winOk) = true := by
    simp only [sizeOk, winOk, Bool.and_eq_true, decide_eq_true_eq]
    rintro ⟨⟨⟨⟨hsq, hsq'⟩, hcq⟩, hcq'⟩, ⟨hwinSq, hwinCq⟩, hwinDb⟩
    exact h ⟨hsq, hsq', hcq, hcq', hwinSq, hwinCq, hwinDb⟩
  rw [if_neg hnot]
  refine ⟨w, onlyIf (R := OnlyReports) s (.refl s) (raise_only s _ _), fun a ha => ?_, rfl⟩
  unfold w
  split
  · rfl
  · rw [raise_reg _ _ _ _ (ringWord_not_reported ha), if_neg (fun h => by subst h; revert ha; decide)]

theorem ringCtrl_en_set {s : State} {n old new : Nat} (hstate : s.ringState n = 0 ∨ s.ringState n = 3)
    (hen : bitOf new 0 = true) : s.ringCtrl n old new = (s.setReg (Reg.ringCtrl n) new).ringOn n := by
  have hoff : ¬ (s.ringState n = 1 ∨ s.ringState n = 2) := by omega
  unfold ringCtrl
  dsimp only
  rw [if_neg hoff, if_pos hen, if_pos hstate]

theorem ringCtrl_en_clear {s : State} {n old new : Nat} (hstate : s.ringState n = 1) (hen : bitOf new 0 = false) :
    s.ringCtrl n old new = (s.setReg (Reg.ringCtrl n) (putBits old 0 0 (bitsOf new 0 0))).ringOff n := by
  unfold ringCtrl
  dsimp only
  rw [if_neg (Bool.eq_false_iff.mp hen), if_pos (Or.inl hstate)]

theorem ringOff_of_on {s : State} {n : Nat} (h : s.ringState n = 1) :
    s.ringOff n = s.setField (Reg.ringStatus n) 1 0 (if (s.ring n).reservedRecords = 0 then 0 else 2) := by
  unfold ringOff
  exact if_pos h

end State

/-- Settles O12: a write that is taken has the effect of `State.ringCtrl`; the ring turns ON by the checks of R340
(`State.RingFits`), each outcome having its own lemma. -/
theorem ringsTurnOnAndOff : Obligations.RingsTurnOnAndOff := by
  unfold Obligations.RingsTurnOnAndOff
  intro dt n v s hn
  obtain ⟨hctrlNe, hheadNe, hwrittenNe, -⟩ := ringReg_ne n
  refine ⟨fun r old new h hstate => ?enable, fun r old new h hstate => ?disable⟩
  case enable =>
    obtain ⟨hnew, hen⟩ := State.barTakes_ringCtrl hn h
    rw [bitOf_putBits_zero] at hen
    have h' := (s.advance_barTakes dt _ _ _).trans h
    have hfits : ((s.advance dt).setReg (Reg.ringCtrl n) new).RingFits n ↔ s.RingFits n :=
      State.ringFits_congr fun a ha => (State.reg_setReg_ne _ _ _ _ ha).trans (s.advance_reg dt a)
    rw [exec_ringEnable, State.ringWrite_takes hn (by rfl) h', State.ringCtrl_en_set (by simpa using hstate) hen]
    generalize hu : (s.advance dt).setReg (Reg.ringCtrl n) new = u at hfits
    have hctrl : u.reg (Reg.ringCtrl n) = new := by rw [← hu, State.reg_setReg_same, Nat.mod_eq_of_lt hnew]
    by_cases hon : s.RingFits n
    · have hstarted : (u.startRing n).ringState n = 1 := State.ringState_setStatus _ n 1 (by decide)
      rw [State.ringOn_of_fits (hfits.mpr hon)]
      refine ⟨_, rfl, ?_, .inl hstarted, iff_of_true hstarted hon, fun _ => ⟨?_, ?_, ?_⟩, ?_⟩
      · exact (State.startRing_reg u n _ hctrlNe).trans ((if_neg (by simp)).trans hctrl)
      · exact (State.startRing_reg u n _ hheadNe).trans (if_pos (.inr rfl))
      · exact (State.startRing_reg u n _ hwrittenNe).trans (if_pos (.inl rfl))
      · exact (State.startRing_rings u n).trans (by rw [← hu]; simp)
      · rw [← hu]
        exact ⟨s.advance_hbm dt, s.advance_host dt, s.advance_dies dt, s.advance_items dt⟩
    · obtain ⟨w, honly, hreg, hw⟩ := State.ringOn_of_not_fits (fun h => hon (hfits.mp h))
      have herr : (w.setField (Reg.ringStatus n) 1 0 3).ringState n = 3 := State.ringState_setStatus _ n 3 (by decide)
      rw [hw]
      refine ⟨_, rfl, ?_, .inr herr, iff_of_false (fun h => absurd (herr.symm.trans h) (by decide)) hon,
        fun h => absurd (herr.symm.trans h) (by decide), ?_⟩
      · have hword : State.isRingWord (Reg.ringCtrl n) := by unfold State.isRingWord Reg.ringCtrl; omega
        exact (State.reg_setField_ne _ _ _ _ _ _ hctrlNe).trans ((hreg _ hword).trans hctrl)
      · refine ⟨honly.hbm.trans ?_, honly.host.trans ?_, honly.dies.trans ?_, honly.items.trans ?_⟩
        all_goals simp [← hu]
  case disable =>
    obtain ⟨-, hen⟩ := State.barTakes_ringCtrl hn h
    rw [bitOf_putBits_zero] at hen
    have h' := (s.advance_barTakes dt _ _ _).trans h
    rw [exec_ringDisable, State.ringWrite_takes hn (by rfl) h', State.ringCtrl_en_clear (by simpa using hstate) hen]
    have hring : ((s.advance dt).setReg (Reg.ringCtrl n) (putBits old 0 0 (bitsOf new 0 0))).ringState n = 1 :=
      (State.regBits_setReg_ne _ _ _ _ _ _ hctrlNe.symm).trans ((s.advance_ringState dt n).trans hstate)
    rw [State.ringOff_of_on hring]
    refine ⟨_, rfl, ?_, ?_, ?_⟩
    · have hctrl := State.reg_setReg_same (s.advance dt) (Reg.ringCtrl n) (putBits old 0 0 (bitsOf new 0 0))
      refine (congrArg (bitOf · 0) ((State.reg_setField_ne _ _ _ _ _ _ hctrlNe).trans hctrl)).trans ?_
      exact (bitOf_putBits_en old new).trans hen
    · refine (State.ringState_setStatus _ n _ (by split <;> decide)).trans ?_
      simp [State.ring]
    · exact ⟨s.advance_rings dt, s.advance_hbm dt, s.advance_host dt, s.advance_dies dt, s.advance_items dt⟩

end Sys2Proof.Machine
end

section
/-! ### Doorbells and the taking of descriptors (R337, R338, R428) -/

namespace Sys2Proof.Machine

theorem exec_doorbellPoll (dt : Nat) (s : State) : exec (.doorbellPoll dt) s = s.finish dt (s.advance dt).doorbellPoll := rfl
theorem exec_mirrorWrite (dt off : Nat) (wide : Bool) (v : DWord) (s : State) :
    exec (.mirrorWrite dt off wide v) s = s.finish dt ((s.advance dt).mirrorWrite off wide v.toNat) := rfl

/-- What a function leaves as it is, any number of applications leave. -/
theorem iter_of_fixed {α : Type} {f : α → α} {x : α} (h : f x = x) (k : Nat) : iter f k x = x := by
  induction k with
  | zero => rfl
  | succ k ih => rw [iter, h, ih]

/-- A repetition that changes something only the first time. -/
theorem iter_of_once {α : Type} {f : α → α} {x y : α} (hx : f x = y) (hy : f y = y) {k : Nat} (hk : 1 ≤ k) : iter f k x = y := by
  obtain ⟨j, rfl⟩ := Nat.exists_eq_add_of_le' hk
  rw [iter, hx, iter_of_fixed hy]

theorem ofNat_mod_word (x : Nat) : BitVec.ofNat 32 (x % 2 ^ 32) = BitVec.ofNat 32 x := by
  bv_omega

namespace State

/-! What a scan of the rings does where one ring is ON. -/

section
variable (f : State → Nat → State)

theorem foldl_ringsOff (l : List Nat) (s : State) (h : ∀ m ∈ l, s.ringState m ≠ 1) :
    l.foldl (fun s m => if s.ringState m = 1 then f s m else s) s = s := by
  induction l with
  | nil => rfl
  | cons m l ih =>
    rw [List.foldl_cons, if_neg (h m List.mem_cons_self)]
    exact ih fun k hk => h k (List.mem_cons_of_mem m hk)

/-- Only the ring that is ON is worked on. -/
theorem foldl_ringOn {n : Nat} (hn : n < 8) {s : State} (hon : ∀ m, m < 8 → (s.ringState m = 1 ↔ m = n))
    (hf : ∀ m, (f s n).ringState m = s.ringState m) :
    (List.range 8).foldl (fun s m => if s.ringState m = 1 then f s m else s) s = f s n := by
  obtain ⟨before, after, hsplit⟩ := List.append_of_mem (List.mem_range.mpr hn)
  have hnodup : (before ++ n :: after).Nodup := hsplit ▸ List.nodup_range
  have hlt : ∀ m ∈ before ++ n :: after, m < 8 := fun m hm => List.mem_range.mp (hsplit ▸ hm)
  rw [List.nodup_append, List.nodup_cons] at hnodup
  obtain ⟨-, ⟨hafter, -⟩, hbefore⟩ := hnodup
  have hoff : ∀ m, m < 8 → m ≠ n → s.ringState m ≠ 1 := fun m hm hne h => hne ((hon m hm).mp h)
  rw [hsplit, List.foldl_append, List.foldl_cons, foldl_ringsOff f before s, if_pos ((hon n hn).mpr rfl),
    foldl_ringsOff f after]
  · intro m hm
    rw [hf m]
    exact hoff m (hlt m (by simp [hm])) (fun h => hafter (h ▸ hm))
  · intro m hm
    exact hoff m (hlt m (by simp [hm])) (hbefore m hm n List.mem_cons_self)

end

/-! ### Tails and heads that are seen -/

/-- A tail one beyond the head is valid and further ahead than none. -/
theorem seeTail_next {s : State} {n : Nat} {t : BitVec 32} (hseen : (s.ring n).tail = BitVec.ofNat 32 (s.reg (Reg.ringHead n)))
    (ht : t = BitVec.ofNat 32 (s.reg (Reg.ringHead n) + 1)) : s.seeTail n t = s.modRing n fun r => { r with tail := t } := by
  have hone : (t - BitVec.ofNat 32 (s.reg (Reg.ringHead n))).toNat = 1 := by
    subst ht
    bv_omega
  have hsize : 1 ≤ 2 ^ s.sqLog n := Nat.one_le_two_pow
  unfold seeTail
  dsimp only
  rw [hone, if_neg (by omega), hseen, BitVec.sub_self, if_pos (by decide)]

/-- The head last seen is no news. -/
theorem seeHead_same {s : State} {n : Nat} {h : BitVec 32} (hroom : s.cqRoom n = true) (hh : h = (s.ring n).head) :
    s.seeHead n h = s := by
  subst hh
  unfold cqRoom at hroom
  dsimp only at hroom
  rw [decide_eq_true_eq] at hroom
  unfold seeHead
  dsimp only
  rw [if_neg (by omega), if_neg (by omega)]

/-! ### A descriptor taken -/

/-- The descriptor in the SQ slot of a ring's head. -/
def headSlot (s : State) (n : Nat) : Taken :=
  { ring := n, index := (s.ring n).count
    bytes := s.readHost (s.regBits (Reg.ringSqBase n) 63 12 * 4096 + s.reg (Reg.ringHead n) % 2 ^ s.sqLog n * 128) 128 }

/-- The state once the descriptor at a ring's head has been taken, no write-back of the head being due. -/
def tookHead (n : Nat) (s : State) : State :=
  let s := { s with taken := s.taken ++ [s.headSlot n] }
  let s := s.setReg (Reg.ringHead n) ((s.reg (Reg.ringHead n) + 1) % 2 ^ 32)
  let s := s.count64 Reg.hifTaken 1
  s.modRing n fun r =>
    { r with count := r.count + 1, reservedRecords := r.reservedRecords + 2, sinceWriteback := r.sinceWriteback + 1 }

theorem tookHead_ring {s : State} {n : Nat} (hn : n < s.rings.length) : (s.tookHead n).ring n
    = { s.ring n with
        count := (s.ring n).count + 1, reservedRecords := (s.ring n).reservedRecords + 2
        sinceWriteback := (s.ring n).sinceWriteback + 1 } := by
  unfold tookHead
  dsimp only
  rw [ring_modRing (by simpa using hn)]
  simp [ring]

theorem tookHead_reg (s : State) (n a : Nat) : (s.tookHead n).reg a
    = if a = Reg.hifTaken then min (s.reg Reg.hifTaken + 1) 0xFFFFFFFFFFFFFFFF
      else if a = Reg.ringHead n then (s.reg (Reg.ringHead n) + 1) % 2 ^ 32 else s.reg a := by
  obtain ⟨-, -, -, hne⟩ := ringReg_ne n
  have htaken : ∀ b, State.reg { s with taken := s.taken ++ [s.headSlot n] } b = s.reg b := reg_congr rfl
  unfold tookHead
  dsimp only
  rw [reg_modRing, reg_count64, reg_setReg, reg_setReg, if_neg hne.symm, htaken, htaken, htaken,
    Nat.mod_eq_of_lt (a := (_ + 1) % 2 ^ 32) (lt_trans (Nat.mod_lt _ (by decide)) (by decide))]

theorem tookHead_taken (s : State) (n : Nat) : (s.tookHead n).taken = s.taken ++ [s.headSlot n] := by simp [tookHead]

theorem tookHead_frame (s : State) (n : Nat) : (s.tookHead n).host = s.host ∧ (s.tookHead n).hbm = s.hbm
    ∧ (s.tookHead n).items = s.items ∧ (s.tookHead n).dies = s.dies := by simp [tookHead]

/-- A descriptor is taken where a tail lies beyond the head and the CQ has room. -/
theorem takeOne_of_room {s : State} {n : Nat} (hring : n < s.rings.length)
    (htail : (s.ring n).tail ≠ BitVec.ofNat 32 (s.reg (Reg.ringHead n))) (hroom : s.cqRoom n = true)
    (hwriteback : (s.ring n).sinceWriteback + 1 < 16) : s.takeOne n = s.tookHead n := by
  have hnone : ¬ 16 ≤ ((s.tookHead n).ring n).sinceWriteback := by
    rw [tookHead_ring hring]
    exact Nat.not_le.mpr hwriteback
  unfold takeOne
  rw [if_neg (by simp [htail, hroom])]
  exact if_neg hnone

theorem takeOne_of_empty {s : State} {n : Nat} (h : (s.ring n).tail = BitVec.ofNat 32 (s.reg (Reg.ringHead n))) :
    s.takeOne n = s := if_pos (.inl h)

/-- Ring `n` is the one ring that is ON, and its descriptors can be taken: the admission logic runs, in D0, host memory is in
reach, the CQ has room, and the next write-back of the head is not yet due (R337, R338). -/
structure Serves (s : State) (n : Nat) : Prop where
  ring : n < 8
  rings : s.rings.length = 8
  admits : s.admitting = true
  inD0 : s.regBits Reg.hifStatus 1 1 = 0
  reaches : s.hostUp = true
  onlyOn : ∀ m, m < 8 → (s.ringState m = 1 ↔ m = n)
  burst : 1 ≤ s.regBits (Reg.ringCtrl n) 8 5
  noWriteback : (s.ring n).sinceWriteback + 1 < 16
  room : s.cqRoom n = true

theorem Serves.inRings {s : State} {n : Nat} (h : s.Serves n) : n < s.rings.length := h.rings ▸ h.ring

theorem Serves.advance {s : State} {n : Nat} (h : s.Serves n) (dt : Nat) : (s.advance dt).Serves n where
  ring := h.ring
  rings := by simpa using h.rings
  admits := by simpa using h.admits
  inD0 := by simpa using h.inD0
  reaches := by simpa using h.reaches
  onlyOn := by simpa using h.onlyOn
  burst := (s.advance_regBits dt _ 8 5).symm ▸ h.burst
  noWriteback := by simpa using h.noWriteback
  room := by simpa using h.room

/-- A change of the ring that leaves what the CQ holds and the descriptors taken since the last write-back. -/
theorem Serves.modRing {s : State} {n : Nat} (h : s.Serves n) {f : Ring → Ring} (hhead : (f (s.ring n)).head = (s.ring n).head)
    (hreserved : (f (s.ring n)).reservedRecords = (s.ring n).reservedRecords)
    (hsince : (f (s.ring n)).sinceWriteback = (s.ring n).sinceWriteback) : (s.modRing n f).Serves n where
  ring := h.ring
  rings := (modAt_length _ _ _).trans h.rings
  admits := h.admits
  inD0 := h.inD0
  reaches := h.reaches
  onlyOn := h.onlyOn
  burst := h.burst
  noWriteback := by rw [ring_modRing h.inRings, hsince]; exact h.noWriteback
  room := by
    have hroom := h.room
    unfold cqRoom at hroom ⊢
    rw [ring_modRing h.inRings, hhead, hreserved]
    exact hroom

theorem Serves.scan_takes {s : State} {n : Nat} (h : s.Serves n)
    (htail : (s.ring n).tail = BitVec.ofNat 32 (s.reg (Reg.ringHead n) + 1)) : s.scan = s.tookHead n := by
  obtain ⟨-, -, -, hne⟩ := ringReg_ne n
  have hahead : (s.ring n).tail ≠ BitVec.ofNat 32 (s.reg (Reg.ringHead n)) := by
    rw [htail]
    bv_omega
  have hhead : (s.tookHead n).reg (Reg.ringHead n) = (s.reg (Reg.ringHead n) + 1) % 2 ^ 32 := by
    rw [tookHead_reg, if_neg hne, if_pos rfl]
  have hdone : (s.tookHead n).takeOne n = s.tookHead n := by
    refine takeOne_of_empty ?_
    rw [tookHead_ring h.inRings, hhead, htail]
    bv_omega
  have hburst : iter (takeOne n) (s.regBits (Reg.ringCtrl n) 8 5) s = s.tookHead n :=
    iter_of_once (takeOne_of_room h.inRings hahead h.room h.noWriteback) hdone h.burst
  unfold scan
  rw [if_neg (by simp [h.inD0, h.admits, h.reaches])]
  refine (foldl_ringOn (fun s m => iter (takeOne m) (s.regBits (Reg.ringCtrl m) 8 5) s) h.ring h.onlyOn fun m => ?_).trans hburst
  rw [hburst]
  refine regBits_congr ?_ 1 0
  rw [tookHead_reg, if_neg (by unfold Reg.ringStatus Reg.hifTaken; omega), if_neg (by unfold Reg.ringStatus Reg.ringHead; omega)]

/-- Descriptors whose first is of a row wait for their decision. -/
theorem flushBad_of_known {s : State} (h : ∀ t ∈ s.taken, rowKind t.bytes ∈ knownKinds) (k : Nat) : flushBad k s = s := by
  cases k with
  | zero => rfl
  | succ k =>
    unfold flushBad
    split
    · next t rest ht => exact if_pos (h t (ht ▸ List.mem_cons_self))
    · rfl

theorem scanAll_of_known {s : State} (h : ∀ t ∈ s.scan.taken, rowKind t.bytes ∈ knownKinds) : s.scanAll = s.scan := by
  unfold scanAll
  dsimp only
  rw [flushBad_of_known h, ite_self]

theorem Serves.scanAll_takes {s : State} {n : Nat} (h : s.Serves n) (hwaits : s.taken = [])
    (htail : (s.ring n).tail = BitVec.ofNat 32 (s.reg (Reg.ringHead n) + 1)) (hkind : rowKind (s.headSlot n).bytes ∈ knownKinds) :
    s.scanAll = s.tookHead n := by
  rw [scanAll_of_known, h.scan_takes htail]
  rw [h.scan_takes htail, tookHead_taken, hwaits]
  simpa using hkind

/-- A tail one beyond the head is seen and the descriptor there is taken, whatever else of the ring the doorbell has changed. -/
theorem Serves.seesTail {s : State} {n : Nat} (h : s.Serves n) {t : BitVec 32}
    (hseen : (s.ring n).tail = BitVec.ofNat 32 (s.reg (Reg.ringHead n)))
    (ht : t = BitVec.ofNat 32 (s.reg (Reg.ringHead n) + 1)) :
    s.seeTail n t = s.modRing n (fun r => { r with tail := t }) ∧ (s.seeTail n t).Serves n
      ∧ ((s.seeTail n t).ring n).tail = BitVec.ofNat 32 (s.reg (Reg.ringHead n) + 1) := by
  rw [seeTail_next hseen ht]
  refine ⟨rfl, h.modRing rfl rfl rfl, ?_⟩
  rw [ring_modRing h.inRings]
  exact ht

theorem Serves.pollDoorbells_sees {s : State} {n : Nat} (h : s.Serves n)
    (hseen : (s.ring n).tail = BitVec.ofNat 32 (s.reg (Reg.ringHead n)))
    (htail : fld (s.readHost (s.dbAddr n) 8) 0 4 = (s.reg (Reg.ringHead n) + 1) % 2 ^ 32)
    (hhead : fld (s.readHost (s.dbAddr n) 8) 4 4 = (s.ring n).head.toNat) :
    s.pollDoorbells = s.seeTail n (BitVec.ofNat 32 (s.reg (Reg.ringHead n) + 1)) := by
  obtain ⟨hsees, hserves, -⟩ := h.seesTail hseen rfl
  have hpoll : (s.seeTail n (BitVec.ofNat 32 (fld (s.readHost (s.dbAddr n) 8) 0 4))).seeHead n
      (BitVec.ofNat 32 (fld (s.readHost (s.dbAddr n) 8) 4 4)) = s.seeTail n (BitVec.ofNat 32 (s.reg (Reg.ringHead n) + 1)) := by
    rw [htail, hhead, ofNat_mod_word, BitVec.ofNat_toNat, BitVec.setWidth_eq]
    refine seeHead_same hserves.room ?_
    rw [hsees, ring_modRing h.inRings]
  unfold pollDoorbells
  rw [if_neg (by simp [h.admits, h.reaches])]
  refine (foldl_ringOn (fun s m => (s.seeTail m (BitVec.ofNat 32 (fld (s.readHost (s.dbAddr m) 8) 0 4))).seeHead m
    (BitVec.ofNat 32 (fld (s.readHost (s.dbAddr m) 8) 4 4))) h.ring h.onlyOn fun m => ?_).trans hpoll
  rw [hpoll, hsees]
  rfl

/-- `t` is `s` with the descriptor at the head of ring `n` taken, and its memories, items and dies as before. -/
def Took (s : State) (n : Nat) (t : State) : Prop :=
  t.taken = [s.headSlot n] ∧ t.reg (Reg.ringHead n) = (s.reg (Reg.ringHead n) + 1) % 2 ^ 32
    ∧ t.reg Reg.hifTaken = min (s.reg Reg.hifTaken + 1) 0xFFFFFFFFFFFFFFFF
    ∧ (t.ring n).count = (s.ring n).count + 1 ∧ (t.ring n).reservedRecords = (s.ring n).reservedRecords + 2
    ∧ t.host = s.host ∧ t.hbm = s.hbm ∧ t.items = s.items ∧ t.dies = s.dies

theorem took_tookHead {s : State} {n : Nat} (hring : n < s.rings.length) (hwaits : s.taken = []) : s.Took n (s.tookHead n) := by
  obtain ⟨hhost, hhbm, hitems, hdies⟩ := tookHead_frame s n
  obtain ⟨-, -, -, hne⟩ := ringReg_ne n
  unfold Took
  rw [tookHead_ring hring, tookHead_reg, tookHead_reg, tookHead_taken, hwaits, if_neg hne, if_pos rfl, if_pos rfl]
  exact ⟨rfl, rfl, rfl, rfl, rfl, hhost, hhbm, hitems, hdies⟩

theorem Took.of_advance {s t : State} {n dt : Nat} (h : (s.advance dt).Took n t) : s.Took n t := by
  simpa [Took, headSlot] using h

theorem headSlot_modRing {s : State} {n : Nat} {f : Ring → Ring} (hring : n < s.rings.length)
    (hcount : (f (s.ring n)).count = (s.ring n).count) : (s.modRing n f).headSlot n = s.headSlot n := by
  unfold headSlot
  rw [ring_modRing hring, hcount]
  rfl

theorem Took.of_modRing {s t : State} {n : Nat} {f : Ring → Ring} (hring : n < s.rings.length)
    (hcount : (f (s.ring n)).count = (s.ring n).count)
    (hreserved : (f (s.ring n)).reservedRecords = (s.ring n).reservedRecords) (h : (s.modRing n f).Took n t) : s.Took n t := by
  unfold Took at h
  rw [headSlot_modRing hring hcount, ring_modRing hring, hcount, hreserved] at h
  exact h

/-- A tail one beyond the head is seen, and the scan that follows takes the descriptor there. -/
theorem Serves.seeTail_took {s : State} {n : Nat} (h : s.Serves n) (hwaits : s.taken = [])
    (hseen : (s.ring n).tail = BitVec.ofNat 32 (s.reg (Reg.ringHead n))) (hkind : rowKind (s.headSlot n).bytes ∈ knownKinds)
    {t : BitVec 32} (ht : t = BitVec.ofNat 32 (s.reg (Reg.ringHead n) + 1)) : s.Took n (s.seeTail n t).scanAll := by
  obtain ⟨hsees, hserves, htail⟩ := h.seesTail hseen ht
  rw [hsees] at hserves htail ⊢
  rw [hserves.scanAll_takes hwaits htail (by rwa [headSlot_modRing h.inRings rfl])]
  exact .of_modRing h.inRings rfl rfl (took_tookHead hserves.inRings hwaits)

theorem mirrorWrite_tail {s : State} {n v : Nat} (hn : n < 8) (hadmits : s.admitting = true) (hup : s.hostUp = true)
    (hon : s.ringState n = 1) : s.mirrorWrite (n * 16) false v
      = ((s.modRing n fun r => { r with mirrorTail := BitVec.ofNat 32 v }).seeTail n (BitVec.ofNat 32 v)).scanAll := by
  have hfields : mirrorFields (n * 16 % 16) false v = (some (bitsOf v 31 0), none) := by
    rw [Nat.mul_mod_left]; rfl
  have hword : BitVec.ofNat 32 (bitsOf v 31 0) = BitVec.ofNat 32 v := by
    rw [bitsOf, pow_zero, Nat.div_one]
    exact ofNat_mod_word v
  unfold mirrorWrite
  dsimp only
  rw [hfields, Nat.mul_div_cancel n (by decide), if_neg (by simp [hadmits, hup, hn]), if_neg ?_]
  · dsimp only [Option.map_some, Option.map_none, Option.getD_some, Option.getD_none]
    rw [hword]
  · rintro (h | h)
    · exact h hon
    · cases h

end State

/-- Settles O13: a doorbell that is polled or mirrored is seen as a tail one beyond the head, and the scan that follows takes the
descriptor there (`State.Serves.seeTail_took`). -/
theorem doorbellsTakeADescriptor : Obligations.DoorbellsTakeADescriptor := by
  unfold Obligations.DoorbellsTakeADescriptor
  intro dt n s hn hrings hadmits hd0 hup hon htaken hburst hsince hseen hroom h d took hkind
  have hserves : (s.advance dt).Serves n := State.Serves.advance ⟨hn, hrings, hadmits, hd0, hup, hon, hburst, hsince, hroom⟩ dt
  have hwaits : (s.advance dt).taken = [] := (s.advance_taken dt).trans htaken
  have hseen' : ((s.advance dt).ring n).tail = BitVec.ofNat 32 ((s.advance dt).reg (Reg.ringHead n)) := by simpa using hseen
  have hkind' : rowKind ((s.advance dt).headSlot n).bytes ∈ knownKinds := by simpa [State.headSlot] using hkind
  refine ⟨fun htail hcq => ?polled, fun v hv => ?mirrored⟩
  case polled =>
    have hpoll := hserves.pollDoorbells_sees hseen' (by simpa using htail) (by simpa using hcq)
    have htook := (hserves.seeTail_took hwaits hseen' hkind' rfl).of_advance
    rw [← hpoll] at htook
    exact ⟨_, exec_doorbellPoll dt s, htook⟩
  case mirrored =>
    have hmirror := State.mirrorWrite_tail (v := v.toNat) hn hserves.admits hserves.reaches ((hserves.onlyOn n hn).mpr rfl)
    have hmarked : ((s.advance dt).modRing n fun r => { r with mirrorTail := BitVec.ofNat 32 v.toNat }).Serves n :=
      hserves.modRing rfl rfl rfl
    have hword : BitVec.ofNat 32 v.toNat = BitVec.ofNat 32 ((s.advance dt).reg (Reg.ringHead n) + 1) := by
      rw [← ofNat_mod_word v.toNat, hv, ofNat_mod_word, s.advance_reg]
    have htook := hmarked.seeTail_took hwaits (by rwa [State.ring_modRing hserves.inRings])
      (by rwa [State.headSlot_modRing hserves.inRings rfl]) hword
    rw [← hmirror] at htook
    exact ⟨_, exec_mirrorWrite dt _ _ _ s, (htook.of_modRing hserves.inRings rfl rfl).of_advance⟩

end Sys2Proof.Machine
end

section
/-! ### Function states and timers (R338, R341, R357, R377) -/

namespace Sys2Proof.Machine

theorem exec_functionLevelReset (dt : Nat) (s : State) :
    exec (.functionLevelReset dt) s = s.finish dt (s.advance dt).functionReset := rfl
theorem exec_d3hotEntry (dt : Nat) (s : State) : exec (.d3hotEntry dt) s = s.finish dt (s.advance dt).d3Entry := rfl
theorem exec_d0Return (dt : Nat) (s : State) : exec (.d0Return dt) s = s.finish dt (s.advance dt).d0Back := rfl
theorem exec_sqHeadWriteback (dt n : Nat) (s : State) :
    exec (.sqHeadWriteback dt n) s = s.finish dt ((s.advance dt).headWriteback n) := rfl
theorem exec_coalTimer (dt n : Nat) (s : State) : exec (.coalTimer dt n) s = s.finish dt ((s.advance dt).coalTimer n) := rfl

/-- A map without its entries of a kind reads as the default there. -/
theorem sparseGet_filter_of_dropped {α : Type} (dflt : Nat → α) (p : Nat → Bool) (m : List (Nat × α)) {a : Nat} (h : p a = true) :
    sparseGet dflt (m.filter fun e => !p e.1) a = dflt a := by
  induction m with
  | nil => rfl
  | cons e m ih =>
    obtain ⟨k, w⟩ := e
    by_cases hk : p k = true
    · rw [List.filter_cons_of_neg (by simp [hk]), ih]
    · have hne : k ≠ a := fun he => hk (he ▸ h)
      rw [List.filter_cons_of_pos (by simp [hk]), sparseGet, if_neg hne, ih]

namespace State

/-! A function-level reset (R341). -/

theorem renumber_dies (s : State) (f : Nat → Nat) : (s.renumber f).dies.map Die.unowned = s.dies.map Die.unowned := by
  show (s.dies.map _).map Die.unowned = _
  rw [List.map_map]
  exact List.map_congr_left fun d _ => unowned_map d _ _ (fun _ => rfl) (fun _ => rfl)

theorem renumber_ids (s : State) (f : Nat → Nat) : (s.renumber f).items.map (·.id) = s.items.map fun i => f i.id := by
  simp [renumber]

/-- An item that runs on without records has the number it had. -/
theorem orphan_ids (l : List Item) (f : Nat → Nat) :
    (l.map fun i => { i with orphan := true }).map (fun i => f i.id) = l.map fun i => f i.id := by
  rw [List.map_map]
  exact List.map_congr_left fun _ _ => rfl

/-- The records dropped are counted and reported, and change nothing else. -/
theorem orphanRecords_only (k : Nat) (s : State) : s.OnlyReports (iter orphanRecord k s) := by
  induction k generalizing s with
  | zero => exact .refl s
  | succ k ih => exact (orphanRecord_only s).trans (ih _)

theorem orphanRecords_ringWord (k : Nat) (s : State) {a : Nat} (h : isRingWord a) : (iter orphanRecord k s).reg a = s.reg a := by
  have hne : a ≠ Reg.hifOrphans ∧ a ≠ Reg.hifEvents := by
    unfold isRingWord at h
    unfold Reg.hifOrphans Reg.hifEvents
    omega
  induction k generalizing s with
  | zero => rfl
  | succ k ih => rw [iter, ih, orphanRecord_reg s a (ringWord_not_reported h) hne.1 hne.2]

/-- R341, log 178: what a function-level reset leaves, before the records it drops are counted. -/
theorem functionReset_of_live {s : State} (h : s.live 92 = true) :
    ∃ w, s.functionReset = iter orphanRecord s.heldRecords.length w ∧ w.rings = List.replicate 8 {} ∧ w.heldRecords = []
      ∧ (∀ i ∈ w.items, i.orphan = true) ∧ w.items.map (·.id) = s.items.map (fun i : Item => i.id + 2 ^ 48)
      ∧ (∀ a, isRingWord a → w.reg a = (resetWord a).toNat)
      ∧ w.hbm = s.hbm ∧ w.host = s.host ∧ w.dies.map Die.unowned = s.dies.map Die.unowned := by
  unfold functionReset
  rw [if_neg (by simp [h])]
  refine ⟨_, rfl, rfl, rfl, ?_, ?_, ?_, rfl, rfl, renumber_dies _ _⟩
  · simp [renumber]
  · exact (renumber_ids _ _).trans (orphan_ids s.items (· + 2 ^ 48))
  · intro a ha
    exact congrArg BitVec.toNat (sparseGet_filter_of_dropped resetWord isRingReg s.regs (by simpa [isRingReg] using ha))

/-! D3hot and the return from it (R341, R377). -/

theorem d3Entry_of_live {s : State} (h : s.live 92 = true) : s.d3Entry = s.setField Reg.hifStatus 1 1 1 := if_pos h

theorem d0Back_of_live {s : State} (h : s.live 92 = true) :
    s.d0Back = (s.setField Reg.hifStatus 1 1 0).releaseRecords.scanAll := if_neg (by simp [h])

theorem releaseRecords_inD0 {s : State} (h : s.regBits Reg.hifStatus 1 1 = 0) (hup : s.hostUp = true) :
    s.releaseRecords = s.heldRecords.foldl (fun s r => s.putRecord r.1 r.2.1 r.2.2) { s with heldRecords := [] } :=
  if_neg (by simp [h, hup])

theorem releaseRecords_of_down {s : State} (h : s.hostUp = false) : s.releaseRecords = s := if_pos (.inr (by simp [h]))

/-! No descriptor is taken in D3hot, while the admission logic does not run, and while host memory is out of reach. -/

/-- The ring engine takes no descriptor. -/
def Closed (s : State) : Prop := s.regBits Reg.hifStatus 1 1 = 1 ∨ s.admitting = false ∨ s.hostUp = false

/-- `t` differs from `s` at most in what the rings have seen and in what reports it. -/
def OnlySees (s t : State) : Prop := s.OnlyRecords t ∧ t.reg Reg.hifStatus = s.reg Reg.hifStatus

theorem OnlySees.refl (s : State) : s.OnlySees s := ⟨.refl s, rfl⟩
theorem OnlySees.trans {s t u : State} (h : s.OnlySees t) (g : t.OnlySees u) : s.OnlySees u :=
  ⟨h.1.trans g.1, g.2.trans h.2⟩

theorem modRing_sees (s : State) (n : Nat) (f : Ring → Ring) : s.OnlySees (s.modRing n f) := ⟨modRing_only s n f, reg_modRing s n f _⟩

theorem raiseHif_sees (s : State) (b : Nat) : s.OnlySees (s.raise .hif b) :=
  ⟨(raise_only s _ _).weaken, (raise_reg s _ _ _ (by decide)).trans (if_neg (by decide))⟩

theorem seeTail_sees (s : State) (n : Nat) (t : BitVec 32) : s.OnlySees (s.seeTail n t) := by
  unfold seeTail
  dsimp only
  split
  · exact raiseHif_sees s 0
  · split
    · exact modRing_sees s n _
    · exact .refl s

theorem seeHead_sees (s : State) (n : Nat) (h : BitVec 32) : s.OnlySees (s.seeHead n h) := by
  unfold seeHead
  dsimp only
  split
  · exact raiseHif_sees s 0
  · split
    · exact modRing_sees s n _
    · exact .refl s

theorem pollDoorbells_sees (s : State) : s.OnlySees s.pollDoorbells := by
  unfold pollDoorbells
  split
  · exact .refl s
  · refine List.foldlRecOn _ _ (.refl s) fun t ht n _ => ht.trans ?_
    split
    · exact (seeTail_sees t n _).trans (seeHead_sees _ n _)
    · exact .refl t

theorem OnlySees.closed {s t : State} (h : s.OnlySees t) (hclosed : s.Closed) : t.Closed := by
  obtain ⟨honly, hstatus⟩ := h
  refine hclosed.imp (fun hd3 => (regBits_congr hstatus 1 1).trans hd3) (Or.imp (fun hadmits => ?_) fun hup => ?_)
  · obtain ⟨_, _, _, _, _, _, _, rfl⟩ := honly
    exact hadmits
  · obtain ⟨_, _, _, _, _, _, _, rfl⟩ := honly
    exact hup

theorem Closed.scan {s : State} (h : s.Closed) : s.scan = s := by
  refine if_pos ?_
  simpa [Closed] using h

/-- R338, R341, R377: nothing of what waits changes where no descriptor is taken and the first that waits is of a row. -/
theorem OnlySees.scanAll_waits {s t : State} (h : s.OnlySees t) (hclosed : s.Closed)
    (hkinds : ∀ x ∈ s.taken, rowKind x.bytes ∈ knownKinds) : t.scanAll.taken = s.taken ∧ t.scanAll.items = s.items := by
  have hscan : t.scan = t := (h.closed hclosed).scan
  rw [scanAll_of_known (by rw [hscan, h.1.taken]; exact hkinds), hscan]
  exact ⟨h.1.taken, h.1.items⟩

theorem mirrorWrite_waits {s : State} (hclosed : s.Closed) (hkinds : ∀ x ∈ s.taken, rowKind x.bytes ∈ knownKinds) (off : Nat)
    (wide : Bool) (v : Nat) : (s.mirrorWrite off wide v).taken = s.taken ∧ (s.mirrorWrite off wide v).items = s.items := by
  unfold mirrorWrite
  extract_lets n f marked tail head
  split
  · exact ⟨rfl, rfl⟩
  · have hmarked : s.OnlySees marked := modRing_sees s n _
    have htail : s.OnlySees tail := by
      refine hmarked.trans ?_
      unfold tail
      split
      · exact seeTail_sees marked n _
      · exact .refl marked
    have hhead : s.OnlySees head := by
      refine htail.trans ?_
      unfold head
      split
      · exact seeHead_sees tail n _
      · exact .refl tail
    split
    · exact ⟨rfl, rfl⟩
    · exact hhead.scanAll_waits hclosed hkinds

/-! Timers (R338, R357). -/

theorem headWriteback_of_on {s : State} {n : Nat} (hn : n < 8) (hadmits : s.admitting = true) (hup : s.hostUp = true)
    (hon : s.ringState n = 1) (hd0 : s.regBits Reg.hifStatus 1 1 = 0) : s.headWriteback n = s.writeSqHead n :=
  if_pos (by simp [hadmits, hup, hn, hon, hd0])

theorem coalTimer_due {s : State} {n first : Nat} (hn : n < 8) (hlive : s.live 92 = true)
    (hus : s.regBits (Reg.ringCtrl n) 31 24 ≠ 0) (hfirst : (s.ring n).firstUnsignalled = some first)
    (hdue : first + s.regBits (Reg.ringCtrl n) 31 24 * 1000 ≤ s.now) : s.coalTimer n
      = let t := s.modRing n fun r => { r with unsignalled := 0, firstUnsignalled := none }
        if s.regBits (Reg.ringCtrl n) 4 1 = 0 then t else t.fireVector (s.regBits (Reg.ringCtrl n) 4 1) := by
  refine if_pos ?_
  simp [hlive, hn, hus, hfirst, hdue]

/-- What a vector sends, or leaves pending, is read off the MSI-X table, off PD92 and off the way to the host. -/
theorem fireVector_sends {s t : State} (htable : t.msixTable = s.msixTable) (hlive : t.live 92 = s.live 92)
    (hup : t.hostUp = s.hostUp) (hpba : t.pba = s.pba) (hemitted : t.emitted = s.emitted) (v : Nat) :
    (t.fireVector v).pba = (s.fireVector v).pba ∧ (t.fireVector v).emitted = (s.fireVector v).emitted := by
  unfold fireVector
  dsimp only
  rw [htable, hlive, hup]
  split
  · split
    · exact ⟨congrArg (· ||| _) hpba, hemitted⟩
    · exact ⟨hpba, congrArg (_ :: ·) hemitted⟩
  · exact ⟨hpba, hemitted⟩

theorem fireVector_regs (s : State) (v : Nat) : (s.fireVector v).regs = s.regs := by
  unfold fireVector
  dsimp only
  split
  · split <;> rfl
  · rfl

end State

/-- Settles O14: each command takes its branch by the lemmas above on the state with its time passed. The records that a reset
drops are only reported (`orphanRecords_only`), and no scan takes a descriptor in a `State.Closed` state. -/
theorem functionStatesAndTimers : Obligations.FunctionStatesAndTimers := by
  unfold Obligations.FunctionStatesAndTimers
  refine ⟨fun dt s hlive => ⟨?reset, ?entry, ?back⟩, fun dt s hclosed hkinds => ⟨?polled, ?mirrored⟩,
    fun dt n s hn => ⟨fun hadmits hup hon hd0 => ?writeback, fun first hlive hus hfirst hdue hring => ?coalesce⟩⟩
  case reset =>
    obtain ⟨w, hreset, hrings, hheld, horphan, hids, hwords, hhbm, hhost, hdies⟩ :=
      State.functionReset_of_live ((s.advance_live dt 92).trans hlive)
    have honly := State.orphanRecords_only (s.advance dt).heldRecords.length w
    rw [← hreset] at honly
    refine ⟨_, exec_functionLevelReset dt s, honly.rings.trans hrings, honly.heldRecords.trans hheld, ?_, ?_, ?_, ?_, ?_, ?_⟩
    · exact fun i hi => horphan i (honly.items ▸ hi)
    · exact (congrArg _ honly.items).trans (hids.trans (by rw [s.advance_items]))
    · intro n a hn hlo hhi
      have ha : State.isRingWord a := by unfold State.isRingWord; omega
      have hreg := State.orphanRecords_ringWord (s.advance dt).heldRecords.length w ha
      rw [← hreset] at hreg
      exact hreg.trans (hwords a ha)
    · exact honly.hbm.trans (hhbm.trans (s.advance_hbm dt))
    · exact honly.host.trans (hhost.trans (s.advance_host dt))
    · exact (congrArg _ honly.dies).trans (hdies.trans (by rw [s.advance_dies]))
  case entry =>
    rw [exec_d3hotEntry, State.d3Entry_of_live ((s.advance_live dt 92).trans hlive)]
    refine ⟨_, rfl, ?_, s.advance_rings dt, s.advance_items dt, s.advance_heldRecords dt, s.advance_host dt⟩
    exact State.regBits_setField (s.advance dt) Reg.hifStatus 1 1 1 (by decide) (by decide)
  case back =>
    intro u
    have hd0 : u.regBits Reg.hifStatus 1 1 = 0 := State.regBits_setField _ _ _ _ _ (by decide) (by decide)
    rw [exec_d0Return, State.d0Back_of_live ((s.advance_live dt 92).trans hlive)]
    refine ⟨fun hup => ?_, fun hdown => ?_⟩
    · have hup' : u.hostUp = true := (s.advance_hostUp dt).trans hup
      have hheld : u.heldRecords = s.heldRecords := s.advance_heldRecords dt
      rw [State.releaseRecords_inD0 hd0 hup', hheld]
    · have hdown' : u.hostUp = false := (s.advance_hostUp dt).trans hdown
      rw [State.releaseRecords_of_down hdown']
  case polled =>
    have hclosed' : (s.advance dt).Closed := by simpa [State.Closed] using hclosed
    have hwaits := (State.pollDoorbells_sees (s.advance dt)).scanAll_waits hclosed' (by simpa using hkinds)
    rw [s.advance_taken, s.advance_items] at hwaits
    exact ⟨_, exec_doorbellPoll dt s, hwaits⟩
  case mirrored =>
    intro off wide v
    have hclosed' : (s.advance dt).Closed := by simpa [State.Closed] using hclosed
    have hwaits := State.mirrorWrite_waits hclosed' (by simpa using hkinds) off wide v.toNat
    rw [s.advance_taken, s.advance_items] at hwaits
    exact ⟨_, exec_mirrorWrite dt off wide v s, hwaits⟩
  case writeback =>
    rw [exec_sqHeadWriteback, State.headWriteback_of_on hn (by simpa using hadmits) (by simpa using hup) (by simpa using hon)
      (by simpa using hd0)]
    refine ⟨_, rfl, ?_, s.advance_regs dt, s.advance_hbm dt, s.advance_taken dt, s.advance_items dt⟩
    show Memory.writeN blank (s.advance dt).host ((s.advance dt).dbAddr n + 8) _ = _
    simp
  case coalesce =>
    intro v
    have hlen : n < (s.advance dt).rings.length := by simpa using hring
    have hdue' := State.coalTimer_due (s := s.advance dt) hn (by simpa using hlive) (by simpa using hus) (by simpa using hfirst)
      (by simpa using hdue)
    rw [exec_coalTimer, hdue', s.advance_regBits]
    generalize hmarked : (s.advance dt).modRing n (fun r => { r with unsignalled := 0, firstUnsignalled := none }) = t
    have hcleared : (t.ring n).unsignalled = 0 ∧ (t.ring n).firstUnsignalled = none := by
      rw [← hmarked, State.ring_modRing hlen]
      exact ⟨rfl, rfl⟩
    have hsends := State.fireVector_sends (s := s) (t := t) (by simp [← hmarked]) (by simp [← hmarked, State.live])
      (by rw [← hmarked]; exact s.advance_hostUp dt) (by simp [← hmarked]) (by simp [← hmarked]) v
    have hframe : t.regs = s.regs ∧ t.host = s.host ∧ t.items = s.items := by simp [← hmarked]
    have hfires := State.fireVector_only t v
    by_cases hv : v = 0
    · rw [if_pos hv, if_pos hv]
      exact ⟨_, rfl, hcleared.1, hcleared.2, by simp [← hmarked], by simp [← hmarked], hframe⟩
    · have hring : (t.fireVector v).ring n = t.ring n := congrArg (·.getD n {}) hfires.rings
      rw [if_neg hv, if_neg hv]
      refine ⟨_, rfl, ?_, ?_, hsends.1, hsends.2, ?_, hfires.host.trans hframe.2.1, hfires.items.trans hframe.2.2⟩
      · exact (congrArg Ring.unsignalled hring).trans hcleared.1
      · exact (congrArg Ring.firstUnsignalled hring).trans hcleared.2
      · exact (State.fireVector_regs t v).trans hframe.1

end Sys2Proof.Machine
end

section
/-! ### A staged set whose item has the id of an older one (O37)

The decision starts the item of the descriptor's id, which it looks up among all that are admitted. Where an older item still has
that id, the older one starts in its place. Here a STAGE of class QUIET is accepted, whose set would wait for its quiet point; the
item of its id is an older one of class GAP, whose set applies at this start. -/

namespace Sys2Proof.Machine

/-- The descriptor of a STAGE of a class, with a list of `n` entries at 0x17000. -/
def stageOf (cls n : Nat) : List Byte :=
  padTo 128 (leBytes 1 0x12 ++ zeros 31 ++ leBytes 1 cls ++ zeros 11 ++ leBytes 6 0x17000 ++ leBytes 2 n)

/-- An older item of the same id: a GAP set, of no entry, that has not started. -/
def olderGap : Item :=
  { id := itemId 0 0, ring := 0, ticket := 0, cirq := false, desc := stageOf 1 0, ts := 0, tp := 0, tauPs := 0, powerDw := 0,
    units := [], doms := [], checked := [], taus := [], govDie := 0, promised := false, deps := [] }

/-- A module with L0 and hub 0 out of reset and the clocks of L0 stable; at 0x17000 lies a list of one entry for PRM_PACE. -/
def quietUnderOlder : State :=
  State.writeHbm 0x17000 (leBytes 4 1 ++ leBytes 4 Reg.prmPace ++ leBytes 8 5)
    { State.reset with
        inputOk := true, held := [], on := [48, 56, 92, 93], initialised := [0], wires := (islandsOf 56).map ((56, ·))
        taken := [{ ring := 0, index := 0, bytes := stageOf 0 1 }], items := [olderGap] }

/-- The item and the state in which the start takes effect. -/
def quietStart : Option (Item × State) := (quietUnderOlder.advance 0).starts (0x12, 0) (stageCheck 0)

/-- The start of the older item applies its set, which ends it. -/
theorem quietStart_done : quietStart.map (fun x => (stageStart x.1 x.2).noteSets.items.map (·.done)) = some [true, true] := by
  decide +kernel

/-- A set that is only kept ends no item. -/
theorem quietStart_kept : quietStart.map (fun x => (x.2.noteSet x.1).noteSets.items.map (·.done)) = some [false, false] := by
  decide +kernel

theorem exec_stageQuiet (dt : Nat) (s : State) :
    exec (.stageQuiet dt) s = s.finish dt (State.decideRow (0x12, 0) (stageCheck 0) stageStart (s.advance dt)).noteSets := rfl

/-- Refutes O37: in `quietUnderOlder` the item that starts under a STAGE_QUIET is an older one of the descriptor's id and of class
GAP, so its set applies where the statement has it kept. The statement does not ask that the id be new, as O38 does, and no run is
claimed to reach this state. -/
theorem not_stagedSetsAreKeptAndApplied : ¬ Obligations.StagedSetsAreKeptAndApplied := by
  unfold Obligations.StagedSetsAreKeptAndApplied
  rintro ⟨hstarts, -⟩
  obtain ⟨⟨it, u⟩, hu, hdone⟩ := Option.map_eq_some_iff.mp quietStart_done
  have hkept : (u.noteSet it).noteSets.items.map (·.done) = [false, false] := by simpa [hu] using quietStart_kept
  obtain ⟨hquiet, -⟩ := hstarts 0 quietUnderOlder it u
  have hexec := hquiet hu
  rw [exec_stageQuiet, State.decideRow_starts _ _ _ _ _ _ hu, State.finish_next, State.finish_next] at hexec
  have hitems := congrArg State.items (Host.Outcome.next.inj hexec)
  have hclash : [true, true] = [false, false] := hdone.symm.trans ((congrArg (List.map (·.done)) hitems).trans hkept)
  exact absurd hclash (by decide)

end Sys2Proof.Machine
end

/-! ## Clocks, power, errors and registers (O1 to O3, O8 to O11, O15 to O28, O30, O32 to O35) -/

section
/-! ### Steps and their ends (logs 2 to 4) -/

namespace Sys2Proof.Machine

/-- Every command ends in `finish` or, where it may program fuses, in `finishFuses`, after its own time. -/
theorem exec_ends (c : Instr) (s : State) : ∃ t, exec c s = s.finish c.dt t ∨ exec c s = s.finishFuses c.dt t := by
  cases c
  case itemStart dt id =>
    cases h : s.isFuseItem id with
    | true => exact ⟨_, .inr (exec_itemStart_fuse h)⟩
    | false => exact ⟨_, .inl (exec_itemStart_other h)⟩
  case fuseProgram dt => exact ⟨_, .inr rfl⟩
  case fuseRevoke dt => exact ⟨_, .inr rfl⟩
  all_goals exact ⟨_, .inl rfl⟩

/-- Settles O1: both clauses are the equations of `step`. -/
theorem stepRunsTheFrontCommand : Obligations.StepRunsTheFrontCommand := by
  unfold Obligations.StepRunsTheFrontCommand
  refine ⟨fun c rest s h => ?_, fun s h => ?_⟩ <;> unfold step <;> rw [h]

/-- Settles O2: both endings put back the queue and set the clock. -/
theorem everyCommandAnswers : Obligations.EveryCommandAnswers := by
  unfold Obligations.EveryCommandAnswers
  intro c s
  obtain ⟨t, h | h⟩ := exec_ends c s
  · exact ⟨_, h, rfl, rfl⟩
  · exact ⟨_, h, rfl, rfl⟩

/-- No register is listed after reset, so each reads its reset word. -/
theorem State.reset_reg (a : Nat) : State.reset.reg a = (resetWord a).toNat := rfl

/-- Settles O3: the state after reset lists nothing, and the reset words of the ring, port and die registers show them
off. -/
theorem resetLeavesNothingOn : Obligations.ResetLeavesNothingOn := by
  unfold Obligations.ResetLeavesNothingOn
  refine ⟨⟨rfl, rfl, rfl, fun b hb => List.mem_range.mpr hb, State.reset_reg, rfl, rfl, rfl, rfl, rfl, rfl, rfl, rfl, rfl,
    rfl, rfl, rfl, rfl, ?ring, ?near, ?far, ?die⟩, .inl ⟨rfl, rfl⟩, rfl⟩
  case ring => decide
  case near => decide
  case far => decide
  case die => decide

end Sys2Proof.Machine
end

section
/-! ### BAR0 writes: what is discarded, what the lock keeps, what is set (R423 to R429) -/

namespace Sys2Proof.Machine

/-- Settles O8: the bits of the written word are its model's fold and mask, bit by bit. -/
theorem writtenWordFollowsAccessClasses : Obligations.WrittenWordFollowsAccessClasses := by
  unfold Obligations.WrittenWordFollowsAccessClasses
  intro r locked old v i hi
  rw [bitOf_eq, RegRow.written_testBit]
  simp [hi]

/-- The value a BAR0 write carries: all of it, or its low 32 bits. -/
theorem exec_registerWrite {dt off : Nat} (wide : Bool) (v : DWord) (s : State) (h : ¬ (0xA0000 ≤ off ∧ off < 0xA0100)) :
    exec (.registerWrite dt off wide v) s = s.finish dt ((s.advance dt).barWith
      (fun _ old new raw s => s.regEffect false off old new raw) off wide (if wide then v.toNat else v.toNat % 2 ^ 32)) :=
  congrArg (s.finish dt) (if_neg h)

theorem plainReg_spec {off : Nat} (h : plainReg off = true) : off < 0x80000 ∧ off ∉ actingRegs
    ∧ ¬ (Reg.prmHbm 0 ≤ off ∧ off < Reg.prmHbm 48) ∧ ¬ (0x10000 ≤ off ∧ off < 0x10800) := by
  simpa only [plainReg, Bool.and_eq_true, Bool.not_eq_true', Bool.and_eq_false_iff, decide_eq_true_eq,
    decide_eq_false_iff_not, ← not_and_or, and_assoc] using h

namespace State

/-- A register that only holds what is written takes its new word and does nothing beside. -/
theorem regEffect_of_plain {off : Nat} (h : plainReg off = true) (staged : Bool) (old new raw : Nat) (s : State) :
    s.regEffect staged off old new raw = s.setReg off new := by
  obtain ⟨hlow, hacting, hprm, hring⟩ := plainReg_spec h
  have hnone : ringOf off = none := by rw [ringOf, if_neg hring]
  have hdie : ¬ (0x100000 ≤ off ∧ off < 0x400000) := fun h => by omega
  have hport : ¬ (0x480000 ≤ off ∧ off < 0x4E0000) := fun h => by omega
  simp only [actingRegs, List.mem_cons, List.not_mem_nil, or_false, not_or] at hacting
  unfold regEffect
  simp only [hacting, hprm, hnone, hdie, hport, if_false]

section
variable {act : RegRow → Nat → Nat → Nat → State → State} {s : State} {off : Nat} {wide : Bool} {v : Nat}

/-- A write to an unreachable block, or while no traffic passes from the host, changes nothing (R426). -/
theorem barWith_unreached (h : ¬ (s.hostUp = true ∧ ∀ b, blockAt off = some b → s.answers b = true)) :
    s.barWith act off wide v = s := by
  refine if_pos ?_
  by_cases hup : s.hostUp = true
  · obtain ⟨b, hb, hdead⟩ : ∃ b, blockAt off = some b ∧ s.answers b = false := by simpa [hup] using h
    simp [hb, hdead]
  · simp [hup]

section
variable (hup : s.hostUp = true) (hreached : ∀ b, blockAt off = some b → s.answers b = true)
include hup hreached

theorem barWith_reached : (!s.hostUp || (blockAt off).any fun b => !s.answers b) = false := by
  rw [hup, Bool.not_true, Bool.false_or, Option.any_eq_false]
  exact fun b hb => by simp [hreached b hb]

/-- A write that is not aligned, or that names no register, counts (R423). -/
theorem barWith_unnamed (h : off % (if wide then 8 else 4) ≠ 0 ∨ blockAt off = none ∨ regRowAt off = none) :
    s.barWith act off wide v = s.badAccess := by
  unfold barWith
  rw [barWith_reached hup hreached]
  rcases h with h | h | h
  · simp only [h, Bool.false_eq_true, if_false, ne_eq, not_false_eq_true, if_true]
  · simp only [h, Bool.false_eq_true, if_false, ite_self]
  · rw [h]
    cases blockAt off <;> simp

end

section
variable {b : BarBlock} {r : RegRow} (hb : blockAt off = some b) (hr : regRowAt off = some r) (hanswers : s.answers b = true)
  (haligned : off % (if wide then 8 else 4) = 0)
include hb hr hanswers haligned

/-- What is left to decide of an aligned write to a register that answers (R423 to R429). -/
theorem barWith_named : s.barWith act off wide v =
    if r.wide != wide then s.badAccess
    else if !r.inRange (decide (b.lock ∈ s.locked)) v then s.badAccess
    else
      let t := if (v &&& r.resv) != 0 then s.badAccess else s
      let t := if decide (b.lock ∈ s.locked) && ((v ^^^ s.reg off) &&& r.rwl) != 0 then t.mapCount Reg.mapLockedWrites else t
      if decide (b.lock ∈ s.locked) && r.rw ||| r.stk ||| r.w1c ||| r.wo == 0 then t
      else act r (s.reg off) (r.written (decide (b.lock ∈ s.locked)) (s.reg off) v) v t := by
  have hup : s.hostUp = true := by
    simp only [answers, Bool.and_eq_true] at hanswers
    exact hanswers.1.1
  unfold barWith
  simp only [hup, hb, hr, hanswers, haligned, Option.any_some, Bool.not_true, Bool.or_self, Bool.false_eq_true, if_false,
    ne_eq, not_true_eq_false]

/-- A write of the wrong size, or that would set a field outside its range, counts (R423). -/
theorem barWith_unfit (h : r.wide ≠ wide ∨ r.inRange (decide (b.lock ∈ s.locked)) v = false) :
    s.barWith act off wide v = s.badAccess := by
  rw [barWith_named hb hr hanswers haligned]
  by_cases hw : r.wide = wide
  · rw [h.resolve_left (not_not_intro hw)]
    simp
  · simp [hw]

/-- Under the lock a write counts where it would change an RWL field, and the other fields take it (R429). -/
theorem barWith_locked (hsize : r.wide = wide) (hlock : b.lock ∈ s.locked) (hrange : r.inRange true v = true)
    (hresv : v &&& r.resv = 0) : s.barWith act off wide v =
    let u := if ((v ^^^ s.reg off) &&& r.rwl) != 0 then s.mapCount Reg.mapLockedWrites else s
    if r.rw ||| r.stk ||| r.w1c ||| r.wo = 0 then u else act r (s.reg off) (r.written true (s.reg off) v) v u := by
  rw [barWith_named hb hr hanswers haligned]
  simp [hsize, hlock, hrange, hresv]

end
end

end State

/-- Settles O9: the write is taken, and its register is none of those that act. -/
theorem registerWritesSetTheirRegister : Obligations.RegisterWritesSetTheirRegister := by
  unfold Obligations.RegisterWritesSetTheirRegister
  intro dt off wide v s r old new hplain htakes
  obtain ⟨hlow, -⟩ := plainReg_spec hplain
  obtain ⟨-, -, -, -, -, -, -, -, -, -, hnew⟩ := State.barTakes_spec _ _ _ _ _ _ _ htakes
  refine ⟨?_, hnew⟩
  rw [exec_registerWrite wide v s (by omega), State.barWith_takes _ _ _ _ _ _ _ _ ((s.advance_barTakes dt _ _ _).trans htakes),
    State.regEffect_of_plain hplain]

/-- Settles O10: by the cases of `barWith`. -/
theorem discardedWritesOnlyCount : Obligations.DiscardedWritesOnlyCount := by
  unfold Obligations.DiscardedWritesOnlyCount
  intro dt off wide v s hmsix
  have hanswers : ∀ b, (s.advance dt).answers b = s.answers b := by simp [State.answers]
  have hbad : (s.advance dt).badAccess = if s.live 92 then (s.advance dt).count Reg.mapBadAccess 1 else s.advance dt := by
    unfold State.badAccess State.mapCount
    rw [s.advance_live dt 92]
  dsimp only
  rw [exec_registerWrite wide v s hmsix, ← hbad]
  refine ⟨fun h => ?_, fun h hnone => ?_, fun b r h haligned hb hr hunfit => ?_⟩
  · rw [State.barWith_unreached (by simpa [hanswers] using h)]
  · rw [State.barWith_unnamed (by simpa using h.1) (by simpa only [hanswers] using h.2) hnone]
  · rw [State.barWith_unfit hb hr ((hanswers b).trans (h.2 b hb)) haligned (by simpa using hunfit)]

/-- Settles O11: the lock's row of `barWith`, and the bits of the word written under it. -/
theorem lockedWritesKeepRwlFields : Obligations.LockedWritesKeepRwlFields := by
  unfold Obligations.LockedWritesKeepRwlFields
  refine ⟨fun it u => ⟨?shown, fun b hb => ?flags⟩, ?writes⟩
  case shown =>
    exact (itemDone_regBits _ _ _ _ _ _ _).trans (State.regBits_setField _ _ 0 0 1 (by decide) (by decide))
  case flags =>
    show b ∈ lockBlocks.filter (fun b => u.blockLive b || decide (b ∈ u.locked)) ↔ _
    simp [hb]
  case writes =>
    intro dt off wide v s b r w hmsix haligned hb hr hanswers hsize hlock hrange hresv
    have hword : ∀ i, i < 64 → bitOf (r.written true (s.reg off) w) i =
        ((if bitOf (r.rw ||| r.stk) i then bitOf w i else bitOf (s.reg off) i) && !(bitOf r.w1c i && bitOf w i)) := by
      intro i hi
      simpa using writtenWordFollowsAccessClasses r true (s.reg off) w i hi
    have hexec : exec (.registerWrite dt off wide v) s = s.finish dt (
        let u := if ((w ^^^ s.reg off) &&& r.rwl) != 0 && s.live 92 then (s.advance dt).count Reg.mapLockedWrites 1
          else s.advance dt
        if r.rw ||| r.stk ||| r.w1c ||| r.wo = 0 then u
        else u.regEffect false off (s.reg off) (r.written true (s.reg off) w) w) := by
      rw [exec_registerWrite wide v s hmsix, State.barWith_locked hb hr (by simpa [State.answers] using hanswers) haligned hsize
        (by simpa using hlock) hrange hresv]
      simp only [State.mapCount, s.advance_reg, s.advance_live dt 92, Bool.and_eq_true, ite_and]
    refine ⟨hword, hexec, fun hplain hne => ⟨_, hexec, fun i hi hrwl hothers => ?_⟩⟩
    have hcount : ∀ u, u = (if ((w ^^^ s.reg off) &&& r.rwl) != 0 && s.live 92
        then (s.advance dt).count Reg.mapLockedWrites 1 else s.advance dt) → u.reg off = s.reg off := by
      rintro u rfl
      split
      · rw [State.reg_count, if_neg hne, s.advance_reg]
      · rw [s.advance_reg]
    obtain ⟨hrw, hw1c⟩ : bitOf (r.rw ||| r.stk) i = false ∧ bitOf r.w1c i = false := by
      simpa [bitOf_eq, Nat.testBit_or] using hothers
    show bitOf (State.reg (if _ then _ else _) off) i = _
    split
    · rw [hcount _ rfl]
    · rw [State.regEffect_of_plain hplain, State.reg_setReg_same, bitOf_eq, Nat.testBit_mod_two_pow, ← bitOf_eq, hword i hi,
        hrw, hw1c]
      simp [hi]

end Sys2Proof.Machine
end

section
/-! ### What the recorder's own writing touches (R404 to R410) -/

namespace Sys2Proof.Machine

namespace State

/-- `t` differs from `s` at most in the recorder and the bytes of the NOR. -/
def OnlyLogs (s t : State) : Prop := ∃ c n, t = { s with recorder := c, nor := n }

section
variable {s t u : State}

theorem OnlyLogs.refl (s : State) : s.OnlyLogs s := ⟨_, _, rfl⟩

theorem OnlyLogs.trans (h : s.OnlyLogs t) (g : t.OnlyLogs u) : s.OnlyLogs u := by
  obtain ⟨_, _, rfl⟩ := h
  obtain ⟨_, _, rfl⟩ := g
  exact ⟨_, _, rfl⟩

theorem OnlyLogs.modRec (h : s.OnlyLogs t) (f : Recorder → Recorder) : s.OnlyLogs (t.modRec f) := h.trans ⟨_, _, rfl⟩

theorem OnlyLogs.program (h : s.OnlyLogs t) (a : Nat) (bs : List Byte) : s.OnlyLogs (t.program a bs) := h.trans ⟨_, _, rfl⟩

theorem OnlyLogs.ite {c : Prop} [Decidable c] (h : s.OnlyLogs t) (g : s.OnlyLogs u) : s.OnlyLogs (if c then t else u) := by
  split
  exacts [h, g]

theorem OnlyLogs.keeps (h : s.OnlyLogs t) : s.Keeps t := by
  obtain ⟨_, _, rfl⟩ := h
  constructor <;> rfl

theorem OnlyLogs.regs (h : s.OnlyLogs t) : t.regs = s.regs := by
  obtain ⟨_, _, rfl⟩ := h
  rfl

theorem OnlyLogs.hbm (h : s.OnlyLogs t) : t.hbm = s.hbm := by
  obtain ⟨_, _, rfl⟩ := h
  rfl

end

section
variable (s : State)

theorem eraseNow_logs (sector : Nat) : s.OnlyLogs (s.eraseNow sector) := by
  unfold eraseNow eraseSector
  extract_lets a pass cleared
  have hcleared : s.OnlyLogs cleared := ⟨_, _, rfl⟩
  exact (((hcleared.program _ _).program _ _).program _ _).modRec _

/-- The sector is erased first where a unit is its first. -/
theorem opened_logs (c : Prop) [Decidable c] (sector p : Nat) :
    s.OnlyLogs (if c then (s.eraseNow sector, p + 1) else (s, p)).1 := by
  split
  · exact s.eraseNow_logs sector
  · exact .refl s

theorem recordAt_logs (a : RecArea) (p : Nat) (r : EventRec) : s.OnlyLogs (s.recordAt a p r) := by
  unfold recordAt programRecord
  have hprogram := (((OnlyLogs.refl s).program (a.addr p + 1) (r.bytes s.recorder)).program (a.addr p) [0xA5]).modRec
    fun c => ({ c with nextSeq := c.nextSeq + 1 }).setPos a ((p + 1) % (a.count * a.per))
  exact .ite (hprogram.modRec _) hprogram

theorem recordNow_logs (r : EventRec) : s.OnlyLogs (s.recordNow r) := by
  unfold recordNow
  exact (s.opened_logs _ _ _).trans (recordAt_logs _ _ _ _)

theorem counterEntry_logs (clean : Bool) : s.OnlyLogs (s.counterEntry clean) := by
  unfold counterEntry
  extract_lets a p
  have hopened := s.opened_logs (p % a.per = 0) (p / a.per) p
  generalize (if p % a.per = 0 then (s.eraseNow (p / a.per), p + 1) else (s, p)) = x at hopened ⊢
  obtain ⟨t, q⟩ := x
  have hwritten : s.OnlyLogs _ := ((hopened.program (a.addr q + 1) (t.counterBytes clean)).program (a.addr q) [0xA5]).modRec
    fun c => { c with posCounter := (q + 1) % (2 * a.per), lastCounterMs := c.opMs, entryDue := false }
  exact .ite (hwritten.modRec _) hwritten

theorem scanArea_logs (a : RecArea) : s.OnlyLogs (s.scanArea a) := by
  unfold scanArea
  exact (OnlyLogs.refl s).modRec _

theorem scanSeq_logs : s.OnlyLogs s.scanSeq := by
  unfold scanSeq
  exact (OnlyLogs.refl s).modRec _

theorem k1Writes_logs {f : State → State} (hf : ∀ s : State, s.OnlyLogs (f s)) : s.OnlyLogs (s.k1Writes f) :=
  .ite (hf s) (.refl s)

/-- What K1 writes by itself: it touches the NOR and the recorder alone. -/
theorem k1Alone_logs {f : State → State} (hf : ∀ s : State, s.OnlyLogs (f s)) : s.OnlyLogs (s.k1Alone f) := by
  unfold k1Alone
  extract_lets old s1 s2 s3
  have h1 : s.OnlyLogs s1 := .ite ((s.scanArea_logs _).trans (scanSeq_logs _)) (.refl s)
  have h2 : s.OnlyLogs s2 := by
    unfold s2
    split
    · exact h1.modRec _
    · exact h1
  have h3 : s.OnlyLogs s3 := h2.trans (k1Writes_logs _ hf)
  exact .ite (h3.modRec _) h3

theorem resumeCounters_keeps : s.Keeps s.resumeCounters := by
  have hentry : ∀ u : State, u.OnlyLogs (u.k1Writes (·.counterEntry false)) :=
    fun u => u.k1Writes_logs fun v => v.counterEntry_logs false
  unfold resumeCounters
  extract_lets s1
  have h1 : s.OnlyLogs s1 := (OnlyLogs.refl s).modRec _
  split
  · exact ((h1.modRec _).trans (hentry _)).keeps
  · extract_lets s2 s3
    have h3 : s.OnlyLogs s3 := (h1.modRec _).trans (hentry _)
    exact .ite h3.keeps (h3.keeps.trans (detail_only _ _ _ _ _ _).keeps)

theorem showThresholds_keeps : s.Keeps s.showThresholds := Keeps.foldl _ (fun s _ => (setReg_only s _ _).keeps) _ s

theorem recStart_keeps (cold : Bool) : s.Keeps (s.recStart cold) := by
  unfold recStart
  extract_lets k s1 s2 s3 s4 cl s5
  have h1 : s.OnlyLogs s1 := (OnlyLogs.refl s).modRec _
  refine .ite ((h1.keeps.trans (setField_only _ _ _ _ _).keeps).trans (raise_only _ _ _).keeps) ?_
  have h2 : s.OnlyLogs s2 := ((h1.trans (scanArea_logs _ _)).trans (scanArea_logs _ _)).trans (scanArea_logs _ _)
  have h3 : s.OnlyLogs s3 := OnlyLogs.modRec (.ite (h2.trans (scanSeq_logs _)) h2) _
  have h4 : s.Keeps s4 := (h3.keeps.trans (setField_only _ _ _ _ _).keeps).trans (showThresholds_keeps _)
  have h5 : s.Keeps s5 := h4.trans (modRec_only _ _).keeps
  exact (h5.trans (setField_only _ _ _ _ _).keeps).trans (Keeps.foldl _ (fun s r => (routeRecord_only s r).keeps) _ _)

end

end State

end Sys2Proof.Machine
end

section
/-! ### Releases of sources and of blocks (R373, R376) -/

namespace Sys2Proof.Machine

namespace State

/-- The parts of the state that no release of a source changes. -/
structure Releases (s t : State) : Prop where
  sources : t.sources = s.sources
  held : t.held = s.held
  hbm : t.hbm = s.hbm
  pwrgood : t.pwrgood = s.pwrgood
  perstN : t.perstN = s.perstN
  tripped : t.tripped = s.tripped
  pllLocked : t.pllLocked = s.pllLocked
  timeRuns : t.timeRuns = s.timeRuns

theorem tryEnd_releases (s : State) : s.Releases s.tryEnd := by
  obtain ⟨c, b, l, w, u, e, h⟩ := s.tryEnd_spec
  rw [e]
  exact ⟨h.sources, h.held, h.hbm, h.pwrgood, h.perstN, h.tripped, h.pllLocked, h.timeRuns⟩

theorem releaseSource_releases (s : State) (hit : ResetSource → Bool) :
    ({ s with sources := s.sources.filter fun r => !hit r }).Releases (s.releaseSource hit) := tryEnd_releases _

/-- The thermal trip releases 1 s after every junction has begun to read cool (R389). -/
theorem thermRelease_of_cool {s : State} {c : Nat} (hcool : s.coolSince = some c) (htrip : s.tripped = true)
    (hsince : c + 1000000000 ≤ s.now) :
    s.thermRelease = ({ s with tripped := false }).releaseSource fun r => r.cause == 0x03 := by
  unfold thermRelease
  rw [hcool]
  exact if_pos ⟨htrip, hsince⟩

theorem dormantStep_reg (s : State) {a : Nat} (ha : a ≠ Reg.pwrStatus) : s.dormantStep.reg a = s.reg a := by
  have hqueue : ∀ u : State, u.queueOns.reg a = u.reg a := by
    intro u
    obtain ⟨l, e⟩ := u.queueOns_spec
    rw [e]
    rfl
  unfold dormantStep
  split
  · rfl
  split
  · split
    · rw [hqueue, reg_setField_ne _ _ _ _ _ _ ha]
    · rfl
  split
  · rw [hqueue, reg_setField_ne _ _ _ _ _ _ ha]
    rfl
  · rfl

/-- An episode that can end ends: RST_CAUSE tells the source of the widest reach, RST_COUNT counts it. -/
theorem tryEnd_ends {s : State} {r : ResetSource} (hok : s.inputOk = true) (hcov : s.covered ≠ []) (hsrc : s.sources = [])
    (hbest : s.best = some r) (hfree : ∀ x ∈ s.covered, x ∉ s.held) : s.tryEnd.covered = [] ∧ s.tryEnd.best = none
      ∧ s.tryEnd.reg Reg.rstCause = (r.reach + r.cause * 2 ^ 8 + r.kind * 2 ^ 16 + r.index * 2 ^ 32) % 2 ^ 64
      ∧ s.tryEnd.reg Reg.rstCount = min (s.reg Reg.rstCount + 1) 0xFFFFFFFF := by
  have hheld : ¬ (!s.inputOk ∨ s.covered = [] ∨ s.sources ≠ []
      ∨ s.covered.any (fun b => decide (b ∈ s.held) && (s.counts b || decide (b ∈ s.switchOns)))) := by
    simp only [hok, hcov, hsrc, List.any_eq_true, not_or, not_exists]
    refine ⟨by decide, by simp, by simp, ?_⟩
    rintro x ⟨hx, h⟩
    simp [hfree x hx] at h
  unfold tryEnd
  rw [if_neg hheld, hbest]
  extract_lets s1 s2 s3
  obtain ⟨m, l, w, e⟩ := dormantStep_spec (s3.detail 0x0E81 0 63 0xFF
    (leBytes 8 (s3.reg Reg.rstCause) ++ leBytes 4 (s3.reg Reg.rstCount)))
  have hdetail := detail_only s3 0x0E81 0 63 0xFF (leBytes 8 (s3.reg Reg.rstCause) ++ leBytes 4 (s3.reg Reg.rstCount))
  have hepisode : ∀ u : State, ∀ a, State.reg { u with covered := [], best := none } a = u.reg a := fun _ _ => rfl
  have h2 : ∀ a, s3.reg a = s2.reg a := hepisode s2
  refine ⟨?_, ?_, ?_, ?_⟩
  · exact (congrArg State.covered e).trans hdetail.covered
  · exact (congrArg State.best e).trans hdetail.best
  · rw [dormantStep_reg _ (by decide), detail_reg _ _ _ _ _ _ _ (by decide), h2, reg_count, if_neg (by decide),
      reg_setReg_same]
  · rw [dormantStep_reg _ (by decide), detail_reg _ _ _ _ _ _ _ (by decide), h2, reg_count, if_pos rfl,
      reg_setReg_ne _ _ _ _ (by decide)]

/-! ### What a block does at its release leaves what is held -/

theorem nearStart_keeps (s : State) (p : Nat) : s.Keeps (s.nearStart p) := by
  unfold nearStart
  have hport : s.Keeps (s.modNport p fun q => { downs := q.downs, since := s.now, trainedAt := q.trainedAt.or (some s.now) }) :=
    modNport_keeps _ _ _
  exact .ite (.refl s) (.ite (hport.trans (setReg_only _ _ _).keeps)
    ((hport.trans (setReg_only _ _ _).keeps).trans (raise_only _ _ _).keeps))

theorem farStart_keeps (s : State) (k : Nat) : s.Keeps (s.farStart k) :=
  farStart_induct (P := s.Keeps) (setField_only _ _ _ _ _).keeps (fun _ _ _ _ h => h.trans (setField_only _ _ _ _ _).keeps)
    (fun _ _ h => h.trans (modFport_keeps _ _ _))

theorem secStart_held (s : State) : s.secStart.held = s.held := by
  unfold secStart
  dsimp only
  split
  · exact (raise_only _ _ _).held
  · rfl

theorem examineJournal_held (s : State) (n : Nat) : (s.examineJournal n).held = s.held := by
  unfold examineJournal
  split
  · refine (raise_only _ _ _).held.trans ?_
    split <;> rfl
  · rfl

theorem atRelease_held (s : State) (b : Nat) : (s.atRelease b).held = s.held := by
  unfold atRelease
  split
  · exact s.examineJournal_held b
  split
  · rfl
  split
  · exact (s.nearStart_keeps _).held
  split
  · exact (s.farStart_keeps _).held
  split
  · exact s.secStart_held
  split
  · exact (s.recStart_keeps _).held
  split
  · rfl
  split
  · obtain ⟨l, e⟩ := (if s.recorder.resumeDue then s.resumeCounters else s).queueOns_spec
    dsimp only
    rw [e]
    show (if s.recorder.resumeDue then s.resumeCounters else s).held = s.held
    exact (Keeps.ite s.resumeCounters_keeps (.refl s)).held
  · rfl

theorem beginSide_held (s : State) (c : Nat) (side : Side) : (s.beginSide c side).held = s.held := by
  unfold beginSide
  dsimp only
  split <;> rfl

theorem pairCrossings_held (s : State) (cs : List Nat) : (s.pairCrossings cs).held = s.held := by
  unfold pairCrossings
  induction cs generalizing s with
  | nil => rfl
  | cons c cs ih =>
    rw [List.foldl_cons, ih, beginSide_held, beginSide_held]

theorem restoreRetained_held (s : State) (b : Nat) : (s.restoreRetained b).held = s.held := by
  unfold restoreRetained
  extract_lets mine s1 s2
  have h1 : s1.held = s.held := (OnlyReports.foldl (fun s e => setReg_only s _ _) mine s).held
  show s2.held = s.held
  unfold s2
  split <;> exact h1

/-- A block that leaves reset, alone. -/
theorem releaseBlock_held {s : State} {b : Nat} (h : s.canRelease b = true) :
    (s.releaseBlock b).held = dropFrom s.held b := by
  unfold releaseBlock
  rw [if_pos h]
  extract_lets s1 s2 s3
  rw [(tryEnd_releases _).held, atRelease_held]
  show s3.held = _
  unfold s3
  rw [pairCrossings_held]
  show dropFrom s1.held b = _
  unfold s1
  rw [restoreRetained_held]

end State

theorem exec_pwrgoodDeassert (dt : Nat) (s : State) : exec (.pwrgoodDeassert dt) s = s.finish dt (s.advance dt).pwrgoodLow := rfl
theorem exec_pwrgoodAssert (dt : Nat) (s : State) : exec (.pwrgoodAssert dt) s = s.finish dt (s.advance dt).pwrgoodHigh := rfl
theorem exec_perstAssert (dt : Nat) (s : State) : exec (.perstAssert dt) s = s.finish dt (s.advance dt).perstLow := rfl
theorem exec_perstDeassert (dt : Nat) (s : State) : exec (.perstDeassert dt) s = s.finish dt (s.advance dt).perstHigh := rfl
theorem exec_resetCommandRelease (dt : Nat) (s : State) :
    exec (.resetCommandRelease dt) s = s.finish dt (s.advance dt).commandRelease := rfl
theorem exec_thermtripRelease (dt : Nat) (s : State) :
    exec (.thermtripRelease dt) s = s.finish dt (s.advance dt).thermRelease := rfl
theorem exec_rootPllLock (dt : Nat) (s : State) : exec (.rootPllLock dt) s = s.finish dt (s.advance dt).rootLock := rfl
theorem exec_blockRelease (dt b : Nat) (s : State) :
    exec (.blockRelease dt b) s = s.finish dt ((s.advance dt).releaseBlock b) := rfl
theorem exec_inputEntersRating (dt mv : Nat) (s : State) :
    exec (.inputEntersRating dt mv) s = s.finish dt ((s.advance dt).inputEnters mv) := rfl
theorem exec_inputLeavesRating (dt : Nat) (s : State) :
    exec (.inputLeavesRating dt) s = s.finish dt (s.advance dt).inputLeaves := rfl
theorem exec_thermalTrip (dt die : Nat) (s : State) :
    exec (.thermalTrip dt die) s = s.finish dt ((s.advance dt).thermalTrip die) := rfl

/-- Settles O15: a source holds and covers its reach as it asserts, and what follows only holds more. -/
theorem assertedSourcesHoldTheirReach : Obligations.AssertedSourcesHoldTheirReach := by
  unfold Obligations.AssertedSourcesHoldTheirReach
  intro r s
  obtain ⟨hheld, hcovered, hsource, -⟩ := State.assertSource_spec s r
  exact ⟨fun b hb => ⟨hheld b (.inr hb), hcovered b (.inr hb)⟩, hsource, fun b hb => hheld b (.inl hb)⟩

/-- A COLD source covers every block. -/
theorem mem_cover_of_cold {r : ResetSource} (h : r.reach = 0) {b : Nat} (hb : b < 97) : b ∈ r.cover := by
  unfold ResetSource.cover
  rw [h]
  exact List.mem_range.mpr hb

/-- Settles O16: a falling pin asserts, a release filters the sources, and the end of an episode that may follow keeps them and
what is held. -/
theorem sourcesAssertAndRelease : Obligations.SourcesAssertAndRelease := by
  unfold Obligations.SourcesAssertAndRelease
  refine ⟨fun dt s => ⟨fun hgood hok => ?pwrgoodLow, fun hperst hok => ?perstLow, ?pwrgoodHigh, ?perstHigh⟩,
    fun dt s => ⟨fun hold => ?command, fun c hcool htrip hsince => ?trip, fun hok hunlocked hready => ?lock⟩⟩
  case pwrgoodLow =>
    refine ⟨_, exec_pwrgoodDeassert dt s, ?_⟩
    simp only [State.pwrgoodLow, State.advance_pwrgood, hgood, State.advance_inputOk, hok, State.advance_now]
    obtain ⟨hheld, -, hsource, -, -, hpin, hother, -⟩ := State.assertSource_spec _ (srcPwrgood (s.now + dt))
    exact ⟨hpin, hother.trans (s.advance_perstN dt), hsource, fun b hb => hheld b (.inr (mem_cover_of_cold rfl hb))⟩
  case perstLow =>
    refine ⟨_, exec_perstAssert dt s, ?_⟩
    simp only [State.perstLow, State.advance_perstN, hperst, State.advance_inputOk, hok, State.advance_now]
    obtain ⟨hheld, -, hsource, -, -, -, hpin, -⟩ := State.assertSource_spec _ (srcPerst (s.now + dt))
    exact ⟨hpin, hsource, fun b hb => hheld b (.inr hb), fun b hb => hheld b (.inl ((s.advance_held dt).symm ▸ hb))⟩
  case pwrgoodHigh =>
    have h := State.releaseSource_releases { s.advance dt with pwrgood := true } fun r => r.cause == 0x02
    exact ⟨_, exec_pwrgoodAssert dt s, h.pwrgood, h.sources.trans (by rw [← s.advance_sources dt]; rfl), h.held.trans (s.advance_held dt),
      h.perstN.trans (s.advance_perstN dt), h.hbm.trans (s.advance_hbm dt)⟩
  case perstHigh =>
    have h := State.releaseSource_releases { s.advance dt with perstN := true } fun r => r.cause == 0x10
    exact ⟨_, exec_perstDeassert dt s, h.perstN, h.sources.trans (by rw [← s.advance_sources dt]; rfl), h.held.trans (s.advance_held dt),
      h.pwrgood.trans (s.advance_pwrgood dt), h.hbm.trans (s.advance_hbm dt)⟩
  case command =>
    have h := State.releaseSource_releases (s.advance dt) fun r => r.isCommand && decide (r.since + 10000 ≤ s.now + dt)
    have hany : (s.advance dt).sources.any (fun r => r.isCommand && decide (r.since + 10000 ≤ (s.advance dt).now)) = true := by
      simpa [List.any_eq_true] using hold
    have heq : (s.advance dt).commandRelease = (s.advance dt).releaseSource
        fun r => r.isCommand && decide (r.since + 10000 ≤ s.now + dt) := by
      rw [← s.advance_now dt]
      exact if_pos hany
    refine ⟨_, exec_resetCommandRelease dt s, ?_⟩
    rw [heq]
    exact ⟨h.sources.trans (by rw [s.advance_sources]), h.held.trans (s.advance_held dt)⟩
  case trip =>
    have h := State.releaseSource_releases { s.advance dt with tripped := false } fun r => r.cause == 0x03
    have heq := State.thermRelease_of_cool (s := s.advance dt) (by simpa using hcool) (by simpa using htrip) (by simpa using hsince)
    refine ⟨_, exec_thermtripRelease dt s, ?_⟩
    rw [heq]
    exact ⟨h.tripped, h.sources.trans (by rw [← s.advance_sources dt]; rfl), h.held.trans (s.advance_held dt)⟩
  case lock =>
    have h := State.releaseSource_releases { s.advance dt with pllLocked := true, timeRuns := true } fun r => r.cause == 0x01
    have heq : (s.advance dt).rootLock = State.releaseSource (fun r => r.cause == 0x01)
        { s.advance dt with pllLocked := true, timeRuns := true } := if_pos (by simp [hok, hunlocked, hready])
    refine ⟨_, exec_rootPllLock dt s, ?_⟩
    rw [heq]
    exact ⟨h.pllLocked, h.timeRuns, h.sources.trans (by rw [← s.advance_sources dt]; rfl), h.held.trans (s.advance_held dt)⟩

/-- Settles O17: the release empties the sources, and `tryEnd` then ends the episode. -/
theorem episodesEndWithTheirCause : Obligations.EpisodesEndWithTheirCause := by
  unfold Obligations.EpisodesEndWithTheirCause
  intro dt s b hok hcov hbest hcause hfree
  have hnone : (s.advance dt).sources.filter (fun r => !(r.cause == 0x10)) = [] := by
    simpa using hcause
  obtain ⟨hcovered, hb, hrst, hcount⟩ := State.tryEnd_ends
    (s := { s.advance dt with perstN := true, sources := (s.advance dt).sources.filter fun r => !(r.cause == 0x10) }) (r := b)
    (by simpa using hok) (by simpa using hcov) hnone (by simpa using hbest) (by simpa using hfree)
  have hsources := (State.releaseSource_releases { s.advance dt with perstN := true } fun r => r.cause == 0x10).sources
  refine ⟨_, exec_perstDeassert dt s, hsources.trans hnone, hcovered, hb, hrst, hcount.trans ?_⟩
  show min ((s.advance dt).reg Reg.rstCount + 1) _ = _
  rw [s.advance_reg]

/-- Settles O18: BLOCK_RELEASE is guarded by `canRelease`, and takes out of the held blocks this one alone. -/
theorem blocksLeaveResetOnCondition : Obligations.BlocksLeaveResetOnCondition := by
  unfold Obligations.BlocksLeaveResetOnCondition
  intro dt b s
  refine ⟨fun h => ?_, fun h => ?_⟩
  · have hheld : ((s.advance dt).releaseBlock b).held = dropFrom s.held b :=
      (State.releaseBlock_held (by simpa using h)).trans (by rw [s.advance_held])
    refine ⟨_, exec_blockRelease dt b s, hheld, ?_⟩
    show b ∉ ((s.advance dt).releaseBlock b).held
    rw [hheld, mem_dropFrom]
    exact fun h => h.2 rfl
  · rw [exec_blockRelease, State.releaseBlock, if_neg (by simp [h])]

end Sys2Proof.Machine
end

section
/-! ### The supply input and the thermal trip (R380, R381, R383, R389) -/

namespace Sys2Proof.Machine

namespace State

/-- What is on and rising, held and tripped once domains have been switched off. -/
structure SwitchedOff (ds : List Nat) (s t : State) : Prop where
  on : t.on = s.on.filter fun b => !decide (b ∈ ds)
  rising : t.rising = s.rising.filter fun x => !decide (x.1 ∈ ds)
  held : ∀ b ∈ s.held, b ∈ t.held
  tripped : t.tripped = s.tripped

theorem offBase_switchedOff (s : State) (ds : List Nat) : SwitchedOff ds s (s.offBase ds) := by
  unfold offBase
  extract_lets hit s1 s2
  have h1 : s.Keeps s1 := closeCrossings_keeps _ _
  have h2 := loseBlocks_keeps s2 false hit
  obtain ⟨c, b, l, w, u, e, h⟩ := (s2.loseBlocks false hit).tryEnd_spec
  rw [e]
  refine ⟨?_, ?_, fun b hb => ?_, ?_⟩
  · refine (h.on.trans h2.on).trans ?_
    show s1.on.filter _ = _
    rw [h1.on]
  · refine (h.rising.trans h2.rising).trans ?_
    show s1.rising.filter _ = _
    rw [h1.rising]
  · show b ∈ u.held
    rw [h.held, h2.held]
    exact (mem_foldl_addTo _ _ _).mpr (.inl (h1.held.symm ▸ hb))
  · exact (h.tripped.trans h2.tripped).trans h1.tripped

theorem switchOff_switchedOff (s : State) (ds : List Nat) : SwitchedOff ds s (s.switchOff ds) := by
  have h := s.offBase_switchedOff ds
  have g := flapChecks_grows (s.portsTaken (ds.filter fun b => s.counts b)) (s.offBase ds)
  exact ⟨g.on.trans h.on, g.rising.trans h.rising, fun b hb => g.held b (h.held b hb), g.tripped.trans h.tripped⟩

theorem powerOff_switchedOff (s : State) (ds : List Nat) : SwitchedOff ds s (s.powerOff ds) := by
  have k := s.dropQuiet_keeps (ds.filter fun b => s.counts b)
  have h := (s.dropQuiet (ds.filter fun b => s.counts b)).switchOff_switchedOff ds
  rw [powerOff]
  exact ⟨by rw [h.on, k.on], by rw [h.rising, k.rising], fun b hb => h.held b (k.held.symm ▸ hb), h.tripped.trans k.tripped⟩

theorem SwitchedOff.not_on {ds : List Nat} {s t : State} (h : SwitchedOff ds s t) {b : Nat} (hb : b ∈ ds) : b ∉ t.on := by
  rw [h.on]
  simp [hb]

theorem SwitchedOff.not_rising {ds : List Nat} {s t : State} (h : SwitchedOff ds s t) {b : Nat} (hb : b ∈ ds) :
    t.rising.any (·.1 == b) = false := by
  rw [h.rising, List.any_eq_false]
  intro x hx hxb
  simp only [List.mem_filter, Bool.not_eq_true', decide_eq_false_iff_not] at hx
  exact hx.2 (beq_iff_eq.mp hxb ▸ hb)

/-- A COLD or WARM source asserts beside those that are no containment; the others stay. -/
theorem assertSource_mem (s : State) {r x : ResetSource} (hr : r.reach < 2) (hx : x ∈ s.sources) (hcontain : x.cause ≠ 0x41)
    (hport : x.cause ≠ 0x31) : x ∈ (s.assertSource r).sources := by
  unfold assertSource
  rw [if_pos hr]
  obtain ⟨-, -, hsources, -⟩ := s.assertBase_spec r
  exact (hsources x).mpr (.inr ⟨hx, fun _ => ⟨hcontain, hport⟩⟩)

/-- A source that asserts where its pin is low: it is there, and what was held, asserted and in its rating stays so. -/
structure Entered (s t : State) : Prop where
  inputOk : t.inputOk = s.inputOk
  now : t.now = s.now
  pwrgood : t.pwrgood = s.pwrgood
  perstN : t.perstN = s.perstN
  held : ∀ b ∈ s.held, b ∈ t.held
  sources : ∀ x ∈ s.sources, x.cause ≠ 0x41 → x.cause ≠ 0x31 → x ∈ t.sources

theorem Entered.refl (s : State) : s.Entered s := ⟨rfl, rfl, rfl, rfl, fun _ h => h, fun _ h _ _ => h⟩

theorem Entered.trans {s t u : State} (h : s.Entered t) (g : t.Entered u) : s.Entered u :=
  ⟨g.inputOk.trans h.inputOk, g.now.trans h.now, g.pwrgood.trans h.pwrgood, g.perstN.trans h.perstN,
    fun b hb => g.held b (h.held b hb), fun x hx h1 h2 => g.sources x (h.sources x hx h1 h2) h1 h2⟩

theorem assertSource_entered (s : State) {r : ResetSource} (hr : r.reach < 2) : s.Entered (s.assertSource r) := by
  obtain ⟨hheld, -, -, -, hok, hgood, hperst, -, hnow, -⟩ := s.assertSource_spec r
  exact ⟨hok, hnow, hgood, hperst, fun b hb => hheld b (.inl hb), fun x hx => s.assertSource_mem hr hx⟩

theorem Entered.ite {s t u : State} {c : Prop} [Decidable c] (h : s.Entered t) (g : s.Entered u) :
    s.Entered (if c then t else u) := by
  split
  exacts [h, g]

/-- The input enters its rating: POWER_ON asserts over every block, and the sources of the pins that are low. -/
theorem inputEnters_asserts {s : State} (mv : Nat) (hout : s.inputOk = false) :
    let t := s.inputEnters mv
    t.inputOk = true ∧ { cause := 0x01, reach := 0, kind := 0, index := 0, since := s.now } ∈ t.sources
      ∧ (s.pwrgood = false → srcPwrgood s.now ∈ t.sources) ∧ (s.perstN = false → srcPerst s.now ∈ t.sources)
      ∧ ∀ b, b < 97 → b ∈ t.held := by
  unfold inputEnters
  rw [if_neg (by simp [hout])]
  extract_lets s1 s2 s3 s4
  have h3 : s2.Entered s3 := s2.assertSource_entered Nat.zero_lt_two
  have h4 : s3.Entered s4 := .ite (.refl s3) (s3.assertSource_entered Nat.zero_lt_two)
  have h5 : s4.Entered (if s4.perstN then s4 else s4.assertSource (srcPerst s4.now)) :=
    .ite (.refl s4) (s4.assertSource_entered Nat.one_lt_two)
  have hnow : s3.now = s.now := h3.now
  have hgood : s3.pwrgood = s.pwrgood := h3.pwrgood
  have hperst : s4.perstN = s.perstN := h4.perstN.trans h3.perstN
  have hon := h3.trans (h4.trans h5)
  refine ⟨hon.inputOk, ?_, fun hlow => ?_, fun hlow => ?_, fun b hb => hon.held b (List.mem_range.mpr hb)⟩
  · obtain ⟨-, -, hsource, -⟩ := s2.assertSource_spec { cause := 0x01, reach := 0, kind := 0, index := 0, since := s2.now }
    exact (h4.trans h5).sources _ hsource (show (1 : Nat) ≠ _ by decide) (show (1 : Nat) ≠ _ by decide)
  · obtain ⟨-, -, hsource, -⟩ := s3.assertSource_spec (srcPwrgood s3.now)
    have hs4 : s4 = s3.assertSource (srcPwrgood s3.now) := if_neg (by simp [hgood, hlow])
    rw [← hs4, hnow] at hsource
    exact h5.sources _ hsource (show (2 : Nat) ≠ _ by decide) (show (2 : Nat) ≠ _ by decide)
  · obtain ⟨-, -, hsource, -⟩ := s4.assertSource_spec (srcPerst s4.now)
    show srcPerst s.now ∈ (if s4.perstN then s4 else s4.assertSource (srcPerst s4.now)).sources
    rw [if_neg (by simp [hperst, hlow])]
    rwa [h4.now, hnow] at hsource ⊢

/-- A trip holds every block and leaves no switched domain on (R389). -/
theorem thermalTrip_holds {s : State} {die : Nat} (hok : s.inputOk = true) (htrip : s.tripped = false) (hdie : die < 64) :
    let t := s.thermalTrip die
    t.tripped = true ∧ (∀ b, b < 97 → b ∈ t.held) ∧ ∀ b, b < 96 → b ∉ t.on := by
  unfold thermalTrip
  rw [if_neg (by simp [hok, htrip, Nat.not_le.mpr hdie])]
  extract_lets r s1 s2
  obtain ⟨hheld, -, -, -, -, -, -, htripped, -⟩ :=
    s1.assertSource_spec { cause := 0x03, reach := 0, kind := 0, index := 0, since := s1.now }
  have hoff := s2.powerOff_switchedOff (List.range 96)
  have hlog := ((s2.powerOff (List.range 96)).k1Alone_logs fun u => u.recordNow_logs r).keeps
  refine ⟨?_, fun b hb => ?_, fun b hb => ?_⟩
  · rw [hlog.tripped, hoff.tripped, htripped]
  · rw [hlog.held]
    exact hoff.held b (hheld b (.inr (mem_cover_of_cold rfl hb)))
  · rw [hlog.on]
    exact hoff.not_on (List.mem_range.mpr hb)

/-- The input leaves its rating: nothing is left of site time and of the root's lock, and every block is held. -/
theorem inputLeaves_holds {s : State} (hok : s.inputOk = true) :
    let t := s.inputLeaves
    t.inputOk = false ∧ t.timeRuns = false ∧ t.siteTime = 0 ∧ t.pllLocked = false ∧ t.held = List.range 97 := by
  unfold inputLeaves
  rw [if_neg (by simp [hok])]
  exact ⟨rfl, rfl, rfl, rfl, rfl⟩

end State

/-- Settles O19: the two halves are `inputEnters_asserts` and `inputLeaves_holds`. -/
theorem theInputStartsAndStopsTheModule : Obligations.TheInputStartsAndStopsTheModule := by
  unfold Obligations.TheInputStartsAndStopsTheModule
  intro dt mv s
  refine ⟨fun hout => ⟨_, exec_inputEntersRating dt mv s, ?_⟩, fun hok => ⟨_, exec_inputLeavesRating dt s, ?_⟩⟩
  · have h := State.inputEnters_asserts (s := s.advance dt) mv (by simpa using hout)
    simpa only [s.advance_now, s.advance_pwrgood, s.advance_perstN] using h
  · exact State.inputLeaves_holds (s := s.advance dt) (by simpa using hok)

/-- Settles O20: THERMTRIP is COLD, and the domains are switched off after it. -/
theorem thermalTripHoldsEverything : Obligations.ThermalTripHoldsEverything := by
  unfold Obligations.ThermalTripHoldsEverything
  intro dt die s hok htrip hdie
  exact ⟨_, exec_thermalTrip dt die s,
    State.thermalTrip_holds (s := s.advance dt) (by simpa using hok) (by simpa using htrip) hdie⟩

end Sys2Proof.Machine
end

section
/-! ### Crossings (R378) -/

namespace Sys2Proof.Machine

/-- A side of a crossing has seen the other side's PAIR: it opens once it has its own PAIR_ACK too. -/
def Crossing.paired (side : Side) (x : Crossing) : Crossing :=
  x.mod side fun e => { e with pairSeen := true, opened := e.opened || e.ackSeen }

/-- A side of a crossing has its own PAIR_ACK: it opens once it has seen the other side's PAIR too. -/
def Crossing.acked (side : Side) (x : Crossing) : Crossing :=
  x.mod side fun e => { e with ackSeen := true, opened := e.opened || e.pairSeen }

namespace State

/-- What waits at a crossing waits at the PCIe port and at a near port, and nowhere else (log 16). -/
theorem resumeCrossing_quiet {c : Nat}
    (h : c ≠ pcieCrossing ∧ ¬ (56 ≤ dieOfCrossing c ∧ dieOfCrossing c < 62 ∧ (c % 16 = 1 ∨ c % 16 = 2))) (s : State) :
    s.resumeCrossing c = s := by
  unfold resumeCrossing
  dsimp only
  rw [if_neg h.1, if_neg h.2, ite_self]

section
variable {s : State} {c : Nat} {side : Side} {gen : Bool} {x : Crossing} (hx : look s.crossings c = some x)
include hx

theorem pairIn_of_gen (hown : (x.side side).begun = true) (hother : (x.side (otherSide side)).begun = true)
    (hgen : (x.side (otherSide side)).gen = gen) : s.pairIn c side gen =
      ({ s with crossings := assoc s.crossings c (x.paired side) }.emit (.pair c side gen true)).resumeCrossing c := by
  unfold pairIn
  rw [hx]
  exact if_neg (by simp [hown, hother, hgen])

theorem pairAckIn_of_gen (hown : (x.side side).begun = true) (hgen : (x.side side).gen = gen) : s.pairAckIn c side gen =
    { s with crossings := assoc s.crossings c (x.acked side) }.resumeCrossing c := by
  have hsettle : (fun e => CrossSide.settle { e with ackSeen := true }) =
      fun e : CrossSide => { e with ackSeen := true, opened := e.opened || e.pairSeen } := by
    funext e
    simp [CrossSide.settle]
  unfold pairAckIn Crossing.acked
  rw [hx, ← hsettle]
  exact if_neg (by simp [hown, hgen])

/-- A PAIR of another generation, or at a side that has not begun, does nothing. -/
theorem pairIn_of_other (h : (x.side side).begun = false ∨ (x.side (otherSide side)).begun = false
    ∨ (x.side (otherSide side)).gen ≠ gen) : s.pairIn c side gen = s := by
  unfold pairIn
  rw [hx]
  refine if_pos ?_
  rcases h with h | h | h <;> simp [h]

theorem pairAckIn_of_other (h : (x.side side).begun = false ∨ (x.side side).gen ≠ gen) : s.pairAckIn c side gen = s := by
  unfold pairAckIn
  rw [hx]
  refine if_pos ?_
  rcases h with h | h <;> simp [h]

end

/-- The crossing that has seen a message is listed; the others are as before. -/
theorem look_crossings_assoc (l : List (Nat × Crossing)) (c : Nat) (x : Crossing) :
    look (assoc l c x) c = some x ∧ ∀ d, d ≠ c → look (assoc l c x) d = look l d :=
  ⟨by rw [look_assoc, if_pos rfl], fun d hd => by rw [look_assoc, if_neg (Ne.symm hd)]⟩

end State

theorem exec_pair (dt c : Nat) (side : Side) (gen : Bool) (s : State) :
    exec (.pair dt c side gen) s = s.finish dt ((s.advance dt).pairIn c side gen) := rfl
theorem exec_pairAck (dt c : Nat) (side : Side) (gen : Bool) (s : State) :
    exec (.pairAck dt c side gen) s = s.finish dt ((s.advance dt).pairAckIn c side gen) := rfl

/-- Settles O21: the branches of `pairIn` and `pairAckIn`; a crossing where nothing waits then keeps the state. -/
theorem crossingsPairByGeneration : Obligations.CrossingsPairByGeneration := by
  unfold Obligations.CrossingsPairByGeneration
  intro dt c side gen s x hx
  have hx' : look (s.advance dt).crossings c = some x := by rw [s.advance_crossings, hx]
  refine ⟨fun hown hother hgen => ?_, fun hown hgen => ?_, fun h => ?_, fun h => ?_⟩
  · have heq := exec_pair dt c side gen s
    rw [State.pairIn_of_gen hx' hown hother hgen, s.advance_crossings] at heq
    refine ⟨heq, fun hquiet => ⟨_, heq.trans (congrArg _ (State.resumeCrossing_quiet hquiet _)), ?_⟩⟩
    obtain ⟨hsame, hothers⟩ := State.look_crossings_assoc s.crossings c (x.paired side)
    exact ⟨congrArg _ (s.advance_emitted dt), hsame, hothers, s.advance_regs dt⟩
  · have heq := exec_pairAck dt c side gen s
    rw [State.pairAckIn_of_gen hx' hown hgen, s.advance_crossings] at heq
    refine ⟨heq, fun hquiet => ⟨_, heq.trans (congrArg _ (State.resumeCrossing_quiet hquiet _)), ?_⟩⟩
    obtain ⟨hsame, hothers⟩ := State.look_crossings_assoc s.crossings c (x.acked side)
    exact ⟨hsame, hothers, s.advance_regs dt, s.advance_emitted dt⟩
  · rw [exec_pair, State.pairIn_of_other hx' h]
  · rw [exec_pairAck, State.pairAckIn_of_other hx' h]

end Sys2Proof.Machine
end

section
/-! ### Clock sources (R359, R363) -/

namespace Sys2Proof.Machine

namespace State

/-- A switch that has begun: SEL names the new source, and the root holds over with the old one shown (Sequence CLK-1, step
2). -/
theorem beginSwitch_shows (s : State) {dest : Nat} (h : dest < 4) :
    (s.beginSwitch dest).switchStep = .released dest ∧ (s.beginSwitch dest).regBits Reg.clkCtrl 1 0 = dest
      ∧ (s.beginSwitch dest).regBits Reg.clkStatus 8 8 = 1
      ∧ (s.beginSwitch dest).regBits Reg.clkStatus 7 6 = s.regBits Reg.clkStatus 7 6
      ∧ (s.beginSwitch dest).monitors = s.monitors := by
  unfold beginSwitch
  refine ⟨rfl, ?_, ?_, ?_, rfl⟩
  · rw [regBits_setField_ne _ _ _ _ _ _ _ _ (by decide)]
    exact (regBits_setField s Reg.clkCtrl 1 0 dest (by decide) (by decide)).trans (Nat.mod_eq_of_lt h)
  · exact regBits_setField _ _ 8 8 1 (by decide) (by decide)
  · rw [regBits_setField_other _ _ _ _ _ _ _ (by decide) (by decide) (by decide)]
    exact regBits_setField_ne s Reg.clkCtrl Reg.clkStatus 1 0 dest 7 6 (by decide)

section
variable {s : State} {old new : Nat}

/-- A word of CLK_CTRL but for SEL does not tell whether a source may be selected. -/
theorem selectable_setClkCtrl (s : State) (v i : Nat) : (s.setReg Reg.clkCtrl v).selectable i = s.selectable i := by
  unfold selectable aligned
  rw [regBits_setReg_ne _ _ _ _ _ _ (by decide), reg_setReg_ne _ _ _ _ (by decide)]
  rfl

theorem clkCtrl_selects (hgood : s.selectable (bitsOf new 1 0) = true)
    (hswitch : bitsOf new 1 0 ≠ bitsOf old 1 0 ∨ s.switchStep = .idle ∧ bitOf (s.reg Reg.clkStatus) 8 = true) :
    s.clkCtrl old new = (s.setReg Reg.clkCtrl (putBits new 1 0 (bitsOf old 1 0))).beginSwitch (bitsOf new 1 0) := by
  unfold clkCtrl
  dsimp only
  rw [selectable_setClkCtrl, hgood, if_neg (by simp), if_neg]
  rintro ⟨hsame, hidle⟩
  rcases hswitch with h | ⟨h, hhold⟩
  · exact h hsame
  · rw [reg_setReg_ne _ _ _ _ (by decide), hhold] at hidle
    simp [switchIdle, h] at hidle

theorem clkCtrl_refuses (hbad : s.selectable (bitsOf new 1 0) = false) :
    s.clkCtrl old new = (s.setReg Reg.clkCtrl (putBits new 1 0 (bitsOf old 1 0))).raise .clk 0 := by
  unfold clkCtrl
  dsimp only
  rw [selectable_setClkCtrl, hbad]
  rfl

end

/-- Holdover ends: the new source is shown, and SWITCHED is set (Sequence CLK-1, step 4). -/
theorem relock_shows {s : State} {d : Nat} (hd : d < 4) (hstep : s.switchStep = .captured d) (hok : s.inputOk = true)
    (hready : s.srcReady d = true) : s.relock.switchStep = .idle ∧ s.relock.regBits Reg.clkStatus 7 6 = d
      ∧ s.relock.regBits Reg.clkStatus 8 8 = 0 ∧ bitOf (s.relock.reg Reg.clkEvents) 1 = true := by
  unfold relock
  rw [hstep]
  dsimp only
  rw [if_pos (by rw [hok, hready]; rfl)]
  have hclk : ∀ u : State, (u.raise .clk 1).reg Reg.clkStatus = u.reg Reg.clkStatus := fun u =>
    (raise_reg u .clk 1 _ (by decide)).trans (if_neg (by decide))
  refine ⟨(raise_only _ _ _).switchStep, ?_, ?_, raise_sets _ .clk 1 (by decide) (by decide)⟩
  · rw [regBits_congr (hclk _), regBits_setField_other _ _ _ _ _ _ _ (by decide) (by decide) (by decide),
      regBits_setField _ _ _ _ _ (by decide) (by decide)]
    exact Nat.mod_eq_of_lt hd
  · exact (regBits_congr (hclk _) 8 8).trans (regBits_setField _ _ 8 8 0 (by decide) (by decide))

theorem capture_follows {s : State} {d : Nat} (hstep : s.switchStep = .released d) (hok : s.inputOk = true)
    (hready : s.srcReady d = true) : s.capture = { s with switchStep := .captured d } := by
  unfold capture
  rw [hstep]
  exact if_pos (by rw [hok, hready]; rfl)

/-! ### Monitors -/

theorem sourceLost_monitors (s : State) (sel : Nat) : (s.sourceLost sel).monitors = s.monitors := by
  unfold sourceLost
  extract_lets s1 s2
  have h1 : s1.monitors = s.monitors := (raise_only _ _ _).monitors
  have h2 : s2.monitors = s.monitors := by
    unfold s2
    split
    · exact (raise_only _ _ _).monitors.trans h1
    · exact h1
  split
  · split
    · exact h2
    · exact (raise_only _ _ _).monitors.trans h2
  · exact h2

/-- What follows a window shows the monitors and may begin a switch; it does not judgeWindow again. -/
theorem afterMonitors_monitors (s : State) (before : Nat) : (s.afterMonitors before).monitors = s.monitors := by
  unfold afterMonitors
  extract_lets ready dead s1 s2 s3 s4
  have h4 : s4.monitors = s.monitors := by
    unfold s4
    split
    · split
      · rfl
      · extract_lets s5
        have h5 : s5.monitors = s.monitors := by
          unfold s5
          split
          · exact s3.sourceLost_monitors _
          · rfl
        split
        · exact h5
        · exact h5
    · rfl
  split
  · exact h4
  · exact h4

theorem afterMonitors_monitor (s : State) (before i : Nat) : (s.afterMonitors before).monitor i = s.monitor i := by
  unfold monitor
  rw [afterMonitors_monitors]

/-- One source of a window is judged: its monitor counts the window, the others stay. -/
def judgeWindow (i : Nat) (coarse : Bool) (c : EdgeCount) (s : State) : State :=
  { s with monitors := modAt s.monitors i (Monitor.window (c.any (windowGood i coarse s.aligned)) c.isSome) }

theorem monitorWindow_eq {s : State} (hok : s.inputOk = true) (loc host recov : EdgeCount) :
    s.monitorWindow loc host recov =
      let s1 := s.judgeWindow 0 false loc
      let coarse := !(s1.monitor 0).stable
      let s2 := s1.judgeWindow 1 coarse host
      (s2.judgeWindow 2 coarse (if s.recovPresent then recov else none)).afterMonitors (s.regBits Reg.clkStatus 2 0) := by
  have hany : ∀ (c : EdgeCount) (i : Nat) (coarse al : Bool),
      (match c with | some ppm => windowGood i coarse al ppm | none => false) = c.any (windowGood i coarse al) := by
    intro c i coarse al
    cases c <;> rfl
  unfold monitorWindow
  rw [if_neg (by simp [hok])]
  simp only [judgeWindow, ← hany]
  rfl

theorem judgeWindow_monitor (s : State) {i j : Nat} (coarse : Bool) (c : EdgeCount) (hi : i < s.monitors.length) :
    (s.judgeWindow i coarse c).monitor j
      = if i = j then Monitor.window (c.any (windowGood i coarse s.aligned)) c.isSome (s.monitor i) else s.monitor j :=
  modAt_getD _ _ _ _ _ hi

theorem judgeWindow_length (s : State) (i : Nat) (coarse : Bool) (c : EdgeCount) :
    (s.judgeWindow i coarse c).monitors.length = s.monitors.length := List.length_modify _ _ _

/-- What each monitor has counted after a window: LOCAL by its own width, the others by LOCAL's judgement of it. -/
theorem monitorWindow_judges {s : State} (hok : s.inputOk = true) (hlen : s.monitors.length = 3) (loc host recov : EdgeCount) :
    let t := s.monitorWindow loc host recov
    t.monitor 0 = Monitor.window (loc.any (windowGood 0 false s.aligned)) loc.isSome (s.monitor 0)
      ∧ t.monitor 1 = Monitor.window (host.any (windowGood 1 (!(t.monitor 0).stable) s.aligned)) host.isSome (s.monitor 1)
      ∧ (s.recovPresent = false → t.monitor 2 = Monitor.window false false (s.monitor 2)) := by
  rw [monitorWindow_eq hok]
  extract_lets s1 coarse s2 t
  have h1 (j : Nat) := s.judgeWindow_monitor (j := j) false loc (i := 0) (by omega)
  have hlen1 : s1.monitors.length = 3 := (s.judgeWindow_length _ _ _).trans hlen
  have h2 (j : Nat) := s1.judgeWindow_monitor (j := j) coarse host (i := 1) (by omega)
  have hlen2 : s2.monitors.length = 3 := (s1.judgeWindow_length _ _ _).trans hlen1
  have h3 (j : Nat) := s2.judgeWindow_monitor (j := j) coarse (if s.recovPresent then recov else none) (i := 2) (by omega)
  have ht0 : t.monitor 0 = s1.monitor 0 :=
    (afterMonitors_monitor _ _ _).trans <| (h3 0).trans <| (h2 0)
  refine ⟨ht0.trans (h1 0), ?_, fun habsent => ?_⟩
  · refine (afterMonitors_monitor _ _ _).trans <| (h3 1).trans <| (h2 1).trans ?_
    rw [ht0]
    exact (if_pos rfl).trans (congrArg (Monitor.window _ _) (h1 1))
  · refine (afterMonitors_monitor _ _ _).trans <| (h3 2).trans ?_
    rw [habsent]
    exact (if_pos rfl).trans (congrArg (Monitor.window false false) ((h2 2).trans (h1 2)))

/-- A missing edge: the monitor starts over, DEAD, and the others stay. -/
theorem missingEdge_monitor {s : State} (hok : s.inputOk = true) (src : ClockSource) (hlen : s.monitors.length = 3) (i : Nat) :
    (s.missingEdge src).monitor i = if srcIndex src = i then { dead := true } else s.monitor i := by
  have hsrc : srcIndex src < s.monitors.length := by
    rw [hlen]
    cases src <;> decide
  unfold missingEdge
  rw [if_neg (by simp [hok])]
  exact (afterMonitors_monitor _ _ _).trans (modAt_getD _ _ _ _ _ hsrc)

end State

theorem exec_sourceSelect (dt : Nat) (v : Word) (s : State) : exec (.sourceSelect dt v) s =
    s.finish dt ((s.advance dt).barWith (fun _ old new _ s => s.clkCtrl old new) Reg.clkCtrl false v.toNat) := rfl
theorem exec_sourceCapture (dt : Nat) (s : State) : exec (.sourceCapture dt) s = s.finish dt (s.advance dt).capture := rfl
theorem exec_rootRelock (dt : Nat) (s : State) : exec (.rootRelock dt) s = s.finish dt (s.advance dt).relock := rfl
theorem exec_clockMonitorWindow (dt : Nat) (loc host recov : EdgeCount) (s : State) :
    exec (.clockMonitorWindow dt loc host recov) s = s.finish dt ((s.advance dt).monitorWindow loc host recov) := rfl
theorem exec_missingEdge (dt : Nat) (src : ClockSource) (s : State) :
    exec (.missingEdge dt src) s = s.finish dt ((s.advance dt).missingEdge src) := rfl

/-- Settles O22: the write of CLK_CTRL, and the two steps after it. -/
theorem sourceSwitchesGoThroughHoldover : Obligations.SourceSwitchesGoThroughHoldover := by
  unfold Obligations.SourceSwitchesGoThroughHoldover
  intro dt v s
  refine ⟨fun r old new htakes => ?write, fun d hstep hok hready => ?capture, fun d hd hstep hok hready => ?relock⟩
  case write =>
    have hexec : exec (.sourceSelect dt v) s = s.finish dt ((s.advance dt).clkCtrl old new) := by
      rw [exec_sourceSelect, State.barWith_takes _ _ _ _ _ _ _ _ ((s.advance_barTakes dt _ _ _).trans htakes)]
    have hold : ((s.advance dt).setReg Reg.clkCtrl (putBits new 1 0 (bitsOf old 1 0))).regBits Reg.clkCtrl 1 0 =
        bitsOf old 1 0 := by
      unfold State.regBits
      rw [State.reg_setReg_same, bitsOf_mod64 _ _ _ (by decide), bitsOf_putBits_same _ _ _ _ (by decide)]
      exact Nat.mod_eq_of_lt (bitsOf_lt old 1 0)
    refine ⟨fun hgood hswitch => ⟨_, hexec, ?_⟩, fun hbad => ⟨_, hexec, ?_⟩⟩
    · rw [State.clkCtrl_selects (by simpa using hgood) (by simpa using hswitch)]
      obtain ⟨hstep, hsel, hhold, hshown, hmon⟩ := State.beginSwitch_shows
        ((s.advance dt).setReg Reg.clkCtrl (putBits new 1 0 (bitsOf old 1 0))) (bitsOf_lt new 1 0)
      refine ⟨hstep, hsel, hhold, hshown.trans ?_, hmon.trans (s.advance_monitors dt)⟩
      rw [State.regBits_setReg_ne _ _ _ _ _ _ (by decide), s.advance_regBits]
    · rw [State.clkCtrl_refuses (by simpa using hbad)]
      refine ⟨(State.raise_only _ _ _).switchStep.trans (s.advance_switchStep dt), ?_,
        State.raise_sets _ .clk 0 (by decide) (by decide)⟩
      refine (State.regBits_congr ?_ 1 0).trans hold
      exact (State.raise_reg _ .clk 0 _ (by decide)).trans (if_neg (by decide))
  case capture =>
    rw [exec_sourceCapture, State.capture_follows (by simpa using hstep) (by simpa using hok) (by simpa using hready)]
  case relock =>
    exact ⟨_, exec_rootRelock dt s,
      State.relock_shows hd (by simpa using hstep) (by simpa using hok) (by simpa using hready)⟩

/-- Settles O23: each source is judged once, and what follows leaves the monitors. -/
theorem monitorsJudgeTheirWindows : Obligations.MonitorsJudgeTheirWindows := by
  unfold Obligations.MonitorsJudgeTheirWindows
  intro dt s hok hlen
  have hok' : (s.advance dt).inputOk = true := by simpa using hok
  have hlen' : (s.advance dt).monitors.length = 3 := by simpa using hlen
  refine ⟨fun loc host recov => ⟨_, exec_clockMonitorWindow dt loc host recov s, ?_⟩,
    fun src => ⟨_, exec_missingEdge dt src s, ?_⟩⟩
  · obtain ⟨hloc, hhost, hrecov⟩ := State.monitorWindow_judges hok' hlen' loc host recov
    simp only [s.advance_aligned, s.advance_monitor, s.advance_recovPresent] at hloc hhost hrecov
    exact ⟨hloc, hhost, hrecov⟩
  · have hmon (i : Nat) := State.missingEdge_monitor hok' src hlen' i
    have hdead : State.monitor ((s.advance dt).missingEdge src) (srcIndex src) = { dead := true } :=
      (hmon _).trans (if_pos rfl)
    exact ⟨congrArg Monitor.dead hdead, congrArg (fun m : Monitor => m.stable && !m.dead) hdead,
      fun i hi => (hmon i).trans ((if_neg (Ne.symm hi)).trans (s.advance_monitor dt i))⟩

end Sys2Proof.Machine
end

section
/-! ### What the loss of other blocks leaves of K1 -/

namespace Sys2Proof.Machine

/-- A register of K1 that no loss of another block, no end of an item and no containment of a port writes: all but the count
of entries dropped at crossings, the error events and ERR_CONTAIN_PORT. -/
def k1Word (a : Nat) : Prop :=
  (0x70000 ≤ a ∧ a < 0x80000) ∧ a ≠ Reg.clkXdrops ∧ a ≠ Reg.errEvents ∧ a ≠ Reg.errContainPort

theorem k1Word.notReport {a : Nat} (h : k1Word a) : a ∉ State.reportRegs := by
  obtain ⟨⟨hlo, hhi⟩, -, herr, -⟩ := h
  have hrec : a ≠ Reg.recEvents ∧ a ≠ Reg.recLost := by
    simp only [Reg.recEvents, Reg.recLost]
    omega
  simp [State.reportRegs, herr, hrec]

theorem k1Word.ne_of_outside {a b : Nat} (h : k1Word a) (hb : b < 0x70000 ∨ 0x80000 ≤ b) : a ≠ b := by
  obtain ⟨⟨hlo, hhi⟩, -⟩ := h
  omega

namespace State

/-- `t` has of `s` what K1 keeps for itself while other blocks are lost and items end: its registers but those of `k1Word`,
its tables, the queue of domains; and no item arises. -/
structure KeepsK1 (s t : State) : Prop where
  word : ∀ a, k1Word a → t.reg a = s.reg a
  noItems : s.items = [] → t.items = []
  wires : t.wires = s.wires
  surroundings : t.surroundings = s.surroundings
  presentAt : t.presentAt = s.presentAt
  accessMisses : t.accessMisses = s.accessMisses
  domFaults : t.domFaults = s.domFaults
  switchOns : t.switchOns = s.switchOns
  switchOffs : t.switchOffs = s.switchOffs

section
variable {s t u : State}

theorem KeepsK1.refl (s : State) : s.KeepsK1 s := ⟨fun _ _ => rfl, id, rfl, rfl, rfl, rfl, rfl, rfl, rfl⟩

theorem KeepsK1.trans (h : s.KeepsK1 t) (g : t.KeepsK1 u) : s.KeepsK1 u :=
  ⟨fun a ha => (g.word a ha).trans (h.word a ha), fun e => g.noItems (h.noItems e), g.wires.trans h.wires,
    g.surroundings.trans h.surroundings, g.presentAt.trans h.presentAt, g.accessMisses.trans h.accessMisses,
    g.domFaults.trans h.domFaults, g.switchOns.trans h.switchOns, g.switchOffs.trans h.switchOffs⟩

theorem KeepsK1.foldl {α : Type} {f : State → α → State} (h : ∀ (s : State) (a : α), s.KeepsK1 (f s a)) (l : List α)
    (s : State) : s.KeepsK1 (l.foldl f s) := by
  induction l generalizing s with
  | nil => exact .refl s
  | cons a l ih => exact (h s a).trans (ih _)

theorem KeepsK1.dite {c : Prop} [Decidable c] (h : c → s.KeepsK1 t) (g : ¬ c → s.KeepsK1 u) :
    s.KeepsK1 (if c then t else u) := by
  by_cases hc : c
  · rw [if_pos hc]
    exact h hc
  · rw [if_neg hc]
    exact g hc

theorem KeepsK1.ite {c : Prop} [Decidable c] (h : s.KeepsK1 t) (g : s.KeepsK1 u) : s.KeepsK1 (if c then t else u) :=
  .dite (fun _ => h) fun _ => g

theorem OnlyReports.keepsK1 (h : s.OnlyReports t) (hword : ∀ a, k1Word a → t.reg a = s.reg a) : s.KeepsK1 t :=
  ⟨hword, fun e => h.items.trans e, h.wires, h.surroundings, h.presentAt, h.accessMisses, h.domFaults, h.switchOns,
    h.switchOffs⟩

theorem OnlyRecords.keepsK1 (h : s.OnlyRecords t) (hword : ∀ a, k1Word a → t.reg a = s.reg a) : s.KeepsK1 t :=
  ⟨hword, fun e => h.items.trans e, h.wires, h.surroundings, h.presentAt, h.accessMisses, h.domFaults, h.switchOns,
    h.switchOffs⟩

end

section
variable (s : State)

theorem setReg_keepsK1 {b : Nat} (hb : b < 0x70000 ∨ 0x80000 ≤ b) (v : Nat) : s.KeepsK1 (s.setReg b v) :=
  (setReg_only s b v).keepsK1 fun _ ha => reg_setReg_ne _ _ _ _ (ha.ne_of_outside hb)

theorem setField_keepsK1 {b : Nat} (hb : b < 0x70000 ∨ 0x80000 ≤ b) (hi lo v : Nat) : s.KeepsK1 (s.setField b hi lo v) :=
  s.setReg_keepsK1 hb _

theorem count_keepsK1 {b : Nat} (hb : b < 0x70000 ∨ 0x80000 ≤ b) (n : Nat) : s.KeepsK1 (s.count b n) :=
  s.setReg_keepsK1 hb _

theorem fireVector_keepsK1 (v : Nat) : s.KeepsK1 (s.fireVector v) :=
  (fireVector_only s v).keepsK1 fun a _ => s.fireVector_reg v a

theorem detail_keepsK1 (c v d u : Nat) (l : List Byte) : s.KeepsK1 (s.detail c v d u l) :=
  (detail_only s c v d u l).keepsK1 fun a ha => s.detail_reg c v d u l a ha.notReport

theorem raiseAt_keepsK1 {e : EvSrc} (he : ∀ a, k1Word a → a ≠ e.off) (b d u : Nat) : s.KeepsK1 (s.raiseAt e b d u) :=
  (raiseAt_only s e b d u).keepsK1 fun a ha => (s.raiseAt_reg e b d u a ha.notReport).trans (if_neg (he a ha))

theorem raise_keepsK1 {e : EvSrc} (he : e.off < 0x70000 ∨ 0x80000 ≤ e.off) (b : Nat) : s.KeepsK1 (s.raise e b) :=
  s.raiseAt_keepsK1 (fun _ ha => ha.ne_of_outside he) b _ _

theorem modDie_keepsK1 (n : Nat) (f : Die → Die) : s.KeepsK1 (s.modDie n f) := ⟨fun _ _ => rfl, id, rfl, rfl, rfl, rfl, rfl, rfl, rfl⟩
theorem modNport_keepsK1 (n : Nat) (f : NearPort → NearPort) : s.KeepsK1 (s.modNport n f) :=
  ⟨fun _ _ => rfl, id, rfl, rfl, rfl, rfl, rfl, rfl, rfl⟩
theorem modFport_keepsK1 (n : Nat) (f : FarPort → FarPort) : s.KeepsK1 (s.modFport n f) :=
  ⟨fun _ _ => rfl, id, rfl, rfl, rfl, rfl, rfl, rfl, rfl⟩
theorem modItem_keepsK1 (id : Nat) (f : Item → Item) : s.KeepsK1 (s.modItem id f) :=
  ⟨fun _ _ => rfl, fun h => by simp [modItem, h], rfl, rfl, rfl, rfl, rfl, rfl, rfl⟩
theorem writeHbm_keepsK1 (a : Nat) (l : List Byte) : s.KeepsK1 (s.writeHbm a l) :=
  ⟨fun _ _ => rfl, id, rfl, rfl, rfl, rfl, rfl, rfl, rfl⟩

/-! ### The end of runs and items -/

theorem releaseRun_keepsK1 (n : Nat) : s.KeepsK1 (s.releaseRun n) := by
  have hrefs : ∀ (u : State) (e : Nat), u.KeepsK1 (u.showRefs n e) := fun u e =>
    u.setReg_keepsK1 (.inr (by rw [Reg.vtState]; omega)) _
  unfold releaseRun
  split
  · exact .refl s
  · refine KeepsK1.foldl (fun u e => .trans (.ite (u.setReg_keepsK1 (.inr ?_) _) (.refl u)) (hrefs _ _)) _ _
    unfold vtHold
    split
    · rw [Reg.vtHold0]
      omega
    · rw [Reg.vtHold1]
      omega

theorem settleGang_keepsK1 (id : Nat) : s.KeepsK1 (s.settleGang id) := .ite (s.modItem_keepsK1 _ _) (.refl s)

theorem faultDie_keepsK1 (n c k b : Nat) : s.KeepsK1 (s.faultDie n c k b) := by
  unfold faultDie
  refine .ite (.refl s) ?_
  extract_lets d id s1 s2 s3 s4 s5 s6 w s7 s8
  have h2 : s.KeepsK1 s2 := (s.modDie_keepsK1 _ _).trans (s1.setField_keepsK1 (.inr (by rw [Reg.prgStatus]; omega)) _ _ _)
  have h4 : s.KeepsK1 s4 := (h2.trans (s2.setReg_keepsK1 (.inr (by rw [Reg.prgFault]; omega)) _)).trans (releaseRun_keepsK1 _ _)
  have h5 : s.KeepsK1 s5 := h4.trans ⟨fun _ _ => rfl, fun e => e, rfl, rfl, rfl, rfl, rfl, rfl, rfl⟩
  have h6 : s.KeepsK1 s6 := .ite (h5.trans (fireVector_keepsK1 _ _)) h5
  exact ((h6.trans (detail_keepsK1 _ _ _ _ _ _)).trans (modItem_keepsK1 _ _ _)).trans (settleGang_keepsK1 _ _)

theorem stopGang_keepsK1 (i : Nat) : s.KeepsK1 (s.stopGang i) := KeepsK1.foldl (fun u n => u.faultDie_keepsK1 n _ _ _) _ s

theorem dropWork_keepsK1 (i : Nat) : s.KeepsK1 (s.dropWork i) := by
  unfold dropWork dropSet
  extract_lets s1 epoch s2 s3
  have h2 : s.KeepsK1 s2 := ⟨fun _ _ => rfl, fun e => e, rfl, rfl, rfl, rfl, rfl, rfl, rfl⟩
  have h3 : s.KeepsK1 s3 := .ite (h2.trans (setReg_keepsK1 _ (.inl (by decide)) _)) h2
  exact h3.trans ⟨fun _ _ => rfl, fun e => e, rfl, rfl, rfl, rfl, rfl, rfl, rfl⟩

theorem noteEnded_keepsK1 (it : Item) (c : Nat) : s.KeepsK1 (s.noteEnded it c) :=
  .ite ⟨fun _ _ => rfl, id, rfl, rfl, rfl, rfl, rfl, rfl, rfl⟩ (.refl s)

theorem completeItem_keepsK1 (id : Nat) : s.KeepsK1 (s.completeItem id) := by
  unfold completeItem
  split
  · exact .refl s
  · next it _ =>
    extract_lets s1 flags
    have h1 : s.KeepsK1 s1 := ⟨fun _ _ => rfl, fun e => by simp [s1, e], rfl, rfl, rfl, rfl, rfl, rfl, rfl⟩
    refine .ite (h1.trans ?_) (h1.trans ?_)
    · exact (orphanRecord_only _).keepsK1 fun a ha => orphanRecord_reg _ _ ha.notReport (ha.ne_of_outside (.inl (by decide)))
        (ha.ne_of_outside (.inl (by decide)))
    · refine (emitRecord_only _ _ _ _).keepsK1 fun a ha => emitRecord_reg _ _ _ _ _ ha.notReport
        (ha.ne_of_outside (.inl (by decide))) (ha.ne_of_outside (.inl (by decide))) ?_
      rintro ⟨-, hring⟩
      obtain ⟨⟨hlo, -⟩, -⟩ := ha
      omega

theorem abortItem_keepsK1 (i c : Nat) : s.KeepsK1 (s.abortItem i c) := by
  unfold abortItem
  split
  · exact .refl s
  · exact .ite (.refl s) ((((modItem_keepsK1 _ _ _).trans (stopGang_keepsK1 _ _)).trans (dropWork_keepsK1 _ _)).trans
      (noteEnded_keepsK1 _ _ _) |>.trans (completeItem_keepsK1 _ _))

theorem endReader_keepsK1 (o : Bool) (d : Nat) : s.KeepsK1 (s.endReader o d) := by
  unfold endReader
  extract_lets l
  split
  · refine KeepsK1.trans (t := { s with drawCount := s.drawCount + 1 }) ⟨fun _ _ => rfl, id, rfl, rfl, rfl, rfl, rfl, rfl, rfl⟩ ?_
    unfold endReading
    split
    · exact faultDie_keepsK1 _ _ _ _ _
    · exact (modItem_keepsK1 _ _ _).trans (abortItem_keepsK1 _ _ _)
  · exact .refl s

theorem voidGo_keepsK1 (n c : Nat) (l : List Nat) : s.KeepsK1 (voidGo n c l s) := by
  induction n generalizing l s with
  | zero => exact .refl s
  | succ n ih =>
    unfold voidGo
    extract_lets hit s1 deps
    refine .ite (.refl s) (.trans (KeepsK1.foldl (fun u i => ?_) _ _) (ih _ _))
    exact ((modItem_keepsK1 _ _ _).trans (count_keepsK1 _ (.inl (by decide)) _)).trans (raise_keepsK1 _ (.inl (by decide)) _)
      |>.trans (detail_keepsK1 _ _ _ _ _ _)

theorem voidItems_keepsK1 (c : Nat) (l : List Nat) : s.KeepsK1 (s.voidItems c l) := voidGo_keepsK1 _ _ _ _

theorem voidTransfers_keepsK1 (c : Nat) (hit : Transfer → Bool) : s.KeepsK1 (s.voidTransfers c hit) := by
  unfold voidTransfers
  extract_lets is n s1
  have h1 : s.KeepsK1 s1 := ⟨fun _ _ => rfl, id, rfl, rfl, rfl, rfl, rfl, rfl, rfl⟩
  refine h1.trans (KeepsK1.foldl (fun u _ => ?_) _ _)
  exact ((count_keepsK1 _ (.inl (by decide)) _).trans (raise_keepsK1 _ (.inl (by decide)) _)).trans (detail_keepsK1 _ _ _ _ _ _)

theorem loseUnits_keepsK1 (l : List Nat) : s.KeepsK1 (s.loseUnits l) := by
  unfold loseUnits
  exact ((voidItems_keepsK1 _ _ _).trans (KeepsK1.foldl (fun u n => u.abortItem_keepsK1 n _) _ _)).trans
    (KeepsK1.foldl (fun u n => u.abortItem_keepsK1 n _) _ _)

/-! ### The near fabric -/

theorem pumpOne_keepsK1 (p : Nat) : s.KeepsK1 (s.pumpOne p) := by
  unfold pumpOne
  dsimp only
  split
  · exact .refl s
  split
  · exact .refl s
  split
  · exact .refl s
  · exact ⟨fun _ _ => rfl, id, rfl, rfl, rfl, rfl, rfl, rfl, rfl⟩

theorem pump_keepsK1 (p : Nat) : s.KeepsK1 (s.pump p) := by
  have hgo : ∀ (n : Nat) (u : State), u.KeepsK1 (pump.go p n u) := by
    intro n
    induction n with
    | zero => exact fun u => .refl u
    | succ n ih => exact fun u => (u.pumpOne_keepsK1 p).trans (ih _)
  have hsend : s.KeepsK1 (s.sendWaiting p) := by
    unfold sendWaiting
    refine .ite ((modNport_keepsK1 _ _ _).trans (KeepsK1.foldl (fun u x => ?_) _ _)) (.refl s)
    exact ⟨fun _ _ => rfl, id, rfl, rfl, rfl, rfl, rfl, rfl, rfl⟩
  exact hsend.trans (hgo _ _)

theorem routeMsg_keepsK1 (m : NearMsg) (v : Nat) (a : Option Nat) : s.KeepsK1 (s.routeMsg m v a) := by
  unfold routeMsg
  extract_lets spent s1
  have h1 : s.KeepsK1 s1 := .ite ⟨fun _ _ => rfl, id, rfl, rfl, rfl, rfl, rfl, rfl, rfl⟩ (.refl s)
  split
  · exact h1.trans (count_keepsK1 _ (.inl (by decide)) _)
  · exact h1.trans ((modNport_keepsK1 _ _ _).trans (pump_keepsK1 _ _))

theorem resendNear_keepsK1 (p n : Nat) : s.KeepsK1 (s.resendNear p n) := by
  unfold resendNear
  split
  · exact .refl s
  · refine KeepsK1.trans ?_ (routeMsg_keepsK1 _ _ _ _)
    refine KeepsK1.trans ?_ (count_keepsK1 _ (.inl (by decide)) _)
    exact ⟨fun _ _ => rfl, id, rfl, rfl, rfl, rfl, rfl, rfl, rfl⟩

theorem nearLose_keepsK1 (p : Nat) : s.KeepsK1 (s.nearLose p) := by
  unfold nearLose
  extract_lets s1 s2 mine
  have h2 : s.KeepsK1 s2 := ⟨fun _ _ => rfl, id, rfl, rfl, rfl, rfl, rfl, rfl, rfl⟩
  exact h2.trans (KeepsK1.foldl (fun u x => u.resendNear_keepsK1 _ _) _ _)

/-! ### Crossings and blocks -/

theorem dropEntries_keepsK1 (c : Nat) : s.KeepsK1 (s.dropEntries c) := by
  unfold dropEntries
  extract_lets n s1 s2 s3
  have h1 : s.KeepsK1 s1 := ⟨fun _ _ => rfl, id, rfl, rfl, rfl, rfl, rfl, rfl, rfl⟩
  have h2 : s.KeepsK1 s2 := h1.trans ((count_only _ _ _).keepsK1 fun a ha => (reg_count _ _ _ _).trans (if_neg ha.2.1))
  have h3 : s.KeepsK1 s3 := h2.trans (detail_keepsK1 _ _ _ _ _ _)
  exact .ite (h3.trans (endReader_keepsK1 _ _ _)) h3

theorem closeCrossing_keepsK1 (c : Nat) : s.KeepsK1 (s.closeCrossing c) := by
  unfold closeCrossing
  extract_lets w
  split
  · exact .refl s
  · refine .ite (KeepsK1.trans ?_ (dropEntries_keepsK1 _ _)) ?_ <;>
      exact ⟨fun _ _ => rfl, id, rfl, rfl, rfl, rfl, rfl, rfl, rfl⟩

theorem closeCrossings_keepsK1 (l : List Nat) : s.KeepsK1 (s.closeCrossings l) :=
  KeepsK1.foldl (fun u c => u.closeCrossing_keepsK1 c) _ s

theorem tellLost_keepsK1 (j : Nat) (l : List Nat) : s.KeepsK1 (s.tellLost j l) := by
  have hrecords : ∀ (n : Nat) (l : List Nat) (u : State), u.KeepsK1 (lostRecords j n l u) := by
    intro n
    induction n with
    | zero => exact fun _ u => .refl u
    | succ n ih => exact fun l u => .ite (.refl u) ((detail_keepsK1 _ _ _ _ _ _).trans (ih _ _))
  refine .ite (.refl s) ((raise_keepsK1 _ (.inr ?_) _).trans (hrecords _ _ _))
  simp only [EvSrc.off, Reg.ftEvents]
  omega

theorem emptyRowCache_keepsK1 (j : Nat) : s.KeepsK1 (s.emptyRowCache j) := by
  unfold emptyRowCache
  extract_lets base units s1
  have h1 : s.KeepsK1 s1 := KeepsK1.foldl (fun u x => u.writeHbm_keepsK1 _ _) _ _
  exact h1.trans ⟨fun _ _ => rfl, id, rfl, rfl, rfl, rfl, rfl, rfl, rfl⟩

theorem interruptRecord_keepsK1 : s.KeepsK1 s.interruptRecord := by
  unfold interruptRecord
  split
  · exact .refl s
  · exact .ite (.refl s) ⟨fun _ _ => rfl, id, rfl, rfl, rfl, rfl, rfl, rfl, rfl⟩

/-- A switched domain loses its state: K1 keeps its own. -/
theorem loseBlock_keepsK1 {b : Nat} (hb : b < 96) : s.KeepsK1 (s.loseBlock b) := by
  have hsimple : ∀ u : State, u.regs = s.regs → (s.items = [] → u.items = []) → u.wires = s.wires →
      u.surroundings = s.surroundings → u.presentAt = s.presentAt → u.accessMisses = s.accessMisses →
      u.domFaults = s.domFaults → u.switchOns = s.switchOns → u.switchOffs = s.switchOffs → s.KeepsK1 u :=
    fun u h h1 h2 h3 h4 h5 h6 h7 h8 => ⟨fun a _ => reg_congr h a, h1, h2, h3, h4, h5, h6, h7, h8⟩
  unfold loseBlock
  refine .dite (fun _ => ?_) fun _ => .dite (fun _ => ?_) fun _ => .dite (fun _ => ?_) fun _ => .dite (fun _ => ?_) fun _ =>
    .dite (fun _ => ?_) fun _ => .dite (fun _ => ?_) fun _ => .dite (fun _ => ?_) fun _ => .dite (fun _ => ?_) fun _ =>
    .dite (fun _ => ?_) fun _ => .dite (fun _ => ?_) fun _ => .dite (fun _ => ?_) fun _ => by omega
  · exact hsimple _ rfl id rfl rfl rfl rfl rfl rfl rfl
  · exact hsimple _ rfl id rfl rfl rfl rfl rfl rfl rfl
  · exact hsimple _ rfl id rfl rfl rfl rfl rfl rfl rfl
  · exact (nearLose_keepsK1 _ _).trans (modNport_keepsK1 _ _ _)
  · exact modFport_keepsK1 _ _ _
  · exact hsimple _ rfl id rfl rfl rfl rfl rfl rfl rfl
  · exact .refl s
  · exact hsimple _ rfl (fun _ => rfl) rfl rfl rfl rfl rfl rfl rfl
  · exact hsimple _ rfl id rfl rfl rfl rfl rfl rfl rfl
  · exact hsimple _ rfl id rfl rfl rfl rfl rfl rfl rfl
  · exact s.interruptRecord_keepsK1.trans ⟨fun _ _ => rfl, id, rfl, rfl, rfl, rfl, rfl, rfl, rfl⟩

theorem nearPower_keepsK1 (p : Nat) : s.KeepsK1 (s.nearPower p) := by
  refine .ite (.refl s) (((setField_keepsK1 _ (.inr ?_) _ _ _).trans (detail_keepsK1 _ _ _ _ _ _)).trans (modNport_keepsK1 _ _ _))
  rw [Reg.npStatus]
  omega

theorem farPower_keepsK1 (k : Nat) : s.KeepsK1 (s.farPower k) := by
  refine .ite (.refl s) (((setField_keepsK1 _ (.inr ?_) _ _ _).trans (raise_keepsK1 _ (.inr ?_) _)).trans (modFport_keepsK1 _ _ _))
  · rw [Reg.fpStatus]
    omega
  · simp only [EvSrc.off, Reg.fpEvents]
    omega

theorem portsPower_keepsK1 (l : List Nat) : s.KeepsK1 (s.portsPower l) :=
  (KeepsK1.foldl (fun u p => u.nearPower_keepsK1 p) _ s).trans (KeepsK1.foldl (fun u k => u.farPower_keepsK1 k) _ _)

theorem loseFlows_keepsK1 (l : List Nat) : s.KeepsK1 (s.loseFlows l) :=
  .ite ⟨fun _ _ => rfl, id, rfl, rfl, rfl, rfl, rfl, rfl, rfl⟩ (.refl s)

end

/-- A map whose entries at an address stay reads there as before. -/
theorem sparseGet_filterMap {α : Type} (dflt : Nat → α) {f : Nat × α → Option (Nat × α)} {a : Nat}
    (hat : ∀ v, f (a, v) = some (a, v)) (hkey : ∀ e x, f e = some x → x.1 = e.1) (m : List (Nat × α)) :
    sparseGet dflt (m.filterMap f) a = sparseGet dflt m a := by
  induction m with
  | nil => rfl
  | cons e m ih =>
    obtain ⟨k, v⟩ := e
    by_cases hk : k = a
    · subst hk
      rw [List.filterMap_cons_some (hat v)]
      simp [sparseGet]
    · rw [sparseGet, if_neg hk, ← ih]
      cases hf : f (k, v) with
      | none => rw [List.filterMap_cons_none hf]
      | some x =>
        rw [List.filterMap_cons_some hf, sparseGet, if_neg]
        rw [hkey _ _ hf]
        exact hk

/-- A register of K1 keeps its word while other blocks reset. -/
theorem resetBlock_k1 (s : State) (cold : Bool) {blocks : List Nat} (hk1 : blkK1 ∉ blocks) {a : Nat}
    (ha : 0x70000 ≤ a ∧ a < 0x80000) : State.reg { s with regs := RegFile.resetBlock cold blocks s.regs } a = s.reg a := by
  refine congrArg BitVec.toNat (sparseGet_filterMap resetWord (fun v => ?_) (fun e x hx => ?_) s.regs)
  · have hblock : blockAt a = some ⟨blkK1, 63, blkK1⟩ := by
      unfold blockAt
      repeat rw [if_neg (by omega)]
      rw [if_pos (by omega)]
    simp only [hblock]
    exact if_neg hk1
  · split at hx
    · cases hx
      rfl
    · split at hx
      · rw [Option.ite_none_left_eq_some] at hx
        cases hx.2
        rfl
      · cases hx
        rfl

section
variable (s : State)

/-- Switched domains lose their state: K1 keeps its own. -/
theorem loseBlocks_keepsK1 (cold : Bool) {l : List Nat} (hl : ∀ b ∈ l, b < 96) : s.KeepsK1 (s.loseBlocks cold l) := by
  have hk1 : blkK1 ∉ l := fun h => absurd (hl _ h) (by decide)
  have hblocks : ∀ (l : List Nat) (u : State), (∀ b ∈ l, b < 96) → u.KeepsK1 (l.foldl (fun s b => s.loseBlock b) u) := by
    intro l
    induction l with
    | nil => exact fun u _ => .refl u
    | cons b l ih =>
      intro u h
      exact (u.loseBlock_keepsK1 (h b (List.mem_cons_self ..))).trans (ih _ fun x hx => h x (List.mem_cons_of_mem _ hx))
  unfold loseBlocks
  extract_lets cause count s1 s2 lost s3 s4 s5 s6 s7 s8
  have h2 : s.KeepsK1 s2 := (s.closeCrossings_keepsK1 _).trans (portsPower_keepsK1 _ _)
  have h3 : s.KeepsK1 s3 := h2.trans (KeepsK1.foldl (fun u j => u.emptyRowCache_keepsK1 j) _ _)
  have h4 : s.KeepsK1 s4 := h3.trans ⟨fun _ _ => rfl, id, rfl, rfl, rfl, rfl, rfl, rfl, rfl⟩
  have h5 : s.KeepsK1 s5 := (h4.trans (hblocks l _ hl)).trans (loseFlows_keepsK1 _ _)
  have h6 : s.KeepsK1 s6 := h5.trans ⟨fun a ha => resetBlock_k1 s5 cold hk1 ha.1, id, rfl, rfl, rfl, rfl, rfl, rfl, rfl⟩
  have h7 : s.KeepsK1 s7 := by
    refine ⟨fun a ha => ?_, h6.noItems, h6.wires, h6.surroundings, h6.presentAt, h6.accessMisses, h6.domFaults, h6.switchOns,
      h6.switchOffs⟩
    have hcause : cause < 2 ^ 64 := s.reg_lt _
    have hcount : count < 2 ^ 64 := s.reg_lt _
    show ((s6.setReg Reg.rstCause cause).setReg Reg.rstCount count).reg a = s.reg a
    rw [reg_setReg, reg_setReg]
    split
    · next h => rw [h, Nat.mod_eq_of_lt hcount]
    split
    · next h => rw [h, Nat.mod_eq_of_lt hcause]
    · exact h6.word a ha
  have h8 : s.KeepsK1 s8 := h7.trans ⟨fun _ _ => rfl, id, rfl, rfl, rfl, rfl, rfl, rfl, rfl⟩
  exact h8.trans (KeepsK1.foldl (fun u x => u.tellLost_keepsK1 _ _) _ _)

theorem dropQuiet_keepsK1 (l : List Nat) : s.KeepsK1 (s.dropQuiet l) := by
  unfold dropQuiet
  extract_lets gone dr s1
  have h1 : s.KeepsK1 s1 := ⟨fun _ _ => rfl, id, rfl, rfl, rfl, rfl, rfl, rfl, rfl⟩
  exact h1.trans (KeepsK1.foldl (fun u x => (u.abortItem_keepsK1 _ _).trans (raise_keepsK1 _ (.inl (by decide)) _)) _ _)

theorem endCovered_keepsK1 (l : List Nat) : s.KeepsK1 (s.endCovered l) := by
  unfold endCovered
  refine .ite ?_ ?_
  · exact (KeepsK1.foldl (fun u i => u.stopGang_keepsK1 i) _ _).trans
      ⟨fun _ _ => rfl, fun _ => rfl, rfl, rfl, rfl, rfl, rfl, rfl, rfl⟩
  · exact (KeepsK1.foldl (fun u i => u.abortItem_keepsK1 i _) _ _).trans (dropQuiet_keepsK1 _ _)

/-! ### Sources of the reaches below WARM, and the containment of ports -/

theorem assertBase_keepsK1 {r : ResetSource} (hreach : 2 ≤ r.reach) (hcover : ∀ b ∈ r.cover, b < 96) :
    s.KeepsK1 (s.assertBase r) := by
  have hwarm : ¬ r.reach = 1 := by omega
  have hcold : ¬ r.reach = 0 := by omega
  unfold assertBase
  simp only [hcold, hwarm, false_and, and_false, if_false, decide_false]
  have hstates : s.endStates r.reach = s := if_pos (by omega)
  rw [hstates]
  exact ((s.endCovered_keepsK1 _).trans (loseBlocks_keepsK1 _ false hcover)).trans
    ⟨fun _ _ => rfl, id, rfl, rfl, rfl, rfl, rfl, rfl, rfl⟩

theorem containBase_keepsK1 {r : ResetSource} (hreach : r.reach = 3) (hcover : ∀ b ∈ r.cover, b < 96) (row die sub : Nat)
    (w : List Byte) : s.KeepsK1 (s.containBase row r die sub w) := by
  have hport : ¬ r.reach = 4 := by omega
  unfold containBase
  extract_lets s1 s2 s3 s4
  refine .ite (.refl s) ?_
  have h2 : s.KeepsK1 s2 := (s.loseUnits_keepsK1 _).trans (raiseAt_keepsK1 _ (e := .err) (fun _ ha => ha.2.2.1) _ _ _)
  have h4 : s.KeepsK1 s4 :=
    (h2.trans (detail_keepsK1 _ _ _ _ _ _)).trans (assertBase_keepsK1 _ (by omega) hcover)
  rw [if_neg hport]
  exact h4.trans ((setReg_only _ _ _).keepsK1 fun a ha => reg_setReg_ne _ _ _ _ ha.2.2.2)

theorem containPort_keepsK1 (far : Bool) {p : Nat} (hp : p < 12) : s.KeepsK1 (s.containPort far p) := by
  refine s.containBase_keepsK1 rfl (fun b hb => ?_) _ _ _ _
  have hport : b = pdNear p ∨ b = pdFar p := by
    cases far
    · exact .inl (List.mem_singleton.mp hb)
    · exact .inr (List.mem_singleton.mp hb)
  simp only [pdNear, pdFar] at hport
  omega

theorem flapCheck_keepsK1 {x : Bool × Nat} (hx : x.2 < 12) : s.KeepsK1 (s.flapCheck x) :=
  .ite (s.containPort_keepsK1 x.1 hx) (.refl s)

theorem flapChecks_keepsK1 {l : List (Bool × Nat)} (hl : ∀ x ∈ l, x.2 < 12) :
    s.KeepsK1 (l.foldl (fun s x => s.flapCheck x) s) := by
  induction l generalizing s with
  | nil => exact .refl s
  | cons x l ih =>
    exact (s.flapCheck_keepsK1 (hl x (List.mem_cons_self ..))).trans (ih _ fun y hy => hl y (List.mem_cons_of_mem _ hy))

/-- The ports that blocks take down are among the module's own. -/
theorem portsTaken_lt (blocks : List Nat) : ∀ x ∈ s.portsTaken blocks, x.2 < 12 := by
  intro x hx
  simp only [portsTaken, List.mem_append, List.mem_map, List.mem_filter, List.mem_range] at hx
  rcases hx with ⟨p, ⟨hp, -⟩, rfl⟩ | ⟨k, ⟨hk, -⟩, rfl⟩
  · exact hp
  · exact Nat.lt_trans hk (by decide)

end

end State

end Sys2Proof.Machine
end

section
/-! ### Island clocks, site time, reference outputs (R361, R365, R367) -/

namespace Sys2Proof.Machine

/-- A fold whose every step leaves the start ends where it started. -/
theorem foldl_of_fixed {α β : Type} {f : α → β → α} {a : α} {l : List β} (h : ∀ b ∈ l, f a b = a) : l.foldl f a = a := by
  induction l with
  | nil => rfl
  | cons b l ih =>
    rw [List.foldl_cons, h b (List.mem_cons_self ..)]
    exact ih fun x hx => h x (List.mem_cons_of_mem _ hx)

/-- A word of CLK_CKO that asks for spread at 100 MHz alone is taken as it is. -/
theorem ckoMerge_of_fit {old new : Nat} (h : ∀ n, n < 4 → bitOf new (8 + n) = true → bitsOf new (2 * n + 1) (2 * n) = 1) :
    ckoMerge old new = (new, false) := by
  unfold ckoMerge
  refine foldl_of_fixed fun n hn => if_neg ?_
  intro hbad
  simp only [Bool.and_eq_true, bne_iff_ne] at hbad
  exact hbad.2 (h n (List.mem_range.mp hn) hbad.1)

namespace State

theorem wire_congr {s t : State} (h : t.wires = s.wires) (d : Nat) (j : Island) : t.wire d j = s.wire d j := by
  unfold wire
  rw [h]

theorem beginSide_wires (s : State) (c : Nat) (side : Side) : (s.beginSide c side).wires = s.wires := by
  unfold beginSide
  dsimp only
  split <;> rfl

theorem pairCrossings_wires (s : State) (cs : List Nat) : (s.pairCrossings cs).wires = s.wires := by
  unfold pairCrossings
  induction cs generalizing s with
  | nil => rfl
  | cons c cs ih => rw [List.foldl_cons, ih, beginSide_wires, beginSide_wires]

/-- An island that loses its clock: its wire alone clears, and its die's bit of CLK_ISLAND; LOST_ISLAND is set. -/
theorem islandLoss_clears {s : State} {die : Nat} {i : Island} (hok : s.inputOk = true) (hi : i ∈ islandsOf die)
    (hwire : s.wire die i = true) :
    let t := s.islandLoss die i
    t.wire die i = false ∧ bitOf (t.reg Reg.clkIsland) die = false ∧ bitOf (t.reg Reg.clkEvents) 4 = true
      ∧ ∀ d j, (d, j) ≠ (die, i) → t.wire d j = s.wire d j := by
  unfold islandLoss
  rw [if_pos (by simp [hok, hi, hwire])]
  extract_lets s1 s2 s3 t
  have h2 : s2.wires = s.wires := by
    refine (s1.closeCrossings_keepsK1 _).wires.trans ?_
    unfold s1
    split <;> rfl
  have h3 : ∀ d j, s3.wire d j = (s.wire d j && decide ((d, j) ≠ (die, i))) := by
    intro d j
    show decide ((d, j) ∈ s2.wires.filter (· ≠ (die, i))) = _
    rw [h2]
    simp [wire, List.mem_filter]
  have ht : ∀ d j, t.wire d j = s3.wire d j := fun d j => wire_congr (raise_only _ _ _).wires d j
  refine ⟨?_, ?_, raise_sets _ .clk 4 (by decide) (by decide), fun d j hdj => ?_⟩
  · rw [ht, h3]
    simp
  · have hraise : t.reg Reg.clkIsland = (s3.showIsland die).reg Reg.clkIsland :=
      (raise_reg _ .clk 4 _ (by decide)).trans (if_neg (by decide))
    have hall : (islandsOf die).all (s3.wire die) = false := by
      rw [List.all_eq_false]
      exact ⟨i, hi, by rw [h3]; simp⟩
    rw [hraise, showIsland, hall, setField, reg_setReg_same, bitOf_eq, Nat.testBit_mod_two_pow,
      putBits_testBit _ _ _ _ _ (Nat.le_refl die)]
    simp
  · rw [ht, h3]
    simp [hdj]

/-- An island whose clock returns: its wire alone is set. -/
theorem islandSet_sets {s : State} {die : Nat} {i : Island} (hok : s.inputOk = true) (hlock : s.pllLocked = true)
    (hi : i ∈ islandsOf die) (hwire : s.wire die i = false) :
    let t := s.islandSet die i
    t.wire die i = true ∧ ∀ d j, (d, j) ≠ (die, i) → t.wire d j = s.wire d j := by
  unfold islandSet
  rw [if_pos (by simp [hok, hlock, hi, hwire])]
  extract_lets s1 s2 s3 t
  have h2 : s2.wires = (die, i) :: s.wires := by
    unfold s2
    split <;> rfl
  have h3 : s3.wires = (die, i) :: s.wires := (s2.pairCrossings_wires _).trans h2
  have ht : t.wires = (die, i) :: s.wires := by
    have hpump : s3.KeepsK1 t := .ite ((s3.pump_keepsK1 _).trans (pump_keepsK1 _ _)) (.refl s3)
    exact hpump.wires.trans h3
  refine ⟨?_, fun d j hdj => ?_⟩
  · simp [wire, ht]
  · simp only [wire, ht, List.mem_cons, hdj, false_or]

end State

theorem exec_islandClockLoss (dt die : Nat) (i : Island) (s : State) :
    exec (.islandClockLoss dt (die, i)) s = s.finish dt ((s.advance dt).islandLoss die i) := rfl
theorem exec_islandClockStable (dt die : Nat) (i : Island) (s : State) :
    exec (.islandClockStable dt (die, i)) s = s.finish dt ((s.advance dt).islandSet die i) := rfl
theorem exec_clkTimeSet (dt : Nat) (v : DWord) (s : State) : exec (.clkTimeSet dt v) s =
    s.finish dt ((s.advance dt).barWith (fun _ _ _ v s => s.timeSet v) Reg.clkTimeSet true v.toNat) := rfl
theorem exec_clkCko (dt : Nat) (v : Word) (s : State) : exec (.clkCko dt v) s =
    s.finish dt ((s.advance dt).barWith (fun _ old new _ s => s.cko old new) Reg.clkCko false v.toNat) := rfl

/-- Settles O24: the loss and the return of an island's clock, and the two writes that are taken. -/
theorem islandClocksTimeAndOutputs : Obligations.IslandClocksTimeAndOutputs := by
  unfold Obligations.IslandClocksTimeAndOutputs
  refine ⟨fun dt die i s hok hi => ?islands, fun dt s => ⟨fun v r old new htakes => ?time, fun v r old new htakes hfit => ?cko⟩⟩
  case islands =>
    have hok' : (s.advance dt).inputOk = true := by simpa using hok
    have hwires : ∀ d j, (s.advance dt).wire d j = s.wire d j := State.wire_congr (s.advance_wires dt)
    refine ⟨fun hwire => ⟨_, exec_islandClockLoss dt die i s, ?_⟩, fun hwire hlock => ⟨_, exec_islandClockStable dt die i s, ?_⟩⟩
    · have h := State.islandLoss_clears hok' hi ((hwires die i).trans hwire)
      simp only [hwires] at h
      exact h
    · have h := State.islandSet_sets hok' (by simpa using hlock) hi ((hwires die i).trans hwire)
      simp only [hwires] at h
      exact h
  case time =>
    rw [exec_clkTimeSet, State.barWith_takes _ _ _ _ _ _ _ _ ((s.advance_barTakes dt _ _ _).trans htakes)]
    refine ⟨_, rfl, BitVec.ofNat_toNat .., ?_, s.advance_timeRuns dt, s.advance_items dt, s.advance_hbm dt⟩
    exact (State.reg_setReg_same _ _ _).trans (Nat.mod_eq_of_lt v.isLt)
  case cko =>
    rw [exec_clkCko, State.barWith_takes _ _ _ _ _ _ _ _ ((s.advance_barTakes dt _ _ _).trans htakes)]
    unfold State.cko
    rw [ckoMerge_of_fit hfit]
    rfl

end Sys2Proof.Machine
end

section
/-! ### Domains switch on in turn (R383, R385, R393) -/

namespace Sys2Proof.Machine

/-! #### Groups -/

theorem takeGroups_cons (w : Bool) (n room b : Nat) (l : List Nat) : takeGroups w (n + 1) room (b :: l) =
    if room < (l.takeWhile fun c => onGroup w c == onGroup w b).length + 1 then []
    else b :: l.takeWhile (fun c => onGroup w c == onGroup w b)
      ++ takeGroups w n (room - ((l.takeWhile fun c => onGroup w c == onGroup w b).length + 1))
          (l.dropWhile fun c => onGroup w c == onGroup w b) := rfl

/-- The groups taken stand at the head of the list, and fit into the room. -/
theorem takeGroups_prefix (w : Bool) (n room : Nat) (l : List Nat) :
    takeGroups w n room l <+: l ∧ (takeGroups w n room l).length ≤ room := by
  induction n generalizing room l with
  | zero => exact ⟨List.nil_prefix, Nat.zero_le _⟩
  | succ n ih =>
    cases l with
    | nil => exact ⟨List.nil_prefix, Nat.zero_le _⟩
    | cons b l =>
      rw [takeGroups_cons]
      split
      · exact ⟨List.nil_prefix, Nat.zero_le _⟩
      · obtain ⟨hprefix, hlength⟩ := ih (room - ((l.takeWhile fun c => onGroup w c == onGroup w b).length + 1))
          (l.dropWhile fun c => onGroup w c == onGroup w b)
        refine ⟨?_, ?_⟩
        · have h := (List.prefix_append_right_inj (b :: l.takeWhile fun c => onGroup w c == onGroup w b)).mpr hprefix
          rwa [List.cons_append, List.cons_append, List.takeWhile_append_dropWhile] at h
        · rw [List.length_append, List.length_cons]
          omega

/-- Outside a wake a domain that is no half of a hub is a group of its own. -/
theorem onGroup_single {b : Nat} (h : b < 48 ∨ 64 ≤ b) : onGroup false b = b := by
  unfold onGroup
  rw [if_neg (by omega)]
  simp

theorem onGroup_hub {b : Nat} (h : 48 ≤ b ∧ b < 64) (w : Bool) : onGroup w b = 48 + b % 8 := by
  unfold onGroup
  rw [if_pos h]

theorem takeWhile_eq_nil {α : Type} {p : α → Bool} {l : List α} (h : ∀ a ∈ l, p a = false) : l.takeWhile p = [] := by
  cases l with
  | nil => rfl
  | cons a l => rw [List.takeWhile_cons_of_neg (by simp [h a (List.mem_cons_self ..)])]

theorem dropWhile_eq_self {α : Type} {p : α → Bool} {l : List α} (h : ∀ a ∈ l, p a = false) : l.dropWhile p = l := by
  cases l with
  | nil => rfl
  | cons a l => rw [List.dropWhile_cons_of_neg (by simp [h a (List.mem_cons_self ..)])]

/-- Domains that are groups of their own go on one by one, as many as there is room for. -/
theorem takeGroups_singles {l : List Nat} (hsingle : ∀ b ∈ l, b < 48 ∨ 64 ≤ b) (hnodup : l.Nodup) {n room : Nat}
    (hroom : room ≤ n) : takeGroups false n room l = l.take room := by
  induction n generalizing room l with
  | zero =>
    obtain rfl : room = 0 := by omega
    rfl
  | succ n ih =>
    cases l with
    | nil => simp [takeGroups]
    | cons b l =>
      obtain ⟨hb, hl⟩ := List.nodup_cons.mp hnodup
      have hother : ∀ c ∈ l, (onGroup false c == onGroup false b) = false := by
        intro c hc
        rw [onGroup_single (hsingle c (List.mem_cons_of_mem _ hc)), onGroup_single (hsingle b (List.mem_cons_self ..)),
          beq_eq_false_iff_ne]
        rintro rfl
        exact hb hc
      rw [takeGroups_cons, takeWhile_eq_nil hother, dropWhile_eq_self hother]
      cases room with
      | zero => simp
      | succ room =>
        rw [if_neg (by simp), List.take_succ_cons]
        exact congrArg (b :: ·) (ih (fun c hc => hsingle c (List.mem_cons_of_mem _ hc)) hl (by omega))

/-- The two domains of a hub at the head go on together, or not at all. -/
theorem takeGroups_hub {j : Nat} (hj : j < 8) {rest : List Nat} (hnodup : ((48 + j) :: (56 + j) :: rest).Nodup) {n room : Nat}
    (hn : 0 < n) : let turn := takeGroups false n room ((48 + j) :: (56 + j) :: rest)
    (48 + j ∈ turn ↔ 2 ≤ room) ∧ (56 + j ∈ turn ↔ 2 ≤ room) := by
  obtain ⟨n, rfl⟩ : ∃ m, n = m + 1 := ⟨n - 1, by omega⟩
  have hlogic : onGroup false (48 + j) = 48 + j := by
    rw [onGroup_hub (by omega)]
    omega
  have hphy : onGroup false (56 + j) = 48 + j := by
    rw [onGroup_hub (by omega)]
    omega
  obtain ⟨hfirst, hsecond, -⟩ : 48 + j ∉ (56 + j) :: rest ∧ 56 + j ∉ rest ∧ rest.Nodup := by
    simpa only [List.nodup_cons] using hnodup
  have hrest : ∀ c ∈ rest, (onGroup false c == onGroup false (48 + j)) = false := by
    intro c hc
    have h48 : c ≠ 48 + j := by
      rintro rfl
      exact hfirst (List.mem_cons_of_mem _ hc)
    have h56 : c ≠ 56 + j := by
      rintro rfl
      exact hsecond hc
    rw [hlogic, beq_eq_false_iff_ne]
    by_cases hhub : 48 ≤ c ∧ c < 64
    · rw [onGroup_hub hhub]
      omega
    · rw [onGroup_single (by omega)]
      omega
  have hgroup : ((56 + j) :: rest).takeWhile (fun c => onGroup false c == onGroup false (48 + j)) = [56 + j] := by
    rw [List.takeWhile_cons_of_pos (by rw [hphy, hlogic]; exact beq_self_eq_true _), takeWhile_eq_nil hrest]
  dsimp only
  rw [takeGroups_cons, hgroup, List.length_singleton]
  by_cases hroom : 2 ≤ room
  · rw [if_neg (show ¬ room < 1 + 1 by omega)]
    simp [hroom]
  · rw [if_pos (show room < 1 + 1 by omega)]
    simp [hroom]

namespace State

/-! #### DOMAIN_SWITCH_ON -/

/-- The switch-ons of the last 100 µs. -/
def recentOns (s : State) : List Nat := s.switchedAt.filter fun x => decide (s.now < x + 100000)

/-- The domains that wait and whose turn can come, in order. -/
def readyOns (s : State) : List Nat := (s.switchOns.filter fun b => !s.skipped b).takeWhile s.turnComes

/-- The domains that DOMAIN_SWITCH_ON begins to switch on. -/
def turnOns (s : State) : List Nat :=
  if s.sleepState == 3 && s.readyOns.head?.any fun b => decide (200 ≤ onGroup (s.sleepState == 3) b)
  then (if s.recentOns = [] then takeGroups (s.sleepState == 3) 1 6 s.readyOns else [])
  else takeGroups (s.sleepState == 3) 6 (6 - s.recentOns.length) s.readyOns

theorem switchOnNext_eq {s : State} (hok : s.inputOk = true) (hk1 : blkK1 ∉ s.held) (htrip : s.tripped = false) :
    s.switchOnNext = { s with
      switchOns := s.switchOns.filter fun b => !decide (b ∈ s.turnOns)
      switchedAt := s.recentOns ++ s.turnOns.map fun _ => s.now
      rising := s.rising ++ s.turnOns.map fun b => (b, s.now) } :=
  if_neg (by simp [hok, hk1, htrip])

section
variable (s : State)

theorem turnOns_prefix : s.turnOns <+: s.readyOns ∧ s.turnOns.length ≤ 6 - s.recentOns.length := by
  unfold turnOns
  split
  · split
    · next hrecent =>
      rw [hrecent]
      exact takeGroups_prefix _ _ _ _
    · exact ⟨List.nil_prefix, Nat.zero_le _⟩
  · exact takeGroups_prefix _ _ _ _

/-- A domain whose turn has come has its core on. -/
theorem turnOns_core {b c : Nat} (hb : b ∈ s.turnOns) (hc : coreOf b = some c) : c ∈ s.on := by
  have hready : b ∈ s.readyOns := s.turnOns_prefix.1.subset hb
  have hturn : s.turnComes b = true := List.mem_takeWhile_imp hready
  simpa [turnComes, hc] using hturn

theorem turnOns_awake (h : s.sleepState ≠ 3) : s.turnOns = takeGroups false 6 (6 - s.recentOns.length) s.readyOns := by
  have hawake : (s.sleepState == 3) = false := beq_eq_false_iff_ne.mpr h
  unfold turnOns
  rw [hawake]
  rfl

/-- In a wake a group of flash pairs or of compute dies at the head goes alone, once in 100 µs. -/
theorem turnOns_waking (h : s.sleepState = 3) {b : Nat} {rest : List Nat} (hready : s.readyOns = b :: rest)
    (hb : b < 48 ∨ 88 ≤ b ∧ b < 92) :
    s.turnOns = if s.recentOns = [] then takeGroups true 1 6 s.readyOns else [] := by
  have hgroup : 200 ≤ onGroup true b := by
    unfold onGroup
    rw [if_neg (by omega)]
    split
    · exact Nat.le_add_right _ _
    · next hdie =>
      rw [if_pos ⟨rfl, hb.resolve_left fun h => hdie ⟨rfl, h⟩⟩]
      decide
  simp [turnOns, h, hready, hgroup]

end

/-! #### SUPPLY_GOOD and DOM_FAULT -/

section
variable (s : State)

theorem checkBase_only : s.OnlyReports s.checkBase := by
  unfold checkBase
  split
  · exact .refl s
  · dsimp only
    split
    · exact (raise_only _ _ _).trans (setField_only _ _ _ _ _)
    · exact setField_only _ _ _ _ _

/-- BASE_OVER and its event are all that a look at the base may write. -/
theorem checkBase_reg {a : Nat} (hreport : a ∉ reportRegs) (hevent : a ≠ Reg.pwrEvents) (hstatus : a ≠ Reg.pwrStatus) :
    s.checkBase.reg a = s.reg a := by
  unfold checkBase
  split
  · rfl
  · dsimp only
    rw [reg_setField_ne _ _ _ _ _ _ hstatus]
    split
    · exact (raise_reg _ .pwr 4 a hreport).trans (if_neg hevent)
    · rfl

theorem checkBase_pwrEvents {i : Nat} (h : bitOf (s.reg Reg.pwrEvents) i = true) :
    bitOf (s.checkBase.reg Reg.pwrEvents) i = true := by
  unfold checkBase
  split
  · exact h
  · dsimp only
    rw [reg_setField_ne _ _ _ _ _ _ (by decide)]
    split
    · exact raiseAt_bit _ .pwr 4 _ _ _ _ (by decide) h
    · exact h

end

/-- A domain that has faulted waits no more to be switched on. -/
def KeepsOff (b : Nat) (s : State) : Prop := b ∈ s.domFaults ∧ b ∉ s.switchOns

section
variable {s : State} {b : Nat} (h : KeepsOff b s)
include h

theorem queueOns_keepsOff : KeepsOff b s.queueOns := by
  unfold queueOns
  split
  · exact h
  · refine ⟨h.1, fun hb => ?_⟩
    have hgood := (List.mem_filter.mp hb).2
    simp [h.1] at hgood

theorem dormantStep_keepsOff : KeepsOff b s.dormantStep := by
  unfold dormantStep
  split
  · exact h
  split
  · split
    · exact queueOns_keepsOff (s := s.setField Reg.pwrStatus 1 0 1) h
    · exact h
  split
  · exact queueOns_keepsOff (s := ({ s with wakeAt := some s.now }).setField Reg.pwrStatus 1 0 3) h
  · exact h

theorem OnlyReports.keepsOff {t : State} (g : s.OnlyReports t) : KeepsOff b t :=
  ⟨g.domFaults ▸ h.1, g.switchOns ▸ h.2⟩

theorem tryEnd_keepsOff : KeepsOff b s.tryEnd := by
  unfold tryEnd
  split
  · exact h
  · extract_lets s1 s2 s3
    have h1 : KeepsOff b s1 := by
      unfold s1
      split
      · exact OnlyReports.keepsOff h (setReg_only _ _ _)
      · exact h
    have hepisode : ∀ u : State, KeepsOff b u → KeepsOff b { u with covered := [], best := none } := fun _ h => h
    have h3 : KeepsOff b s3 := hepisode s2 (OnlyReports.keepsOff h1 (count_only _ _ _))
    exact dormantStep_keepsOff (OnlyReports.keepsOff h3 (detail_only _ _ _ _ _ _))

theorem KeepsK1.keepsOff {t : State} (g : s.KeepsK1 t) : KeepsOff b t := ⟨g.domFaults ▸ h.1, g.switchOns ▸ h.2⟩

end

/-- Domains that have faulted are switched off: those of the list, however they were queued, wait no more. -/
theorem powerOff_keepsOff (s : State) {ds : List Nat} (hds : ∀ b ∈ ds, b < 96) {b : Nat} (hb : b ∈ ds)
    (hfault : b ∈ s.domFaults) : KeepsOff b (s.powerOff ds) := by
  have hhit : ∀ (u : State), ∀ x ∈ ds.filter (fun b => u.counts b), x < 96 := fun u x hx => hds x (List.mem_filter.mp hx).1
  unfold powerOff switchOff
  refine KeepsK1.keepsOff ?_ (flapChecks_keepsK1 _ (portsTaken_lt _ _))
  unfold offBase
  extract_lets hit s1 s2
  have h1 : s.KeepsK1 s1 := (s.dropQuiet_keepsK1 _).trans (closeCrossings_keepsK1 _ _)
  have h2 : KeepsOff b s2 := by
    refine ⟨?_, fun hon => ?_⟩
    · show b ∈ s1.domFaults
      rw [h1.domFaults]
      exact hfault
    · have hgood := (List.mem_filter.mp hon).2
      simp [hb] at hgood
  exact tryEnd_keepsOff (KeepsK1.keepsOff h2 (loseBlocks_keepsK1 _ false (hhit _)))

/-- The domains that a fault switches off: a hub's two together. -/
def faultGroup (pd : Nat) : List Nat :=
  if 48 ≤ pd ∧ pd < 56 then [pd, pd + 8] else if 56 ≤ pd ∧ pd < 64 then [pd, pd - 8] else [pd]

theorem mem_faultGroup (pd b : Nat) :
    b ∈ faultGroup pd ↔ b = pd ∨ (48 ≤ pd ∧ pd < 56 ∧ b = pd + 8) ∨ (56 ≤ pd ∧ pd < 64 ∧ b + 8 = pd) := by
  unfold faultGroup
  split
  · simp only [List.mem_cons, List.not_mem_nil, or_false]
    omega
  split
  · simp only [List.mem_cons, List.not_mem_nil, or_false]
    omega
  · simp only [List.mem_singleton]
    omega

/-- A domain whose supply has not come in 1 ms: it and its hub's other half are off, wait no more, and the event is set. -/
theorem domFault_switchesOff {s : State} {pd : Nat} {x : Nat × Nat} (hx : x ∈ s.rising) (hpd : x.1 = pd) (hlt : pd < 96)
    (hlate : x.2 + 1000000 ≤ s.now) : let t := s.domFault pd
    (∀ b ∈ faultGroup pd, KeepsOff b t ∧ b ∉ t.on ∧ t.rising.any (·.1 == b) = false)
      ∧ bitOf (t.reg Reg.pwrEvents) 7 = true := by
  have hany : s.rising.any (fun x => x.1 == pd && decide (x.2 + 1000000 ≤ s.now)) = true :=
    List.any_eq_true.mpr ⟨x, hx, by simp [hpd, hlate]⟩
  have hgroup : ∀ b ∈ faultGroup pd, b < 96 := fun b hb => by
    rw [mem_faultGroup] at hb
    omega
  have heq : s.domFault pd = ((State.powerOff (faultGroup pd)
      { s with domFaults := (faultGroup pd).foldl addTo s.domFaults }).raise .pwr 7).checkBase := if_pos hany
  rw [heq]
  refine ⟨fun b hb => ?_, checkBase_pwrEvents _ (raise_sets _ .pwr 7 (by decide) (by decide))⟩
  have hoff := powerOff_switchedOff { s with domFaults := (faultGroup pd).foldl addTo s.domFaults } (faultGroup pd)
  have hreports := (raise_only (State.powerOff (faultGroup pd)
    { s with domFaults := (faultGroup pd).foldl addTo s.domFaults }) .pwr 7).trans (checkBase_only _)
  have hkeeps := OnlyReports.keepsOff (powerOff_keepsOff { s with domFaults := (faultGroup pd).foldl addTo s.domFaults } hgroup hb
    ((mem_foldl_addTo _ _ _).mpr (.inr hb))) hreports
  refine ⟨hkeeps, ?_, ?_⟩
  · rw [hreports.on]
    exact hoff.not_on hb
  · rw [hreports.rising]
    exact hoff.not_rising hb

/-- A domain whose supply has come is on, and no other is; in a wake a compute die stands at 0.75 V. -/
theorem supplyGood_powers {s : State} {pd : Nat} (h : s.rising.any (·.1 == pd) = true) : let t := s.supplyGood pd
    (∀ b, b ∈ t.on ↔ b = pd ∨ b ∈ s.on) ∧ t.rising = s.rising.filter (·.1 != pd) ∧ t.held = s.held ∧ t.hbm = s.hbm
      ∧ t.items = s.items ∧ (s.sleepState = 3 → pd < 48 → t.reg (Reg.vcore pd) = 750) := by
  unfold supplyGood
  rw [if_pos h]
  extract_lets s1 t
  have h2 : s1.OnlyReports t := by
    refine .trans ?_ (checkBase_only _)
    split
    · exact setReg_only _ _ _
    · exact .refl s1
  refine ⟨fun b => ?_, h2.rising, h2.held, h2.hbm, h2.items, fun hwake hpd => ?_⟩
  · rw [h2.on]
    exact mem_addTo _ _ _
  · have hother : Reg.vcore pd ≠ Reg.pwrEvents ∧ Reg.vcore pd ≠ Reg.pwrStatus := by
      simp only [Reg.vcore, Reg.pwrEvents, Reg.pwrStatus]
      omega
    have hreport : Reg.vcore pd ∉ reportRegs := by
      simp only [reportRegs, List.mem_cons, List.not_mem_nil, or_false, Reg.vcore, Reg.errEvents, Reg.recEvents, Reg.recLost]
      omega
    refine (checkBase_reg _ hreport hother.1 hother.2).trans ?_
    rw [if_pos ⟨hwake, hpd⟩]
    exact (reg_setReg_same _ _ _).trans (by decide)

end State

theorem exec_domainSwitchOn (dt : Nat) (s : State) :
    exec (.domainSwitchOn dt) s = s.finish dt (s.advance dt).switchOnNext := rfl
theorem exec_supplyGood (dt pd : Nat) (s : State) : exec (.supplyGood dt pd) s = s.finish dt ((s.advance dt).supplyGood pd) := rfl
theorem exec_domFault (dt pd : Nat) (s : State) : exec (.domFault dt pd) s = s.finish dt ((s.advance dt).domFault pd) := rfl

/-- Settles O25: what DOMAIN_SWITCH_ON takes is the head of what is ready, in whole groups; the supply that comes, and the
one that does not. -/
theorem domainsSwitchOnInTurnOrFault : Obligations.DomainsSwitchOnInTurnOrFault := by
  unfold Obligations.DomainsSwitchOnInTurnOrFault
  refine ⟨fun dt s hok hk1 htrip => ?turn, fun dt pd s hrising => ⟨_, exec_supplyGood dt pd s, ?good⟩,
    fun dt pd s x hx hpd hlt hlate => ⟨_, exec_domFault dt pd s, ?fault⟩⟩
  case turn =>
    intro recent room ready
    have hrecent : (s.advance dt).recentOns = recent := by simp [State.recentOns, recent]
    have hready : (s.advance dt).readyOns = ready := by
      simp only [State.readyOns, ready, s.advance_switchOns, s.advance_skipped]
      exact congrArg (List.takeWhile · _) (funext fun b => by simp)
    have hawake : (s.advance dt).sleepState = s.sleepState := by simp
    obtain ⟨hprefix, hlength⟩ := (s.advance dt).turnOns_prefix
    have heq := State.switchOnNext_eq (s := s.advance dt) (by simpa using hok) (by simpa using hk1) (by simpa using htrip)
    rw [hready] at hprefix
    rw [hrecent] at heq hlength
    refine ⟨_, (s.advance dt).turnOns, (exec_domainSwitchOn dt s).trans (congrArg _ heq), hprefix, hlength, ?_⟩
    refine ⟨by rw [← s.advance_rising dt, ← s.advance_now dt], by rw [← s.advance_switchOns dt], by rw [← s.advance_now dt],
      fun hfew => ?_, fun b hb c hc => ?_, s.advance_on dt, s.advance_held dt, s.advance_regs dt,
      fun hsleep hnodup => ⟨fun hsingle => ?_, fun j rest hj hhub => ?_⟩, fun hsleep b rest hcons hb => ?_⟩
    · show (recent ++ (s.advance dt).turnOns.map fun _ => (s.advance dt).now).length ≤ 6
      rw [List.length_append, List.length_map]
      omega
    · exact s.advance_on dt ▸ (s.advance dt).turnOns_core hb hc
    · rw [State.turnOns_awake _ (by rwa [hawake]), hready, hrecent]
      exact takeGroups_singles hsingle hnodup (Nat.sub_le _ _)
    · rw [State.turnOns_awake _ (by rwa [hawake]), hready, hrecent, hhub]
      exact takeGroups_hub hj (hhub ▸ hnodup) (by decide)
    · rw [State.turnOns_waking _ (by rwa [hawake]) (hready.trans hcons) hb, hready, hrecent]
  case good =>
    have h := State.supplyGood_powers (s := s.advance dt) (pd := pd) (by simpa using hrising)
    simp only [s.advance_on, s.advance_rising, s.advance_held, s.advance_hbm, s.advance_items, s.advance_sleepState] at h
    exact h
  case fault =>
    obtain ⟨hgroup, hevent⟩ := State.domFault_switchesOff (s := s.advance dt) (by simpa using hx) hpd hlt (by simpa using hlate)
    refine ⟨fun b hb => ?_, hevent⟩
    obtain ⟨hkeeps, hon, hrising⟩ := hgroup b ((State.mem_faultGroup pd b).mpr hb)
    refine ⟨hkeeps.1, hon, hrising, hkeeps.2, (State.queueOns_keepsOff (b := b) ?_).2⟩
    exact hkeeps

end Sys2Proof.Machine
end

section
/-! ### Dormant (R390 to R393) -/

namespace Sys2Proof.Machine

namespace State

theorem sleepState_setField (s : State) {v : Nat} (h : v < 4) : (s.setField Reg.pwrStatus 1 0 v).sleepState = v :=
  (regBits_setField s Reg.pwrStatus 1 0 v (by decide) (by decide)).trans (Nat.mod_eq_of_lt h)

theorem queueOns_sleepState (s : State) : s.queueOns.sleepState = s.sleepState := by
  obtain ⟨l, e⟩ := s.queueOns_spec
  rw [e]
  rfl

theorem checkBase_sleepState (s : State) : s.checkBase.sleepState = s.sleepState := by
  unfold checkBase
  split
  · rfl
  · dsimp only
    refine (regBits_setField_other _ Reg.pwrStatus 2 2 _ 1 0 (by decide) (by decide) (by decide)).trans ?_
    split
    · exact regBits_congr ((raise_reg _ .pwr 4 _ (by decide)).trans (if_neg (by decide))) 1 0
    · rfl

theorem raisePwr_sleepState (s : State) (b : Nat) : (s.raise .pwr b).sleepState = s.sleepState :=
  regBits_congr ((raise_reg _ .pwr b _ (by decide)).trans (if_neg (show Reg.pwrStatus ≠ Reg.pwrEvents by decide))) 1 0

section
variable {s : State} (hk1 : blkK1 ∉ s.held)
include hk1

/-- A request from ON begins entry (R391). -/
theorem dormantStep_enters (hasked : s.dormantAsked = true) (hon : s.sleepState = 0) : s.dormantStep.sleepState = 1 := by
  unfold dormantStep
  rw [if_neg hk1, if_pos hasked, if_pos hon, queueOns_sleepState]
  exact s.sleepState_setField (by decide)

/-- The end of the requests begins the wake (R393). -/
theorem dormantStep_wakes (hasked : s.dormantAsked = false) (hsleep : s.sleepState = 1 ∨ s.sleepState = 2) :
    s.dormantStep.sleepState = 3 ∧ s.dormantStep.wakeAt = some s.now := by
  unfold dormantStep
  rw [if_neg hk1, if_neg (by simp [hasked]), if_pos hsleep]
  refine ⟨(queueOns_sleepState _).trans (sleepState_setField _ (by decide)), ?_⟩
  obtain ⟨l, e⟩ := (({ s with wakeAt := some s.now }).setField Reg.pwrStatus 1 0 3).queueOns_spec
  rw [e]
  rfl

theorem dormantStep_stays (hasked : s.dormantAsked = false) (hon : s.sleepState = 0) : s.dormantStep = s := by
  unfold dormantStep
  rw [if_neg hk1, if_neg (by simp [hasked]), if_neg (by simp [hon])]

/-- Once every domain has done its part the wake is over: STATE is ON, and the event is set. -/
theorem wakeComplete_ends (hwake : s.sleepState = 3) (hwoken : ∀ b, b < 92 → s.woken b = true)
    (hasked : s.dormantAsked = false) : s.wakeComplete.sleepState = 0 ∧ s.wakeComplete.wakeAt = none
      ∧ bitOf (s.wakeComplete.reg Reg.pwrEvents) 6 = true := by
  have hall : (List.range 92).all s.woken = true := List.all_eq_true.mpr fun b hb => hwoken b (List.mem_range.mp hb)
  have h : s.wakeComplete = (({ s with wakeAt := none }.setField Reg.pwrStatus 1 0 0).raise .pwr 6).dormantStep := by
    unfold wakeComplete
    rw [if_neg (by simp [hwake, hk1, hall])]
  have hafter := raise_only ({ s with wakeAt := none }.setField Reg.pwrStatus 1 0 0) .pwr 6
  have hpin : ∀ u : State, u.OnlyReports (u.setField Reg.pwrStatus 1 0 0) := fun u => setField_only u _ _ _ _
  have hstate : (({ s with wakeAt := none }.setField Reg.pwrStatus 1 0 0).raise .pwr 6).sleepState = 0 :=
    (raisePwr_sleepState _ 6).trans (sleepState_setField _ (by decide))
  have hctrl : (({ s with wakeAt := none }.setField Reg.pwrStatus 1 0 0).raise .pwr 6).reg Reg.pwrCtrl = s.reg Reg.pwrCtrl :=
    ((raise_reg _ .pwr 6 _ (by decide)).trans (if_neg (show Reg.pwrCtrl ≠ Reg.pwrEvents by decide))).trans
      (reg_setField_ne _ _ _ _ _ _ (by decide))
  have hasked' : (({ s with wakeAt := none }.setField Reg.pwrStatus 1 0 0).raise .pwr 6).dormantAsked = false := by
    unfold dormantAsked at hasked ⊢
    rw [hctrl, hafter.dormantPin, (hpin _).dormantPin]
    exact hasked
  rw [h, dormantStep_stays (by rw [hafter.held, (hpin _).held]; exact hk1) hasked' hstate]
  refine ⟨hstate, ?_, raise_sets _ .pwr 6 (by decide) (by decide)⟩
  rw [hafter.wakeAt, (hpin _).wakeAt]

/-- With the admitted work done the domains go off, and their fields are retained (R392). -/
theorem dormantEntry_enters (hentering : s.sleepState = 1) (hdone : s.items.any Item.holdsDormant = false) :
    s.dormantEntry.sleepState = 2 ∧ s.dormantEntry.retained = s.retain ∧ ∀ b, dormantOff b = true → b ∉ s.dormantEntry.on := by
  have h : s.dormantEntry = ((({ s.switchOff ((List.range 18).map (64 + ·) ++ List.range 48 ++ [88, 89, 90, 91]) with
      retained := s.retain }).setField Reg.pwrStatus 1 0 2).raise .pwr 5).checkBase := by
    unfold dormantEntry
    rw [if_neg (by simp [hentering, hk1, hdone])]
  have hoff := s.switchOff_switchedOff ((List.range 18).map (64 + ·) ++ List.range 48 ++ [88, 89, 90, 91])
  have hreports : ∀ u : State, u.OnlyReports ((u.setField Reg.pwrStatus 1 0 2).raise .pwr 5).checkBase := fun u =>
    ((setField_only u _ _ _ _).trans (raise_only _ _ _)).trans (checkBase_only _)
  rw [h]
  refine ⟨?_, ?_, fun b hb => ?_⟩
  · exact (checkBase_sleepState _).trans ((raisePwr_sleepState _ 5).trans (sleepState_setField _ (by decide)))
  · rw [(hreports _).retained]
  · rw [(hreports _).on]
    refine hoff.not_on ?_
    simp only [dormantOff, Bool.or_eq_true, Bool.and_eq_true, decide_eq_true_eq] at hb
    simp only [List.mem_append, List.mem_map, List.mem_range, List.mem_cons, List.not_mem_nil, or_false]
    by_cases hport : 64 ≤ b ∧ b < 82
    · exact .inl (.inl ⟨b - 64, by omega, by omega⟩)
    · omega

end

/-- Until then WAKE_COMPLETE does nothing. -/
theorem wakeComplete_waits {s : State} {b : Nat} (hb : b < 92) (hwoken : s.woken b = false) : s.wakeComplete = s := by
  have hnot : (List.range 92).all s.woken = false := List.all_eq_false.mpr ⟨b, List.mem_range.mpr hb, by simp [hwoken]⟩
  unfold wakeComplete
  rw [if_pos (by simp [hnot])]

theorem dormantStep_dormantPin (s : State) : s.dormantStep.dormantPin = s.dormantPin := by
  have hqueue : ∀ u : State, u.queueOns.dormantPin = u.dormantPin := by
    intro u
    obtain ⟨l, e⟩ := u.queueOns_spec
    rw [e]
  unfold dormantStep
  split
  · rfl
  split
  · split
    · exact hqueue _
    · rfl
  split
  · exact hqueue _
  · rfl

end State

theorem exec_dormantPin (dt : Nat) (s : State) :
    exec (.dormantRequest dt true) s = s.finish dt ({ s.advance dt with dormantPin := true }).dormantStep := rfl
theorem exec_dormantWrite (dt : Nat) (s : State) :
    exec (.dormantRequest dt false) s = s.finish dt (State.barWith (fun _ _ new _ s => s.pwrCtrlWrite new) Reg.pwrCtrl false
      ((s.advance dt).reg Reg.pwrCtrl ||| 1) (s.advance dt)) := rfl
theorem exec_dormantPinRelease (dt : Nat) (s : State) :
    exec (.dormantRequestRelease dt true) s = s.finish dt ({ s.advance dt with dormantPin := false }).dormantStep := rfl
theorem exec_wakeComplete (dt : Nat) (s : State) : exec (.wakeComplete dt) s = s.finish dt (s.advance dt).wakeComplete := rfl
theorem exec_dormantEntry (dt : Nat) (s : State) : exec (.dormantEntry dt) s = s.finish dt (s.advance dt).dormantEntry := rfl

/-- Settles O27: the requests step the state of PWR_STATUS, and the two commands of Sequence PWB-1 end entry and wake. -/
theorem dormantGoesThroughItsStates : Obligations.DormantGoesThroughItsStates := by
  unfold Obligations.DormantGoesThroughItsStates
  intro dt s hk1
  have hk1' : blkK1 ∉ (s.advance dt).held := by simpa using hk1
  refine ⟨fun hon => ⟨_, exec_dormantPin dt s, State.dormantStep_dormantPin _, ?pin⟩,
    fun r old new htakes hnew hon => ⟨_, exec_dormantWrite dt s, ?write⟩,
    fun hsleep hctrl => ⟨_, exec_dormantPinRelease dt s, State.dormantStep_dormantPin _, ?release⟩,
    fun hwake hwoken hpin hctrl => ⟨_, exec_wakeComplete dt s, ?wake⟩,
    fun hwake hnot => ?waits, fun hentering hdone => ⟨_, exec_dormantEntry dt s, ?entry⟩⟩
  case pin =>
    exact State.dormantStep_enters (s := { s.advance dt with dormantPin := true }) hk1' rfl ((s.advance_sleepState dt).trans hon)
  case write =>
    have h := State.barWith_takes (fun _ _ new _ s => s.pwrCtrlWrite new) _ _ _ _ _ _ _
      ((s.advance_barTakes dt _ _ _).trans htakes)
    rw [s.advance_reg, h]
    have hbit : bitOf (((s.advance dt).setReg Reg.pwrCtrl new).reg Reg.pwrCtrl) 0 = true := by
      rw [State.reg_setReg_same, bitOf_eq, Nat.testBit_mod_two_pow, ← bitOf_eq, hnew]
      decide
    have hstate : ((s.advance dt).setReg Reg.pwrCtrl new).sleepState = 0 :=
      (State.regBits_congr (State.reg_setReg_ne _ _ _ _ (by decide)) 1 0).trans ((s.advance_sleepState dt).trans hon)
    refine ⟨?_, ?_⟩
    · exact (congrArg (bitOf · 0) (State.dormantStep_reg _ (by decide))).trans hbit
    · exact State.dormantStep_enters (s := (s.advance dt).setReg Reg.pwrCtrl new) hk1' (by
        rw [State.dormantAsked, hbit, Bool.or_true]) hstate
  case release =>
    obtain ⟨hstate, hwakeAt⟩ := State.dormantStep_wakes (s := { s.advance dt with dormantPin := false }) hk1'
      ((Bool.false_or _).trans ((congrArg (bitOf · 0) (s.advance_reg dt Reg.pwrCtrl)).trans hctrl))
      (s.advance_sleepState dt ▸ hsleep)
    exact ⟨hstate, hwakeAt.trans (congrArg some (s.advance_now dt))⟩
  case wake =>
    exact State.wakeComplete_ends hk1' (by simpa using hwake) (fun b hb => by simpa using hwoken b hb)
      (by simp [State.dormantAsked, hpin, hctrl])
  case waits =>
    obtain ⟨b, hb, hwoken⟩ := hnot
    rw [exec_wakeComplete, State.wakeComplete_waits hb (by simpa using hwoken)]
  case entry =>
    exact State.dormantEntry_enters hk1' (by simpa using hentering) (by simpa using hdone)

end Sys2Proof.Machine
end

section
/-! ### Telemetry (R382, R387) -/

namespace Sys2Proof.Machine

theorem twos_lt (w : Nat) (x : Int) : twos w x < 2 ^ w := by
  have hpos : (0 : Int) < 2 ^ w := by positivity
  have hlt := Int.emod_lt_of_pos x hpos
  have hnonneg := Int.emod_nonneg x hpos.ne'
  unfold twos
  zify
  omega

namespace State

/-- The words that a sample's events leave. -/
def sampleWord (a : Nat) : Prop := a ∉ reportRegs ∧ a ≠ Reg.pwrEvents ∧ a ≠ Reg.prmEvents ∧ a ≠ Reg.pwrStatus

theorem sampleWord_of_k1 {a : Nat} (h : 0x70220 ≤ a ∧ a < 0x70234 ∨ 0x70300 ≤ a ∧ a < 0x70500) : sampleWord a := by
  simp only [sampleWord, reportRegs, List.mem_cons, List.not_mem_nil, or_false, Reg.errEvents, Reg.recEvents, Reg.recLost,
    Reg.pwrEvents, Reg.prmEvents, Reg.pwrStatus]
  omega

/-- What a sample leaves beside the registers: items, domains, resets and memories. -/
structure Samples (s t : State) : Prop where
  items : t.items = s.items
  on : t.on = s.on
  held : t.held = s.held
  hbm : t.hbm = s.hbm
  switchOffs : t.switchOffs = s.switchOffs

section
variable {s t u : State}

theorem Samples.refl (s : State) : s.Samples s := ⟨rfl, rfl, rfl, rfl, rfl⟩

theorem Samples.trans (h : s.Samples t) (g : t.Samples u) : s.Samples u :=
  ⟨g.items.trans h.items, g.on.trans h.on, g.held.trans h.held, g.hbm.trans h.hbm, g.switchOffs.trans h.switchOffs⟩

theorem OnlyReports.samples (h : s.OnlyReports t) : s.Samples t := ⟨h.items, h.on, h.held, h.hbm, h.switchOffs⟩

theorem Samples.raise (h : s.Samples t) (e : EvSrc) (b : Nat) : s.Samples (t.raise e b) := h.trans (raise_only t e b).samples

theorem Samples.foldl {α : Type} {f : State → α → State} (h : ∀ (s : State) (a : α), s.Samples (f s a)) (l : List α)
    (s : State) : s.Samples (l.foldl f s) := by
  induction l generalizing s with
  | nil => exact .refl s
  | cons a l ih => exact (h s a).trans (ih _)

theorem Samples.tauFloor (h : s.Samples t) (n : Nat) : t.tauFloor n = s.tauFloor n := by
  unfold State.tauFloor
  rw [h.items]

end

/-! #### A fold that writes one word per step -/

theorem reg_foldl_other {α : Type} {f : State → α → State} {a : Nat} {l : List α}
    (h : ∀ (s : State), ∀ x ∈ l, (f s x).reg a = s.reg a) (s : State) : (l.foldl f s).reg a = s.reg a := by
  induction l generalizing s with
  | nil => rfl
  | cons x l ih =>
    exact (ih (fun s y hy => h s y (List.mem_cons_of_mem _ hy)) _).trans (h s x (List.mem_cons_self ..))

/-- The word of one index is what the step of that index writes, in whatever state it finds. -/
theorem reg_foldl_range {f : State → Nat → State} {a n N : Nat} {Inv : State → Prop} {Q : Nat → Prop} (hn : n < N)
    (hset : ∀ s, Inv s → Q ((f s n).reg a)) (hother : ∀ s m, m ≠ n → (f s m).reg a = s.reg a)
    (hinv : ∀ s m, Inv s → Inv (f s m)) {s : State} (hs : Inv s) : Q (((List.range N).foldl f s).reg a) := by
  have key : ∀ l : List Nat, l.Nodup → n ∈ l → ∀ s, Inv s → Q ((l.foldl f s).reg a) := by
    intro l
    induction l with
    | nil =>
      intro _ h
      cases h
    | cons m l ih =>
      intro hnodup hmem s hs
      obtain ⟨hm, hl⟩ := List.nodup_cons.mp hnodup
      rw [List.foldl_cons]
      by_cases hmn : m = n
      · subst hmn
        rw [reg_foldl_other fun s x hx => hother s x fun hxm => hm (hxm ▸ hx)]
        exact hset s hs
      · exact ih hl ((List.mem_cons.mp hmem).resolve_left (Ne.symm hmn)) _ (hinv s m hs)
  exact key _ List.nodup_range (List.mem_range.mpr hn) s hs

/-! #### The steps of a sample -/

section
variable (s : State)

theorem raisePwr_word (b : Nat) {a : Nat} (ha : sampleWord a) : (s.raise .pwr b).reg a = s.reg a :=
  (raise_reg s .pwr b a ha.1).trans (if_neg ha.2.1)

theorem raisePrm_word (b : Nat) {a : Nat} (ha : sampleWord a) : (s.raise .prm b).reg a = s.reg a :=
  (raise_reg s .prm b a ha.1).trans (if_neg ha.2.2.1)

theorem storeTemp_samples (n : Nat) (x : Int) : s.Samples (s.storeTemp n x) := by
  unfold storeTemp
  extract_lets old s1 s2
  have h1 : s.Samples s1 := (setReg_only s _ _).samples
  have h2 : s1.Samples s2 := by
    unfold s2
    split
    · exact (raise_only _ _ _).samples
    · exact .refl s1
  refine (h1.trans h2).trans ?_
  split
  · exact (raise_only _ _ _).samples
  · exact .refl s2

theorem storeTemp_word (n : Nat) (x : Int) {a : Nat} (ha : sampleWord a) :
    (s.storeTemp n x).reg a = if a = Reg.tempDie n then twos 16 x else s.reg a := by
  have hset : (s.setReg (Reg.tempDie n) (twos 16 x)).reg a = if a = Reg.tempDie n then twos 16 x else s.reg a := by
    rw [reg_setReg, Nat.mod_eq_of_lt ((twos_lt 16 x).trans (by decide))]
  unfold storeTemp
  extract_lets old s1 s2
  refine .trans ?_ hset
  have h2 : s2.reg a = s1.reg a := by
    unfold s2
    split
    · exact raisePwr_word _ _ ha
    · rfl
  refine .trans ?_ h2
  split
  · exact raisePrm_word _ _ ha
  · rfl

theorem watch_samples (m : Telemetry) : s.Samples (s.watch m) := by
  unfold watch
  extract_lets hot s1 s2 above s3
  have h1 : s.Samples s1 := ⟨rfl, rfl, rfl, rfl, rfl⟩
  have h2 : s1.Samples s2 := by
    unfold s2
    split
    · split
      · exact Samples.raise (s := s1) (t := { s1 with coolantTold := true }) ⟨rfl, rfl, rfl, rfl, rfl⟩ _ _
      · exact .refl s1
    · exact .refl s1
  have h3 : s2.Samples s3 := ⟨rfl, rfl, rfl, rfl, rfl⟩
  refine ((h1.trans h2).trans h3).trans ?_
  split
  · split
    · exact Samples.raise (s := s3) (t := { s3 with overTold := true }) ⟨rfl, rfl, rfl, rfl, rfl⟩ _ _
    · exact .refl s3
  · exact .refl s3

theorem watch_word (m : Telemetry) {a : Nat} (ha : sampleWord a) : (s.watch m).reg a = s.reg a := by
  unfold watch
  extract_lets hot s1 s2 above s3
  have h2 : s2.reg a = s1.reg a := by
    unfold s2
    split
    · split
      · exact raisePwr_word { s1 with coolantTold := true } _ ha
      · rfl
    · rfl
  refine .trans ?_ h2
  show _ = s3.reg a
  split
  · split
    · exact raisePwr_word { s3 with overTold := true } _ ha
    · rfl
  · rfl

/-- A core voltage lies within 0.60 V and the width of a register. -/
theorem heldVcore_bounds (n v : Nat) : 600 ≤ s.heldVcore n v ∧ s.heldVcore n v < 2 ^ 64 := by
  have hreg := s.reg_lt (Reg.vcore n)
  unfold heldVcore
  dsimp only
  split <;> omega

/-- With no item's promise on a die its voltage is the one reported, within its bounds. -/
theorem heldVcore_of_free {n : Nat} (h : s.tauFloor n = none) (v : Nat) : s.heldVcore n v = min 900 (max 600 v) := by
  have habove : s.aboveHold n = false := by
    rw [aboveHold, h]
    rfl
  rw [heldVcore, habove]
  rfl

theorem settleOffs_of_none (h : s.switchOffs = []) : s.settleOffs = s := by
  have heq : ({ s with switchOffs := [] } : State) = s := by
    rw [← h]
  unfold settleOffs
  rw [h]
  simp [heq]

end

/-! #### The sample -/

/-- The die readings of a sample. -/
def storeTemps (m : Telemetry) (s : State) : State :=
  (List.range 64).foldl (fun s n => match m.temps[n]? with
    | some x => s.storeTemp n x
    | none => s) s

/-- The core voltages of a sample. -/
def storeVcores (m : Telemetry) (s : State) : State :=
  (List.range 48).foldl (fun s n => match m.vcores[n]? with
    | some v => s.setReg (Reg.vcore n) (s.heldVcore n v)
    | none => s) s

/-- The input of a sample, with its event. -/
def storeInput (m : Telemetry) (s : State) : State :=
  if m.milliVolts < 48000 ∧ (s.regBits Reg.pwrInput 15 0 = 0 ∨ 48000 ≤ s.regBits Reg.pwrInput 15 0) then
    (s.setReg Reg.pwrInput (m.milliVolts % 2 ^ 16 + m.centiAmps % 2 ^ 16 * 2 ^ 16)).raise .pwr 2
  else s.setReg Reg.pwrInput (m.milliVolts % 2 ^ 16 + m.centiAmps % 2 ^ 16 * 2 ^ 16)

/-- The averages of a sample. -/
def storeAvg (m : Telemetry) (s : State) : State := s.setReg Reg.pwrAvg (min m.msDw 0xFFFF + min m.secDw 0xFFFF * 2 ^ 16)

/-- The peak after a sample. -/
def storePeak (m : Telemetry) (s : State) : State := s.setReg Reg.pwrPeak (max (s.reg Reg.pwrPeak) (min m.msDw 0xFFFF))

/-- The coolant of a sample. -/
def storeCoolant (m : Telemetry) (s : State) : State := s.setReg Reg.coolant (twos 16 m.inlet + twos 16 m.outlet * 2 ^ 16)

/-- The junctions of a sample are cool, or not. -/
def noteCool (m : Telemetry) (s : State) : State :=
  { s with coolSince := if allCool m then s.coolSince.or (some s.now) else none }

theorem telemetry_eq {s : State} (m : Telemetry) (hok : s.inputOk = true) (hk1 : blkK1 ∉ s.held) :
    s.telemetry m = ((((storeCoolant m (storeVcores m (storeTemps m (storePeak m (storeAvg m (storeInput m
      (noteCool m s))))))).watch m).raiseBase m).settleOffs).checkBase := by
  unfold telemetry
  rw [if_neg (by simp [hok])]
  exact if_neg hk1

section
variable (m : Telemetry) (s : State)

theorem storeInput_word {a : Nat} (ha : sampleWord a) : (storeInput m s).reg a =
    if a = Reg.pwrInput then m.milliVolts % 2 ^ 16 + m.centiAmps % 2 ^ 16 * 2 ^ 16 else s.reg a := by
  have hset : (s.setReg Reg.pwrInput (m.milliVolts % 2 ^ 16 + m.centiAmps % 2 ^ 16 * 2 ^ 16)).reg a =
      if a = Reg.pwrInput then m.milliVolts % 2 ^ 16 + m.centiAmps % 2 ^ 16 * 2 ^ 16 else s.reg a := by
    rw [reg_setReg, Nat.mod_eq_of_lt (by omega)]
  unfold storeInput
  split
  · exact (raisePwr_word _ _ ha).trans hset
  · exact hset

theorem storeTemps_other {a : Nat} (ha : sampleWord a) (hother : ∀ n < 64, a ≠ Reg.tempDie n) : (storeTemps m s).reg a = s.reg a := by
  refine reg_foldl_other (fun s n hn => ?_) s
  split
  · exact (storeTemp_word s n _ ha).trans (if_neg (hother n (List.mem_range.mp hn)))
  · rfl

theorem storeVcores_other {a : Nat} (hother : ∀ n < 48, a ≠ Reg.vcore n) : (storeVcores m s).reg a = s.reg a := by
  refine reg_foldl_other (fun s n hn => ?_) s
  split
  · exact reg_setReg_ne _ _ _ _ (hother n (List.mem_range.mp hn))
  · rfl

theorem storeTemps_stores {n : Nat} {x : Int} (hn : n < 64) (hx : m.temps[n]? = some x) :
    (storeTemps m s).reg (Reg.tempDie n) = twos 16 x := by
  have hword : sampleWord (Reg.tempDie n) := sampleWord_of_k1 (.inr (by simp only [Reg.tempDie]; omega))
  refine reg_foldl_range (Inv := fun _ => True) (Q := (· = twos 16 x)) hn (fun s _ => ?_) (fun s k hk => ?_)
    (fun _ _ _ => trivial) trivial
  · rw [hx]
    exact (storeTemp_word s n x hword).trans (if_pos rfl)
  · split
    · exact (storeTemp_word s k _ hword).trans (if_neg (by simp only [Reg.tempDie]; omega))
    · rfl

theorem storeVcores_stores {n v : Nat} (hn : n < 48) (hv : m.vcores[n]? = some v) :
    600 ≤ (storeVcores m s).reg (Reg.vcore n)
      ∧ (s.tauFloor n = none → (storeVcores m s).reg (Reg.vcore n) = min 900 (max 600 v)) := by
  have hother : ∀ (u : State) (k : Nat), k ≠ n → (match m.vcores[k]? with
      | some v => u.setReg (Reg.vcore k) (u.heldVcore k v)
      | none => u).reg (Reg.vcore n) = u.reg (Reg.vcore n) := by
    intro u k hk
    split
    · exact reg_setReg_ne _ _ _ _ (by simp only [Reg.vcore]; omega)
    · rfl
  have hset : ∀ u : State, (match m.vcores[n]? with
      | some v => u.setReg (Reg.vcore n) (u.heldVcore n v)
      | none => u).reg (Reg.vcore n) = u.heldVcore n v := by
    intro u
    rw [hv]
    exact (reg_setReg_same _ _ _).trans (Nat.mod_eq_of_lt (u.heldVcore_bounds n v).2)
  refine ⟨?_, fun hfree => ?_⟩
  · exact reg_foldl_range (Inv := fun _ => True) (Q := (600 ≤ ·)) hn
      (fun u _ => (u.heldVcore_bounds n v).1.trans_eq (hset u).symm) hother (fun _ _ _ => trivial) trivial
  · refine reg_foldl_range (Inv := fun u => u.tauFloor n = none) (Q := (· = min 900 (max 600 v))) hn
      (fun u hu => (hset u).trans (u.heldVcore_of_free hu v)) hother (fun u k hu => ?_) hfree
    split
    · exact ((setReg_only u _ _).samples.tauFloor n).trans hu
    · exact hu

end

/-- The state in which a sample's readings are stored, before its watches. -/
def sampled (m : Telemetry) (s : State) : State :=
  storeCoolant m (storeVcores m (storeTemps m (storePeak m (storeAvg m (storeInput m (noteCool m s))))))

section
variable (m : Telemetry) (s : State)

theorem storeInput_samples : s.Samples (storeInput m s) := by
  unfold storeInput
  split
  · exact (setReg_only s _ _).samples.raise _ _
  · exact (setReg_only s _ _).samples

theorem storeTemps_samples : s.Samples (storeTemps m s) := by
  refine Samples.foldl (fun s n => ?_) _ s
  split
  · exact s.storeTemp_samples _ _
  · exact .refl s

theorem storeVcores_samples : s.Samples (storeVcores m s) := by
  refine Samples.foldl (fun s n => ?_) _ s
  split
  · exact (setReg_only s _ _).samples
  · exact .refl s

theorem storePeak_samples : s.Samples (storePeak m (storeAvg m (storeInput m (noteCool m s)))) :=
  (Samples.trans (s := s) (t := noteCool m s) ⟨rfl, rfl, rfl, rfl, rfl⟩ (storeInput_samples m _)).trans
    ((setReg_only _ _ _).trans (setReg_only _ _ _)).samples

theorem sampled_samples : s.Samples (sampled m s) :=
  (((storePeak_samples m s).trans (storeTemps_samples m _)).trans (storeVcores_samples m _)).trans (setReg_only _ _ _).samples

/-- What follows the readings leaves them: the watches, the base, and a look for domains that may go off. -/
theorem telemetry_after {s : State} (hok : s.inputOk = true) (hk1 : blkK1 ∉ s.held) (hoffs : s.switchOffs = []) :
    s.Samples (s.telemetry m) ∧ ∀ a, sampleWord a → (s.telemetry m).reg a = (sampled m s).reg a := by
  have hwatch := (sampled m s).watch_samples m
  have hbase : s.Samples (((sampled m s).watch m).raiseBase m) :=
    ((sampled_samples m s).trans hwatch).trans ⟨rfl, rfl, rfl, rfl, rfl⟩
  rw [telemetry_eq m hok hk1]
  change s.Samples (((sampled m s).watch m).raiseBase m).settleOffs.checkBase
    ∧ ∀ a, sampleWord a → (((sampled m s).watch m).raiseBase m).settleOffs.checkBase.reg a = _
  rw [settleOffs_of_none _ (hbase.switchOffs.trans hoffs)]
  refine ⟨hbase.trans (checkBase_only _).samples, fun a ha => ?_⟩
  exact (checkBase_reg _ ha.1 ha.2.1 ha.2.2.2).trans ((sampled m s).watch_word m ha)

/-- The input, the averages and the coolant of a sample stand in their words. -/
theorem sampled_words : (sampled m s).reg Reg.pwrInput = m.milliVolts % 2 ^ 16 + m.centiAmps % 2 ^ 16 * 2 ^ 16
    ∧ (sampled m s).reg Reg.pwrAvg = min m.msDw 0xFFFF + min m.secDw 0xFFFF * 2 ^ 16
    ∧ (sampled m s).reg Reg.pwrPeak = max (s.reg Reg.pwrPeak) (min m.msDw 0xFFFF) % 2 ^ 64
    ∧ (sampled m s).reg Reg.coolant = twos 16 m.inlet + twos 16 m.outlet * 2 ^ 16 := by
  have hthrough : ∀ a, sampleWord a → a < 0x70300 → a ≠ Reg.coolant →
      (sampled m s).reg a = (storePeak m (storeAvg m (storeInput m (noteCool m s)))).reg a := by
    intro a ha hlow hcool
    refine (reg_setReg_ne _ _ _ _ hcool).trans ((storeVcores_other m _ fun n _ => ?_).trans (storeTemps_other m _ ha fun n _ => ?_))
    · rw [Reg.vcore]
      omega
    · rw [Reg.tempDie]
      omega
  have hinput : sampleWord Reg.pwrInput := sampleWord_of_k1 (.inl (by decide))
  have havg : sampleWord Reg.pwrAvg := sampleWord_of_k1 (.inl (by decide))
  have hpeak : sampleWord Reg.pwrPeak := sampleWord_of_k1 (.inl (by decide))
  refine ⟨?_, ?_, ?_, ?_⟩
  · rw [hthrough _ hinput (by decide) (by decide), storePeak, reg_setReg_ne _ _ _ _ (by decide), storeAvg,
      reg_setReg_ne _ _ _ _ (by decide), storeInput_word m _ hinput, if_pos rfl]
  · rw [hthrough _ havg (by decide) (by decide), storePeak, reg_setReg_ne _ _ _ _ (by decide), storeAvg, reg_setReg_same,
      Nat.mod_eq_of_lt (by omega)]
  · rw [hthrough _ hpeak (by decide) (by decide), storePeak, reg_setReg_same, storeAvg, reg_setReg_ne _ _ _ _ (by decide),
      storeInput_word m _ hpeak, if_neg (by decide)]
    rfl
  · have hin := twos_lt 16 m.inlet
    have hout := twos_lt 16 m.outlet
    rw [sampled, storeCoolant, reg_setReg_same, Nat.mod_eq_of_lt (by omega)]

theorem sampled_temp {n : Nat} {x : Int} (hn : n < 64) (hx : m.temps[n]? = some x) :
    (sampled m s).reg (Reg.tempDie n) = twos 16 x := by
  refine (reg_setReg_ne _ _ _ _ ?_).trans ((storeVcores_other m _ fun k _ => ?_).trans (storeTemps_stores m _ hn hx))
  · rw [Reg.tempDie, Reg.coolant]
    omega
  · rw [Reg.tempDie, Reg.vcore]
    omega

theorem sampled_vcore {n v : Nat} (hn : n < 48) (hv : m.vcores[n]? = some v) : 600 ≤ (sampled m s).reg (Reg.vcore n)
    ∧ (s.tauFloor n = none → (sampled m s).reg (Reg.vcore n) = min 900 (max 600 v)) := by
  have hother : (sampled m s).reg (Reg.vcore n)
      = (storeVcores m (storeTemps m (storePeak m (storeAvg m (storeInput m (noteCool m s)))))).reg (Reg.vcore n) := by
    refine reg_setReg_ne _ _ _ _ ?_
    rw [Reg.vcore, Reg.coolant]
    omega
  obtain ⟨hlow, hfree⟩ := storeVcores_stores m (storeTemps m (storePeak m (storeAvg m (storeInput m (noteCool m s))))) hn hv
  rw [hother]
  exact ⟨hlow, fun h => hfree ((((storePeak_samples m s).trans (storeTemps_samples m _)).tauFloor n).trans h)⟩

end

end State

theorem exec_telemetrySample (dt : Nat) (m : Telemetry) (s : State) :
    exec (.telemetrySample dt m) s = s.finish dt ((s.advance dt).telemetry m) := rfl

/-- Settles O28: the readings are stored one after the other, each in words that what follows leaves. -/
theorem telemetryIsStored : Obligations.TelemetryIsStored := by
  unfold Obligations.TelemetryIsStored
  intro dt m s hok hk1 hoffs
  obtain ⟨hsamples, hwords⟩ := State.telemetry_after (s := s.advance dt) m (by simpa using hok) (by simpa using hk1)
    (by simpa using hoffs)
  obtain ⟨hinput, havg, hpeak, hcoolant⟩ := State.sampled_words m (s.advance dt)
  have hlow : ∀ a, 0x70220 ≤ a ∧ a < 0x70234 → ((s.advance dt).telemetry m).reg a = (State.sampled m (s.advance dt)).reg a :=
    fun a ha => hwords a (State.sampleWord_of_k1 (.inl ha))
  rw [s.advance_reg] at hpeak
  refine ⟨_, exec_telemetrySample dt m s, fun n x hn hx => ?_, (hlow _ (by decide)).trans hinput, (hlow _ (by decide)).trans havg,
    (hlow _ (by decide)).trans hpeak, (hlow _ (by decide)).trans hcoolant, fun n v hn hv => ?_,
    hsamples.hbm.trans (s.advance_hbm dt), hsamples.items.trans (s.advance_items dt), hsamples.on.trans (s.advance_on dt),
    hsamples.held.trans (s.advance_held dt)⟩
  · refine (hwords _ (State.sampleWord_of_k1 (.inr ?_))).trans (State.sampled_temp m _ hn hx)
    rw [Reg.tempDie]
    omega
  · have hword : ((s.advance dt).telemetry m).reg (Reg.vcore n) = (State.sampled m (s.advance dt)).reg (Reg.vcore n) := by
      refine hwords _ (State.sampleWord_of_k1 (.inr ?_))
      rw [Reg.vcore]
      omega
    obtain ⟨hbound, hfree⟩ := State.sampled_vcore m (s.advance dt) hn hv
    exact ⟨hbound.trans_eq hword.symm, fun h => hword.trans (hfree (by simpa using h))⟩

end Sys2Proof.Machine
end

section
/-! ### The surroundings table (R397 to R400, R435) -/

namespace Sys2Proof.Machine

namespace State

/-- What a port's look at a new entry leaves: the table, its generation and the presence of modules. -/
structure KeepsSur (s t : State) : Prop where
  surroundings : t.surroundings = s.surroundings
  presentAt : t.presentAt = s.presentAt
  gen : t.reg Reg.surGen = s.reg Reg.surGen

section
variable {s t u : State}

theorem KeepsSur.refl (s : State) : s.KeepsSur s := ⟨rfl, rfl, rfl⟩

theorem KeepsSur.trans (h : s.KeepsSur t) (g : t.KeepsSur u) : s.KeepsSur u :=
  ⟨g.surroundings.trans h.surroundings, g.presentAt.trans h.presentAt, g.gen.trans h.gen⟩

theorem KeepsSur.foldl {α : Type} {f : State → α → State} (h : ∀ (s : State) (a : α), s.KeepsSur (f s a)) (l : List α)
    (s : State) : s.KeepsSur (l.foldl f s) := by
  induction l generalizing s with
  | nil => exact .refl s
  | cons a l ih => exact (h s a).trans (ih _)

theorem KeepsK1.keepsSur (h : s.KeepsK1 t) : s.KeepsSur t :=
  ⟨h.surroundings, h.presentAt, h.word _ ⟨by decide, by decide, by decide, by decide⟩⟩

theorem KeepsSur.sur (h : s.KeepsSur t) (e : Nat) : t.sur e = s.sur e := by
  unfold State.sur
  rw [h.surroundings]

end

section
variable (s : State)

theorem raiseSur_keepsSur (b : Nat) : s.KeepsSur (s.raise .sur b) :=
  ⟨(raise_only s _ _).surroundings, (raise_only s _ _).presentAt, (raise_reg s .sur b _ (by decide)).trans (if_neg (by decide))⟩

/-! #### The ports' look at a new entry -/

theorem setFpStatus_keepsK1 (k hi lo v : Nat) : s.KeepsK1 (s.setField (Reg.fpStatus k) hi lo v) := by
  refine s.setField_keepsK1 (.inr ?_) hi lo v
  rw [Reg.fpStatus]
  omega

theorem farStart_keepsK1 (k : Nat) : s.KeepsK1 (s.farStart k) := by
  have hnokey : s.KeepsK1 (s.showNoKey k) := by
    refine s.setField_keepsK1 (.inr ?_) 7 7 _
    rw [Reg.secPortStatus]
    omega
  unfold farStart
  extract_lets s1 s2
  refine hnokey.trans (.ite (.refl s1) (.ite (s1.setFpStatus_keepsK1 _ _ _ _) ?_))
  have h2 : s1.KeepsK1 s2 := s1.modFport_keepsK1 _ _
  split
  · exact h2.trans (s2.setFpStatus_keepsK1 _ _ _ _)
  · exact (h2.trans (s2.setFpStatus_keepsK1 _ _ _ _)).trans (setFpStatus_keepsK1 _ _ _ _ _)

theorem flapFar_keepsK1 {k : Nat} (hk : k < 12) : s.KeepsK1 (s.flap true k) :=
  (s.modFport_keepsK1 _ _).trans (flapCheck_keepsK1 _ (x := (true, k)) hk)

theorem farDown_keepsK1 {k : Nat} (hk : k < 12) (cause : Nat) : s.KeepsK1 (s.farDown k cause) := by
  have hevents : (EvSrc.fp k).off < 0x70000 ∨ 0x80000 ≤ (EvSrc.fp k).off := by
    simp only [EvSrc.off, Reg.fpEvents]
    omega
  unfold farDown
  extract_lets s1 s2 s3
  have h1 : s.KeepsK1 s1 := (s.setFpStatus_keepsK1 _ _ _ _).trans (raise_keepsK1 _ hevents 3)
  have h2 : s1.KeepsK1 s2 := s1.modFport_keepsK1 _ _
  have h3 : s2.KeepsK1 s3 := s2.voidItems_keepsK1 _ _
  exact (((h1.trans h2).trans h3).trans (s3.voidTransfers_keepsK1 _ _)).trans (flapFar_keepsK1 _ hk)

theorem farOptics_keepsK1 {k : Nat} (hk : k < 12) : s.KeepsK1 (s.farOptics k) := by
  unfold farOptics
  extract_lets st s1
  refine .ite (.refl s) (.ite (.ite (s.farStart_keepsK1 k) (.refl s)) (.ite (.refl s) ?_))
  have h1 : s.KeepsK1 s1 := .ite (s.farDown_keepsK1 hk 1) (.refl s)
  exact h1.trans (.ite (s1.setFpStatus_keepsK1 _ _ _ _) (.refl s1))

theorem checkPlan_keepsSur (p : Nat) : s.KeepsSur (s.checkPlan p) := by
  unfold checkPlan
  split
  · exact s.raiseSur_keepsSur 2
  · exact .refl s

theorem cageRead_keepsSur (e : Nat) : s.KeepsSur (s.cageRead e) := by
  unfold cageRead
  split
  · exact (s.farOptics_keepsK1 (by omega)).keepsSur
  split
  · exact KeepsSur.foldl (fun s p => s.checkPlan_keepsSur p) _ s
  · exact .refl s

/-! #### The table takes an entry -/

/-- Entry `e` is `entry`, the generation rises by 2 where that is a change, and the other entries stay. -/
def TakesEntry (e : Nat) (entry : List Byte) (s t : State) : Prop :=
  t.sur e = entry ∧ t.reg Reg.surGen = (if s.sur e = entry then s.reg Reg.surGen else (s.reg Reg.surGen + 2) % 2 ^ 32)
    ∧ ∀ f, f ≠ e → t.sur f = s.sur f

variable {s} in
theorem TakesEntry.keeps {e : Nat} {entry : List Byte} {t u : State} (h : TakesEntry e entry s t) (g : t.KeepsSur u) :
    TakesEntry e entry s u := by
  obtain ⟨hentry, hgen, hothers⟩ := h
  exact ⟨(g.sur e).trans hentry, g.gen.trans hgen, fun f hf => (g.sur f).trans (hothers f hf)⟩

/-- An entry reads as the bytes stored, or as a blank where none are. -/
theorem sur_set {t : State} {e : Nat} {bytes : List Byte} (h : t.surroundings = s.surroundings.set e bytes)
    (he : e < s.surroundings.length) :
    t.sur e = (if bytes = [] then surBlank e else bytes) ∧ ∀ f, f ≠ e → t.sur f = s.sur f := by
  unfold State.sur
  rw [h]
  refine ⟨?_, fun f hf => ?_⟩
  · rw [List.getD_eq_getElem?_getD, List.getElem?_set_self he, Option.getD_some]
    cases bytes with
    | nil => rfl
    | cons b l => rfl
  · rw [List.getD_eq_getElem?_getD, List.getElem?_set_ne (Ne.symm hf), ← List.getD_eq_getElem?_getD]

theorem setSur_presentAt (e : Nat) (bytes : List Byte) : (s.setSur e bytes).presentAt = s.presentAt := by
  unfold setSur
  split
  · rfl
  · exact (raiseSur_keepsSur _ 0).presentAt.trans (setReg_only _ _ _).presentAt

theorem setSur_takes {e : Nat} (he : e < s.surroundings.length) (bytes : List Byte) :
    TakesEntry e (if bytes = [] then surBlank e else bytes) s (s.setSur e bytes) := by
  have hnonempty : s.sur e ≠ [] := by
    unfold State.sur
    split
    · simp [surBlank]
    · next h => exact h
  have hsame : s.sur e = bytes ∨ (bytes = [] ∧ s.sur e = surBlank e) ↔ s.sur e = if bytes = [] then surBlank e else bytes := by
    by_cases hb : bytes = []
    · subst hb
      simp [hnonempty]
    · simp [hb]
  unfold setSur
  by_cases h : s.sur e = if bytes = [] then surBlank e else bytes
  · rw [if_pos (hsame.mpr h)]
    exact ⟨h, (if_pos h).symm, fun _ _ => rfl⟩
  · rw [if_neg fun g => h (hsame.mp g)]
    refine TakesEntry.keeps ?_ (raiseSur_keepsSur _ 0)
    obtain ⟨hentry, hothers⟩ := s.sur_set (t := ({ s with surroundings := s.surroundings.set e bytes }).setReg Reg.surGen
      ((s.reg Reg.surGen + 2) % 2 ^ 32)) rfl he
    refine ⟨hentry, ?_, hothers⟩
    rw [if_neg h]
    exact (reg_setReg_same _ _ _).trans (Nat.mod_eq_of_lt (by omega))

/-! #### The reads -/

/-- A read that decides an entry ends the tries, and the wait for the module. -/
def readDone (e : Nat) (s : State) : State :=
  { s with cageTries := dissoc s.cageTries e, presentAt := dissoc s.presentAt e, triedAt := dissoc s.triedAt e }

/-- A read may be tried: the module has been there for 2 s, and the last try is 10 ms ago. -/
def readSettled (s : State) (e : Nat) : Bool :=
  (look s.presentAt e).all (fun t => decide (t + 2000000000 ≤ s.now))
    && (look s.triedAt e).all (fun t => decide (t + 10000000 ≤ s.now))

theorem any_not_le {o : Option Nat} {c n : Nat} :
    (o.any fun t => decide (n < t + c)) = !o.all fun t => decide (t + c ≤ n) := by
  cases o with
  | none => rfl
  | some t =>
    simp only [Option.any_some, Option.all_some]
    rw [← decide_not]
    exact decide_eq_decide.mpr Nat.not_le.symm

variable {s} {e : Nat}

theorem identityRead_unsettled (h : s.readSettled e = false) (r : IdRead) : s.identityRead e r = s := by
  unfold identityRead
  rw [any_not_le, any_not_le]
  refine if_pos ?_
  simp only [readSettled, Bool.and_eq_false_iff] at h
  obtain h | h := h <;> simp [h]

section
variable (he : e < 60) (hready : s.readerReady e = true) (hsettled : s.readSettled e = true)
include he hready hsettled

theorem identityRead_guard :
    (decide (60 ≤ e) || !s.readerReady e || ((look s.presentAt e).any fun t => decide (s.now < t + 2000000000))
      || ((look s.triedAt e).any fun t => decide (s.now < t + 10000000))) = false := by
  simp only [readSettled, Bool.and_eq_true] at hsettled
  obtain ⟨hpresent, htried⟩ := hsettled
  rw [any_not_le, any_not_le, hpresent, htried, hready]
  simp [he]

theorem identityRead_data (media lenCode app : Byte) (vendor part serial extra : List Byte) :
    s.identityRead e (.data media lenCode app vendor part serial extra)
      = ((readDone e s).setSur e (surEntry e media lenCode app vendor part serial extra)).cageRead e :=
  if_neg (by rw [identityRead_guard he hready hsettled]; decide)

theorem identityRead_bad :
    s.identityRead e .bad = (((readDone e s).setSur e (surStatus e 3)).raise .sur 1).cageRead e :=
  if_neg (by rw [identityRead_guard he hready hsettled]; decide)

theorem identityRead_third (htries : (look s.cageTries e).getD 0 = 2) :
    s.identityRead e .fail = (((readDone e s).setSur e (surStatus e 2)).raise .sur 1).cageRead e := by
  refine (if_neg (by rw [identityRead_guard he hready hsettled]; decide)).trans ?_
  exact if_pos (htries ▸ Nat.le_refl 2)

end

/-- A read that decides an entry puts it into the table, and the ports look at it. -/
theorem readDone_takes (he : e < s.surroundings.length) {bytes : List Byte} (hb : bytes ≠ []) :
    TakesEntry e bytes s (((readDone e s).setSur e bytes).cageRead e)
      ∧ TakesEntry e bytes s ((((readDone e s).setSur e bytes).raise .sur 1).cageRead e) := by
  have h : TakesEntry e bytes s ((readDone e s).setSur e bytes) := by
    have h := (readDone e s).setSur_takes (e := e) he bytes
    rw [if_neg hb] at h
    exact h
  exact ⟨h.keeps (cageRead_keepsSur _ e), (h.keeps (raiseSur_keepsSur _ 1)).keeps (cageRead_keepsSur _ e)⟩

theorem cagePresent_eq (he : e < 18) (hready : s.readerReady e = true) : s.cagePresent e =
    { s with presentAt := assoc s.presentAt e s.now, cageTries := dissoc s.cageTries e, triedAt := dissoc s.triedAt e } :=
  if_neg (by simp [he, hready])

theorem cageGone_eq (he : e < 18) (hready : s.readerReady e = true) (hstatus : fld (s.sur e) 2 1 ≠ 0) :
    s.cageGone e = ((readDone e s).setSur e []).cageRead e := by
  refine (if_neg (by simp [he, hready])).trans ?_
  exact if_neg hstatus

theorem mgmtRead_eq (hok : s.inputOk = true) (hk1 : blkK1 ∉ s.held) (hwire : s.wire 63 .k1 = true) (off len : Nat) :
    s.mgmtRead off len = s.emit (.i3c ((List.range len).map fun i => s.mgmtByte (off + i))) :=
  if_pos (by simp [k1Live, hok, hk1, hwire])

end

end State

theorem surEntry_ne_nil (e : Nat) (media lenCode app : Byte) (vendor part serial extra : List Byte) :
    surEntry e media lenCode app vendor part serial extra ≠ [] := by
  simp [surEntry]

theorem surStatus_ne_nil (e status : Nat) : surStatus e status ≠ [] := by
  simp [surStatus, surBlank]

theorem exec_identityRead (dt e : Nat) (r : IdRead) (s : State) :
    exec (.identityRead dt e r) s = s.finish dt ((s.advance dt).identityRead e r) := rfl
theorem exec_cagePresence (dt e : Nat) (s : State) : exec (.cagePresence dt e) s = s.finish dt ((s.advance dt).cagePresent e) := rfl
theorem exec_cageRemoval (dt e : Nat) (s : State) : exec (.cageRemoval dt e) s = s.finish dt ((s.advance dt).cageGone e) := rfl
theorem exec_mgmtPrivateRead (dt off len : Nat) (s : State) :
    exec (.mgmtPrivateRead dt off len) s = s.finish dt ((s.advance dt).mgmtRead off len) := rfl

/-- Settles O30: each command that decides an entry sets it, and what the ports make of it leaves the table. -/
theorem surroundingsFollowTheCages : Obligations.SurroundingsFollowTheCages := by
  unfold Obligations.SurroundingsFollowTheCages
  intro dt e s he hlen hready settled took
  have hready' : (s.advance dt).readerReady e = true := (s.advance_readerReady dt e).trans hready
  have he' : e < (s.advance dt).surroundings.length := by
    rw [s.advance_surroundings, hlen]
    exact he
  have hsettled : (s.advance dt).readSettled e = settled := by simp [State.readSettled, settled]
  have htook : ∀ entry u t, State.TakesEntry e entry (s.advance dt) u → s.finish dt u = .next t → took t entry := by
    intro entry u t h ht
    obtain ⟨hentry, hgen, hothers⟩ := h
    simp only [s.advance_sur, s.advance_reg] at hgen hothers
    rw [← Host.Outcome.next.inj ht]
    exact ⟨hentry, hgen, hothers⟩
  refine ⟨fun h => ⟨fun media len app vendor part serial extra => ⟨_, exec_identityRead dt e _ s, htook _ _ _ ?data rfl⟩,
      fun htries => ⟨_, exec_identityRead dt e _ s, htook _ _ _ ?third rfl⟩,
      ⟨_, exec_identityRead dt e _ s, htook _ _ _ ?bad rfl⟩⟩,
    fun h r => ?unsettled, fun hcage => ⟨_, exec_cagePresence dt e s, ?present⟩,
    fun hcage hstatus => ⟨_, exec_cageRemoval dt e s, ?gone⟩,
    fun off len hok hk1 hwire => ⟨_, exec_mgmtPrivateRead dt off len s, ?mgmt⟩⟩
  case data =>
    rw [State.identityRead_data he hready' (hsettled.trans h)]
    exact (State.readDone_takes he' (surEntry_ne_nil e media len app vendor part serial extra)).1
  case third =>
    rw [State.identityRead_third he hready' (hsettled.trans h) (by simpa using htries)]
    exact (State.readDone_takes he' (surStatus_ne_nil e 2)).2
  case bad =>
    rw [State.identityRead_bad he hready' (hsettled.trans h)]
    exact (State.readDone_takes he' (surStatus_ne_nil e 3)).2
  case unsettled => rw [exec_identityRead, State.identityRead_unsettled (hsettled.trans h)]
  case present =>
    rw [State.cagePresent_eq hcage hready']
    refine ⟨?_, s.advance_surroundings dt, s.advance_regs dt⟩
    show look (assoc _ e (s.advance dt).now) e = _
    rw [look_assoc, if_pos rfl, s.advance_now]
  case gone =>
    rw [State.cageGone_eq hcage hready' (by simpa using hstatus)]
    have hset := (State.readDone e (s.advance dt)).setSur_takes (e := e) he' []
    refine ⟨htook _ _ _ (hset.keeps (State.cageRead_keepsSur _ e)) rfl, ?_⟩
    show look (((State.readDone e (s.advance dt)).setSur e []).cageRead e).presentAt e = none
    rw [(State.cageRead_keepsSur _ e).presentAt, State.setSur_presentAt]
    exact (look_dissoc _ _ _).trans (if_pos rfl)
  case mgmt =>
    rw [State.mgmtRead_eq (by simpa using hok) (by simpa using hk1) (by simpa using hwire)]
    exact ⟨congrArg _ (s.advance_emitted dt), s.advance_regs dt⟩

end Sys2Proof.Machine
end

section
/-! ### The recorder's writer (R404, R406 to R409) -/

namespace Sys2Proof.Machine

theorem Recorder.setPos_eq (a : RecArea) (p : Nat) (c : Recorder) : c.setPos a p =
    { c with posCounter := (c.setPos a p).posCounter, posPower := (c.setPos a p).posPower, posFault := (c.setPos a p).posFault,
             posEvents := (c.setPos a p).posEvents } := by
  unfold Recorder.setPos
  split
  · rfl
  split
  · rfl
  split
  · rfl
  · rfl

namespace State

/-! #### Where the writer stands -/

/-- The next unit depends on the bytes of the NOR and on the sectors being erased. -/
theorem nextUnit_congr {s t : State} (hnor : t.nor = s.nor) (herasing : t.recorder.erasing = s.recorder.erasing) (a : RecArea)
    (n p : Nat) : t.nextUnit a n p = s.nextUnit a n p := by
  have herased : ∀ x k, t.norErased x k = s.norErased x k := fun x k => by rw [norErased, hnor, norErased]
  have hopen : ∀ sector, t.openable a sector = s.openable a sector := fun sector => by
    rw [openable, marked, hnor, herasing, herased, openable, marked]
  induction n generalizing p with
  | zero => rfl
  | succ n ih => simp only [nextUnit, hopen, herased, ih]

section
variable (s : State) (dt : Nat)

theorem advance_recorder_fields : (s.advance dt).recorder.queue = s.recorder.queue
    ∧ (s.advance dt).recorder.erasing = s.recorder.erasing ∧ (s.advance dt).recorder.lostPending = s.recorder.lostPending
    ∧ (s.advance dt).recorder.nextSeq = s.recorder.nextSeq ∧ (s.advance dt).recorder.waiting = s.recorder.waiting
    ∧ (s.advance dt).recorder.frozenAt = s.recorder.frozenAt
    ∧ ∀ a, (s.advance dt).recorder.pos a = s.recorder.pos a := by
  obtain ⟨m, r, e⟩ := s.advance_recorder dt s.recorder rfl
  rw [e]
  exact ⟨rfl, rfl, rfl, rfl, rfl, rfl, fun _ => rfl⟩

theorem program_nor (a : Nat) (bs : List Byte) : (s.program a bs).nor = Memory.writeN erased s.nor a bs := rfl

/-- A record that is programmed takes its place and the next number; the queue is the caller's. -/
theorem recordAt_programs (a : RecArea) (p : Nat) (r : EventRec) :
    (s.recordAt a p r).nor = Memory.writeN erased (Memory.writeN erased s.nor (a.addr p + 1) (r.bytes s.recorder)) (a.addr p) [0xA5]
      ∧ (s.recordAt a p r).recorder.nextSeq = s.recorder.nextSeq + 1 := by
  have hnor : (s.programRecord a p r).nor
      = Memory.writeN erased (Memory.writeN erased s.nor (a.addr p + 1) (r.bytes s.recorder)) (a.addr p) [0xA5] := by
    simp only [programRecord, modRec_nor, program_nor]
  have hseq : (s.programRecord a p r).recorder.nextSeq = s.recorder.nextSeq + 1 := by
    show (({ s.recorder with nextSeq := s.recorder.nextSeq + 1 } : Recorder).setPos a _).nextSeq = _
    rw [Recorder.setPos_eq]
  have heq : s.recordAt a p r = if p % a.per = 1 then
      (s.programRecord a p r).modRec fun c => { c with erasing := addTo c.erasing (a.after (a.first + p / a.per)) }
    else s.programRecord a p r := rfl
  rw [heq]
  by_cases h : p % a.per = 1
  · rw [if_pos h]
    exact ⟨(modRec_nor _ _).trans hnor, hseq⟩
  · rw [if_neg h]
    exact ⟨hnor, hseq⟩

end

/-- With the writer running, no LOST record waiting and no sector to open, the record at the head is programmed. -/
theorem recordWrite_head {s : State} {r : EventRec} {rest : List EventRec} (hruns : s.writerRuns = true)
    (hlost : s.recorder.lostPending = 0) (hqueue : s.recorder.queue = r :: rest)
    (hunit : s.nextUnit r.area (2 * r.area.per) (s.recorder.pos r.area) % r.area.per ≠ 0) :
    s.recordWrite = (s.recordAt r.area (s.nextUnit r.area (2 * r.area.per) (s.recorder.pos r.area)) r).modRec
      fun c => { c with queue := rest } := by
  have hnone : s.lostRecord = none := if_neg (by simp [hlost])
  have hsame : s.modRec (fun c => { c with lostPending := 0 }) = s := by
    unfold modRec
    rw [← hlost]
  unfold recordWrite
  rw [if_neg (by simp [hruns]), hnone, hsame, ite_self]
  dsimp only
  rw [hqueue]
  dsimp only
  rw [tryRecord, if_neg hunit]

end State

theorem exec_recordWrite (dt : Nat) (s : State) : exec (.recordWrite dt) s = s.finish dt (s.advance dt).recordWrite := rfl
theorem exec_coalesceExpiry (dt code die sub : Nat) (s : State) :
    exec (.coalesceExpiry dt code die sub) s = s.finish dt ((s.advance dt).coalesceExpiry code die sub) := rfl
theorem exec_counterEntry (dt : Nat) (s : State) : exec (.counterEntry dt) s = s.finish dt (s.advance dt).counterDue := rfl
theorem exec_sectorEraseDone (dt sector : Nat) (s : State) :
    exec (.sectorEraseDone dt sector) s = s.finish dt ((s.advance dt).sectorEraseDone sector) := rfl

/-- Settles O33: the writer programs the head of the queue where its area's ring stands. -/
theorem recordsAreWrittenInOrder : Obligations.RecordsAreWrittenInOrder := by
  unfold Obligations.RecordsAreWrittenInOrder
  intro dt s r rest hruns hlost hqueue p hp
  obtain ⟨hqueue', herasing, hlost', hseq, -, -, hpos⟩ := s.advance_recorder_fields dt
  have hunit : (s.advance dt).nextUnit r.area (2 * r.area.per) ((s.advance dt).recorder.pos r.area) = p := by
    rw [hpos]
    exact State.nextUnit_congr (s.advance_nor dt) herasing _ _ _
  have heq := State.recordWrite_head (s := s.advance dt) (by simpa using hruns) (hlost'.trans hlost) (hqueue'.trans hqueue)
    (by rw [hunit]; exact hp)
  obtain ⟨hnor, hnext⟩ := (s.advance dt).recordAt_programs r.area p r
  have hlogs := (s.advance dt).recordAt_logs r.area p r
  rw [hunit] at heq
  refine ⟨_, (exec_recordWrite dt s).trans (congrArg _ heq), rfl, hnext.trans (congrArg (· + 1) hseq), ?_,
    hlogs.hbm.trans (s.advance_hbm dt), hlogs.regs.trans (s.advance_regs dt)⟩
  rw [s.advance_nor] at hnor
  exact hnor

/-! #### Coalesced records -/

namespace State

/-- A held record alone of its kind joins the queue once its second is over. -/
theorem coalesceExpiry_joins {s : State} {r : EventRec} (hr : r ∈ s.recorder.waiting)
    (honly : ∀ x ∈ s.recorder.waiting, x.same r = true → x = r) (hdue : r.firstAt + 1000000000 ≤ s.now)
    (hroom : s.recorder.queue.length < 4096) : s.coalesceExpiry r.code r.die r.sub = s.modRec fun c =>
      { c with waiting := c.waiting.filter fun x => !x.same r, queue := c.queue ++ [r] } := by
  have hfind : (s.recorder.waiting.find? fun x => x.code == r.code && x.die == r.die && x.sub == r.sub) = some r := by
    cases h : s.recorder.waiting.find? fun x => x.code == r.code && x.die == r.die && x.sub == r.sub with
    | none => simpa using List.find?_eq_none.mp h r hr
    | some x =>
      have hsame := List.find?_some h
      exact congrArg some (honly x (List.mem_of_find?_eq_some h) hsame)
  unfold coalesceExpiry
  rw [hfind]
  dsimp only
  rw [if_pos hdue]
  exact if_pos hroom

/-! #### Counter entries -/

/-- The sector of a unit is opened where the unit is its first: it is erased, and the next unit taken. -/
def openedFor (p : Nat) (s : State) : State := if p % areaCounters.per = 0 then s.eraseNow (p / areaCounters.per) else s

/-- The unit that an entry then takes. -/
def entryUnit (p : Nat) : Nat := if p % areaCounters.per = 0 then p + 1 else p

/-- A counter entry written at a unit. -/
def entryAt (q : Nat) (clean : Bool) (s : State) : State :=
  (((s.program (areaCounters.addr q + 1) (s.counterBytes clean)).program (areaCounters.addr q) [0xA5])).modRec fun c =>
    { c with posCounter := (q + 1) % (2 * areaCounters.per), lastCounterMs := c.opMs, entryDue := false }

section
variable (s : State)

theorem counterEntry_eq (clean : Bool) : let p := s.nextUnit areaCounters (2 * areaCounters.per) s.recorder.posCounter
    s.counterEntry clean = if entryUnit p % areaCounters.per = 1
      then (entryAt (entryUnit p) clean (openedFor p s)).modRec fun c =>
        { c with erasing := addTo c.erasing (1 - entryUnit p / areaCounters.per) }
      else entryAt (entryUnit p) clean (openedFor p s) := by
  intro p
  have hsplit : ∀ (c : Prop) [Decidable c] (q : Nat), (if c then (s.eraseNow (q / areaCounters.per), q + 1) else (s, q))
      = (if c then s.eraseNow (q / areaCounters.per) else s, if c then q + 1 else q) := by
    intro c _ q
    split
    · rfl
    · rfl
  unfold counterEntry
  extract_lets a q
  rw [hsplit]
  rfl

theorem openedFor_recorder (p : Nat) : ∃ l, (openedFor p s).recorder = { s.recorder with erasing := l } := by
  unfold openedFor
  split
  · exact ⟨_, rfl⟩
  · exact ⟨_, rfl⟩

theorem counterEntry_writes (clean : Bool) :
    let p := s.nextUnit areaCounters (2 * areaCounters.per) s.recorder.posCounter
    (s.counterEntry clean).recorder.lastCounterMs = s.recorder.opMs
      ∧ (s.counterEntry clean).nor = Memory.writeN erased (Memory.writeN erased (openedFor p s).nor
          (areaCounters.addr (entryUnit p) + 1) (s.counterBytes clean)) (areaCounters.addr (entryUnit p)) [0xA5]
      ∧ (s.counterEntry clean).recorder.posCounter = (entryUnit p + 1) % (2 * areaCounters.per)
      ∧ (s.counterEntry clean).recorder.queue = s.recorder.queue := by
  intro p
  obtain ⟨l, hrecorder⟩ := s.openedFor_recorder p
  have hbytes : (openedFor p s).counterBytes clean = s.counterBytes clean := by
    simp only [counterBytes, hrecorder]
  have hentry : (entryAt (entryUnit p) clean (openedFor p s)).nor = Memory.writeN erased (Memory.writeN erased (openedFor p s).nor
      (areaCounters.addr (entryUnit p) + 1) (s.counterBytes clean)) (areaCounters.addr (entryUnit p)) [0xA5] := by
    rw [← hbytes]
    simp only [entryAt, modRec_nor, program_nor]
  have hms : (openedFor p s).recorder.opMs = s.recorder.opMs := by rw [hrecorder]
  have hqueue : (openedFor p s).recorder.queue = s.recorder.queue := by rw [hrecorder]
  rw [counterEntry_eq]
  split
  · exact ⟨hms, (modRec_nor _ _).trans hentry, rfl, hqueue⟩
  · exact ⟨hms, hentry, rfl, hqueue⟩

theorem counterDue_of_due {s : State} (hruns : s.writerRuns = true)
    (hdue : s.recorder.lastCounterMs + 60000 ≤ s.recorder.opMs) : s.counterDue = s.counterEntry false :=
  if_pos ⟨hruns, .inr hdue⟩

/-! #### Erased sectors -/

/-- The pass count that an erase as the ring comes round writes. -/
def nextPass (sector : Nat) (s : State) : Nat := if s.marked sector then leNat (s.norBytes (sector * 65536 + 4) 4) + 1 else 0

/-- An erased sector's bytes: the mark, its area and its pass count; the rest erased; other sectors as before. -/
theorem eraseSector_get (sector a : Nat) : Memory.get erased (s.eraseSector sector true).nor a =
    if a < sector * 65536 ∨ (sector + 1) * 65536 ≤ a then Memory.get erased s.nor a
    else if a = sector * 65536 then 0xA5
    else if a = sector * 65536 + 1 then BitVec.ofNat 8 (areaOfSector sector).number
    else if sector * 65536 + 4 ≤ a ∧ a < sector * 65536 + 8 then (leBytes 4 (nextPass sector s)).getD (a - (sector * 65536 + 4)) 0
    else 0xFF := by
  have hnor : (s.eraseSector sector true).nor = Memory.writeN erased (Memory.writeN erased (Memory.writeN erased
      (Memory.clear s.nor (sector * 65536) ((sector + 1) * 65536)) (sector * 65536 + 1)
        [BitVec.ofNat 8 (areaOfSector sector).number]) (sector * 65536 + 4) (leBytes 4 (nextPass sector s)))
      (sector * 65536) [0xA5] := by
    simp only [eraseSector, program_nor, nextPass, if_true]
  have hlen : (leBytes 4 (nextPass sector s)).length = 4 := rfl
  rw [hnor, Memory.get_writeN, Memory.get_writeN, Memory.get_writeN, Memory.get_clear, hlen]
  rw [List.length_singleton, List.length_singleton, Nat.add_mul, Nat.one_mul]
  generalize sector * 65536 = base
  by_cases hout : a < base ∨ base + 65536 ≤ a
  · rw [if_pos hout, if_neg (by omega), if_neg (by omega), if_neg (by omega), if_neg (by omega)]
  rw [if_neg hout]
  by_cases hmark : a = base
  · rw [if_pos (by omega), if_pos hmark, hmark, Nat.sub_self]
    rfl
  rw [if_neg (by omega), if_neg hmark]
  by_cases harea : a = base + 1
  · rw [if_neg (by omega), if_pos (by omega), if_pos harea, harea, Nat.sub_self]
    rfl
  rw [if_neg harea]
  by_cases hpass : base + 4 ≤ a ∧ a < base + 4 + 4
  · rw [if_pos hpass, if_pos hpass]
  · rw [if_neg hpass, if_neg (by omega), if_pos (by omega), if_neg hpass]
    rfl

/-- The pass count reads back. -/
theorem eraseSector_pass (sector : Nat) :
    leNat ((s.eraseSector sector true).norBytes (sector * 65536 + 4) 4) = nextPass sector s % 2 ^ 32 := by
  have hbytes : (s.eraseSector sector true).norBytes (sector * 65536 + 4) 4 = leBytes 4 (nextPass sector s) := by
    refine List.ext_getElem (by simp [norBytes, leBytes]) fun i hi _ => ?_
    have h4 : i < 4 := by simpa [norBytes] using hi
    have hget : Memory.get erased (s.eraseSector sector true).nor (sector * 65536 + 4 + i)
        = (leBytes 4 (nextPass sector s)).getD i 0 := by
      rw [eraseSector_get, if_neg (by omega), if_neg (by omega), if_neg (by omega), if_pos (by omega), Nat.add_sub_cancel_left]
    simp only [norBytes, Memory.readN, List.getElem_map, List.getElem_range, hget]
    exact List.getD_eq_getElem _ _ _
  exact (congrArg leNat hbytes).trans (leNat_leBytes _ _)

theorem sectorEraseDone_ahead {s : State} {n : Nat} (hlive : s.live 95 = true) (hthaw : s.regBits Reg.recStatus 2 2 = 0)
    (herasing : n ∈ s.recorder.erasing) : s.sectorEraseDone n = ((s.eraseSector n true).modRec fun c =>
      { c with erasing := dropFrom c.erasing n, clearing := dropFrom c.clearing n }).showErasing := by
  unfold sectorEraseDone
  rw [if_neg (by simp [hlive, hthaw])]
  exact if_pos herasing

end

end State

/-- Settles O34: a second for a held record, a minute of operating time for an entry, and the erase of a sector. -/
theorem theRecorderKeepsTime : Obligations.TheRecorderKeepsTime := by
  unfold Obligations.TheRecorderKeepsTime
  intro dt s
  obtain ⟨hqueue, herasing, -, -, hwaiting, -, -⟩ := s.advance_recorder_fields dt
  refine ⟨fun r hr honly hdue hroom => ?coalesced, fun hruns hdue => ?entry, fun n hn hlive hthaw hn' => ?erased⟩
  case coalesced =>
    have heq := State.coalesceExpiry_joins (s := s.advance dt) (r := r) (by rwa [hwaiting]) (by rwa [hwaiting])
      (by rwa [s.advance_now]) (by rwa [hqueue])
    exact ⟨_, (exec_coalesceExpiry dt _ _ _ s).trans (congrArg _ heq), congrArg (· ++ [r]) hqueue,
      congrArg (List.filter _) hwaiting, s.advance_nor dt, s.advance_regs dt⟩
  case entry =>
    intro w p v q
    obtain ⟨hms, hnor, hpos, hkept⟩ := w.counterEntry_writes false
    have hlogs := w.counterEntry_logs false
    exact ⟨_, (exec_counterEntry dt s).trans (congrArg _ (State.counterDue_of_due hruns hdue)), hms, hnor, hpos,
      hkept.trans hqueue, hlogs.regs.trans (s.advance_regs dt), hlogs.hbm.trans (s.advance_hbm dt)⟩
  case erased =>
    have heq := State.sectorEraseDone_ahead (s := s.advance dt) (n := n) (by simpa using hlive) (by simpa using hthaw)
      (by rwa [herasing])
    have hget := fun a => (s.advance dt).eraseSector_get n a
    have hpass := (s.advance dt).eraseSector_pass n
    rw [s.advance_nor] at hget
    refine ⟨_, (exec_sectorEraseDone dt n s).trans (congrArg _ heq), ?_, ?_, fun a ha => ?_, ?_, ?_, fun a hlo hhi ha => ?_⟩
    · show n ∉ dropFrom _ n
      simp [mem_dropFrom]
    · refine beq_iff_eq.mpr ((hget _).trans ?_)
      rw [if_neg (by omega), if_pos rfl]
    · exact (hget a).trans (if_pos ha)
    · refine (hget _).trans ?_
      rw [if_neg (by omega), if_neg (by omega), if_pos rfl]
    · refine hpass.trans ?_
      simp only [State.nextPass, s.advance_marked, s.advance_norBytes]
      split
      · rfl
      · rfl
    · refine (hget a).trans ?_
      rw [if_neg (by omega), if_neg (by omega), if_neg (by omega), if_neg (by omega)]

end Sys2Proof.Machine
end

section
/-! ### Freezing the recorder (R411) -/

namespace Sys2Proof.Machine

theorem Recorder.hold_frozenAt (r : EventRec) (c : Recorder) : (c.hold r).frozenAt = c.frozenAt := by
  unfold Recorder.hold
  split
  · rfl
  · rfl

theorem Recorder.holdK1_frozenAt (r : EventRec) (c : Recorder) : (c.holdK1 r).frozenAt = c.frozenAt := by
  unfold Recorder.holdK1
  split
  · rfl
  · rfl

namespace State

section
variable (s : State)

theorem fireVector_recorder (v : Nat) : (s.fireVector v).recorder = s.recorder := by
  unfold fireVector
  dsimp only
  split
  · split
    · rfl
    · rfl
  · rfl

theorem setEvent_recorder (e : EvSrc) (b : Nat) : (s.setEvent e b).recorder = s.recorder := by
  unfold setEvent
  dsimp only
  split
  · exact fireVector_recorder _ 0
  · rfl

theorem noteInfo_frozenAt (e : EvSrc) (b : Nat) : (s.noteInfo e b).recorder.frozenAt = s.recorder.frozenAt := by
  unfold noteInfo
  extract_lets t r
  have ht : t.recorder.frozenAt = s.recorder.frozenAt := congrArg _ (s.setEvent_recorder e b)
  refine .trans ?_ ht
  split
  · exact Recorder.holdK1_frozenAt _ _
  split
  · rfl
  split
  · rfl
  · exact Recorder.hold_frozenAt _ _

theorem routeRecord_frozenAt (r : EventRec) : (s.routeRecord r).recorder.frozenAt = s.recorder.frozenAt := by
  unfold routeRecord
  split
  · exact Recorder.holdK1_frozenAt _ _
  split
  · rfl
  split
  · rfl
  split
  · exact Recorder.hold_frozenAt _ _
  split
  · rfl
  · exact noteInfo_frozenAt _ _ _

/-- An event that is recorded leaves a freeze as it is. -/
theorem raise_frozenAt (e : EvSrc) (b : Nat) : (s.raise e b).recorder.frozenAt = s.recorder.frozenAt := by
  unfold raise raiseAt note
  extract_lets t u
  have ht : t.recorder.frozenAt = s.recorder.frozenAt := congrArg _ (s.setEvent_recorder e b)
  have hu : u.recorder.frozenAt = t.recorder.frozenAt := by
    unfold u
    split
    · exact noteInfo_frozenAt _ _ _
    · rfl
  exact (routeRecord_frozenAt _ _).trans (hu.trans ht)

end

/-! #### The three ways of REC_CTRL and its time -/

/-- FROZEN shows. -/
def frozen (s : State) : Nat := s.regBits Reg.recStatus 2 2

theorem setField_frozen (s : State) {v : Nat} (h : v < 2) : (s.setField Reg.recStatus 2 2 v).frozen = v :=
  (regBits_setField s Reg.recStatus 2 2 v (by decide) (by decide)).trans (Nat.mod_eq_of_lt h)

theorem modRec_frozen (s : State) (f : Recorder → Recorder) : (s.modRec f).frozen = s.frozen := rfl

theorem unfreeze_frozen (s : State) : s.unfreeze.frozen = 0 := by
  rw [unfreeze, modRec_frozen]
  exact s.setField_frozen (by decide)

theorem writerRuns_of_frozen {s : State} (h : s.frozen = 1) : s.writerRuns = false := by
  unfold frozen at h
  simp [writerRuns, h]

/-- What the end of a command leaves of its effect on the recorder. -/
theorem finish_recorder (s : State) (dt : Nat) (u : State) : ∃ t, s.finish dt u = .next t ∧ t.regs = u.regs
    ∧ t.recorder = u.recorder ∧ t.nor = u.nor ∧ t.emitted = u.emitted := ⟨_, rfl, rfl, rfl, rfl, rfl⟩

theorem frozen_congr {s t : State} (h : t.regs = s.regs) : t.frozen = s.frozen := by
  rw [frozen, regBits, reg, h]
  rfl

section
variable {s : State}

theorem recCtrl_freezes {new : Nat} (hnew : bitOf new 0 = true) (hthaw : s.frozen = 0) : s.recCtrl new =
    ((s.setReg Reg.recCtrl new).setField Reg.recStatus 2 2 1).modRec fun c => { c with frozenAt := some s.now } := by
  have hsame : (s.setReg Reg.recCtrl new).frozen = 0 :=
    (regBits_congr (reg_setReg_ne _ _ _ _ (show Reg.recStatus ≠ Reg.recCtrl by decide)) 2 2).trans hthaw
  unfold recCtrl
  rw [if_pos hnew]
  exact if_neg (by rw [frozen] at hsame; rw [hsame]; decide)

theorem recCtrl_frozen {new : Nat} (hnew : bitOf new 0 = true) (hthaw : s.frozen = 0) : (s.recCtrl new).frozen = 1
    ∧ (s.recCtrl new).recorder.frozenAt = some s.now ∧ (s.recCtrl new).nor = s.nor := by
  rw [recCtrl_freezes hnew hthaw]
  refine ⟨?_, rfl, rfl⟩
  rw [modRec_frozen]
  exact setField_frozen _ (by decide)

theorem recCtrl_thaws {new : Nat} (hnew : bitOf new 0 = false) : s.recCtrl new = (s.setReg Reg.recCtrl new).unfreeze :=
  if_neg (by simp [hnew])

theorem freezeForced_ends {f : Nat} (hfrozen : s.recorder.frozenAt = some f)
    (hover : f + s.regBits Reg.recFreeze 23 0 * 1000000 ≤ s.now) :
    s.freezeForced = ((s.setField Reg.recCtrl 0 0 0).unfreeze).raise .recd 0 := by
  unfold freezeForced
  rw [hfrozen]
  exact if_pos (.inr hover)

/-- A freeze that its time ends is over, and the event is set. -/
theorem freezeForced_thaws {f : Nat} (hfrozen : s.recorder.frozenAt = some f)
    (hover : f + s.regBits Reg.recFreeze 23 0 * 1000000 ≤ s.now) : s.freezeForced.frozen = 0
      ∧ s.freezeForced.recorder.frozenAt = none ∧ bitOf (s.freezeForced.reg Reg.recEvents) 0 = true
      ∧ s.freezeForced.nor = s.nor := by
  rw [freezeForced_ends hfrozen hover]
  refine ⟨?_, (raise_frozenAt _ _ _).trans rfl, raise_sets _ .recd 0 (by decide) (by decide), (raise_only _ _ _).nor⟩
  have hstatus : ∀ u : State, (u.raise .recd 0).frozen = u.frozen := fun u =>
    regBits_congr ((raise_reg u .recd 0 _ (by decide)).trans (if_neg (show Reg.recStatus ≠ Reg.recEvents by decide))) 2 2
  exact (hstatus _).trans (unfreeze_frozen _)

/-! #### The window -/

section
variable {off : Nat} {wide : Bool} (halign : off % (if wide then 8 else 4) = 0) (hoff : off < 65536)
  (hlive : s.live 95 = true)
include halign hoff hlive

theorem windowRead_frozen (h : s.frozen = 1) : s.windowRead off wide = s.emit (.windowRead (BitVec.ofNat 64 (leNat
    (s.norBytes (s.regBits Reg.recWindow 8 0 * 65536 + off) (if wide then 8 else 4))))) := by
  unfold windowRead
  extract_lets n ones
  rw [if_neg (by simp only [n]; omega), if_neg (by simp [hlive])]
  exact if_pos h

theorem windowRead_thawed (h : s.frozen ≠ 1) : s.windowRead off wide = (s.raise .recd 1).emit (.windowRead
    (if wide then 0xFFFFFFFFFFFFFFFF else 0xFFFFFFFF)) := by
  unfold windowRead
  extract_lets n ones
  rw [if_neg (by simp only [n]; omega), if_neg (by simp [hlive])]
  refine (if_neg h).trans ?_
  cases wide
  · rfl
  · rfl

end

end

end State

theorem exec_freeze (dt : Nat) (v : Word) (s : State) : exec (.freeze dt v) s = s.finish dt
    (State.barWith (fun _ _ new _ s => s.recCtrl new) Reg.recCtrl false v.toNat (s.advance dt)) := rfl
theorem exec_unfreeze (dt : Nat) (v : Word) (s : State) : exec (.unfreeze dt v) s = s.finish dt
    (State.barWith (fun _ _ new _ s => s.recCtrl new) Reg.recCtrl false v.toNat (s.advance dt)) := rfl
theorem exec_freezeForced (dt : Nat) (s : State) : exec (.freezeForced dt) s = s.finish dt (s.advance dt).freezeForced := rfl
theorem exec_recorderWindowRead (dt off : Nat) (wide : Bool) (s : State) :
    exec (.recorderWindowRead dt off wide) s = s.finish dt ((s.advance dt).windowRead off wide) := rfl

/-- Settles O35: a write of REC_CTRL freezes or thaws, time thaws, and the window answers by FROZEN. -/
theorem freezingOpensTheWindow : Obligations.FreezingOpensTheWindow := by
  unfold Obligations.FreezingOpensTheWindow
  intro dt s
  have hstatus : (s.advance dt).frozen = s.frozen := s.advance_regBits dt _ _ _
  have htakes : ∀ (v : Word) r old new, s.barTakes Reg.recCtrl false v.toNat = some (r, old, new) →
      State.barWith (fun _ _ new _ s => s.recCtrl new) Reg.recCtrl false v.toNat (s.advance dt) = (s.advance dt).recCtrl new :=
    fun v r old new h => State.barWith_takes _ _ _ _ _ _ _ _ ((s.advance_barTakes dt _ _ _).trans h)
  obtain ⟨-, -, -, -, -, hfrozenAt, -⟩ := s.advance_recorder_fields dt
  refine ⟨fun v r old new h hnew hthaw => ?freeze, fun v r old new h hnew => ?unfreeze, fun f hfrozen hover => ?forced,
    fun off wide halign hoff hlive => ⟨fun hfrozen => ?window, fun hthaw => ?closed⟩⟩
  case freeze =>
    obtain ⟨hfrozen, hsince, hnor⟩ := State.recCtrl_frozen hnew (hstatus.trans hthaw)
    obtain ⟨t, ht, hregs, hrecorder, htnor, -⟩ := s.finish_recorder dt ((s.advance dt).recCtrl new)
    have hshown := (State.frozen_congr hregs).trans hfrozen
    rw [exec_freeze, htakes v r old new h]
    exact ⟨t, ht, hshown, (congrArg _ hrecorder).trans (hsince.trans (congrArg some (s.advance_now dt))),
      State.writerRuns_of_frozen hshown, htnor.trans (hnor.trans (s.advance_nor dt))⟩
  case unfreeze =>
    have heq := State.recCtrl_thaws (s := s.advance dt) hnew
    obtain ⟨t, ht, hregs, hrecorder, htnor, -⟩ := s.finish_recorder dt ((s.advance dt).setReg Reg.recCtrl new).unfreeze
    rw [exec_unfreeze, htakes v r old new h, heq]
    exact ⟨t, ht, (State.frozen_congr hregs).trans (State.unfreeze_frozen _), congrArg _ hrecorder,
      htnor.trans (s.advance_nor dt)⟩
  case forced =>
    obtain ⟨hthawed, hnone, hevent, hnor⟩ := State.freezeForced_thaws (s := s.advance dt) (hfrozenAt.trans hfrozen)
      (by simpa using hover)
    obtain ⟨t, ht, hregs, hrecorder, htnor, -⟩ := s.finish_recorder dt (s.advance dt).freezeForced
    refine ⟨t, (exec_freezeForced dt s).trans ht, (State.frozen_congr hregs).trans hthawed, (congrArg _ hrecorder).trans hnone, ?_,
      htnor.trans (hnor.trans (s.advance_nor dt))⟩
    rw [State.reg, hregs]
    exact hevent
  case window =>
    have heq := State.windowRead_frozen halign hoff ((s.advance_live dt 95).trans hlive) (hstatus.trans hfrozen)
    obtain ⟨t, ht, hregs, -, htnor, hemitted⟩ := s.finish_recorder dt ((s.advance dt).windowRead off wide)
    rw [heq] at hregs htnor hemitted
    refine ⟨t, (exec_recorderWindowRead dt off wide s).trans ht, hemitted.trans ?_, hregs.trans (s.advance_regs dt),
      htnor.trans (s.advance_nor dt)⟩
    rw [s.advance_norBytes, s.advance_regBits]
    exact congrArg _ (s.advance_emitted dt)
  case closed =>
    have heq := State.windowRead_thawed halign hoff ((s.advance_live dt 95).trans hlive) fun h => hthaw (hstatus.symm.trans h)
    obtain ⟨t, ht, hregs, -, htnor, hemitted⟩ := s.finish_recorder dt ((s.advance dt).windowRead off wide)
    rw [heq] at hregs htnor hemitted
    refine ⟨t, (exec_recorderWindowRead dt off wide s).trans ht, ?_, ?_, ?_⟩
    · rw [hemitted]
      rfl
    · rw [State.reg, hregs, State.emit_regs]
      exact State.raise_sets (s.advance dt) .recd 1 (by decide) (by decide)
    · rw [htnor, State.emit_nor, (State.raise_only _ _ _).nor, s.advance_nor]

end Sys2Proof.Machine
end

section
/-! ### Containment of a die that is contained already (R417) -/

namespace Sys2Proof.Machine

/-- Link die 56 is contained and has been missed three times; far port 0, a port of that die, is UP and has gone DOWN once,
where FLAP_LIMIT is 1. -/
def flappingContained : State :=
  { State.reset with
    inputOk := true
    sources := [containSource 56 0]
    accessMisses := [(56, 3)]
    regs := [(Reg.fpStatus 0, 2), (Reg.errCtrl, 1)]
    farPorts := { State.reset.fport 0 with downs := [0] } :: State.reset.farPorts.tail }

theorem exec_controlAccessTimeout (dt die : Nat) (answered : Bool) (s : State) :
    exec (.controlAccessTimeout dt die answered) s = s.finish dt ((s.advance dt).accessTimeout die answered) := rfl

theorem State.sources_of_finish {s t u : State} {dt : Nat} (h : s.finish dt t = .next u) : u.sources = t.sources := by
  cases h
  rfl

/-- The fourth miss looks at the ports of the die's blocks although the die is contained already, and contains the port that
has gone DOWN too often: a second source asserts. -/
theorem flappingContained_sources :
    ((flappingContained.advance 0).accessTimeout 56 false).sources.map (fun r => (r.cause, r.kind, r.index))
      = [(0x41, 3, 0), (0x31, 5, 0)] := by
  decide +kernel

/-- Refutes O32: its clause for the fourth miss in a row of a die that is contained already keeps every source, in any state.
In a state whose contained link die has an UP port at FLAP_LIMIT the same command contains that port, so that the sources (and
ERR_CONTAIN_PORT) change. -/
theorem not_errorsCountAndAreContained : ¬ Obligations.ErrorsCountAndAreContained := by
  unfold Obligations.ErrorsCountAndAreContained
  rintro ⟨-, hcontains⟩
  obtain ⟨hmisses, -⟩ := hcontains 0 flappingContained
  obtain ⟨-, hagain⟩ := hmisses 56 rfl (by decide) (by decide)
  obtain ⟨t, hexec, -, hsources, -⟩ := hagain (by decide)
  have hmap := flappingContained_sources
  rw [← State.sources_of_finish ((exec_controlAccessTimeout 0 56 false flappingContained).symm.trans hexec), hsources] at hmap
  exact absurd hmap (by decide)

end Sys2Proof.Machine
end

section
/-! ### Requests of domains (R383 to R385) -/

namespace Sys2Proof.Machine

/-! #### The requests as completed -/

/-- A hub's PHY follows its logic; every other bit stays. -/
theorem followPhy_testBit {lo n : Nat} (hn : n ≤ 8) (i : Nat) :
    ((List.range n).foldl (fun v j => putBits v (56 + j) (56 + j) (bitsOf v (48 + j) (48 + j))) lo).testBit i
      = if 56 ≤ i ∧ i < 56 + n then lo.testBit (i - 8) else lo.testBit i := by
  induction n generalizing i with
  | zero => rw [if_neg (by omega)]; rfl
  | succ n ih =>
    have ih := ih (by omega)
    rw [List.range_succ, List.foldl_append, List.foldl_cons, List.foldl_nil, putBits_testBit _ _ _ _ _ (Nat.le_refl _),
      bitsOf_testBit, ih, ih]
    by_cases hi : i = 56 + n
    · subst hi
      rw [if_neg (by omega), if_pos (Nat.le_refl _), if_neg (by omega), if_pos (by omega)]
      have hbit : 48 + n + (56 + n - (56 + n)) = 56 + n - 8 := by omega
      rw [hbit]
      simp
    · by_cases hlow : i < 56 + n
      · rw [if_pos hlow]
        exact if_congr (by omega) rfl rfl
      · rw [if_neg hlow, if_neg (by omega)]
        exact if_congr (by omega) rfl rfl

/-- Bits of a list cleared one after the other. -/
theorem clearBits_testBit (l : List Nat) (v i : Nat) :
    (l.foldl (fun v i => putBits v i i 0) v).testBit i = (v.testBit i && !decide (i ∈ l)) := by
  induction l generalizing v with
  | nil => simp
  | cons k l ih =>
    rw [List.foldl_cons, ih, putBits_testBit _ _ _ _ _ (Nat.le_refl _)]
    by_cases hk : i = k
    · subst hk
      simp
    · have hmid : ¬ (¬ i < k ∧ i ≤ k) := by omega
      by_cases hlow : i < k
      · simp [hlow, hk]
      · rw [if_neg hlow, if_neg fun h => hmid ⟨hlow, h⟩]
        simp [hk]

/-- The ports whose core is not requested. -/
def coreless (hi : Nat) : List Nat := (List.range 18).filter fun i => match coreOf (64 + i) with
  | some c => !bitOf hi (c - 64)
  | none => false

theorem mem_coreless {hi i c : Nat} (h : i < 18) (hc : coreOf (64 + i) = some c) : i ∈ coreless hi ↔ bitOf hi (c - 64) = false := by
  simp [coreless, h, hc]

theorem completeEn_hi_testBit (lo hi i : Nat) :
    (completeEn lo hi).2.testBit i = if 28 ≤ i ∧ i < 32 then true else (hi.testBit i && !decide (i ∈ coreless hi)) := by
  have heq : (completeEn lo hi).2 = putBits ((coreless hi).foldl (fun v i => putBits v i i 0) hi) 31 28 0xF := rfl
  rw [heq, putBits_testBit _ _ _ _ _ (by decide), clearBits_testBit]
  by_cases hlow : i < 28
  · rw [if_pos hlow, if_neg (by omega)]
  rw [if_neg hlow]
  by_cases hhigh : i ≤ 31
  · rw [if_pos hhigh, if_pos (by omega)]
    obtain rfl | rfl | rfl | rfl : i = 28 ∨ i = 29 ∨ i = 30 ∨ i = 31 := by omega
    all_goals decide
  · rw [if_neg hhigh, if_neg (by omega)]

namespace State

/-! #### What a power-off leaves of K1 -/

/-- A word of K1 that no power-off writes, the end of an episode included. -/
def offWord (a : Nat) : Prop := k1Word a ∧ a ≠ Reg.rstCause ∧ a ≠ Reg.rstCount ∧ a ≠ Reg.pwrStatus

theorem tryEnd_word (s : State) {a : Nat} (ha : offWord a) : s.tryEnd.reg a = s.reg a := by
  obtain ⟨hk1, hcause, hcount, hstatus⟩ := ha
  unfold tryEnd
  split
  · rfl
  · extract_lets s1 s2 s3
    have h1 : s1.reg a = s.reg a := by
      unfold s1
      split
      · exact reg_setReg_ne _ _ _ _ hcause
      · rfl
    have h2 : s2.reg a = s1.reg a := by
      unfold s2
      rw [reg_count, if_neg hcount]
    have h3 : s3.reg a = s2.reg a := rfl
    refine (dormantStep_reg _ hstatus).trans ?_
    exact ((detail_keepsK1 s3 _ _ _ _ _).word a hk1).trans (h3.trans (h2.trans h1))

/-- No source lets an episode end, or none is under way. -/
def NoEnd (s : State) : Prop := s.covered = [] ∨ s.sources ≠ []

theorem tryEnd_of_noEnd {s : State} (h : s.NoEnd) : s.tryEnd = s := by
  unfold tryEnd
  exact if_pos (.inr (h.elim .inl fun h => .inr (.inl h)))

theorem Keeps.noEnd {s t : State} (h : s.Keeps t) (g : s.NoEnd) : t.NoEnd := by
  unfold NoEnd
  rw [h.covered, h.sources]
  exact g

/-- A containment either leaves everything, or its source is asserted after it. -/
theorem containBase_noEnd {s : State} (h : s.NoEnd) (row : Nat) (r : ResetSource) (die sub : Nat) (w : List Byte) :
    (s.containBase row r die sub w).NoEnd := by
  unfold containBase
  extract_lets s1 s2 s3 s4
  split
  · exact h
  · have hmem : r ∈ s4.sources := by
      obtain ⟨-, -, hsources, -⟩ := assertBase_spec s3 r
      exact (hsources r).mpr (.inl rfl)
    split
    · exact .inr (List.ne_nil_of_mem hmem)
    · exact .inr (List.ne_nil_of_mem hmem)

theorem flapCheck_noEnd {s : State} (h : s.NoEnd) (x : Bool × Nat) : (s.flapCheck x).NoEnd := by
  unfold flapCheck
  extract_lets n limit
  split
  · exact containBase_noEnd h _ _ _ _ _
  · exact h

theorem flapChecks_noEnd {s : State} (h : s.NoEnd) (l : List (Bool × Nat)) : (l.foldl (fun s x => s.flapCheck x) s).NoEnd := by
  induction l generalizing s with
  | nil => exact h
  | cons x l ih => exact ih (flapCheck_noEnd h x)

/-- What a power-off of domains leaves of K1: most of its words and the domains that wait to go off; and where no episode
can end, the domains that wait to be switched on, but for its own. -/
structure PoweredOff (ds : List Nat) (s t : State) : Prop where
  word : ∀ a, offWord a → t.reg a = s.reg a
  noItems : s.items = [] → t.items = []
  switchOffs : t.switchOffs = s.switchOffs
  noEnd : s.NoEnd → t.NoEnd
  switchOns : s.NoEnd → t.switchOns = s.switchOns.filter fun b => !decide (b ∈ ds)

theorem tryEnd_switchOffs (s : State) : s.tryEnd.switchOffs = s.switchOffs ∧ s.tryEnd.items = s.items := by
  obtain ⟨c, b, l, w, u, e, h⟩ := s.tryEnd_spec
  rw [e]
  exact ⟨h.switchOffs, h.items⟩

theorem powerOff_poweredOff (s : State) {ds : List Nat} (hds : ∀ b ∈ ds, b < 96) : PoweredOff ds s (s.powerOff ds) := by
  unfold powerOff switchOff offBase
  extract_lets hit s1 s2
  have h1 : s.KeepsK1 s1 := (s.dropQuiet_keepsK1 _).trans (closeCrossings_keepsK1 _ _)
  have k1 : s.Keeps s1 := (s.dropQuiet_keeps _).trans (closeCrossings_keeps _ _)
  have hlost := loseBlocks_keepsK1 s2 false (l := hit) fun x hx => hds x (List.mem_filter.mp hx).1
  have klost := loseBlocks_keeps s2 false hit
  have hflaps := flapChecks_keepsK1 (s2.loseBlocks false hit).tryEnd
    (portsTaken_lt (s.dropQuiet (ds.filter fun b => s.counts b))
      (ds.filter fun b => (s.dropQuiet (ds.filter fun b => s.counts b)).counts b))
  have hnoEnd : s.NoEnd → (s2.loseBlocks false hit).NoEnd := fun h => klost.noEnd (show s2.NoEnd from k1.noEnd h)
  refine ⟨fun a ha => ?_, fun h => ?_, ?_, fun h => ?_, fun h => ?_⟩
  · exact ((hflaps.word a ha.1).trans (tryEnd_word _ ha)).trans ((hlost.word a ha.1).trans (h1.word a ha.1))
  · exact hflaps.noItems ((tryEnd_switchOffs _).2.trans (hlost.noItems (h1.noItems h)))
  · exact (hflaps.switchOffs.trans (tryEnd_switchOffs _).1).trans (hlost.switchOffs.trans h1.switchOffs)
  · refine flapChecks_noEnd ?_ _
    rw [tryEnd_of_noEnd (hnoEnd h)]
    exact hnoEnd h
  · refine hflaps.switchOns.trans ?_
    rw [tryEnd_of_noEnd (hnoEnd h), hlost.switchOns]
    exact congrArg (List.filter _) h1.switchOns

/-! #### SETTLE: the domains that may go off do so one after the other -/

/-- A domain goes off with its group, unless it is booked, a port behind it is not off, or it waits no more. -/
def settleStep (s : State) (b : Nat) : State :=
  if (faultGroup b).any s.domainBooked || (((List.range 18).map (64 + ·)).any fun p => coreOf p == some b && s.counts p)
      || !decide (b ∈ s.switchOffs) then s
  else State.powerOff (faultGroup b) { s with switchOffs := s.switchOffs.filter fun x => !decide (x ∈ faultGroup b) }

/-- The domains that wait to go off: those that are on their way or on, and not requested. -/
def waitingOffs (s : State) : State := { s with switchOffs := s.switchOffs.filter fun b => s.counts b && !s.requested b }

theorem settleOffs_eq (s : State) :
    s.settleOffs = (blockOrder.reverse.filter (· ∈ s.waitingOffs.switchOffs)).foldl settleStep s.waitingOffs := rfl

/-- The group of a domain stays among the switched domains. -/
theorem faultGroup_lt {b c : Nat} (hb : b < 92) (hc : c ∈ faultGroup b) : c < 92 := by
  rw [mem_faultGroup] at hc
  omega

/-- One domain's turn leaves everything, or switches its group off. -/
theorem settleStep_cases (s : State) {b : Nat} (hb : b < 92) :
    s.settleStep b = s ∨ ∃ u : State, u = { s with switchOffs := s.switchOffs.filter fun x => !decide (x ∈ faultGroup b) }
      ∧ s.settleStep b = u.powerOff (faultGroup b) ∧ SwitchedOff (faultGroup b) u (s.settleStep b)
      ∧ PoweredOff (faultGroup b) u (s.settleStep b) := by
  unfold settleStep
  by_cases h : ((faultGroup b).any s.domainBooked
      || (((List.range 18).map (64 + ·)).any fun p => coreOf p == some b && s.counts p) || !decide (b ∈ s.switchOffs)) = true
  · exact .inl (if_pos h)
  · rw [if_neg h]
    exact .inr ⟨_, rfl, rfl, powerOff_switchedOff _ _, powerOff_poweredOff _ fun c hc => (faultGroup_lt hb hc).trans (by decide)⟩

theorem settleStep_word (s : State) {b : Nat} (hb : b < 92) {a : Nat} (ha : offWord a) : (s.settleStep b).reg a = s.reg a := by
  obtain h | ⟨u, rfl, -, -, h⟩ := s.settleStep_cases hb
  · rw [h]
  · exact h.word a ha

theorem requested_congr {s t : State} (hlo : t.reg Reg.pwrEn = s.reg Reg.pwrEn) (hhi : t.reg Reg.pwrEnHi = s.reg Reg.pwrEnHi)
    (b : Nat) : t.requested b = s.requested b := by
  unfold requested
  rw [hlo, hhi]

theorem pwrEn_offWord : offWord Reg.pwrEn := ⟨⟨by decide, by decide, by decide, by decide⟩, by decide, by decide, by decide⟩

theorem pwrEnHi_offWord : offWord Reg.pwrEnHi := ⟨⟨by decide, by decide, by decide, by decide⟩, by decide, by decide, by decide⟩

theorem settleStep_requested (s : State) {b : Nat} (hb : b < 92) (c : Nat) : (s.settleStep b).requested c = s.requested c :=
  requested_congr (s.settleStep_word hb pwrEn_offWord) (s.settleStep_word hb pwrEnHi_offWord) c

theorem settle_word {l : List Nat} (hl : ∀ b ∈ l, b < 92) (s : State) {a : Nat} (ha : offWord a) :
    (l.foldl settleStep s).reg a = s.reg a := by
  induction l generalizing s with
  | nil => rfl
  | cons b l ih =>
    exact (ih (fun c hc => hl c (List.mem_cons_of_mem _ hc)) _).trans (s.settleStep_word (hl b (List.mem_cons_self ..)) ha)

/-! #### A domain that is not requested goes off -/

/-- A domain is off, and not on its way. -/
def IsOff (b : Nat) (s : State) : Prop := b ∉ s.on ∧ s.rising.any (·.1 == b) = false

theorem isOff_of_not_counts {s : State} {b : Nat} (hb : b < 92) (h : s.counts b = false) : IsOff b s := by
  have hk1 : b ≠ blkK1 := by
    rw [blkK1]
    omega
  simpa [counts, powered, hk1, IsOff] using h

theorem IsOff.not_counts {s : State} {b : Nat} (hb : b < 92) (h : IsOff b s) : s.counts b = false := by
  have hk1 : b ≠ blkK1 := by
    rw [blkK1]
    omega
  obtain ⟨hon, hrising⟩ := h
  simp only [counts, powered, if_neg hk1, hrising, hon, decide_false, Bool.or_false]

theorem SwitchedOff.keepsOff {ds : List Nat} {s t : State} (h : SwitchedOff ds s t) {b : Nat} (hb : IsOff b s) : IsOff b t := by
  obtain ⟨hon, hrising⟩ := hb
  refine ⟨fun hmem => hon ?_, ?_⟩
  · rw [h.on] at hmem
    exact (List.mem_filter.mp hmem).1
  · rw [List.any_eq_false] at hrising ⊢
    intro x hx
    rw [h.rising] at hx
    exact hrising x (List.mem_filter.mp hx).1

/-- With no item admitted, each domain that is not requested is off or has still its turn, its ports before it. -/
structure Settling (todo : List Nat) (s : State) : Prop where
  noItems : s.items = []
  ports : ∀ i c, i < 18 → coreOf (64 + i) = some c → s.requested c = false → s.requested (64 + i) = false
  offs : ∀ b, b < 92 → s.requested b = false → IsOff b s ∨ (b ∈ todo ∧ b ∈ s.switchOffs)

/-- A core's turn comes after those of its ports. -/
def coresLast (l : List Nat) : Prop := l.Pairwise fun x y => coreOf y ≠ some x

theorem settleStep_settling {b : Nat} {l : List Nat} (hb : b < 92) (horder : coresLast (b :: l)) {s : State}
    (hunasked : s.requested b = false) (h : Settling (b :: l) s) : Settling l (s.settleStep b) := by
  obtain ⟨hitems, hports, hoffs⟩ := h
  have hrequested : ∀ c, (s.settleStep b).requested c = s.requested c := s.settleStep_requested hb
  have hportsOff : ∀ i, i < 18 → coreOf (64 + i) = some b → s.counts (64 + i) = false := by
    intro i hi hcore
    refine IsOff.not_counts (by omega) ((hoffs (64 + i) (by omega) (hports i b hi hcore hunasked)).resolve_right ?_)
    rintro ⟨hmem, -⟩
    have hne : 64 + i ≠ b := by
      rintro rfl
      simp only [coreOf] at hcore
      split at hcore
      · have := Option.some.inj hcore
        omega
      · split at hcore
        · have := Option.some.inj hcore
          omega
        · cases hcore
    exact List.rel_of_pairwise_cons horder ((List.mem_cons.mp hmem).resolve_left hne) hcore
  have hguard : ((faultGroup b).any s.domainBooked || (((List.range 18).map (64 + ·)).any fun p => coreOf p == some b && s.counts p))
      = false := by
    rw [Bool.or_eq_false_iff]
    refine ⟨List.any_eq_false.mpr fun c _ => by simp [domainBooked, hitems], List.any_eq_false.mpr fun p hp => ?_⟩
    obtain ⟨i, hi, rfl⟩ := List.mem_map.mp hp
    by_cases hcore : coreOf (64 + i) = some b
    · simp [hportsOff i (List.mem_range.mp hi) hcore]
    · simp [hcore]
  by_cases hwaits : b ∈ s.switchOffs
  · have heq : s.settleStep b
        = State.powerOff (faultGroup b) { s with switchOffs := s.switchOffs.filter fun x => !decide (x ∈ faultGroup b) } := by
      unfold settleStep
      rw [hguard]
      simp [hwaits]
    have hoff := powerOff_switchedOff { s with switchOffs := s.switchOffs.filter fun x => !decide (x ∈ faultGroup b) } (faultGroup b)
    have hpowered := powerOff_poweredOff { s with switchOffs := s.switchOffs.filter fun x => !decide (x ∈ faultGroup b) }
      (ds := faultGroup b) fun c hc => (faultGroup_lt hb hc).trans (by decide)
    rw [← heq] at hoff hpowered
    refine ⟨hpowered.noItems hitems, fun i c => ?_, fun c hc hcun => ?_⟩
    · rw [hrequested, hrequested]
      exact hports i c
    · rw [hrequested] at hcun
      by_cases hgroup : c ∈ faultGroup b
      · exact .inl ⟨hoff.not_on hgroup, hoff.not_rising hgroup⟩
      · refine (hoffs c hc hcun).imp (fun h => hoff.keepsOff h) fun ⟨hmem, hqueue⟩ => ⟨?_, ?_⟩
        · refine (List.mem_cons.mp hmem).resolve_left ?_
          rintro rfl
          exact hgroup ((mem_faultGroup c c).mpr (.inl rfl))
        · rw [hpowered.switchOffs]
          exact List.mem_filter.mpr ⟨hqueue, by simp [hgroup]⟩
  · have heq : s.settleStep b = s := by
      unfold settleStep
      exact if_pos (by simp [hwaits])
    rw [heq]
    refine ⟨hitems, hports, fun c hc hcun => (hoffs c hc hcun).imp_right fun ⟨hmem, hqueue⟩ => ⟨?_, hqueue⟩⟩
    refine (List.mem_cons.mp hmem).resolve_left ?_
    rintro rfl
    exact hwaits hqueue

theorem settle_settling {l : List Nat} (hl : ∀ b ∈ l, b < 92) (horder : coresLast l) {s : State}
    (hunasked : ∀ b ∈ l, s.requested b = false) (h : Settling l s) : Settling [] (l.foldl settleStep s) := by
  induction l generalizing s with
  | nil => exact h
  | cons b l ih =>
    have hb := hl b (List.mem_cons_self ..)
    refine ih (fun c hc => hl c (List.mem_cons_of_mem _ hc)) (List.Pairwise.of_cons horder) (fun c hc => ?_)
      (settleStep_settling hb horder (hunasked b (List.mem_cons_self ..)) h)
    rw [settleStep_requested s hb]
    exact hunasked c (List.mem_cons_of_mem _ hc)

/-! #### A domain that is requested waits on -/

/-- The group of a domain that is not requested holds none that is: a hub's PHY is requested with its logic. -/
theorem not_mem_faultGroup {s : State} (hhubs : ∀ j < 8, s.requested (56 + j) = s.requested (48 + j)) {b c : Nat}
    (hb : s.requested b = false) (hc : s.requested c = true) : c ∉ faultGroup b := by
  rw [mem_faultGroup]
  rintro (rfl | ⟨hlo, hhi, rfl⟩ | ⟨hlo, hhi, hcb⟩)
  · exact absurd hc (by simp [hb])
  · have hsame := hhubs (b - 48) (by omega)
    rw [show 56 + (b - 48) = b + 8 by omega, show 48 + (b - 48) = b by omega, hc, hb] at hsame
    exact absurd hsame (by decide)
  · have hsame := hhubs (b - 56) (by omega)
    rw [show 56 + (b - 56) = b by omega, show 48 + (b - 56) = c by omega, hc, hb] at hsame
    exact absurd hsame (by decide)

theorem settle_waits {l : List Nat} (hl : ∀ b ∈ l, b < 92) {s : State} (hunasked : ∀ b ∈ l, s.requested b = false)
    (hhubs : ∀ j < 8, s.requested (56 + j) = s.requested (48 + j)) {c : Nat} (hc : s.requested c = true) (hnoEnd : s.NoEnd)
    (hwaits : c ∈ s.switchOns) : c ∈ (l.foldl settleStep s).switchOns := by
  induction l generalizing s with
  | nil => exact hwaits
  | cons b l ih =>
    have hb := hl b (List.mem_cons_self ..)
    have hbun := hunasked b (List.mem_cons_self ..)
    have hstep : (s.settleStep b).NoEnd ∧ c ∈ (s.settleStep b).switchOns := by
      obtain h | ⟨u, rfl, -, -, h⟩ := s.settleStep_cases hb
      · rw [h]
        exact ⟨hnoEnd, hwaits⟩
      · refine ⟨h.noEnd hnoEnd, ?_⟩
        rw [h.switchOns hnoEnd]
        exact List.mem_filter.mpr ⟨hwaits, by simp [not_mem_faultGroup hhubs hbun hc]⟩
    refine ih (fun c hc => hl c (List.mem_cons_of_mem _ hc)) (fun x hx => ?_) (fun j hj => ?_) ?_ hstep.1 hstep.2
    · rw [settleStep_requested s hb]
      exact hunasked x (List.mem_cons_of_mem _ hx)
    · rw [settleStep_requested s hb, settleStep_requested s hb]
      exact hhubs j hj
    · rw [settleStep_requested s hb]
      exact hc

/-! #### The effect of a write -/

/-- The state in which a write of PWR_EN settles the domains that go off. -/
def asked (s : State) : State :=
  State.queueOns { s with switchOffs := (List.range 92).filter fun b => !s.requested b && s.counts b
                          domFaults := s.domFaults.filter s.requested }

theorem applyEn_eq (s : State) : s.applyEn = s.asked.settleOffs.checkBase := rfl

theorem asked_spec (s : State) : ∃ l, s.asked = { s with
    switchOffs := (List.range 92).filter fun b => !s.requested b && s.counts b
    domFaults := s.domFaults.filter s.requested
    switchOns := l } := queueOns_spec _

theorem mem_asked_switchOffs (s : State) (b : Nat) :
    b ∈ s.asked.waitingOffs.switchOffs ↔ b < 92 ∧ s.requested b = false ∧ s.counts b = true := by
  obtain ⟨l, e⟩ := s.asked_spec
  have h : s.asked.waitingOffs.switchOffs
      = ((List.range 92).filter fun b => !s.requested b && s.counts b).filter fun b => s.counts b && !s.requested b := by
    rw [waitingOffs, e]
    rfl
  rw [h]
  simp only [List.mem_filter, List.mem_range, Bool.and_eq_true, Bool.not_eq_true']
  tauto

theorem asked_requested (s : State) (b : Nat) : s.asked.waitingOffs.requested b = s.requested b := by
  obtain ⟨l, e⟩ := s.asked_spec
  rw [waitingOffs, e]
  rfl

/-- The domains that wait to go off, in the order of their turns. -/
def offTurns (s : State) : List Nat := blockOrder.reverse.filter (· ∈ s.asked.waitingOffs.switchOffs)

theorem mem_offTurns (s : State) (b : Nat) : b ∈ s.offTurns ↔ b < 92 ∧ s.requested b = false ∧ s.counts b = true := by
  have hall : ∀ b < 92, b ∈ blockOrder := by decide +kernel
  rw [offTurns, List.mem_filter, List.mem_reverse, decide_eq_true_iff, mem_asked_switchOffs]
  exact ⟨fun h => h.2, fun h => ⟨hall b h.1, h⟩⟩

theorem offTurns_coresLast (s : State) : coresLast s.offTurns := by
  have horder : coresLast blockOrder.reverse := by
    unfold coresLast
    decide +kernel
  exact horder.filter _

theorem settled_eq (s : State) : s.asked.settleOffs = s.offTurns.foldl settleStep s.asked.waitingOffs := settleOffs_eq _

section
variable (s : State)

theorem applyEn_word {a : Nat} (ha : offWord a) (hevent : a ≠ Reg.pwrEvents) : s.applyEn.reg a = s.reg a := by
  have hasked : s.asked.waitingOffs.reg a = s.reg a := by
    obtain ⟨l, e⟩ := s.asked_spec
    rw [waitingOffs, e]
    rfl
  rw [applyEn_eq]
  refine (checkBase_reg _ ha.1.notReport hevent ha.2.2.2).trans ?_
  rw [settled_eq]
  exact (settle_word (fun b hb => ((s.mem_offTurns b).mp hb).1) _ ha).trans hasked

theorem applyEn_requested (b : Nat) : s.applyEn.requested b = s.requested b :=
  requested_congr (s.applyEn_word pwrEn_offWord (by decide)) (s.applyEn_word pwrEnHi_offWord (by decide)) b

variable {s}

/-- With no item admitted, a domain that is not requested is off. -/
theorem applyEn_off (hitems : s.items = [])
    (hports : ∀ i c, i < 18 → coreOf (64 + i) = some c → s.requested c = false → s.requested (64 + i) = false)
    {b : Nat} (hb : b < 92) (hunasked : s.requested b = false) : IsOff b s.applyEn := by
  obtain ⟨l, e⟩ := s.asked_spec
  have hstart : Settling s.offTurns s.asked.waitingOffs := by
    refine ⟨?_, fun i c => ?_, fun x hx hxun => ?_⟩
    · rw [waitingOffs, e]
      exact hitems
    · rw [asked_requested, asked_requested]
      exact hports i c
    · rw [asked_requested] at hxun
      by_cases hcounts : s.counts x = true
      · exact .inr ⟨(s.mem_offTurns x).mpr ⟨hx, hxun, hcounts⟩, (s.mem_asked_switchOffs x).mpr ⟨hx, hxun, hcounts⟩⟩
      · refine .inl ?_
        have hoff : IsOff x s := isOff_of_not_counts hx (by simpa using hcounts)
        rw [waitingOffs, e]
        exact hoff
  have hend := settle_settling (fun x hx => ((s.mem_offTurns x).mp hx).1) s.offTurns_coresLast
    (fun x hx => (s.asked_requested x).trans ((s.mem_offTurns x).mp hx).2.1) hstart
  rw [← settled_eq] at hend
  have hreports := checkBase_only s.asked.settleOffs
  have hsame : s.asked.settleOffs.requested b = false := by
    have h := (requested_congr (s := s.applyEn) (t := s.asked.settleOffs)
      (checkBase_reg s.asked.settleOffs (a := Reg.pwrEn) (by decide) (by decide) (by decide)).symm
      (checkBase_reg s.asked.settleOffs (a := Reg.pwrEnHi) (by decide) (by decide) (by decide)).symm b)
    rw [h, applyEn_requested, hunasked]
  obtain ⟨hon, hrising⟩ := (hend.offs b hb hsame).resolve_right fun h => by simp at h
  rw [applyEn_eq]
  exact ⟨by rw [hreports.on]; exact hon, by rw [hreports.rising]; exact hrising⟩

/-- Outside Dormant a domain that is wanted, off and has not faulted is queued. -/
theorem queueOns_queues {s : State} (hk1 : blkK1 ∉ s.held) (hsleep : s.sleepState = 0) {b : Nat} (hb : b ∈ blockOrder)
    (hwanted : s.wanted b = true) (hoff : s.counts b = false) (hfault : b ∉ s.domFaults) : b ∈ s.queueOns.switchOns := by
  have hstatus : s.regBits Reg.pwrStatus 1 0 = 0 := hsleep
  unfold queueOns
  rw [if_neg hk1]
  dsimp only
  rw [hstatus, if_neg (by decide)]
  exact List.mem_filter.mpr ⟨hb, by simp [hwanted, hoff, hfault]⟩

/-- A requested domain that is off waits to be switched on, unless something keeps it off. -/
theorem applyEn_waits (hhubs : ∀ j < 8, s.requested (56 + j) = s.requested (48 + j)) (hcovered : s.covered = [])
    (hk1 : blkK1 ∉ s.held) (hprofile : bitOf (s.reg Reg.clkProfile) 4 = false) (hsleep : s.sleepState = 0) {b : Nat}
    (hb : b < 92) (hasked : s.requested b = true) (hoff : IsOff b s) (hfault : b ∉ s.domFaults) : b ∈ s.applyEn.switchOns := by
  have hall : ∀ b < 92, b ∈ blockOrder := by decide +kernel
  have hnotK1 : (b != blkK1) = true := by
    rw [bne_iff_ne, blkK1]
    omega
  have hwanted : s.wanted b = true := by simp [wanted, hnotK1, hasked, hprofile]
  have hqueued : b ∈ s.asked.switchOns := by
    refine queueOns_queues (s := { s with switchOffs := (List.range 92).filter fun b => !s.requested b && s.counts b
                                          domFaults := s.domFaults.filter s.requested }) hk1 hsleep (hall b hb) ?_ ?_ ?_
    · exact hwanted
    · exact hoff.not_counts hb
    · exact fun h => hfault (List.mem_filter.mp h).1
  have hnoEnd : s.asked.waitingOffs.NoEnd := by
    obtain ⟨l, e⟩ := s.asked_spec
    rw [waitingOffs, e]
    exact .inl hcovered
  have hwaits := settle_waits (l := s.offTurns) (s := s.asked.waitingOffs) (fun x hx => ((s.mem_offTurns x).mp hx).1)
    (fun x hx => (s.asked_requested x).trans ((s.mem_offTurns x).mp hx).2.1)
    (fun j hj => by rw [asked_requested, asked_requested]; exact hhubs j hj) ((s.asked_requested b).trans hasked) hnoEnd hqueued
  rw [← settled_eq] at hwaits
  rw [applyEn_eq, (checkBase_only s.asked.settleOffs).switchOns]
  exact hwaits

end

/-- What the end of a command leaves of its effect on the domains. -/
theorem finish_domains (s : State) (dt : Nat) (u : State) : ∃ t, s.finish dt u = .next t ∧ (∀ a, t.reg a = u.reg a)
    ∧ t.on = u.on ∧ t.rising = u.rising ∧ t.switchOns = u.switchOns := ⟨_, rfl, fun _ => rfl, rfl, rfl, rfl⟩

/-- The state with the requests of a write, as completed. -/
def requesting (lo hi : Nat) (s : State) : State :=
  (s.setReg Reg.pwrEn (completeEn lo hi).1).setReg Reg.pwrEnHi (completeEn lo hi).2

theorem pwrEnWrite_hi (s : State) (new : Nat) : s.pwrEnWrite true new = (requesting (s.reg Reg.pwrEn) new s).applyEn := rfl
theorem pwrEnWrite_lo (s : State) (new : Nat) : s.pwrEnWrite false new = (requesting new (s.reg Reg.pwrEnHi) s).applyEn := rfl

section
variable (lo hi : Nat) (s : State)

theorem requesting_lo : (requesting lo hi s).reg Reg.pwrEn = (completeEn lo hi).1 % 2 ^ 64 :=
  (reg_setReg_ne _ _ _ _ (by decide)).trans (reg_setReg_same _ _ _)

theorem requesting_hi : (requesting lo hi s).reg Reg.pwrEnHi = (completeEn lo hi).2 % 2 ^ 64 := reg_setReg_same _ _ _

theorem requesting_other {a : Nat} (hlo : a ≠ Reg.pwrEn) (hhi : a ≠ Reg.pwrEnHi) : (requesting lo hi s).reg a = s.reg a :=
  (reg_setReg_ne _ _ _ _ hhi).trans (reg_setReg_ne _ _ _ _ hlo)

theorem requesting_only : s.OnlyReports (requesting lo hi s) := (setReg_only _ _ _).trans (setReg_only _ _ _)

theorem requesting_lo_bit {i : Nat} (hi64 : i < 64) : bitOf ((requesting lo hi s).reg Reg.pwrEn) i
    = if 56 ≤ i then bitOf lo (i - 8) else bitOf lo i := by
  rw [requesting_lo, bitOf_eq, bitOf_eq, bitOf_eq, Nat.testBit_mod_two_pow]
  refine (congrArg (decide (i < 64) && ·) (followPhy_testBit (lo := lo) (Nat.le_refl 8) i)).trans ?_
  simp only [hi64, decide_true, Bool.true_and, and_true]

theorem requesting_hi_bit {i : Nat} (hi32 : i < 32) : bitOf ((requesting lo hi s).reg Reg.pwrEnHi) i
    = if 28 ≤ i then true else (bitOf hi i && !decide (i ∈ coreless hi)) := by
  rw [requesting_hi, bitOf_eq, bitOf_eq, Nat.testBit_mod_two_pow, completeEn_hi_testBit]
  have hlt : i < 64 := by omega
  simp only [hlt, decide_true, Bool.true_and]
  exact if_congr (by omega) rfl rfl

/-- A port is requested where its own bit and its core's are set. -/
theorem requesting_port {i c : Nat} (hi18 : i < 18) (hc : coreOf (64 + i) = some c) :
    bitOf ((requesting lo hi s).reg Reg.pwrEnHi) i = (bitOf hi i && bitOf hi (c - 64)) := by
  rw [requesting_hi_bit lo hi s (by omega), if_neg (by omega)]
  have hmem := mem_coreless (hi := hi) hi18 hc
  cases hbit : bitOf hi (c - 64) with
  | false => simp [hmem.mpr hbit]
  | true =>
    have hnot : i ∉ coreless hi := fun h => absurd (hbit.symm.trans (hmem.mp h)) (by decide)
    simp [hnot]

theorem requesting_above {i : Nat} (hlo : 18 ≤ i) (hhi : i < 28) :
    bitOf ((requesting lo hi s).reg Reg.pwrEnHi) i = bitOf hi i := by
  have hmem : i ∉ coreless hi := fun h => by
    have := List.mem_range.mp (List.mem_filter.mp h).1
    omega
  rw [requesting_hi_bit lo hi s (by omega), if_neg (by omega)]
  simp [hmem]

theorem requesting_hubs (j : Nat) (hj : j < 8) :
    (requesting lo hi s).requested (56 + j) = (requesting lo hi s).requested (48 + j) := by
  unfold requested
  rw [if_pos (by omega), if_pos (by omega), requesting_lo_bit lo hi s (by omega), requesting_lo_bit lo hi s (by omega),
    if_pos (by omega), if_neg (by omega)]
  exact congrArg (bitOf lo) (by omega)

theorem coreOf_bounds {b c : Nat} (h : coreOf b = some c) : 82 ≤ c ∧ c < 88 := by
  unfold coreOf at h
  split at h
  · have := Option.some.inj h
    omega
  split at h
  · have := Option.some.inj h
    omega
  · cases h

theorem requesting_ports (i c : Nat) (hi18 : i < 18) (hc : coreOf (64 + i) = some c)
    (h : (requesting lo hi s).requested c = false) : (requesting lo hi s).requested (64 + i) = false := by
  obtain ⟨hlo, hhi⟩ := coreOf_bounds hc
  unfold requested at h ⊢
  rw [if_neg (by omega), requesting_above lo hi s (by omega) (by omega)] at h
  rw [if_neg (by omega), Nat.add_sub_cancel_left, requesting_port lo hi s hi18 hc, h, Bool.and_false]

variable {s} in
theorem requesting_waits (hcovered : s.covered = []) (hk1 : blkK1 ∉ s.held) (hprofile : bitOf (s.reg Reg.clkProfile) 4 = false)
    (hsleep : s.sleepState = 0) {b : Nat} (hb : b < 92) (hasked : (requesting lo hi s).requested b = true) (hon : b ∉ s.on)
    (hrising : s.rising.any (·.1 == b) = false) (hfault : b ∉ s.domFaults) :
    b ∈ (requesting lo hi s).applyEn.switchOns := by
  have hprofile' : bitOf ((requesting lo hi s).reg Reg.clkProfile) 4 = false := by
    rw [requesting_other lo hi s (by decide) (by decide)]
    exact hprofile
  have hsleep' : (requesting lo hi s).sleepState = 0 :=
    (regBits_congr (requesting_other lo hi s (by decide) (by decide)) 1 0).trans hsleep
  have hreports := requesting_only lo hi s
  refine applyEn_waits (requesting_hubs lo hi s) (hreports.covered.trans hcovered) ?_ hprofile' hsleep' hb hasked ⟨?_, ?_⟩ ?_
  · rw [hreports.held]
    exact hk1
  · rw [hreports.on]
    exact hon
  · rw [hreports.rising]
    exact hrising
  · rw [hreports.domFaults]
    exact hfault

end

end State

theorem exec_pwrEn (dt : Nat) (hi : Bool) (v : DWord) (s : State) : exec (.pwrEn dt hi v) s = s.finish dt
    (if hi then State.barWith (fun _ _ new _ s => s.pwrEnWrite true new) Reg.pwrEnHi false (v.toNat % 2 ^ 32) (s.advance dt)
      else State.barWith (fun _ _ new _ s => s.pwrEnWrite false new) Reg.pwrEn true v.toNat (s.advance dt)) := rfl

/-- A write that is taken has the effect of its requests as completed. -/
theorem exec_pwrEn_takes {dt : Nat} {hi : Bool} {v : DWord} {s : State} {r : RegRow} {old new : Nat}
    (h : s.barTakes (if hi then Reg.pwrEnHi else Reg.pwrEn) (!hi) (if hi then v.toNat % 2 ^ 32 else v.toNat)
      = some (r, old, new)) : exec (.pwrEn dt hi v) s = s.finish dt (State.requesting (if hi then s.reg Reg.pwrEn else new)
        (if hi then new else s.reg Reg.pwrEnHi) (s.advance dt)).applyEn := by
  rw [exec_pwrEn]
  cases hi with
  | true =>
    simp only [if_true, Bool.not_true] at h ⊢
    have heq := State.barWith_takes (fun _ _ new _ s => s.pwrEnWrite true new) _ _ _ _ _ _ _ ((s.advance_barTakes dt _ _ _).trans h)
    rw [State.pwrEnWrite_hi, s.advance_reg] at heq
    exact congrArg _ heq
  | false =>
    simp only [Bool.false_eq_true, if_false, Bool.not_false] at h ⊢
    have heq := State.barWith_takes (fun _ _ new _ s => s.pwrEnWrite false new) _ _ _ _ _ _ _ ((s.advance_barTakes dt _ _ _).trans h)
    rw [State.pwrEnWrite_lo, s.advance_reg] at heq
    exact congrArg _ heq

/-- Settles O26: the requests are completed bit by bit; settling the domains that go off, one turn after the other, ends with
none of them on, and leaves those that wait to come on. -/
theorem powerRequestsAreCompleted : Obligations.PowerRequestsAreCompleted := by
  unfold Obligations.PowerRequestsAreCompleted
  intro dt hi v s r old new htakes lo hiw
  obtain ⟨t, ht, hreg, hon, hrising, hqueue⟩ := s.finish_domains dt (State.requesting lo hiw (s.advance dt)).applyEn
  have hexec := exec_pwrEn_takes (dt := dt) htakes
  have hlo : t.reg Reg.pwrEn = (State.requesting lo hiw (s.advance dt)).reg Reg.pwrEn :=
    (hreg _).trans (State.applyEn_word _ State.pwrEn_offWord (by decide))
  have hhi : t.reg Reg.pwrEnHi = (State.requesting lo hiw (s.advance dt)).reg Reg.pwrEnHi :=
    (hreg _).trans (State.applyEn_word _ State.pwrEnHi_offWord (by decide))
  have hrequested : ∀ b, t.requested b = (State.requesting lo hiw (s.advance dt)).requested b := State.requested_congr hlo hhi
  refine ⟨t, hexec.trans ht, hexec, hlo.trans (State.requesting_lo _ _ _), hhi.trans (State.requesting_hi _ _ _), fun b hb => ?_,
    fun j hj => ?_, fun i c hi18 hc => ?_, fun i h18 h28 => ?_, fun i h28 h32 => ?_, fun hitems b hb hunasked => ?_,
    fun hcovered hk1 hprofile hsleep b hb hasked hoff hrise hfault => ?_⟩
  · rw [hlo, State.requesting_lo_bit _ _ _ (by omega), if_neg (by omega)]
  · rw [hlo, State.requesting_lo_bit _ _ _ (by omega), if_pos (by omega)]
    exact congrArg (bitOf lo) (by omega)
  · rw [hhi, State.requesting_port _ _ _ hi18 hc]
  · rw [hhi, State.requesting_above _ _ _ h18 h28]
  · rw [hhi, State.requesting_hi_bit _ _ _ h32, if_pos h28]
  · rw [hon, hrising]
    have hitems' := ((State.requesting_only lo hiw (s.advance dt)).items.trans (s.advance_items dt)).trans hitems
    exact State.applyEn_off hitems' (State.requesting_ports _ _ _) hb ((hrequested b).symm.trans hunasked)
  · rw [hqueue]
    exact State.requesting_waits lo hiw ((s.advance_covered dt).trans hcovered) ((s.advance_held dt).symm ▸ hk1)
      ((congrArg (bitOf · 4) (s.advance_reg dt _)).trans hprofile) ((s.advance_sleepState dt).trans hsleep) hb
      ((hrequested b).symm.trans hasked) ((s.advance_on dt).symm ▸ hoff)
      ((congrArg (fun l => l.any (·.1 == b)) (s.advance_rising dt)).trans hrise) ((s.advance_domFaults dt).symm ▸ hfault)

end Sys2Proof.Machine
end
